-- ==== Sys2Proof/Word.lean ====
section
/-! DEFINITION. The word types of the ZG4832 and their plainest arithmetic. -/
namespace Sys2Proof

/-- A byte of any of the device's memories. -/
abbrev Byte := BitVec 8

/-- A 32-bit register word, counter or lane. -/
abbrev Word := BitVec 32

/-- A 64-byte descriptor, byte 0 in its least significant bits (spec/04 R79, spec/00 R6). -/
abbrev DescWord := BitVec 512

/-- The largest value of a 32-bit counter. -/
def maxWord : Nat := 0xFFFFFFFF

end Sys2Proof
end

