-- ==== Sys2Proof/Syntax.lean ====
section
/-! DEFINITION. The commands of the ZG4832, one constructor per row of the opcode table, with the operands each needs. -/
namespace Sys2Proof

/-- Who makes a register access (spec/20 R409): the function of a stall, management or the Steward. -/
inductive Req where
  | stall (n : Fin 9)
  | mgmt
  | steward
  deriving DecidableEq, Repr

/-- A register window: BAR0's pages, BAR2's counters and doorbells, BAR4's MSI-X table (spec/20 R404, R411, R412). -/
inductive Bar where
  | bar0
  | bar2
  | bar4
  deriving DecidableEq, Repr

/-- Who reads the Granary (spec/13 R254): a fetch says whether it is the target of a taken branch. -/
inductive GReader where
  | fetch (branch : Bool)
  | load
  | loop
  deriving DecidableEq, Repr

/-- What an upper word's program leaves in its partner (spec/13 R245): the bits a read then corrects, or none where the
partner can no longer be corrected. -/
abbrev GPartner := Option (Fin 3)

/-- What the Granary writes when its supply is lost (spec/13 R258): nothing or an erase, a word, a window's registry word. -/
inductive GOp where
  | none
  | program (word : Nat) (data : BitVec 64)
  | registry (win : Fin 4)
  deriving DecidableEq, Repr

/-- What a TS1 or TS2 block time brings on the four lanes of a Furrow port (spec/15 Table 15-2). -/
structure Ts where
  /-- Lanes on which the type reads inverted. -/
  inv : BitVec 4
  /-- The lane numbers received, lane 0 in the lowest byte. -/
  lanes : BitVec 32
  node : BitVec 16
  version : BitVec 8
  locked : Bool
  /-- Eight 10-bit receive depths, VC0 lowest. -/
  depths : BitVec 80
  /-- The sync headers of lanes 0-3 as they arrive, lane 0 in the lowest four bits, H0 lowest (R280). -/
  headers : BitVec 16
  deriving DecidableEq, Repr

/-- Which grant of a stall a write names (spec/04 Table 04-1). -/
inductive Grant where
  | silo | cellar | bays | streams | rick
  deriving DecidableEq, Repr

/-- A trough that holds descriptors: one of a stall's four batch troughs, or a stream's live or standby realtime trough
(spec/03 R49, spec/04 R70). -/
inductive Trough where
  | batch (stall : Fin 9) (trough : Fin 4)
  | realtime (stream : Fin 32) (standby : Bool)
  deriving DecidableEq, Repr

/-- One command: a row of the opcode table with its operands. A default is what an undisturbed signal brings: the sync headers of
the block meant, and the shortest burst that wakes. -/
inductive Instr where
  /-- REGISTER_WRITE (spec/20 R409). A write to a register field that has no row of its own is applied or ignored and counted according to the requester's rights, the access code and the lock. -/
  | registerWrite (q : Req) (bar : Bar) (addr : BitVec 24) (len : BitVec 4) (value : BitVec 64)
  /-- LOCK_SET (spec/20 R414). A write of PCTL.LOCK fixes every RWL field of the page until the next cold or warm reset. -/
  | lockSet (q : Req) (page : BitVec 12)
  /-- PERR_CLR (spec/20 R415). A write of PCTL.PERR_CLR clears PERR_COUNT and PERR_FIRST. -/
  | perrClr (q : Req) (page : BitVec 12)
  /-- WIDE_LO_READ (spec/20 R416). A 4-byte read of a wide register's _LO or _W0 word returns that word, snapshots the upper words into the requester's shadow and increments SNAP_SEQ. -/
  | wideLoRead (q : Req) (bar : Bar) (addr : BitVec 24) (len : BitVec 3)
  /-- WIDE_UPPER_READ (spec/20 R416). A 4-byte read of an upper word returns the shadow; if no snapshot exists it returns zero and sets SNAP_STALE. -/
  | wideUpperRead (q : Req) (bar : Bar) (addr : BitVec 24) (len : BitVec 3)
  /-- WIDE_PAIR_READ (spec/20 R417). An 8-byte aligned read returns both words live and snapshots any words of the register outside the pair. -/
  | widePairRead (q : Req) (bar : Bar) (addr : BitVec 24)
  /-- UNBOUND_ACCESS (spec/04 R69). An access through a PCIe function bound to no stall reads zero, and its writes are ignored and counted in STL[0].UNBOUND_COUNT. -/
  | unboundAccess (port : Fin 2) (func : Fin 4) (write : Bool)
  /-- PWR_OK_AON_RISE (spec/02 R24). The rising edge of PWR_OK_AON latches the straps and starts the cold reset hold. -/
  | pwrOkAonRise (refSel : Bool) (bootSrc : Bool) (bootAddr : BitVec 2)
  /-- COLD_RESET_RELEASE (spec/21 R424). After the core rail checks have held for 1 ms, the Barn releases the cold reset, which clears the STC, Rick and Tally and zeroes Silo. -/
  | coldResetRelease
  /-- PWR_OK_AON_FALL (spec/21 R425). PWR_OK_AON falling holds the whole device in cold reset and drives MUTE_N low within 1 µs. -/
  | pwrOkAonFall
  /-- AON_UNDERVOLTAGE (spec/21 R425). VDD_AON falling below 0.74 V drives MUTE_N low within 1 µs. -/
  | aonUndervoltage
  /-- POWER_LOSS (spec/13 R258). Loss of VDD_GRN or VDD_SOC leaves the Granary in the outcome that Table 13-7 gives for its state at the time. -/
  | powerLoss (op : GOp)
  /-- RESET_N_ASSERT (spec/21 R434). RESET_N seen low at two consecutive Barn samples is taken as a warm reset. -/
  | resetNAssert (samples : BitVec 8)
  /-- RESET_CMD_WARM (spec/19 R396). A management write of RESET_CMD.WARM takes a warm reset. -/
  | resetCmdWarm (q : Req)
  /-- RESET_CMD_STEWARD (spec/19 R396). A management write of RESET_CMD.STEWARD requests a Steward reset. -/
  | resetCmdSteward (q : Req)
  /-- RESET_CMD_BOOT_B (spec/18 R368). A write of RESET_CMD.BOOT_B makes the next warm reset check slot B first. -/
  | resetCmdBootB (q : Req)
  /-- RESET_CMD_STALLS (spec/19 R396). A write of RESET_CMD.STALLS takes a stall reset of each named stall. -/
  | resetCmdStalls (q : Req) (stalls : BitVec 9)
  /-- STEWARD_RESET (spec/18 R370). Once any GSR call has returned, the Steward restarts at ENTRY, CAUSE_STEWARD pauses batch work and realtime work continues. -/
  | stewardReset
  /-- STEWARD_WATCHDOG_EXPIRY (spec/19 R399). The Steward watchdog count reaching PERIOD × 3,072 increments WDOG_COUNT, sets RESET_CAUSE 6 and requests a Steward reset. -/
  | stewardWatchdogExpiry
  /-- WDOG_KICK (spec/19 R399). A write of 0x4B1C to SYS.WDOG_KICK restarts the Steward watchdog count; any other value is ignored and counted. -/
  | wdogKick (q : Req) (value : BitVec 32)
  /-- JOB_WATCHDOG_EXPIRY (spec/19 R398). A job watchdog count reaching MS × 3,072 without progress faults the job with WATCHDOG. -/
  | jobWatchdogExpiry (n : Fin 9)
  /-- ALIVE_TOGGLE (spec/19 R401). Every 1,536 Barn cycles while the Steward is healthy, ALIVE toggles. -/
  | aliveToggle
  /-- BOOT (spec/18 R367). After a cold or warm reset, the ROM measures the clocks, checks slots A and B and the TSM, sets the XO regions and epochs, and jumps to ENTRY or runs the ROM service loop. `intact`: the check of the ROM at step 1 passes (R391). -/
  | boot (bootSrc : Bool) (bootAddr : BitVec 2) (intact : Bool)
  /-- REF_MEASURE_DONE (spec/02 R26). The reference count over 96,000 FRC cycles completes, MEAS is stored, and MISMATCH is set or cleared, stopping the PLL on a mismatch. -/
  | refMeasureDone (count : BitVec 32)
  /-- REF_LOST (spec/02 R27). No reference edge for 64 FRC cycles clears PRESENT and raises REF_LOST. -/
  | refLost
  /-- REF_EDGE_RETURN (spec/02 R37). The first reference edge after a gap sets PRESENT, stores the gap in STC_GAP, increments STC_GAP_COUNT and starts a new measurement. -/
  | refEdgeReturn
  /-- PLL_ENABLE (spec/02 R28). A write of 1 to CLK.PLL_CTL.EN starts the root PLL unless MISMATCH is set. -/
  | pllEnable (q : Req)
  /-- PLL_DISABLE (spec/02 R41). A write of 0 to CLK.PLL_CTL.EN stops the root PLL, or is ignored and counted while CORE_SRC is 1. -/
  | pllDisable (q : Req)
  /-- PLL_LOCK (spec/02 R28). The PLL achieves lock, LOCK sets, LOCKED is raised and ACLK moves to the root on a reference edge. -/
  | pllLock
  /-- LOSS_OF_LOCK (spec/02 R40). The PLL leaves lock, so LOCK clears, LOL sets, ACLK goes to bypass and the core clocks stop with state held. -/
  | lossOfLock
  /-- CORE_SRC_SET (spec/02 R39). A write of 1 to CLK.SRC_SEL.CORE_SRC switches SCLK to the root and starts TCLK and FCLK, or is ignored and counted without lock. -/
  | coreSrcSet (q : Req)
  /-- CORE_SRC_CLEAR (spec/02 R39). A write of 0 to CORE_SRC returns SCLK to the FRC and stops TCLK and FCLK, freezing work in place. -/
  | coreSrcClear (q : Req)
  /-- TCLK_DIV_REQUEST (spec/02 R34). A write of CLK.TCLK_DIV.REQ is accepted or refused against the voltage record and the code range. -/
  | tclkDivRequest (q : Req) (code : BitVec 3)
  /-- DIV_CHANGE (spec/02 R33). On a root edge where both divider counters are zero, the new TCLK step takes effect, CUR is set and DIV_DONE is raised. -/
  | divChange
  /-- PORT_CTL_WRITE (spec/03 R43). A write of AUD.PORT_CTL configures or enables a port, or is ignored and counted if it breaks the rate, slot or live-change rules. -/
  | portCtlWrite (q : Req) (p : Fin 4) (value : BitVec 32)
  /-- INPUT_FRAME (spec/03 R45). A frame starts on a port, is compared with the grid, and its input slot words are written to Silo. -/
  | inputFrame (p : Fin 4) (words : List Word)
  /-- FRAME_LOST (spec/03 R45). No frame start for 2 grid samples sets FRAME_LOST, and the port writes zero input for each missing sample. -/
  | frameLost (p : Fin 4)
  /-- BLOCK_BOUNDARY (spec/03 R51). At a stream's boundary, the sequencer settles the previous block's deadline, remaps the aliases and launches the realtime trough. -/
  | blockBoundary (str : Fin 32)
  /-- REALTIME_ABORT_DONE (spec/03 R52). The abort of a missed trough completes, and the stream's delayed block launches. -/
  | realtimeAbortDone (str : Fin 32)
  /-- STREAM_BIND (spec/03 R47). The Steward checks a requested stream binding and either sets EN or refuses it with DESC. -/
  | streamBind (n : Fin 9) (str : Fin 32)
  /-- STREAM_CONTEXT_WRITE (spec/03 R47). A write to a SEQ stream context takes effect while EN is 0, or is ignored and counted on a live context. -/
  | streamContextWrite (q : Req) (str : Fin 32) (word : Fin 24) (value : BitVec 32)
  /-- STREAM_DISABLE (spec/03 R60). A write that only clears STRM_CFG.EN makes the stream stop launching at its next boundary, after which its outputs fade. -/
  | streamDisable (q : Req) (str : Fin 32)
  /-- ZC_ARM (spec/03 R62). A write of 1 to STRM_ZC.ARM arms the zero-crossing detector. -/
  | zcArm (q : Req) (str : Fin 32)
  /-- ZC_TIMEOUT (spec/03 R63). No hit within TIMEOUT samples of arming sets ZC_TO and disarms the detector. -/
  | zcTimeout (str : Fin 32)
  /-- OUT_RELEASE (spec/03 R59). A write of SEQ.MUTE_CTL.OUT_RELEASE lets output words flow after a warm reset. -/
  | outRelease (q : Req)
  /-- MUTE_RELEASE (spec/03 R59). A write of MUTE_RELEASE releases MUTE_N, or is ignored and counted before OUT_RELEASE or while MUTE_FORCE is 1. -/
  | muteRelease (q : Req)
  /-- MUTE_FORCE (spec/03 R61). A write of MUTE_CTL.MUTE_FORCE drives MUTE_N low while it is 1. -/
  | muteForce (q : Req) (on : Bool)
  /-- BIND_WRITE (spec/04 R67). A write of STL.BIND binds a stall to a PCIe function or node, or is ignored and counted if it would bind twice or the job is not closed. -/
  | bindWrite (q : Req) (n : Fin 9) (value : BitVec 32)
  /-- GRANT_WRITE (spec/04 R71). A write of a grant field takes effect, or is ignored, counted and sets SHORT if it breaks the cross-stall rules or shrinks below the declaration. -/
  | grantWrite (q : Req) (n : Fin 9) (grant : Grant) (value : BitVec 32)
  /-- JOB_OPEN (spec/04 R72). JOB_CTL OPEN reads and checks the declaration and opens the job, or, in STATE 2, reopens it without reading the declaration. -/
  | jobOpen (q : Req) (n : Fin 9) (epoch : BitVec 16)
  /-- JOB_CLOSE (spec/04 R73). JOB_CTL CLOSE closes the job and releases its counters, buffers and bays when all troughs are closed. -/
  | jobClose (q : Req) (n : Fin 9)
  /-- TROUGH_OPEN (spec/04 R74). T_CTL OPEN checks and opens a trough with HEAD and TAIL at zero, or refuses it. -/
  | troughOpen (q : Req) (n : Fin 9) (t : Fin 4) (epoch : BitVec 16)
  /-- TROUGH_CLOSE (spec/04 R78). T_CTL CLOSE makes the trough refuse doorbells and stop starting descriptors, entering STATE 3. -/
  | troughClose (q : Req) (n : Fin 9) (t : Fin 4)
  /-- TROUGH_CLOSE_DONE (spec/04 R78). Once the started descriptors have ended, the rest are discarded and the trough reads STATE 0. -/
  | troughCloseDone (n : Fin 9) (t : Fin 4)
  /-- TROUGH_SKIP (spec/04 R78). T_CTL SKIP retires the descriptor that halted on DISABLED without doing its work, and restarts the trough. -/
  | troughSkip (q : Req) (n : Fin 9) (t : Fin 4)
  /-- DOORBELL (spec/04 R75). A write of a new TAIL to a trough's doorbell is accepted if it is within range, or sets DB_BAD and is counted. -/
  | doorbell (q : Req) (n : Fin 9) (t : Fin 4) (tail : BitVec 32)
  /-- DESCRIPTOR_NEXT (spec/04 R80). A descriptor becomes the next of its trough to start, its header is checked and its header wait begins. -/
  | descriptorNext (trough : Trough)
  /-- DESCRIPTOR_START (spec/04 R80). After its wait or consume is met, a descriptor's body is checked and it begins work, or halts on a disabled unit. -/
  | descriptorStart (trough : Trough) (pos : BitVec 32)
  /-- DESCRIPTOR_RETIRE (spec/04 R76). A descriptor finishes, its summaries and signal are applied, HEAD advances, and the write-back and vector follow as flagged. -/
  | descriptorRetire (trough : Trough) (pos : BitVec 32)
  /-- NOP (spec/04 R80). The NOP descriptor performs only its header operations. -/
  | nop (trough : Trough) (pos : BitVec 32)
  /-- TILE (spec/07 R130). The TILE descriptor checks and folds a logical M×N×K tile onto a gang. -/
  | tile (trough : Trough) (pos : BitVec 32)
  /-- SIFT (spec/08 R153). The SIFT descriptor checks its body, loads its program or chain block and runs a lane, chain or tine job on a sifter. -/
  | sift (trough : Trough) (pos : BitVec 32) (granules : BitVec 32)
  /-- MOVE (spec/12 R228). The MOVE descriptor checks and runs a Turner copy, transpose or fill. -/
  | move (trough : Trough) (pos : BitVec 32) (groups : BitVec 32)
  /-- BALE (spec/14 R271). The BALE descriptor encodes a checkpoint stream to the data path, a Granary slot or a peer. -/
  | bale (trough : Trough) (pos : BitVec 32) (blocks : BitVec 32)
  /-- UNBALE (spec/14 R276). The UNBALE descriptor restores a checkpoint stream through a receive path into Silo or Cellar. -/
  | unbale (trough : Trough) (pos : BitVec 32) (blocks : BitVec 32)
  /-- WINNOW (spec/10 R197). The WINNOW descriptor compresses a gradient by top-k or sign with chaff, or accumulates a stream. -/
  | winnow (trough : Trough) (pos : BitVec 32) (blocks : BitVec 32)
  /-- SYNC (spec/05 R92). The SYNC descriptor runs its wait and consume slots in order and applies its signal slots at retire. -/
  | sync (trough : Trough) (pos : BitVec 32)
  /-- FENCE (spec/05 R96). The FENCE descriptor starts and waits for earlier descriptors of the named troughs and units. -/
  | fence (trough : Trough) (pos : BitVec 32)
  /-- FENCE_CONDITION_MET (spec/05 R96). The covered descriptors have retired, so the FENCE retires or, with BARRIER, sends its barrier packets. -/
  | fenceConditionMet (trough : Trough) (pos : BitVec 32)
  /-- LINK (spec/15 R300). The LINK descriptor checks and sends activations, gradients or a remote signal to a node. -/
  | link (trough : Trough) (pos : BitVec 32) (packets : BitVec 32)
  /-- PORT (spec/03 R56). The PORT descriptor captures a stream's input or output words into a buffer or plays a buffer on its outputs. -/
  | port (trough : Trough) (pos : BitVec 32) (blocks : BitVec 32)
  /-- SWAP (spec/11 R205). The SWAP descriptor is checked by the Steward and writes the standby fields, starting a promotion. -/
  | swap (trough : Trough) (pos : BitVec 32)
  /-- MARK (spec/04 R82). The MARK descriptor writes an event record with its TAG and raises the chosen vector. -/
  | mark (trough : Trough) (pos : BitVec 32)
  /-- JOB_RETURN (spec/19 R392). Once the faulted job's units have stopped, its counters return to their initial values, RET_SEQ increments and RETURNED sets. -/
  | jobReturn (n : Fin 9)
  /-- COUNTER_WINDOW_WRITE (spec/05 R104). A write to a counter window entry signals the counter if it is declared or standing, or is refused and counted. -/
  | counterWindowWrite (q : Req) (ctr : BitVec 16) (value : BitVec 32)
  /-- BARRIER_RECEIVE (spec/05 R97). A barrier packet counts toward the matching FENCE, or is held as early, and the FENCE retires once every peer's packet is in. -/
  | barrierReceive (p : Fin 5)
  /-- RSIG_RECEIVE (spec/05 R98). A received remote signal is applied once if the job, peer and counter are declared, or is refused, and is acknowledged by RACK. -/
  | rsigReceive (p : Fin 5)
  /-- RACK_RECEIVE (spec/05 R100). A RACK moves its remote signal to RSIG_ACKED or RSIG_RET, or faults the sender on a refused data write. -/
  | rackReceive (p : Fin 5)
  /-- RSIG_RESEND (spec/15 R293). After RSIG_TIMEOUT without acknowledgment, unacknowledged remote signals and pending ABORTs are resent with their old sequence numbers. -/
  | rsigResend (n : Fin 9)
  /-- TILE_GRANT (spec/07 R139). The bay sequencer grants a waiting or yielded TILE its gang once the bays qualify and batch work is not paused. -/
  | tileGrant (trough : Trough) (pos : BitVec 32)
  /-- RAMP_UP_DONE (spec/06 R116). The ballast ramp of N cycles ends and the first real vector enters. -/
  | rampUpDone (leader : Fin 16)
  /-- FRONT_COMPLETE (spec/06 R119). The new images are complete in every cell and the new pass's vectors may enter. -/
  | frontComplete (leader : Fin 16)
  /-- FOLD_COMPLETE (spec/07 R133). A fold's last column sum is accumulated in the foot, and at a group's last fold its strips are formed. -/
  | foldComplete (leader : Fin 16)
  /-- CREDIT_TAKE (spec/08 R147). A foot takes a free Hopper credit for a strip, or holds its gang until one is available. -/
  | creditTake (leader : Fin 16) (held : BitVec 32)
  /-- STRIP_ENTER (spec/08 R147). A strip finishes writing and enters its Hopper queue, and a TILE whose last strip this is retires. -/
  | stripEnter (h : Fin 4)
  /-- HOLD_RAMP_DOWN (spec/06 R116). A hold that lasts 1,024 cycles makes the bay ramp down. -/
  | holdRampDown (leader : Fin 16) (cycles : BitVec 32)
  /-- RAMP_DOWN_DONE (spec/06 R116). The ramp down ends and the bay raises IDLE. -/
  | rampDownDone (b : Fin 16)
  /-- YIELD_REQUEST (spec/07 R140). A Steward write of PROG_CTL.YIELD requests a batch TILE to yield, or is ignored and counted. -/
  | yieldRequest (q : Req) (b : Fin 16)
  /-- YIELD_TAKE (spec/07 R141). At the first fold boundary after the request, the TILE's progress is copied into a yield slot and the gang is freed. -/
  | yieldTake (leader : Fin 16) (latency : BitVec 16)
  /-- SPILL_DONE (spec/07 R142). The foot finishes writing its accumulator file to the save area. -/
  | spillDone (slot : Fin 32)
  /-- TILE_RESUME (spec/07 R143). A yielded TILE resumes on a qualifying gang and loads the fronts of its next fold. -/
  | tileResume (slot : Fin 32)
  /-- REFILL_DONE (spec/07 R143). The foot finishes reading back the save area, and the fold continues. -/
  | refillDone (leader : Fin 16)
  /-- BATCH_RELEASE (spec/07 R139). A write of BATCH_CTL.RELEASE clears CAUSE_STEWARD, and batch work resumes when no other cause holds. -/
  | batchRelease (q : Req)
  /-- STRIP_TAKE (spec/08 R148). A sifter takes the oldest matching strip from its Hopper, and the slot's credit returns to FREE. -/
  | stripTake (k : Fin 4)
  /-- SIFT_UNPARK (spec/08 R163). A parked SIFT continues once a matching strip is present and the sifter is free. -/
  | siftUnpark (k : Fin 4)
  /-- HOP_CFG_WRITE (spec/08 R150). A write of HOP.CFG.RT_RESERVE takes effect, or is ignored and counted if it exceeds 64 or falls below the bound streams' need. -/
  | hopCfgWrite (q : Req) (h : Fin 4) (value : BitVec 32)
  /-- SIFTER_YIELD (spec/08 R166). At the next granule boundary after preemption or a pause, the batch SIFT's state is saved to the Loft save area. -/
  | sifterYield (k : Fin 4) (latency : BitVec 16)
  /-- SIFTER_RESUME (spec/08 R167). When no realtime work remains, the sifter restores the saved batch SIFT and continues it bit-exactly. -/
  | sifterResume (k : Fin 4)
  /-- MBOX_TAIL_WRITE (spec/08 R171). A Steward write of SFT[0].MBOX_TAIL consumes mailbox entries, or is ignored and counted if out of range. -/
  | mboxTailWrite (q : Req) (value : BitVec 32)
  /-- SIFTER_NOP (spec/08 R156). The NOP instruction leaves its destination unchanged. -/
  | sifterNop (k : Fin 4) (d : BitVec 5)
  /-- MOV (spec/08 R156). MOV copies a to d. -/
  | mov (k : Fin 4) (d : BitVec 5) (a : BitVec 5)
  /-- ADD (spec/08 R156). ADD forms a + b modulo 2³². -/
  | add (k : Fin 4) (d : BitVec 5) (a : BitVec 5) (b : BitVec 5)
  /-- SUB (spec/08 R156). SUB forms a − b modulo 2³². -/
  | sub (k : Fin 4) (d : BitVec 5) (a : BitVec 5) (b : BitVec 5)
  /-- MUL (spec/08 R156). MUL gives the low 32 bits of the signed product. -/
  | mul (k : Fin 4) (d : BitVec 5) (a : BitVec 5) (b : BitVec 5)
  /-- MULH (spec/08 R156). MULH gives the high 32 bits of the signed product. -/
  | mulh (k : Fin 4) (d : BitVec 5) (a : BitVec 5) (b : BitVec 5)
  /-- AND (spec/08 R156). AND forms the bitwise and. -/
  | and (k : Fin 4) (d : BitVec 5) (a : BitVec 5) (b : BitVec 5)
  /-- OR (spec/08 R156). OR forms the bitwise or. -/
  | or (k : Fin 4) (d : BitVec 5) (a : BitVec 5) (b : BitVec 5)
  /-- XOR (spec/08 R156). XOR forms the bitwise exclusive or. -/
  | xor (k : Fin 4) (d : BitVec 5) (a : BitVec 5) (b : BitVec 5)
  /-- SHL (spec/08 R156). SHL shifts a left by b mod 32. -/
  | shl (k : Fin 4) (d : BitVec 5) (a : BitVec 5) (b : BitVec 5)
  /-- SHR (spec/08 R156). SHR shifts a logically right by b mod 32. -/
  | shr (k : Fin 4) (d : BitVec 5) (a : BitVec 5) (b : BitVec 5)
  /-- SRA (spec/08 R156). SRA shifts a arithmetically right by b mod 32. -/
  | sra (k : Fin 4) (d : BitVec 5) (a : BitVec 5) (b : BitVec 5)
  /-- MIN (spec/08 R156). MIN gives the signed minimum. -/
  | min (k : Fin 4) (d : BitVec 5) (a : BitVec 5) (b : BitVec 5)
  /-- MAX (spec/08 R156). MAX gives the signed maximum. -/
  | max (k : Fin 4) (d : BitVec 5) (a : BitVec 5) (b : BitVec 5)
  /-- ABS (spec/08 R156). ABS gives |a|, with −2³¹ giving 2³¹ − 1. -/
  | abs (k : Fin 4) (d : BitVec 5) (a : BitVec 5)
  /-- ADDS (spec/08 R156). ADDS forms a saturating add. -/
  | adds (k : Fin 4) (d : BitVec 5) (a : BitVec 5) (b : BitVec 5)
  /-- SUBS (spec/08 R156). SUBS forms a saturating subtract. -/
  | subs (k : Fin 4) (d : BitVec 5) (a : BitVec 5) (b : BitVec 5)
  /-- CMPEQ (spec/08 R156). CMPEQ gives 1 if a equals b, otherwise 0. -/
  | cmpeq (k : Fin 4) (d : BitVec 5) (a : BitVec 5) (b : BitVec 5)
  /-- CMPLT (spec/08 R156). CMPLT gives 1 if a is signed-less than b, otherwise 0. -/
  | cmplt (k : Fin 4) (d : BitVec 5) (a : BitVec 5) (b : BitVec 5)
  /-- SEL (spec/08 R156). SEL gives b if a is non-zero, else c. -/
  | sel (k : Fin 4) (d : BitVec 5) (a : BitVec 5) (b : BitVec 5) (c : BitVec 5)
  /-- FADD (spec/08 R156). FADD forms the FP32 sum, rounded per RND. -/
  | fadd (k : Fin 4) (d : BitVec 5) (a : BitVec 5) (b : BitVec 5) (rnd : BitVec 3)
  /-- FSUB (spec/08 R156). FSUB forms the FP32 difference, rounded per RND. -/
  | fsub (k : Fin 4) (d : BitVec 5) (a : BitVec 5) (b : BitVec 5) (rnd : BitVec 3)
  /-- FMUL (spec/08 R156). FMUL forms the FP32 product, rounded per RND. -/
  | fmul (k : Fin 4) (d : BitVec 5) (a : BitVec 5) (b : BitVec 5) (rnd : BitVec 3)
  /-- FMA (spec/08 R156). FMA forms a × b + c with one rounding. -/
  | fma (k : Fin 4) (d : BitVec 5) (a : BitVec 5) (b : BitVec 5) (c : BitVec 5) (rnd : BitVec 3)
  /-- FMIN (spec/09 R180). FMIN gives the IEEE minimumNumber. -/
  | fmin (k : Fin 4) (d : BitVec 5) (a : BitVec 5) (b : BitVec 5)
  /-- FMAX (spec/09 R180). FMAX gives the IEEE maximumNumber. -/
  | fmax (k : Fin 4) (d : BitVec 5) (a : BitVec 5) (b : BitVec 5)
  /-- FABS (spec/09 R178). FABS clears the sign bit. -/
  | fabs (k : Fin 4) (d : BitVec 5) (a : BitVec 5)
  /-- FNEG (spec/09 R178). FNEG flips the sign bit. -/
  | fneg (k : Fin 4) (d : BitVec 5) (a : BitVec 5)
  /-- FDIV (spec/08 R156). FDIV forms a correctly rounded quotient. -/
  | fdiv (k : Fin 4) (d : BitVec 5) (a : BitVec 5) (b : BitVec 5) (rnd : BitVec 3)
  /-- FSQRT (spec/08 R156). FSQRT forms a correctly rounded square root. -/
  | fsqrt (k : Fin 4) (d : BitVec 5) (a : BitVec 5) (rnd : BitVec 3)
  /-- FCMPLT (spec/09 R180). FCMPLT gives 1 if a < b as floats, and 0 on NaN. -/
  | fcmplt (k : Fin 4) (d : BitVec 5) (a : BitVec 5) (b : BitVec 5)
  /-- FCMPEQ (spec/09 R180). FCMPEQ gives 1 if a = b as floats, and 0 on NaN. -/
  | fcmpeq (k : Fin 4) (d : BitVec 5) (a : BitVec 5) (b : BitVec 5)
  /-- FFIN (spec/08 R156). FFIN gives 1 if a is finite, otherwise 0. -/
  | ffin (k : Fin 4) (d : BitVec 5) (a : BitVec 5)
  /-- CVT (spec/09 R183). CVT converts a between the types named by B and C. -/
  | cvt (k : Fin 4) (d : BitVec 5) (a : BitVec 5) (b : BitVec 5) (c : BitVec 5) (rnd : BitVec 3)
  /-- QNT (spec/09 R181). QNT rounds a × b once and saturates it to an integer type. -/
  | qnt (k : Fin 4) (d : BitVec 5) (a : BitVec 5) (b : BitVec 5) (c : BitVec 5) (rnd : BitVec 3)
  /-- DQNT (spec/09 R182). DQNT forms the FP32 of an integer a times b, rounded once. -/
  | dqnt (k : Fin 4) (d : BitVec 5) (a : BitVec 5) (b : BitVec 5) (c : BitVec 5) (rnd : BitVec 3)
  /-- LUT (spec/08 R446). LUT reads a Loft word at the clamped index, or faults with DESC if the offset is out of range. -/
  | lut (k : Fin 4) (d : BitVec 5) (a : BitVec 5) (b : BitVec 5) (c : BitVec 5)
  /-- VLD (spec/08 R157). VLD loads 64 elements from the Loft or the data path into a vector register. -/
  | vld (k : Fin 4) (d : BitVec 5) (a : BitVec 5) (b : BitVec 5) (c : BitVec 5) (rnd : BitVec 3) (space : BitVec 1)
  /-- VST (spec/08 R157). VST narrows and stores a vector register's 64 elements. -/
  | vst (k : Fin 4) (d : BitVec 5) (a : BitVec 5) (b : BitVec 5) (c : BitVec 5) (rnd : BitVec 3) (space : BitVec 1)
  /-- LFILL (spec/08 R157). LFILL copies bytes from the data path into the Loft. -/
  | lfill (k : Fin 4) (d : BitVec 5) (a : BitVec 5) (b : BitVec 5) (c : BitVec 5)
  /-- LSPILL (spec/08 R157). LSPILL copies bytes from the Loft to the data path. -/
  | lspill (k : Fin 4) (d : BitVec 5) (a : BitVec 5) (b : BitVec 5) (c : BitVec 5)
  /-- VRED (spec/08 R157). VRED reduces a vector into a scalar register. -/
  | vred (k : Fin 4) (d : BitVec 5) (a : BitVec 5) (c : BitVec 5)
  /-- PERM (spec/08 R157). PERM permutes the lanes of a vector by index. -/
  | perm (k : Fin 4) (d : BitVec 5) (a : BitVec 5) (b : BitVec 5)
  /-- SHUF (spec/08 R157). SHUF shuffles vectors by a fixed pattern. -/
  | shuf (k : Fin 4) (d : BitVec 5) (a : BitVec 5) (b : BitVec 5) (c : BitVec 5)
  /-- PACK (spec/08 R157). PACK narrows two vectors and packs them into one. -/
  | pack (k : Fin 4) (d : BitVec 5) (a : BitVec 5) (b : BitVec 5) (c : BitVec 5)
  /-- UNPACK (spec/08 R157). UNPACK widens 64 packed elements into a vector. -/
  | unpack (k : Fin 4) (d : BitVec 5) (a : BitVec 5) (b : BitVec 5) (c : BitVec 5)
  /-- SUMM (spec/08 R157). SUMM posts a summary of a vector. -/
  | summ (k : Fin 4) (a : BitVec 5) (c : BitVec 5) (rnd : BitVec 3)
  /-- LOOP (spec/08 R158). LOOP repeats the next instructions a fixed number of times, up to two levels deep. -/
  | loop (k : Fin 4) (body : BitVec 8) (repeats : BitVec 16)
  /-- SADDI (spec/08 R157). SADDI adds a signed 15-bit immediate to a scalar register. -/
  | saddi (k : Fin 4) (d : BitVec 5) (a : BitVec 5) (imm : BitVec 15)
  /-- END (spec/08 R157). END ends the program. -/
  | endIns (k : Fin 4)
  /-- LOSS_SCALE_ENABLE (spec/10 R196). A write of LS_CFG.MODE 1 or 2 is checked by the Steward and initialises the loss-scale context and table, then signals READY. -/
  | lossScaleEnable (q : Req) (n : Fin 8) (value : BitVec 32)
  /-- STEP_CLOSE (spec/10 R194). When DONE reaches LS_STEP + 1, the Steward reads the step's summaries, decides the verdict and scales, writes the table and signals READY. -/
  | stepClose (n : Fin 9)
  /-- WINNOW_PAUSE (spec/10 R201). While batch work is paused, Winnow stops at its next block boundary. -/
  | winnowPause
  /-- INTERLEAVE_WRITE (spec/12 R217). A write of SIL[0].INTERLEAVE changes the bank mapping and zeroes Silo, or is ignored and counted while extents or streams are in use. -/
  | interleaveWrite (q : Req) (value : BitVec 32)
  /-- BANK_ZERO_DONE (spec/12 R221). A Silo bank finishes zeroing itself and accepts requests. -/
  | bankZeroDone (b : Fin 16)
  /-- SCRUB_LINE (spec/12 R220). Every SCRUB.INT FCLK cycles, the scrubber reads and corrects the next line of each bank. -/
  | scrubLine (b : Fin 16)
  /-- EXTENT_WRITE (spec/12 R222). A write of a Silo or Cellar extent places granules, zeroing any that change owner, or is ignored and counted. -/
  | extentWrite (q : Req) (cellar : Bool) (n : Fin 8) (x : Fin 8) (value : BitVec 32)
  /-- GRANULE_ZERO_DONE (spec/12 R223). A granule that changed owner finishes zeroing, and waiting accesses proceed. -/
  | granuleZeroDone (cellar : Bool) (g : BitVec 16)
  /-- MOVE_YIELD (spec/12 R230). A batch MOVE yields at its next group boundary for a realtime MOVE, a pause or a drain. -/
  | moveYield (c : Fin 4) (latency : BitVec 16)
  /-- MOVE_RESUME (spec/12 R230). A yielded MOVE resumes when no realtime MOVE waits and batch work is not paused. -/
  | moveResume (c : Fin 4)
  /-- CELLAR_TRAINED (spec/12 R233). Steward training of the Cellar interface completes and STAT.TRAINED sets. -/
  | cellarTrained
  /-- CEL_CFG_WRITE (spec/12 R236). A write of CEL.CFG takes effect only while TRAINED is 0 and the page is unlocked. -/
  | celCfgWrite (q : Req) (value : BitVec 32)
  /-- INFO (spec/13 R241). The GSR INFO call returns the GSR epoch and the number of sectors available. `intact`, here and in each GSR call: its check of the registry passes (R391). -/
  | info (intact : Bool)
  /-- PROGRAM (spec/13 R243). The GSR PROGRAM call checks the pair rule and erase state, writes one word, verifies it and reports partner disturbance. -/
  | program (addr : BitVec 32) (data : BitVec 64) (fails : Bool) (corrected : Fin 3) (partner : GPartner) (intact : Bool)
  /-- ERASE_START (spec/13 R247). The GSR ERASE_START call begins a background sector erase and bills it to a stall. -/
  | eraseStart (addr : BitVec 32) (stall : BitVec 32) (intact : Bool)
  /-- ERASE_POLL (spec/13 R247). The GSR ERASE_POLL call returns the erase state and moves DONE or FAILED back to NONE. -/
  | erasePoll (intact : Bool)
  /-- VERIFY_ERASED (spec/13 R241). The GSR VERIFY_ERASED call returns the number of words of a sector that are not erased. -/
  | verifyErased (addr : BitVec 32) (intact : Bool)
  /-- XO_SET (spec/13 R253). The GSR XO_SET call configures an execute-only region. -/
  | xoSet (region : BitVec 32) (first : BitVec 32) (count : BitVec 32) (flags : BitVec 32) (intact : Bool)
  /-- WIN_SET (spec/13 R251). The GSR WIN_SET call enables or removes a rotating window and records it in the registry. -/
  | winSet (window : BitVec 32) (first : BitVec 32) (phys : BitVec 32) (logical : BitVec 32) (flags : BitVec 32) (intact : Bool)
  /-- ERASE_END (spec/13 R247). An erase ends as DONE or FAILED and ERASE_DONE is raised. -/
  | eraseEnd (done : Bool)
  /-- ERASE_RESUME (spec/13 R249). A suspended erase resumes once no read has been pending for 256 FCLK cycles. -/
  | eraseResume (us : BitVec 32)
  /-- GRANARY_READ (spec/13 R255). A fetch, load or loop-port read of the Granary corrects up to 2 bits per word, reports the count and suspends any erase. -/
  | granaryRead (reader : GReader) (addr : BitVec 32)
  /-- SLOT_WRITE (spec/14 R275). A write of a BAL slot configures it, or is ignored and counted if it overlaps protected or other regions. -/
  | slotWrite (q : Req) (slot : Fin 16) (owner : Bool) (value : BitVec 32)
  /-- BALER_PAUSE (spec/14 R273). While batch work is paused, a BALE or UNBALE stops at its next block boundary. -/
  | balerPause
  /-- FURROW_ENABLE (spec/15 R283). A write of FUR.CTL.EN starts training the port, or is ignored and counted if NODE is invalid. -/
  | furrowEnable (q : Req) (p : Fin 4) (value : BitVec 32)
  /-- TS1_RECEIVE (spec/15 R283). Received TS1 blocks establish block lock, lane numbers and polarity and advance training. -/
  | ts1Receive (p : Fin 4) (ts : Ts)
  /-- TS2_RECEIVE (spec/15 R283). Received TS2 blocks complete training, so the port enters ACTIVE and takes its credits. -/
  | ts2Receive (p : Fin 4) (ts : Ts) (sent : BitVec 8)
  /-- ALIGN_RECEIVE (spec/15 R282). An ALIGN block deskews the lanes and resets the scramblers. -/
  | alignReceive (p : Fin 4) (headers : BitVec 16 := 0xAAAA)
  /-- ALIGN_SEND (spec/15 R282). Every 1,024 block times, an ACTIVE transmitter sends an ALIGN block. -/
  | alignSend (p : Fin 4)
  /-- TRAIN_TIMEOUT (spec/15 R283). A training state that lasts 2 ms returns the port to DETECT and increments TRAIN_FAIL. -/
  | trainTimeout (p : Fin 4)
  /-- SEQUENCED_FLIT_RECEIVE (spec/15 R286). A HEAD or DATA flit is accepted in order or discarded with a NAK, and its ACK and NAK fields drive replay and retirement. -/
  | sequencedFlitReceive (p : Fin 4) (bytes : List Byte) (headers : BitVec 16 := 0x5555)
  /-- NULL_FLIT_RECEIVE (spec/15 R285). A NULL flit returns FREED credit counts and ACK or NAK. -/
  | nullFlitReceive (p : Fin 4) (bytes : List Byte) (headers : BitVec 16 := 0x5555)
  /-- CREDIT_RETURN (spec/15 R285). Within 32 flit times of a change in FREED or ACK, the transmitter sends a NULL flit. -/
  | creditReturn (p : Fin 4)
  /-- REPLAY_TIMEOUT (spec/15 R286). 4,096 FCLK cycles without an ACK advance start a replay, and a fifteenth unacknowledged replay makes the port lost. -/
  | replayTimeout (p : Fin 4)
  /-- LINK_SILENCE_TIMEOUT (spec/15 R287). No good flit or control block for 8,192 FCLK cycles makes the port lost. -/
  | linkSilenceTimeout (p : Fin 4)
  /-- IDLE_HOLD_END (spec/15 R287). After 16 µs of electrical idle, a lost port returns to DETECT. -/
  | idleHoldEnd (p : Fin 4)
  /-- ACT_RECEIVE (spec/15 R292). An ACT packet writes its data into the receiving stall's map if accepted, or is refused with a RACK. -/
  | actReceive (p : Fin 5)
  /-- GRAD_RECEIVE (spec/15 R292). A GRAD packet is accepted or refused as an ACT packet is. -/
  | gradReceive (p : Fin 5)
  /-- CKPT_RECEIVE (spec/15 R298). CKPT packets feed a waiting UNBALE, or are held on VC5 until one waits. -/
  | ckptReceive (p : Fin 5)
  /-- ABORT_RECEIVE (spec/15 R294). An ABORT from a node faults every job that declares it with ABORTED_BY_PEER and is answered with ABORT_ACK. -/
  | abortReceive (p : Fin 5)
  /-- ABORT_ACK_RECEIVE (spec/05 R100). An ABORT_ACK settles pending remote signals and decrements ABORT_PEND. -/
  | abortAckReceive (p : Fin 5)
  /-- REG_RECEIVE (spec/15 R296). A REG packet reads or writes the bound stall's registers or local memory and is answered by REGRSP. -/
  | regReceive (p : Fin 5)
  /-- PACKET_FORWARD (spec/15 R291). A packet for another node is forwarded by its route with TTL reduced, or is dropped and counted. -/
  | packetForward (p : Fin 5)
  /-- LINK_PAUSE (spec/15 R301). While batch work is paused, a LINK stops at its next packet boundary. -/
  | linkPause
  /-- KNOCK_SEND (spec/15 R304). A write of KNOCK_CTL.SEND sends a knock on a port that is not ACTIVE. -/
  | knockSend (q : Req) (p : Fin 4)
  /-- KNOCK_ECHO_TIMEOUT (spec/15 R304). No echo within 10 µs of the knock resends it, up to KNOCK_RETRY times, then sets FAIL. -/
  | knockEchoTimeout (p : Fin 4)
  /-- KNOCK_ECHO_RECEIVE (spec/15 R304). An echo arriving after a knock sets KNOCK_STAT.ECHO. -/
  | knockEchoReceive (p : Fin 4)
  /-- KNOCK_ACCEPT (spec/15 R303). The Barn decodes an accepted knock and its mask, echoes it, and wakes the device or records the mask in RUN. -/
  | knockAccept (p : Fin 4) (bursts : List Byte)
  /-- LANE_ACTIVITY (spec/17 R338). 16 or more consecutive active samples on lane 0 is a level-type wake. -/
  | laneActivity (p : Fin 4) (samples : BitVec 16 := 16)
  /-- FLR (spec/15 R308). A Function Level Reset acts as a stall reset of the bound stall. -/
  | flr (port : Fin 2) (func : Fin 4)
  /-- PERST_ASSERT (spec/15 R308). PERST0_N or PERST1_N low resets every stall bound to that port and is a level-type wake. -/
  | perstAssert (p : Fin 2)
  /-- HOT_RESET (spec/15 R308). A PCIe hot reset resets every stall bound to the port. -/
  | hotReset (p : Fin 2)
  /-- PCIE_LINK_DOWN (spec/15 R308). A PCIe link down faults with LINK every open job of a stall bound to that port. -/
  | pcieLinkDown (p : Fin 2)
  /-- PCIE_TRAINING_DETECT (spec/17 R338). A receiver that detects training on a PCIe port's lanes is a level-type wake. -/
  | pcieTrainingDetect (p : Fin 2)
  /-- TALLY_SAMPLE (spec/16 R312). At each STC multiple of 20, Tally reads all sensors and bills each reading to its owner. -/
  | tallySample (milliamps : List (BitVec 16)) (grants : List (Option (Fin 9))) (vout : Option (Fin 4 × BitVec 16))
  /-- SETTLEMENT (spec/16 R315). At the end of each interval, Tally converts, shares and adds the energy and counts to every account atomically. -/
  | settlement
  /-- TALLY_START (spec/16 R325). A write of TLY.CTL.START starts settlement with zero accounts and sets BLANK. -/
  | tallyStart (q : Req)
  /-- TALLY_RESTORE (spec/16 R325). A write of TLY.CTL.RESTORE checks and loads a record and starts settlement, flagging a possible loss. -/
  | tallyRestore (q : Req)
  /-- TALLY_FINAL (spec/16 R323). A write of TLY.CTL.FINAL settles the partial interval, writes a FINAL record and stops settlement. -/
  | tallyFinal (q : Req)
  /-- PERSIST_ACK (spec/16 R324). A write of PERSIST_ACK clears PEND. -/
  | persistAck (q : Req)
  /-- PWR_CMD_RUN (spec/17 R342). A PWR_CMD of RUN completes a wake if the clocks are up, otherwise it is refused. -/
  | pwrCmdRun (q : Req)
  /-- PWR_CMD_DORMANT (spec/17 R334). A PWR_CMD of DORMANT is checked and starts the entry sequence, resetting stalls when FORCE is set. -/
  | pwrCmdDormant (q : Req) (force : Bool)
  /-- PWR_CMD_FALLOW (spec/17 R334). A PWR_CMD of FALLOW is checked and starts the entry sequence, resetting stalls when FORCE is set. -/
  | pwrCmdFallow (q : Req) (force : Bool)
  /-- DEVICE_IDLE_TIMEOUT (spec/17 R335). With AUTO_DORMANT set, DEV_IDLE milliseconds of device idleness enter DORMANT. -/
  | deviceIdleTimeout
  /-- ENTRY_ACK (spec/17 R336). A write of ENTRY_ACK continues the entry sequence through save, pad latch and domain switch-off to ENTRY_COMMIT. -/
  | entryAck (q : Req)
  /-- ENTRY_ACK_TIMEOUT (spec/17 R336). Without ENTRY_ACK within ACK_TIMEOUT, the entry continues and ACK_LATE_COUNT increments. -/
  | entryAckTimeout
  /-- WAKE_ARMED (spec/17 R337). Six Barn cycles after ENTRY_COMMIT, wake events act again and any latched or held event wakes the device. -/
  | wakeArmed
  /-- AUDIO_FRAME_WAKE (spec/17 R338). 64 regular FSYNC edges on a port whose domain is off are a level-type wake. -/
  | audioFrameWake (p : Fin 4)
  /-- I3C_WAKE_HEADER (spec/17 R338). An I3C or I2C address header naming the sleeping device is NACKed and wakes it. -/
  | i3cWakeHeader
  /-- BARN_TIMER_EXPIRY (spec/17 R338). BARN.TIMER cycles after WAKE_ARMED latch a timer wake. -/
  | barnTimerExpiry
  /-- RAIL_FAIL_RETRY (spec/17 R341). 100 ms after a failed RUN action, the wake is tried again, up to three times in all. -/
  | railFailRetry
  /-- SAVE_RESTORE_DONE (spec/17 R345). The save list restore completes and its CRC is checked, and a failure takes a device-fatal warm reset. -/
  | saveRestoreDone (crcOk : Bool)
  /-- DOMAIN_GATE (spec/17 R330). IDLE_TIMER FCLK cycles with no request and no work gate a domain's clocks. -/
  | domainGate (x : Fin 64)
  /-- DOMAIN_ON (spec/17 R331). A domain becomes ON 32 Barn cycles after it was switched. -/
  | domainOn (x : Fin 64)
  /-- PAD_RELEASE (spec/17 R347). A write of BARN.PAD_RELEASE releases a pad group, or is ignored and counted while its domain is off. -/
  | padRelease (q : Req) (groups : BitVec 5)
  /-- REGULATOR_ENABLE (spec/17 R348). Enabling a PMBus regulator reads VOUT_MODE and READ_VOUT to set its record. -/
  | regulatorEnable (q : Req) (r : Fin 4) (value : BitVec 32) (mode : BitVec 8) (raw : Option (BitVec 16))
  /-- VOUT_ACKNOWLEDGED (spec/17 R349). READ_VOUT and STATUS_WORD confirm a VOUT_COMMAND, and VOUT_ACK updates. -/
  | voutAcknowledged (vout status : BitVec 16 := 0)
  /-- VOUT_ACK_TIMEOUT (spec/17 R349). A command not acknowledged within 5 ms fails, counts and raises ACK_FAIL. -/
  | voutAckTimeout
  /-- DVFS_REQUEST (spec/17 R352). A write of PWR.DVFS_CTL runs the voltage and divider change in the order of R33. -/
  | dvfsRequest (q : Req) (step : BitVec 2) (mv : BitVec 16)
  /-- THERMAL_SAMPLE (spec/17 R353). Every 96 Barn cycles, each sensor is sampled and its filtered value and the hot value are updated. -/
  | thermalSample (raw : List (BitVec 16))
  /-- THRESHOLD_CROSS (spec/17 R354). 256 consecutive hot values at or above a threshold assert WARN, THROTTLE or CRIT. -/
  | thresholdCross (k : Fin 3)
  /-- THRESHOLD_CLEAR (spec/17 R354). 256 consecutive hot values at or below T − 4 °C clear a threshold, which resumes batch work after THROTTLE. -/
  | thresholdClear (k : Fin 3)
  /-- THROTTLE_STEP (spec/17 R356). At each 8 ms dwell under THROTTLE, CAP slows one step and batch work pauses if realtime load requires it. -/
  | throttleStep
  /-- CAP_RELAX (spec/17 R357). Every 8 ms after THROTTLE clears, CAP moves one step faster until it no longer limits. -/
  | capRelax
  /-- CRIT_HOLD_END (spec/17 R358). CRIT_HOLD milliseconds after WAKE_ARMED, wake events act normally again. -/
  | critHoldEnd
  /-- MTIME_INTERRUPT (spec/18 R362). The STC reaching SYS.MTIMECMP raises the Steward timer interrupt. -/
  | mtimeInterrupt
  /-- LIMP_ENTER (spec/18 R371). A write of LIMP_CTL.ENTER sets a LIMP cause, or is ignored and counted if a cause other than BOOTING holds. -/
  | limpEnter (q : Req) (cause : BitVec 3)
  /-- LIMP_READY (spec/18 R371). A write of LIMP_CTL.READY leaves BOOTING for NONE, or is ignored and counted. -/
  | limpReady (q : Req)
  /-- UPDATE_BEGIN (spec/18 R374). UPD_CTL BEGIN checks the target and length and erases the target's sectors. -/
  | updateBegin (q : Req) (target : BitVec 2) (hostOk : Bool) (fail : Option (BitVec 16))
  /-- UPDATE_CHUNK (spec/18 R374). A write of UPD_CHUNK.OFFSET takes a chunk from the window, holding the header and programming the rest. -/
  | updateChunk (q : Req) (offset : BitVec 32) (fail : Option (BitVec 16))
  /-- UPDATE_COMMIT (spec/18 R374). UPD_CTL COMMIT checks the image and programs the header last. -/
  | updateCommit (q : Req) (target : BitVec 2) (hostOk : Bool) (fail : Option (BitVec 16))
  /-- UPDATE_ABORT (spec/18 R374). UPD_CTL ABORT ends an open update with ABORTED. -/
  | updateAbort (q : Req) (target : BitVec 2) (hostOk : Bool)
  /-- ENEC (spec/18 R375). The ENEC common command enables events such as in-band interrupts. -/
  | enec (addr : Option (BitVec 7)) (events : BitVec 8)
  /-- DISEC (spec/18 R375). The DISEC common command disables events. -/
  | disec (addr : Option (BitVec 7)) (events : BitVec 8)
  /-- RSTDAA (spec/18 R375). The RSTDAA common command clears the dynamic address. -/
  | rstdaa
  /-- ENTDAA (spec/18 R375). The ENTDAA common command assigns a dynamic address. -/
  | entdaa (dyn : BitVec 7)
  /-- SETDASA (spec/18 R375). The SETDASA common command assigns a dynamic address from the static address. -/
  | setdasa (static : BitVec 7) (dyn : BitVec 7)
  /-- SETNEWDA (spec/18 R375). The SETNEWDA common command changes the dynamic address. -/
  | setnewda (addr : BitVec 7) (dyn : BitVec 7)
  /-- GETPID (spec/18 R375). The GETPID common command returns the provisional ID. -/
  | getpid (addr : BitVec 7)
  /-- GETBCR (spec/18 R375). The GETBCR common command returns BCR 0x02. -/
  | getbcr (addr : BitVec 7)
  /-- GETDCR (spec/18 R375). The GETDCR common command returns DCR 0x00. -/
  | getdcr (addr : BitVec 7)
  /-- GETSTATUS (spec/18 R375). The GETSTATUS common command returns the target status. -/
  | getstatus (addr : BitVec 7)
  /-- SETMWL (spec/18 R375). The SETMWL common command sets the maximum write length. -/
  | setmwl (addr : Option (BitVec 7)) (len : BitVec 16)
  /-- SETMRL (spec/18 R375). The SETMRL common command sets the maximum read length. -/
  | setmrl (addr : Option (BitVec 7)) (len : BitVec 16)
  /-- GETMWL (spec/18 R375). The GETMWL common command returns the maximum write length. -/
  | getmwl (addr : BitVec 7)
  /-- GETMRL (spec/18 R375). The GETMRL common command returns the maximum read length. -/
  | getmrl (addr : BitVec 7)
  /-- MGMT_READ (spec/18 R376). A management READ message reads 4 or 8 bytes of a BAR0 page for the next private read. -/
  | mgmtRead (addr : BitVec 32) (len : BitVec 8)
  /-- MGMT_WRITE (spec/18 R376). A management WRITE message writes 4 bytes of a BAR0 page. -/
  | mgmtWrite (addr : BitVec 32) (bytes : List Byte)
  /-- MGMT_RESULT_READ (spec/18 R376). A management private read returns the status and data of the last READ. -/
  | mgmtResultRead
  /-- DOMAIN_DISABLE (spec/18 R380). A write of 0 to a PWR.DOM_EN bit switches an idle domain off or starts its drain. -/
  | domainDisable (q : Req) (x : Fin 64)
  /-- DOMAIN_ENABLE (spec/18 R380). A write of 1 to a PWR.DOM_EN bit cancels a drain or switches the domain on, subject to MGMT_DIS. -/
  | domainEnable (q : Req) (x : Fin 64)
  /-- DRAIN_DONE (spec/18 R380). A draining domain reaches DATA_VIEW IDLE, goes off and becomes DISABLED. -/
  | drainDone (x : Fin 64)
  /-- DOMAIN_FORCE_OFF (spec/18 R381). A management write of SYS.DOM_FORCE disables the domain's streams and faults the jobs with work in it with FORCED_OFF. -/
  | domainForceOff (q : Req) (x : Fin 64)
  /-- FORCED_OFF_DONE (spec/18 R381). Once the faulted jobs' units in it have stopped, the forced domain goes off and becomes DISABLED. -/
  | forcedOffDone (x : Fin 64)
  /-- KEY_GEN_WRITE (spec/18 R384). A write of KEY.GEN[n] changes the stall's key generation, or is ignored and counted while its job is open or faulted. -/
  | keyGenWrite (q : Req) (n : Fin 9) (value : BitVec 32)
  /-- KEY_SHA256 (spec/18 R385). KEY.CMD OP 1 computes SHA-256 over LEN bytes into DIGEST. -/
  | keySha256 (q : Req)
  /-- KEY_VERIFY (spec/18 R385). KEY.CMD OP 2 checks the image at SRC under R366. -/
  | keyVerify (q : Req)
  /-- KEY_CMD_DONE (spec/18 R385). A key command completes, RESULT is set and DONE is raised. -/
  | keyCmdDone
  /-- BLOCK_LOCK_LOSS (spec/15 R282). A lane that sees 4 framing errors within 64 of its blocks loses block lock, and an ACTIVE port becomes lost. -/
  | blockLockLoss (p : Fin 4)
  /-- PCIE_LINK_UP (spec/15 R311). A host port's PCIe link trains and comes up, setting LINK_STAT.UP and making its bound stalls reachable again. -/
  | pcieLinkUp (p : Fin 2) (speed : BitVec 4) (width : BitVec 8)
  /-- SRIOV_VF_ENABLE (spec/04 R68). The host enables or disables VFs under SR-IOV, changing NUM_VFS and whether stalls bound to those VFs can be reached. -/
  | sriovVfEnable (p : Fin 2) (vfs : Fin 4)
  /-- GRANARY_READY (spec/13 R256). 50 µs after PD52 is switched on, the Granary controller accepts requests, and the waiting requests proceed. -/
  | granaryReady
  deriving DecidableEq, Repr

end Sys2Proof
end

