-- ==== Sys2Proof/Decode.lean ====
section
/-! DEFINITION. The command a word spells. The opcode table gives none of its rows any bits (spec/opcode_table.json: every
row's list of fields is empty), so no word spells a command. -/
namespace Sys2Proof

/-- The command whose row of the opcode table has `nbits` bits of value `w`: none. -/
def decodeTableWord (_nbits _w : Nat) : Option Instr := none

end Sys2Proof
end

