-- ==== Sys2Proof/Machine/Bits.lean ====
section
/-! DEFINITION. Bit fields, sign extension and byte order (spec/00_scope.md R4-R6). -/
namespace Sys2Proof.Machine

/-- Bits `lo + w - 1` down to `lo` of `v`. -/
def bits (v lo w : Nat) : Nat := (v >>> lo) % 2 ^ w

/-- Bit `i` of `v`. -/
def bit (v i : Nat) : Bool := v.testBit i

/-- `v` with its bits `lo + w - 1` down to `lo` replaced by `x`. -/
def setBits (v lo w x : Nat) : Nat := (v >>> (lo + w)) <<< (lo + w) + (x % 2 ^ w) <<< lo + v % 2 ^ lo

/-- `v` with bit `i` set. -/
def setBit (v i : Nat) : Nat := if v.testBit i then v else v + 2 ^ i

/-- `v` with bit `i` clear. -/
def clrBit (v i : Nat) : Nat := if v.testBit i then v - 2 ^ i else v

/-- 1 for true, 0 for false. -/
def b2n (b : Bool) : Nat := if b then 1 else 0

/-- The low `w` bits of `v` read as a two's-complement number. -/
def toSigned (w v : Nat) : Int :=
  let u := v % 2 ^ w
  if 2 * u < 2 ^ w then (u : Int) else (u : Int) - ((2 ^ w : Nat) : Int)

/-- The low `w` bits of the two's-complement encoding of `x`. -/
def ofSigned (w : Nat) (x : Int) : Nat := (x % ((2 ^ w : Nat) : Int)).toNat

/-- `x` clamped to the two's-complement range of `w` bits. -/
def clampSigned (w : Nat) (x : Int) : Int :=
  max (-((2 ^ (w - 1) : Nat) : Int)) (min x (((2 ^ (w - 1) : Nat) : Int) - 1))

/-- A list of bytes read with its first byte least significant (R6). -/
def leNat : List Byte → Nat
  | [] => 0
  | b :: bs => b.toNat + 256 * leNat bs

/-- The `k` low bytes of `v`, least significant first (R6). -/
def leBytes : Nat → Nat → List Byte
  | 0, _ => []
  | k + 1, v => BitVec.ofNat 8 v :: leBytes k (v / 256)

/-- A list of bytes read with its first byte most significant. -/
def beNat (bs : List Byte) : Nat := leNat bs.reverse

/-- The `k` low bytes of `v`, most significant first. -/
def beBytes (k v : Nat) : List Byte := (leBytes k v).reverse

/-- `⌈a ÷ b⌉`. -/
def ceilDiv (a b : Nat) : Nat := (a + b - 1) / b

/-- The numbers below `n` whose bit is set in `m`, rising. -/
def maskList (n m : Nat) : List Nat := (List.range n).filter (fun i => m.testBit i)

/-- The number of set bits among the `n` low bits of `m`. -/
def popcount (n m : Nat) : Nat := (maskList n m).length

/-- A saturating 32-bit count after `k` more. -/
def satAdd (a k : Nat) : Nat := min (a + k) maxWord

end Sys2Proof.Machine
end

