-- ==== Sys2Proof/Machine/Crc.lean ====
section
/-! DEFINITION. The CRC-32C of every checked record (spec/14 R261). -/
namespace Sys2Proof.Machine

/-- One bit of the reflected Castagnoli division: 0x82F63B78 is 0x1EDC6F41 with its bits reversed. -/
def crcStep (c : Nat) : Nat := if c.testBit 0 then (c / 2) ^^^ 0x82F63B78 else c / 2

/-- One byte of it. -/
def crcByte (c : Nat) (b : Byte) : Nat :=
  crcStep (crcStep (crcStep (crcStep (crcStep (crcStep (crcStep (crcStep (c ^^^ b.toNat))))))))

/-- CRC-32C of a list of bytes. -/
def crc32c (bs : List Byte) : Nat := bs.foldl crcByte 0xFFFFFFFF ^^^ 0xFFFFFFFF

/-- A list of bytes, its CRC-32C after it, least significant byte first. -/
def withCrc (bs : List Byte) : List Byte := bs ++ leBytes 4 (crc32c bs)

/-- The `n` bytes from offset `k`. -/
def slice (bs : List Byte) (k n : Nat) : List Byte := (bs.drop k).take n

/-- The little-endian number of `n` bytes at offset `k`. -/
def leAt (bs : List Byte) (k n : Nat) : Nat := leNat (slice bs k n)

/-- `n` zero bytes. -/
def zeros (n : Nat) : List Byte := List.replicate n 0

/-- A list with zero bytes after it up to length `n`. -/
def padTo (n : Nat) (bs : List Byte) : List Byte := bs ++ zeros (n - bs.length)

end Sys2Proof.Machine
end

