-- ==== Sys2Proof/Machine/Crypto.lean ====
section
/-! DEFINITION. The ciphers the spec names by their standards: SHA-256 and ECDSA P-256 (spec/18 R366), AES-256 and
AES-256-XTS (spec/14 R268, spec/18 R383). -/
namespace Sys2Proof.Machine

/-! ## SHA-256 (FIPS 180-4) -/

/-- `v` cut to 32 bits, and rotated right by `k`. -/
def w32 (v : Nat) : Nat := v % 2 ^ 32
def rotr32 (v k : Nat) : Nat := v >>> k ||| w32 (v <<< (32 - k))

/-- Round constant `i`. -/
def shaK (i : Nat) : Nat := bits
  0xc67178f2bef9a3f7a4506ceb90befffa8cc7020884c8781478a5636f748f82ee682e6ff35b9cca4f4ed8aa4a391c0cb334b0bcb52748774c1e376c0819a4c116106aa070f40e3585d6990624d192e819c76c51a3c24b8b70a81a664ba2bfe8a192722c8581c2c92e766a0abb650a735453380d134d2c6dfc2e1b213827b70a851429296706ca6351d5a79147c6e00bf3bf597fc7b00327c8a831c66d983e515276f988da5cb0a9dc4a7484aa2de92c6f240ca1cc0fc19dc6efbe4786e49b69c1c19bf1749bdc06a780deb1fe72be5d74550c7dc3243185be12835b01d807aa98ab1c5ed5923f82a459f111f13956c25be9b5dba5b5c0fbcf71374491428a2f98
  (32 * i) 32

/-- The initial digest. -/
def shaInit : List Nat := [0x6a09e667, 0xbb67ae85, 0x3c6ef372, 0xa54ff53a, 0x510e527f, 0x9b05688c, 0x1f83d9ab, 0x5be0cd19]

/-- One step of the message schedule: the last sixteen words, latest first, take one more. -/
def shaNext (ws : List Nat) : Nat :=
  let w := fun i => ws.getD (i - 1) 0
  let s0 := rotr32 (w 15) 7 ^^^ rotr32 (w 15) 18 ^^^ (w 15) >>> 3
  let s1 := rotr32 (w 2) 17 ^^^ rotr32 (w 2) 19 ^^^ (w 2) >>> 10
  w32 (w 16 + s0 + w 7 + s1)

/-- One round on the working variables a-h with message word `w`. -/
def shaRound (v : List Nat) (w i : Nat) : List Nat :=
  match v with
  | [a, b, c, d, e, f, g, h] =>
    let t1 := h + (rotr32 e 6 ^^^ rotr32 e 11 ^^^ rotr32 e 25) + ((e &&& f) ^^^ ((0xFFFFFFFF - e) &&& g)) + shaK i + w
    let t2 := (rotr32 a 2 ^^^ rotr32 a 13 ^^^ rotr32 a 22) + ((a &&& b) ^^^ (a &&& c) ^^^ (b &&& c))
    [w32 (t1 + t2), a, b, c, w32 (d + t1), e, f, g]
  | _ => v

/-- Rounds from `i` on, `n` of them; `ws` is the schedule, latest first, `pre` the words of the block still to come. -/
def shaRounds : Nat → Nat → List Nat → List Nat → List Nat → List Nat
  | 0, _, _, _, v => v
  | n + 1, i, pre, ws, v =>
    match pre with
    | w :: rest => shaRounds n (i + 1) rest (w :: ws) (shaRound v w i)
    | [] =>
      let w := shaNext ws
      shaRounds n (i + 1) [] (w :: ws.take 15) (shaRound v w i)

/-- The digest after one 64-byte block. -/
def shaBlock (h : List Nat) (blk : List Byte) : List Nat :=
  let ws := (List.range 16).map (fun i => beNat (slice blk (4 * i) 4))
  (h.zip (shaRounds 64 0 ws [] h)).map (fun p => w32 (p.1 + p.2))

/-- The digest after `n` blocks. -/
def shaBlocks : Nat → List Nat → List Byte → List Nat
  | 0, h, _ => h
  | n + 1, h, bs => shaBlocks n (shaBlock h (bs.take 64)) (bs.drop 64)

/-- SHA-256 of a list of bytes, in the order the standard produces. -/
def sha256 (bs : List Byte) : List Byte :=
  let n := bs.length
  let z := (119 - n % 64) % 64
  let m := bs ++ [0x80] ++ zeros z ++ beBytes 8 (8 * n)
  (shaBlocks (m.length / 64) shaInit m).flatMap (beBytes 4)

/-! ## AES-256 (FIPS 197) -/

/-- The S-box and its inverse, entry `x`. -/
def aesS (x : Nat) : Nat := bits
  0x16bb54b00f2d99416842e6bf0d89a18cdf2855cee9871e9b948ed9691198f8e19e1dc186b95735610ef6034866b53e708a8bbd4b1f74dde8c6b4a61c2e2578ba08ae7a65eaf4566ca94ed58d6d37c8e779e4959162acd3c25c2406490a3a32e0db0b5ede14b8ee4688902a22dc4f816073195d643d7ea7c41744975fec130ccdd2f3ff1021dab6bcf5389d928f40a351a89f3c507f02f94585334d43fbaaefd0cf584c4a39becb6a5bb1fc20ed00d153842fe329b3d63b52a05a6e1b1a2c830975b227ebe28012079a059618c323c7041531d871f1e5a534ccf73f362693fdb7c072a49cafa2d4adf04759fa7dc982ca76abd7fe2b670130c56f6bf27b777c63
  (8 * x) 8
def aesSInv (x : Nat) : Nat := bits
  0x7d0c2155631469e126d677ba7e042b17619953833cbbebc8b0f52aae4d3be0a0ef9cc9939f7ae52d0d4ab519a97f51605fec8027591012b131c7078833a8dd1ff45acd78fec0db9a2079d2c64b3e56fc1bbe18aa0e62b76f89c5291d711af1476edf751ce837f9e28535ade72274ac9673e6b4f0cecff297eadc674f4111913a6b8a130103bdafc1020f3fca8f1e2cd00645b3b80558e4f70ad3bc8c00abd890849d8da75746155edab9edfd5048706c92b6655dcc5ca4d41698688664f6f87225d18b6d49a25b76b224d92866a12e084ec3fa420b954cee3d23c2a632947b54cbe9dec444438e3487ff2f9b8239e37cfbd7f3819ea340bf38a53630d56a0952
  (8 * x) 8

/-- Twice `x` in the field of AES, and the product of two elements. -/
def xtime (x : Nat) : Nat := if 128 ≤ x then (2 * x) % 256 ^^^ 0x1B else 2 * x
def gmul (a b : Nat) : Nat :=
  (List.range 8).foldl (fun (s : Nat × Nat) i => (if b.testBit i then s.1 ^^^ s.2 else s.1, xtime s.2)) (0, a) |>.1

/-- Exclusive or of two lists of bytes. -/
def xorB (a b : List Nat) : List Nat := (a.zip b).map (fun p => p.1 ^^^ p.2)

/-- The next four bytes of the key schedule; `i` counts words, `ws` holds the words so far, latest first. -/
def aesKeyWord (i : Nat) (ws : List (List Nat)) : List Nat :=
  let t := ws.getD 0 []
  let sub := fun (l : List Nat) => l.map aesS
  let t := if i % 8 = 0 then xorB (sub (t.drop 1 ++ t.take 1)) [2 ^ (i / 8 - 1), 0, 0, 0]
    else if i % 8 = 4 then sub t else t
  xorB (ws.getD 7 []) t

/-- `n` further words of the key schedule. -/
def aesExpand : Nat → Nat → List (List Nat) → List (List Nat)
  | 0, _, ws => ws
  | n + 1, i, ws => aesExpand n (i + 1) (aesKeyWord i ws :: ws)

/-- The fifteen round keys of a 32-byte key, 16 bytes each, in order. -/
def aesKeys (key : List Nat) : List (List Nat) :=
  let ws := (List.range 8).map (fun i => (key.drop (4 * i)).take 4)
  let all := (aesExpand 52 8 ws.reverse).reverse
  (List.range 15).map (fun r => (all.drop (4 * r)).take 4 |>.flatten)

/-- A column transform by the circulant whose first row is given. -/
def mixColumn (m : List Nat) (c : List Nat) : List Nat :=
  (List.range 4).map (fun r => (List.range 4).foldl (fun s k => s ^^^ gmul (m.getD ((k + 4 - r) % 4) 0) (c.getD k 0)) 0)

/-- It, on the four columns of a state. -/
def mixState (m : List Nat) (s : List Nat) : List Nat :=
  (List.range 4).flatMap (fun c => mixColumn m ((s.drop (4 * c)).take 4))

/-- ShiftRows by `k` columns per row: 1 to encrypt, 3 to decrypt. -/
def shiftRows (k : Nat) (s : List Nat) : List Nat :=
  (List.range 16).map (fun i => s.getD ((4 * (i / 4 + k * (i % 4)) + i % 4) % 16) 0)

/-- The rounds of an encryption after the first key has been added. -/
def aesRounds : List (List Nat) → List Nat → List Nat
  | [], s => s
  | [k], s => xorB (shiftRows 1 (s.map aesS)) k
  | k :: ks, s => aesRounds ks (xorB (mixState [2, 3, 1, 1] (shiftRows 1 (s.map aesS))) k)

/-- The rounds of a decryption: round keys from the last but one back to the first. -/
def aesUnrounds : List (List Nat) → List Nat → List Nat
  | [], s => s
  | [k], s => xorB ((shiftRows 3 s).map aesSInv) k
  | k :: ks, s => aesUnrounds ks (mixState [14, 11, 13, 9] (xorB ((shiftRows 3 s).map aesSInv) k))

/-- AES-256 of a 16-byte block under expanded keys, and its inverse. -/
def aesEnc (ks : List (List Nat)) (b : List Nat) : List Nat := aesRounds (ks.drop 1) (xorB b (ks.headD []))
def aesDec (ks : List (List Nat)) (b : List Nat) : List Nat :=
  aesUnrounds (ks.reverse.drop 1) (xorB b (ks.getLastD []))

/-! ## XTS (IEEE 1619; spec/14 R268) -/

/-- The bytes of a number, least significant first, and back. -/
def natLe (k v : Nat) : List Nat := (leBytes k v).map BitVec.toNat
def leOf (l : List Nat) : Nat := l.foldr (fun b s => b + 256 * s) 0

/-- The next block's tweak. -/
def xtsAlpha (t : Nat) : Nat := if 2 ^ 127 ≤ t then (2 * t) % 2 ^ 128 ^^^ 0x87 else 2 * t

/-- `n` blocks of a data unit, with tweak `t` for the first. -/
def xtsBlocks (f : List Nat → List Nat) : Nat → Nat → List Nat → List Nat
  | 0, _, _ => []
  | n + 1, t, bs =>
    let tb := natLe 16 t
    xorB (f (xorB (bs.take 16) tb)) tb ++ xtsBlocks f n (xtsAlpha t) (bs.drop 16)

/-- One data unit: `enc` with the data key's rounds, the tweak block under the tweak key. -/
def xtsUnit (f : List Nat → List Nat) (tweakKeys : List (List Nat)) (tweak : Nat) (bs : List Nat) : List Nat :=
  xtsBlocks f (bs.length / 16) (leOf (aesEnc tweakKeys (natLe 16 tweak))) bs

/-- Data units of 4,096 bytes from unit `u` on: NONCE in tweak bytes 0-7, u in bytes 8-11 (R268). -/
def xtsUnits (f : List Nat → List Nat) (tweakKeys : List (List Nat)) (nonce : Nat) : Nat → Nat → List Nat → List Nat
  | 0, _, _ => []
  | n + 1, u, bs => xtsUnit f tweakKeys (nonce + u % 2 ^ 32 * 2 ^ 64) (bs.take 4096) ++
      xtsUnits f tweakKeys nonce n (u + 1) (bs.drop 4096)

/-- A body under a key pair, encrypted or decrypted; whole data units from unit 0. -/
def xtsBody (enc : Bool) (key tweakKey : List Nat) (nonce : Nat) (bs : List Byte) : List Byte :=
  let ks := aesKeys key
  let f := if enc then aesEnc ks else aesDec ks
  (xtsUnits f (aesKeys tweakKey) nonce (ceilDiv bs.length 4096) 0 (bs.map BitVec.toNat)).map (BitVec.ofNat 8)

/-- The key pair of stall `n` at generation `gen` under the root key, byte 0 in its most significant bits (R383). -/
def stallKeys (root : BitVec 256) (n gen : Nat) : List Nat × List Nat :=
  let ks := aesKeys ((beBytes 32 root.toNat).map BitVec.toNat)
  let b := fun j => aesEnc ks (natLe 16 (0x4B455953 + n * 2 ^ 32 + j * 2 ^ 40 + gen * 2 ^ 64))
  (b 0 ++ b 1, b 2 ++ b 3)

/-! ## ECDSA on P-256 (FIPS 186-5) -/

def p256P : Nat := 0xFFFFFFFF00000001000000000000000000000000FFFFFFFFFFFFFFFFFFFFFFFF
def p256N : Nat := 0xFFFFFFFF00000000FFFFFFFFFFFFFFFFBCE6FAADA7179E84F3B9CAC2FC632551
def p256B : Nat := 0x5AC635D8AA3A93E7B3EBBD55769886BC651D06B0CC53B0F63BCE3C3E27D2604B
def p256G : Nat × Nat :=
  (0x6B17D1F2E12C4247F8BCE6E563A440F277037D812DEB33A0F4A13945D898C296,
   0x4FE342E2FE1A7F9B8EE7EB4A7C0F9E162BCE33576B315ECECBB6406837BF51F5)

/-- `a - b` modulo `m`. -/
def subMod (m a b : Nat) : Nat := (a + m - b % m) % m

/-- `a` to the power of the `n` low bits of `e`, modulo `m`. -/
def powMod (m a e : Nat) : Nat → Nat
  | 0 => 1 % m
  | n + 1 =>
    let h := powMod m (a * a % m) (e / 2) n
    if e % 2 = 1 then h * a % m else h

/-- The inverse of `a` modulo the prime `m`. -/
def invMod (m a : Nat) : Nat := powMod m a (m - 2) 256

/-- A point in Jacobian coordinates; z = 0 is the point at infinity. -/
abbrev JPoint := Nat × Nat × Nat

/-- Twice a point. -/
def jDouble (q : JPoint) : JPoint :=
  let (x, y, z) := q
  let m := p256P
  let zz := z * z % m
  let s := 4 * x * (y * y % m) % m
  let t := 3 * (subMod m x zz * ((x + zz) % m)) % m
  let x' := subMod m (t * t % m) (2 * s)
  (x', subMod m (t * subMod m s x' % m) (8 * (y * y % m) * (y * y % m) % m), 2 * y * z % m)

/-- The sum of two points. -/
def jAdd (q r : JPoint) : JPoint :=
  let (x1, y1, z1) := q
  let (x2, y2, z2) := r
  let m := p256P
  if z1 = 0 then r else if z2 = 0 then q
  else
    let u1 := x1 * (z2 * z2 % m) % m
    let u2 := x2 * (z1 * z1 % m) % m
    let s1 := y1 * (z2 * z2 % m * z2 % m) % m
    let s2 := y2 * (z1 * z1 % m * z1 % m) % m
    if u1 = u2 then if s1 = s2 then jDouble q else (1, 1, 0)
    else
      let h := subMod m u2 u1
      let t := subMod m s2 s1
      let hh := h * h % m
      let x3 := subMod m (subMod m (t * t % m) (hh * h % m)) (2 * (u1 * hh % m))
      (x3, subMod m (t * subMod m (u1 * hh % m) x3 % m) (s1 * (hh * h % m) % m), h * z1 % m * z2 % m)

/-- The multiple of a point by the `n` low bits of `k`. -/
def jMul (q : JPoint) (k : Nat) : Nat → JPoint
  | 0 => (1, 1, 0)
  | n + 1 =>
    let h := jMul (jDouble q) (k / 2) n
    if k % 2 = 1 then jAdd h q else h

/-- Whether (x, y) is a point of the curve. -/
def onCurve (x y : Nat) : Bool :=
  decide (x < p256P ∧ y < p256P) && (y * y % p256P == subMod p256P ((x * x % p256P * x + p256B) % p256P) (3 * x))

/-- Whether (r, s) signs the message whose SHA-256 digest is `e` under public key (x, y). -/
def ecdsaOk (e r s x y : Nat) : Bool :=
  if 0 < r ∧ r < p256N ∧ 0 < s ∧ s < p256N ∧ onCurve x y then
    let w := invMod p256N s
    let (px, _, pz) := jAdd (jMul (p256G.1, p256G.2, 1) (e * w % p256N) 256) (jMul (x, y, 1) (r * w % p256N) 256)
    if pz = 0 then false
    else
      let zi := invMod p256P pz
      px * (zi * zi % p256P) % p256P % p256N == r
  else false

end Sys2Proof.Machine
end

