-- ==== Sys2Proof/Machine/NMap.lean ====
section
/-! DEFINITION. A map from the natural numbers kept as plain data: (key, value) pairs, keys strictly rising, no pair
equal to what an unlisted key reads as. It holds the memories, the register bank and every other indexed table. -/
namespace Sys2Proof.Machine

/-- The listed cells of a map; what an unlisted key reads as is given where the map is read. -/
structure NMap (α : Type) where
  cells : List (Nat × α)
  deriving DecidableEq, Repr

/-- The map that lists nothing. -/
def NMap.empty {α : Type} : NMap α := ⟨[]⟩

/-- The value listed at key `k`. -/
def findCell {α : Type} : List (Nat × α) → Nat → Option α
  | [], _ => none
  | (j, v) :: cs, k => if j = k then some v else findCell cs k

/-- The list with `k` mapped to `v`. -/
def putCell {α : Type} : List (Nat × α) → Nat → α → List (Nat × α)
  | [], k, v => [(k, v)]
  | (j, u) :: cs, k, v =>
    if k < j then (k, v) :: (j, u) :: cs
    else if j = k then (k, v) :: cs
    else (j, u) :: putCell cs k v

/-- The list without key `k`. -/
def dropCell {α : Type} (cs : List (Nat × α)) (k : Nat) : List (Nat × α) := cs.filter (fun c => c.1 != k)

/-- The value at key `k`, `dflt k` where none is listed. -/
def NMap.get {α : Type} (dflt : Nat → α) (m : NMap α) (k : Nat) : α := (findCell m.cells k).getD (dflt k)

/-- The map with `k` mapped to `v`; a value equal to the default is not listed. -/
def NMap.set {α : Type} [DecidableEq α] (dflt : Nat → α) (m : NMap α) (k : Nat) (v : α) : NMap α :=
  if v = dflt k then ⟨dropCell m.cells k⟩ else ⟨putCell m.cells k v⟩

/-- The map with only the listed cells whose key satisfies `p`. -/
def NMap.keep {α : Type} (p : Nat → Bool) (m : NMap α) : NMap α := ⟨m.cells.filter (fun c => p c.1)⟩

/-- Every key of the list is above `k`, and the keys rise strictly. -/
def risingFrom {α : Type} : Nat → List (Nat × α) → Bool
  | _, [] => true
  | k, (j, _) :: cs => decide (k ≤ j) && risingFrom (j + 1) cs

/-- The canonical form: keys strictly rising, no listed value equal to the default of its key. -/
def NMap.wf {α : Type} [DecidableEq α] (dflt : Nat → α) (m : NMap α) : Bool :=
  risingFrom 0 m.cells && m.cells.all (fun c => decide (c.2 ≠ dflt c.1))

end Sys2Proof.Machine
end

