-- ==== Sys2Proof/Config.lean ====
section
/-! DEFINITION. What one ZG4832 is built or strapped with, and the values the spec leaves open. Every constant here is
opaque: no proof can see its value, so a claim holds whatever it is. -/
namespace Sys2Proof.Config

/-! ## Fuses (spec/18 R382, spec/20 Table 20-2) -/

/-- The grade fuse: 0 = -C, 1 = -I (spec/00 R2). -/
opaque fuseGrade : BitVec 1

/-- The 256-bit root key, usable only inside the security engine (R382). -/
opaque fuseRootKey : BitVec 256

/-- Whether the root key has been programmed (KEY.FUSE_STAT.ROOT_OK). -/
opaque fuseRootOk : Bool

/-- The revocation bits of the four public-key hashes (KEY.FUSE_STAT.REVOKED). -/
opaque fuseRevoked : BitVec 4

/-- The 64-bit device identifier (KEY.DEV_UID). -/
opaque fuseDevUid : BitVec 64

/-- Public-key hash slot `k`, the digest's byte 0 in the most significant bits (KEY.PKH). -/
opaque fusePkh : Nat → BitVec 256

/-- The provisional ID that GETPID returns (spec/18 R375). -/
opaque i3cPid : BitVec 48

/-! ## Mask ROM and images -/

/-- The epoch of the Granary service routine in this stepping's mask ROM (spec/18 R369). -/
opaque gsrEpoch : BitVec 16

/-! ## Free values -/

/-- The value of the `k`-th open choice the machine meets: a value the spec states only a bound for, or none. -/
opaque freeValue : Nat → BitVec 64

/-- Which clocks have an edge at the `k`-th tick: bit 0 the reference (ACLK), bit 1 the Barn RC. -/
opaque freeTick : Nat → BitVec 2

end Sys2Proof.Config
end

