-- ==== Sys2Proof/Machine/RegTable.lean ====
section
/-! DEFINITION. The register pages: every register and field of the spec's register tables, with its offset,
width, access code, writers and reset value, and a named constant for each (spec/20_register_page_map.md
R404-R406 for the pages; each page's own chapter for its fields). -/
namespace Sys2Proof.Machine

/-- The access codes of spec/00_scope.md Table 00-2 (R13). -/
inductive Access where
  | ro | rw | w1c | w1s | wo | rwl
  deriving DecidableEq, Repr

/-- The page kinds of spec/20_register_page_map.md Table 20-1 (R404). -/
inductive PageKind where
  | sys | barn | pwr | thm | clk | rck | win | trn | cel | grn | bal | seq | tly | key
  | stl | trg | thr | hop | sft | fur | pci | aud | sil
  deriving DecidableEq, Repr

/-- A field of a register: the byte offset of its word in BAR0, its lowest bit, its width. A field of a wide
register runs on through the words that follow (R9). -/
structure Fld where
  addr : Nat
  lo : Nat
  width : Nat
  deriving DecidableEq, Repr

/-- One field of the register tables: `s`, `m`, `n` say whether the Steward, management and the page's own
stall may write it. -/
structure FieldRow where
  name : String
  lo : Nat
  width : Nat
  acc : Access
  s : Bool
  m : Bool
  n : Bool
  reset : Nat
  deriving DecidableEq, Repr

/-- One register of the register tables: `count` copies, `stride` bytes apart; `first` marks a register that only
instance 0 of the page has; `words` 32-bit words. -/
structure RegRow where
  name : String
  off : Nat
  count : Nat
  stride : Nat
  first : Bool
  words : Nat
  fields : List FieldRow
  deriving DecidableEq, Repr

/-- The registers of the common header (spec chapter 20 Table 20-2). -/
def rowsHdr : List RegRow :=
  [
   ⟨"PCTL", 0xc, 1, 0, false, 1,
    [⟨"LOCK", 0, 1, .w1s, true, true, false, 0⟩,
     ⟨"PERR_CLR", 1, 1, .wo, true, true, false, 0⟩]⟩,
   ⟨"PIRQ_RAW", 0x10, 1, 0, false, 1,
    [⟨"RAW", 0, 32, .ro, false, false, false, 0⟩]⟩,
   ⟨"PIRQ_EN", 0x14, 1, 0, false, 1,
    [⟨"EN", 0, 32, .rw, true, false, false, 0⟩]⟩,
   ⟨"PIRQ_STAT", 0x18, 1, 0, false, 1,
    [⟨"STAT", 0, 32, .w1c, true, false, false, 0⟩]⟩,
   ⟨"POWNER", 0x1c, 1, 0, false, 1,
    [⟨"STALL", 0, 4, .ro, false, false, false, 15⟩]⟩,
   ⟨"PERR_COUNT", 0x20, 1, 0, false, 1,
    [⟨"COUNT", 0, 32, .ro, false, false, false, 0⟩]⟩,
   ⟨"PERR_FIRST", 0x24, 1, 0, false, 1,
    [⟨"OFFSET", 0, 12, .ro, false, false, false, 0⟩,
     ⟨"REQ", 12, 4, .ro, false, false, false, 0⟩,
     ⟨"CAUSE", 16, 3, .ro, false, false, false, 0⟩,
     ⟨"PAGE", 24, 7, .ro, false, false, false, 0⟩]⟩]

/-- The registers of page SYS (spec chapter 18 Table 18-7, 19 Table 19-5). -/
def rowsSys : List RegRow :=
  [
   ⟨"IF_EPOCH", 0x40, 1, 0, false, 1,
    [⟨"EPOCH", 0, 16, .ro, false, false, false, 0⟩]⟩,
   ⟨"IF_EPOCH_MIN", 0x44, 1, 0, false, 1,
    [⟨"EPOCH", 0, 16, .ro, false, false, false, 0⟩]⟩,
   ⟨"LIMP_CAUSE", 0x48, 1, 0, false, 1,
    [⟨"CAUSE", 0, 3, .ro, false, false, false, 1⟩]⟩,
   ⟨"LIMP_CTL", 0x4c, 1, 0, false, 1,
    [⟨"ENTER", 0, 3, .wo, true, true, false, 0⟩,
     ⟨"READY", 8, 1, .wo, true, false, false, 0⟩]⟩,
   ⟨"BOOT_STAT", 0x50, 1, 0, false, 1,
    [⟨"SLOT", 0, 1, .ro, false, false, false, 0⟩,
     ⟨"A_BAD", 1, 1, .ro, false, false, false, 0⟩,
     ⟨"B_BAD", 2, 1, .ro, false, false, false, 0⟩,
     ⟨"TSM_OK", 3, 1, .ro, false, false, false, 0⟩,
     ⟨"RECOVERY", 4, 1, .ro, false, false, false, 0⟩,
     ⟨"KIND", 5, 2, .ro, false, false, false, 0⟩,
     ⟨"GSR_EPOCH", 16, 16, .ro, false, false, false, 0⟩]⟩,
   ⟨"TSM_EPOCH", 0x54, 1, 0, false, 1,
    [⟨"EPOCH", 0, 16, .ro, false, false, false, 0⟩]⟩,
   ⟨"PWR_CMD", 0x58, 1, 0, false, 1,
    [⟨"CMD", 0, 3, .wo, true, true, true, 0⟩,
     ⟨"FORCE", 8, 1, .wo, true, true, true, 0⟩]⟩,
   ⟨"RESET_CMD", 0x5c, 1, 0, false, 1,
    [⟨"STEWARD", 0, 1, .wo, false, true, false, 0⟩,
     ⟨"WARM", 1, 1, .wo, false, true, false, 0⟩,
     ⟨"BOOT_B", 2, 1, .wo, false, true, false, 0⟩,
     ⟨"STALLS", 8, 9, .wo, true, true, false, 0⟩]⟩,
   ⟨"DOM_FORCE", 0x60, 1, 0, false, 2,
    [⟨"W", 0, 64, .wo, false, true, false, 0⟩]⟩,
   ⟨"MGMT_DIS", 0x68, 1, 0, false, 2,
    [⟨"W", 0, 64, .ro, false, false, false, 0⟩]⟩,
   ⟨"MGMT_IRQ_EN", 0x70, 1, 0, false, 1,
    [⟨"EN", 0, 7, .rw, false, true, false, 0⟩]⟩,
   ⟨"MGMT_IRQ_STAT", 0x74, 1, 0, false, 1,
    [⟨"LIMP", 0, 1, .w1c, true, true, false, 0⟩,
     ⟨"FAULT", 1, 1, .w1c, true, true, false, 0⟩,
     ⟨"THERMAL", 2, 1, .w1c, true, true, false, 0⟩,
     ⟨"WAKE", 3, 1, .w1c, true, true, false, 0⟩,
     ⟨"LOSS", 4, 1, .w1c, true, true, false, 0⟩,
     ⟨"UPD", 5, 1, .w1c, true, true, false, 0⟩,
     ⟨"DISAGREE", 6, 1, .w1c, true, true, false, 0⟩]⟩] ++ [
   ⟨"UPD_CTL", 0x80, 1, 0, false, 1,
    [⟨"OP", 0, 2, .wo, true, true, false, 0⟩,
     ⟨"TARGET", 2, 2, .wo, true, true, false, 0⟩,
     ⟨"HOST_OK", 8, 1, .rw, false, true, false, 0⟩]⟩,
   ⟨"UPD_LEN", 0x84, 1, 0, false, 1,
    [⟨"BYTES", 0, 21, .rw, true, true, false, 0⟩]⟩,
   ⟨"UPD_CHUNK", 0x88, 1, 0, false, 1,
    [⟨"OFFSET", 0, 21, .wo, true, true, false, 0⟩]⟩,
   ⟨"UPD_STAT", 0x8c, 1, 0, false, 1,
    [⟨"STATE", 0, 2, .ro, false, false, false, 0⟩,
     ⟨"RESULT", 8, 8, .ro, false, false, false, 0⟩,
     ⟨"CHUNKS", 16, 16, .ro, false, false, false, 0⟩]⟩,
   ⟨"MTIMECMP", 0xa0, 1, 0, false, 2,
    [⟨"W", 0, 64, .rw, true, false, false, 18446744073709551615⟩]⟩,
   ⟨"MSIP", 0xa8, 1, 0, false, 1,
    [⟨"MSIP", 0, 1, .rw, true, false, false, 0⟩]⟩,
   ⟨"IRQ_PEND", 0xc0, 1, 0, false, 4,
    [⟨"W", 0, 128, .ro, false, false, false, 0⟩]⟩,
   ⟨"WDOG_CTL", 0xd0, 1, 0, false, 1,
    [⟨"PERIOD", 0, 16, .rwl, true, false, false, 250⟩,
     ⟨"EN", 16, 1, .rwl, true, false, false, 1⟩]⟩,
   ⟨"WDOG_KICK", 0xd4, 1, 0, false, 1,
    [⟨"KEY", 0, 16, .wo, true, false, false, 0⟩]⟩,
   ⟨"WDOG_COUNT", 0xd8, 1, 0, false, 1,
    [⟨"COUNT", 0, 32, .ro, false, false, false, 0⟩]⟩,
   ⟨"RESET_CAUSE", 0xdc, 1, 0, false, 1,
    [⟨"CAUSE", 0, 4, .ro, false, false, false, 0⟩,
     ⟨"REPEAT", 8, 4, .ro, false, false, false, 0⟩]⟩,
   ⟨"FATAL_COUNT", 0xe0, 1, 0, false, 1,
    [⟨"COUNT", 0, 32, .ro, false, false, false, 0⟩]⟩] ++ [
   ⟨"ALIVE_STAT", 0xe4, 1, 0, false, 1,
    [⟨"TOGGLING", 0, 1, .ro, false, false, false, 0⟩]⟩,
   ⟨"UPD_WIN", 0x800, 512, 4, false, 1,
    [⟨"W", 0, 32, .rw, true, true, true, 0⟩]⟩]

/-- The registers of page BARN (spec chapter 17). -/
def rowsBarn : List RegRow :=
  [
   ⟨"WAKE_EN", 0x40, 1, 0, false, 1,
    [⟨"LANE", 0, 4, .rw, true, false, false, 15⟩,
     ⟨"KNOCK", 4, 4, .rw, true, false, false, 15⟩,
     ⟨"PCI", 8, 2, .rw, true, false, false, 3⟩,
     ⟨"AUD", 10, 4, .rw, true, false, false, 0⟩,
     ⟨"I3C", 14, 1, .rw, true, false, false, 1⟩,
     ⟨"TIMER", 15, 1, .rw, true, false, false, 1⟩]⟩,
   ⟨"WAKE_STAT", 0x44, 1, 0, false, 1,
    [⟨"CAUSE", 0, 4, .ro, false, false, false, 0⟩,
     ⟨"PORT", 4, 4, .ro, false, false, false, 0⟩,
     ⟨"CRIT", 8, 1, .w1c, true, false, false, 0⟩,
     ⟨"RAIL_FAIL", 9, 1, .w1c, true, false, false, 0⟩]⟩,
   ⟨"PENDING", 0x48, 1, 0, false, 1,
    [⟨"EVENTS", 0, 16, .ro, false, false, false, 0⟩]⟩,
   ⟨"WIN_LOST_COUNT", 0x4c, 1, 0, false, 1,
    [⟨"COUNT", 0, 32, .ro, false, false, false, 0⟩]⟩,
   ⟨"WAKE_MASK", 0x50, 1, 0, false, 2,
    [⟨"W", 0, 64, .rw, true, false, false, 18446744073709551615⟩]⟩,
   ⟨"KNOCK_MASK", 0x58, 1, 0, false, 2,
    [⟨"W", 0, 64, .ro, false, false, false, 0⟩]⟩,
   ⟨"PAD_CFG", 0x60, 1, 0, false, 1,
    [⟨"FLOAT", 0, 2, .rw, true, false, false, 0⟩]⟩,
   ⟨"PAD_RELEASE", 0x64, 1, 0, false, 1,
    [⟨"GROUP", 0, 5, .wo, true, false, false, 0⟩]⟩,
   ⟨"PAD_STAT", 0x68, 1, 0, false, 1,
    [⟨"HELD", 0, 5, .ro, false, false, false, 0⟩]⟩,
   ⟨"TIMER", 0x6c, 1, 0, false, 1,
    [⟨"CYC", 0, 32, .rw, true, false, false, 0⟩]⟩,
   ⟨"SAVE_STAT", 0x70, 1, 0, false, 1,
    [⟨"VALID", 0, 1, .ro, false, false, false, 0⟩,
     ⟨"RESTORED", 1, 1, .ro, false, false, false, 0⟩,
     ⟨"CRC_FAIL", 2, 1, .w1c, true, false, false, 0⟩]⟩,
   ⟨"WAKE_COUNT", 0x74, 1, 0, false, 1,
    [⟨"COUNT", 0, 32, .ro, false, false, false, 0⟩]⟩]

/-- The registers of page PWR (spec chapter 17). -/
def rowsPwr : List RegRow :=
  [
   ⟨"STAT", 0x40, 1, 0, false, 1,
    [⟨"STATE", 0, 3, .ro, false, false, false, 0⟩,
     ⟨"REFUSE", 4, 3, .ro, false, false, false, 0⟩]⟩,
   ⟨"CTL", 0x44, 1, 0, false, 1,
    [⟨"ENTRY_ACK", 0, 1, .wo, true, false, false, 0⟩,
     ⟨"AUTO_DORMANT", 1, 1, .rw, true, false, false, 1⟩,
     ⟨"CELLAR_SR", 2, 1, .rw, true, false, false, 1⟩]⟩,
   ⟨"HOST_PWR", 0x48, 1, 0, false, 1,
    [⟨"STALLS", 1, 8, .rwl, true, true, false, 0⟩]⟩,
   ⟨"IDLE_TIMER", 0x4c, 1, 0, false, 1,
    [⟨"CYC", 0, 16, .rw, true, false, false, 4096⟩]⟩,
   ⟨"DEV_IDLE", 0x50, 1, 0, false, 1,
    [⟨"MS", 0, 16, .rw, true, false, false, 500⟩]⟩,
   ⟨"ACK_TIMEOUT", 0x54, 1, 0, false, 1,
    [⟨"MS", 0, 8, .rw, true, false, false, 10⟩]⟩,
   ⟨"DOM_EN", 0x58, 1, 0, false, 2,
    [⟨"W", 0, 64, .rw, true, true, false, 18446744073709551615⟩]⟩,
   ⟨"DOM_ON", 0x60, 1, 0, false, 2,
    [⟨"W", 0, 64, .ro, false, false, false, 18446744073709551615⟩]⟩,
   ⟨"DOM_GATED", 0x68, 1, 0, false, 2,
    [⟨"W", 0, 64, .ro, false, false, false, 0⟩]⟩,
   ⟨"DORM_RET", 0x70, 1, 0, false, 1,
    [⟨"BANKS", 0, 16, .rw, true, false, false, 0⟩]⟩,
   ⟨"REFUSE_COUNT", 0x74, 1, 0, false, 1,
    [⟨"COUNT", 0, 32, .ro, false, false, false, 0⟩]⟩,
   ⟨"ACK_LATE_COUNT", 0x78, 1, 0, false, 1,
    [⟨"COUNT", 0, 32, .ro, false, false, false, 0⟩]⟩] ++ [
   ⟨"REG_CFG", 0x80, 4, 16, false, 1,
    [⟨"ADDR", 0, 7, .rw, true, false, false, 0⟩,
     ⟨"EN", 7, 1, .rw, true, false, false, 0⟩,
     ⟨"RAIL", 8, 3, .rw, true, false, false, 0⟩,
     ⟨"VOUT_MODE", 16, 5, .ro, false, false, false, 0⟩]⟩,
   ⟨"REG_MV", 0x84, 4, 16, false, 1,
    [⟨"RUN_MV", 0, 16, .rw, true, false, false, 0⟩,
     ⟨"FALLOW_MV", 16, 16, .rw, true, false, false, 0⟩]⟩,
   ⟨"REG_ACK", 0x88, 4, 16, false, 1,
    [⟨"VOUT_ACK", 0, 16, .ro, false, false, false, 0⟩,
     ⟨"STAT", 16, 2, .ro, false, false, false, 0⟩]⟩,
   ⟨"REG_FAIL", 0x8c, 4, 16, false, 1,
    [⟨"ACK_FAIL_COUNT", 0, 32, .ro, false, false, false, 0⟩]⟩,
   ⟨"DVFS_CTL", 0xc0, 1, 0, false, 1,
    [⟨"STEP", 0, 2, .wo, true, false, false, 0⟩,
     ⟨"MV", 16, 16, .wo, true, false, false, 0⟩]⟩,
   ⟨"DVFS_STAT", 0xc4, 1, 0, false, 1,
    [⟨"BUSY", 0, 1, .ro, false, false, false, 0⟩,
     ⟨"DONE", 1, 1, .w1c, true, false, false, 0⟩,
     ⟨"FAIL", 2, 1, .w1c, true, false, false, 0⟩]⟩]

/-- The registers of page THM (spec chapter 17). -/
def rowsThm : List RegRow :=
  [
   ⟨"STAT", 0x40, 1, 0, false, 1,
    [⟨"WARN", 0, 1, .ro, false, false, false, 0⟩,
     ⟨"THROTTLE", 1, 1, .ro, false, false, false, 0⟩,
     ⟨"CRIT", 2, 1, .ro, false, false, false, 0⟩,
     ⟨"SENSOR_FAULT", 3, 1, .w1c, true, false, false, 0⟩]⟩,
   ⟨"THRESH", 0x44, 1, 0, false, 1,
    [⟨"WARN", 0, 8, .rwl, true, false, false, 95⟩,
     ⟨"THROTTLE", 8, 8, .rwl, true, false, false, 100⟩,
     ⟨"CRIT", 16, 8, .ro, false, false, false, 110⟩]⟩,
   ⟨"HOT", 0x48, 1, 0, false, 1,
    [⟨"VALUE", 0, 16, .ro, false, false, false, 0⟩,
     ⟨"SENSOR", 16, 4, .ro, false, false, false, 0⟩]⟩,
   ⟨"LOAD", 0x4c, 1, 0, false, 1,
    [⟨"RT_LOAD", 0, 16, .ro, false, false, false, 0⟩,
     ⟨"RT_LIMIT", 16, 16, .rw, true, false, false, 49152⟩]⟩,
   ⟨"CAP", 0x50, 1, 0, false, 1,
    [⟨"STEP", 0, 2, .ro, false, false, false, 0⟩]⟩,
   ⟨"CRIT_HOLD", 0x54, 1, 0, false, 1,
    [⟨"MS", 0, 16, .rw, true, false, false, 1000⟩]⟩,
   ⟨"WARN_SET", 0x58, 1, 0, false, 1,
    [⟨"COUNT", 0, 32, .ro, false, false, false, 0⟩]⟩,
   ⟨"WARN_CLR", 0x5c, 1, 0, false, 1,
    [⟨"COUNT", 0, 32, .ro, false, false, false, 0⟩]⟩,
   ⟨"THR_SET", 0x60, 1, 0, false, 1,
    [⟨"COUNT", 0, 32, .ro, false, false, false, 0⟩]⟩,
   ⟨"THR_CLR", 0x64, 1, 0, false, 1,
    [⟨"COUNT", 0, 32, .ro, false, false, false, 0⟩]⟩,
   ⟨"CRIT_SET", 0x68, 1, 0, false, 1,
    [⟨"COUNT", 0, 32, .ro, false, false, false, 0⟩]⟩,
   ⟨"STEP_COUNT", 0x6c, 1, 0, false, 1,
    [⟨"COUNT", 0, 32, .ro, false, false, false, 0⟩]⟩] ++ [
   ⟨"TEMP", 0x80, 12, 4, false, 1,
    [⟨"VALUE", 0, 16, .ro, false, false, false, 0⟩]⟩]

/-- The registers of page CLK (spec chapter 02 Table 02-5). -/
def rowsClk : List RegRow :=
  [
   ⟨"REF_STAT", 0x40, 1, 0, false, 1,
    [⟨"PRESENT", 0, 1, .ro, false, false, false, 0⟩,
     ⟨"FAMILY", 1, 1, .ro, false, false, false, 0⟩,
     ⟨"MISMATCH", 2, 1, .ro, false, false, false, 0⟩,
     ⟨"MEAS", 16, 16, .ro, false, false, false, 0⟩]⟩,
   ⟨"PLL_CTL", 0x44, 1, 0, false, 1,
    [⟨"EN", 0, 1, .rw, true, false, false, 0⟩]⟩,
   ⟨"PLL_STAT", 0x48, 1, 0, false, 1,
    [⟨"LOCK", 0, 1, .ro, false, false, false, 0⟩,
     ⟨"LOL", 1, 1, .w1c, true, false, false, 0⟩]⟩,
   ⟨"SRC_SEL", 0x4c, 1, 0, false, 1,
    [⟨"CORE_SRC", 0, 1, .rw, true, false, false, 0⟩,
     ⟨"ACLK_SRC", 1, 1, .ro, false, false, false, 0⟩]⟩,
   ⟨"TCLK_DIV", 0x50, 1, 0, false, 1,
    [⟨"REQ", 0, 3, .rw, true, false, false, 0⟩,
     ⟨"CUR", 8, 3, .ro, false, false, false, 0⟩]⟩,
   ⟨"LOL_COUNT", 0x54, 1, 0, false, 1,
    [⟨"COUNT", 0, 32, .ro, false, false, false, 0⟩]⟩,
   ⟨"STC", 0x60, 1, 0, false, 2,
    [⟨"W", 0, 64, .ro, false, false, false, 0⟩]⟩,
   ⟨"STC_GAP", 0x68, 1, 0, false, 2,
    [⟨"W", 0, 64, .ro, false, false, false, 0⟩]⟩,
   ⟨"STC_GAP_COUNT", 0x74, 1, 0, false, 1,
    [⟨"COUNT", 0, 32, .ro, false, false, false, 0⟩]⟩]

/-- The registers of page RCK (spec chapter 05). -/
def rowsRck : List RegRow :=
  [
   ⟨"LAST_REFUSE", 0x40, 1, 0, false, 1,
    [⟨"COUNTER", 0, 16, .ro, false, false, false, 0⟩,
     ⟨"STALL", 16, 4, .ro, false, false, false, 0⟩,
     ⟨"CAUSE", 20, 2, .ro, false, false, false, 0⟩]⟩,
   ⟨"REFUSE_COUNT", 0x44, 1, 0, false, 1,
    [⟨"COUNT", 0, 32, .ro, false, false, false, 0⟩]⟩,
   ⟨"SIG_TOTAL", 0x100, 9, 128, false, 3,
    [⟨"W", 0, 96, .ro, false, false, false, 0⟩]⟩,
   ⟨"CONS_TOTAL", 0x10c, 9, 128, false, 3,
    [⟨"W", 0, 96, .ro, false, false, false, 0⟩]⟩,
   ⟨"SET_TOTAL", 0x118, 9, 128, false, 3,
    [⟨"W", 0, 96, .ro, false, false, false, 0⟩]⟩,
   ⟨"REL_TOTAL", 0x124, 9, 128, false, 3,
    [⟨"W", 0, 96, .ro, false, false, false, 0⟩]⟩,
   ⟨"RET_UP", 0x130, 9, 128, false, 3,
    [⟨"W", 0, 96, .ro, false, false, false, 0⟩]⟩,
   ⟨"RET_DOWN", 0x13c, 9, 128, false, 3,
    [⟨"W", 0, 96, .ro, false, false, false, 0⟩]⟩,
   ⟨"RSIG_SENT", 0x148, 9, 128, false, 3,
    [⟨"W", 0, 96, .ro, false, false, false, 0⟩]⟩,
   ⟨"RSIG_ACKED", 0x154, 9, 128, false, 3,
    [⟨"W", 0, 96, .ro, false, false, false, 0⟩]⟩,
   ⟨"RSIG_RET", 0x160, 9, 128, false, 3,
    [⟨"W", 0, 96, .ro, false, false, false, 0⟩]⟩,
   ⟨"RSIG_PEND", 0x16c, 9, 128, false, 1,
    [⟨"COUNT", 0, 32, .ro, false, false, false, 0⟩]⟩] ++ [
   ⟨"RET_SEQ", 0x170, 9, 128, false, 1,
    [⟨"COUNT", 0, 32, .ro, false, false, false, 0⟩]⟩]

/-- The registers of page WIN (spec chapter 10). -/
def rowsWin : List RegRow :=
  [
   ⟨"STAT", 0x40, 1, 0, false, 1,
    [⟨"BUSY", 0, 1, .ro, false, false, false, 0⟩,
     ⟨"MODE", 1, 2, .ro, false, false, false, 0⟩,
     ⟨"STALL", 4, 4, .ro, false, false, false, 0⟩]⟩,
   ⟨"BLOCKS", 0x44, 1, 0, false, 2,
    [⟨"W", 0, 64, .ro, false, false, false, 0⟩]⟩,
   ⟨"INVALID_COUNT", 0x4c, 1, 0, false, 1,
    [⟨"COUNT", 0, 32, .ro, false, false, false, 0⟩]⟩,
   ⟨"LS_CFG", 0x140, 8, 64, false, 1,
    [⟨"MODE", 0, 2, .rw, true, false, true, 0⟩,
     ⟨"HEADROOM", 4, 2, .rw, true, false, true, 1⟩,
     ⟨"NT", 16, 11, .rw, true, false, true, 1⟩]⟩,
   ⟨"LS_EXP", 0x144, 8, 64, false, 1,
    [⟨"EMIN", 0, 8, .rw, true, false, true, 0⟩,
     ⟨"EMAX", 8, 8, .rw, true, false, true, 24⟩,
     ⟨"E0", 16, 8, .rw, true, false, true, 15⟩,
     ⟨"E", 24, 8, .ro, false, false, false, 0⟩]⟩,
   ⟨"LS_GROW", 0x148, 8, 64, false, 1,
    [⟨"GROW_STEPS", 0, 16, .rw, true, false, true, 2000⟩,
     ⟨"CLEAN", 16, 16, .ro, false, false, false, 0⟩]⟩,
   ⟨"LS_CTR", 0x14c, 8, 64, false, 1,
    [⟨"DONE", 0, 16, .rw, true, false, true, 0⟩,
     ⟨"READY", 16, 16, .rw, true, false, true, 0⟩]⟩,
   ⟨"LS_ID", 0x150, 8, 64, false, 1,
    [⟨"ID_BASE", 0, 16, .rw, true, false, true, 1⟩]⟩,
   ⟨"LS_TABLE", 0x154, 8, 64, false, 2,
    [⟨"W", 0, 64, .rw, true, false, true, 0⟩]⟩,
   ⟨"LS_STEP", 0x15c, 8, 64, false, 1,
    [⟨"COUNT", 0, 32, .ro, false, false, false, 0⟩]⟩,
   ⟨"LS_SKIP", 0x160, 8, 64, false, 1,
    [⟨"COUNT", 0, 32, .ro, false, false, false, 0⟩]⟩,
   ⟨"LS_STAT", 0x164, 8, 64, false, 1,
    [⟨"BAD", 0, 1, .w1c, true, false, true, 0⟩]⟩]

/-- The registers of page TRN (spec chapter 12). -/
def rowsTrn : List RegRow :=
  [
   ⟨"YIELD_LAT_MAX", 0x40, 1, 0, false, 1,
    [⟨"CYC", 0, 16, .ro, false, false, false, 0⟩]⟩,
   ⟨"CH_STAT", 0x100, 4, 32, false, 1,
    [⟨"STATE", 0, 2, .ro, false, false, false, 0⟩,
     ⟨"RT", 2, 1, .ro, false, false, false, 0⟩,
     ⟨"STALL", 3, 4, .ro, false, false, false, 0⟩,
     ⟨"TAG", 16, 16, .ro, false, false, false, 0⟩]⟩,
   ⟨"CH_POS", 0x104, 4, 32, false, 1,
    [⟨"W", 0, 32, .ro, false, false, false, 0⟩]⟩,
   ⟨"CH_DONE", 0x108, 4, 32, false, 2,
    [⟨"W", 0, 64, .ro, false, false, false, 0⟩]⟩,
   ⟨"CH_TOTAL", 0x110, 4, 32, false, 2,
    [⟨"W", 0, 64, .ro, false, false, false, 0⟩]⟩,
   ⟨"CH_YIELD_COUNT", 0x118, 4, 32, false, 1,
    [⟨"W", 0, 32, .ro, false, false, false, 0⟩]⟩]

/-- The registers of page CEL (spec chapter 12). -/
def rowsCel : List RegRow :=
  [
   ⟨"CFG", 0x40, 1, 0, false, 1,
    [⟨"DENS", 0, 3, .rwl, true, false, false, 0⟩,
     ⟨"RATE", 4, 2, .rwl, true, false, false, 2⟩,
     ⟨"WDBI", 8, 1, .rwl, true, false, false, 1⟩]⟩,
   ⟨"STAT", 0x44, 1, 0, false, 1,
    [⟨"TRAINED", 0, 1, .ro, false, false, false, 0⟩,
     ⟨"SR", 4, 4, .ro, false, false, false, 0⟩]⟩,
   ⟨"SIZE", 0x48, 1, 0, false, 1,
    [⟨"MIB", 0, 16, .ro, false, false, false, 0⟩]⟩,
   ⟨"ZERO_PEND", 0x4c, 1, 0, false, 1,
    [⟨"COUNT", 0, 16, .ro, false, false, false, 0⟩]⟩,
   ⟨"EXTENT", 0x120, 64, 4, false, 1,
    [⟨"BASE", 0, 16, .rw, true, false, false, 0⟩,
     ⟨"COUNT", 16, 16, .rw, true, false, false, 0⟩]⟩]

/-- The registers of page GRN (spec chapter 13). -/
def rowsGrn : List RegRow :=
  [
   ⟨"CFG", 0x40, 1, 0, false, 1,
    [⟨"ECC_WARN_THRESH", 0, 2, .rw, true, false, false, 1⟩]⟩,
   ⟨"READ_CFG", 0x44, 1, 0, false, 1,
    [⟨"PREFETCH", 0, 1, .rw, true, false, false, 1⟩,
     ⟨"BCACHE", 1, 1, .rw, true, false, false, 1⟩,
     ⟨"CONT", 2, 1, .rw, true, false, false, 1⟩]⟩,
   ⟨"ERASE_STAT", 0x48, 1, 0, false, 1,
    [⟨"SECTOR", 0, 15, .ro, false, false, false, 0⟩,
     ⟨"STATE", 16, 2, .ro, false, false, false, 0⟩,
     ⟨"SUSPENDED", 18, 1, .ro, false, false, false, 0⟩,
     ⟨"ABORTED", 19, 1, .w1c, true, false, false, 0⟩]⟩,
   ⟨"ABORT_SECTOR", 0x4c, 1, 0, false, 1,
    [⟨"SECTOR", 0, 15, .ro, false, false, false, 0⟩]⟩,
   ⟨"ERASE_SUSP", 0x50, 1, 0, false, 1,
    [⟨"US", 0, 32, .ro, false, false, false, 0⟩]⟩,
   ⟨"CORR_BITS", 0x54, 1, 0, false, 2,
    [⟨"W", 0, 64, .ro, false, false, false, 0⟩]⟩,
   ⟨"WARN_COUNT", 0x5c, 1, 0, false, 1,
    [⟨"COUNT", 0, 32, .ro, false, false, false, 0⟩]⟩,
   ⟨"WARN_ADDR", 0x60, 1, 0, false, 1,
    [⟨"ADDR", 0, 29, .ro, false, false, false, 0⟩]⟩,
   ⟨"UE_COUNT", 0x64, 1, 0, false, 1,
    [⟨"COUNT", 0, 32, .ro, false, false, false, 0⟩]⟩,
   ⟨"UE_ADDR", 0x68, 1, 0, false, 1,
    [⟨"ADDR", 0, 29, .ro, false, false, false, 0⟩]⟩,
   ⟨"PROT_COUNT", 0x6c, 1, 0, false, 1,
    [⟨"COUNT", 0, 32, .ro, false, false, false, 0⟩]⟩,
   ⟨"PROT_ADDR", 0x70, 1, 0, false, 1,
    [⟨"ADDR", 0, 32, .ro, false, false, false, 0⟩]⟩] ++ [
   ⟨"STW_LAST", 0x74, 1, 0, false, 1,
    [⟨"CORR", 0, 2, .ro, false, false, false, 0⟩,
     ⟨"LINE", 4, 24, .ro, false, false, false, 0⟩]⟩,
   ⟨"LOOP_LAST", 0x78, 1, 0, false, 1,
    [⟨"CORR", 0, 2, .ro, false, false, false, 0⟩,
     ⟨"LINE", 4, 24, .ro, false, false, false, 0⟩]⟩,
   ⟨"XO_BASE", 0x100, 8, 8, false, 1,
    [⟨"SECTOR", 0, 15, .ro, false, false, false, 0⟩]⟩,
   ⟨"XO_COUNT", 0x104, 8, 8, false, 1,
    [⟨"COUNT", 0, 16, .ro, false, false, false, 0⟩,
     ⟨"EN", 16, 1, .ro, false, false, false, 0⟩,
     ⟨"WRITABLE", 17, 1, .ro, false, false, false, 0⟩,
     ⟨"LOCK", 18, 1, .ro, false, false, false, 0⟩]⟩,
   ⟨"WIN_FIRST", 0x180, 4, 16, false, 1,
    [⟨"SECTOR", 0, 15, .ro, false, false, false, 0⟩]⟩,
   ⟨"WIN_P", 0x184, 4, 16, false, 1,
    [⟨"P", 0, 14, .ro, false, false, false, 0⟩]⟩,
   ⟨"WIN_L", 0x188, 4, 16, false, 1,
    [⟨"L", 0, 13, .ro, false, false, false, 0⟩,
     ⟨"EN", 16, 1, .ro, false, false, false, 0⟩]⟩,
   ⟨"WIN_BASE", 0x18c, 4, 16, false, 1,
    [⟨"BASE", 0, 13, .ro, false, false, false, 0⟩]⟩]

/-- The registers of page BAL (spec chapter 14). -/
def rowsBal : List RegRow :=
  [
   ⟨"STAT", 0x40, 1, 0, false, 1,
    [⟨"BUSY", 0, 1, .ro, false, false, false, 0⟩,
     ⟨"STALL", 1, 4, .ro, false, false, false, 0⟩,
     ⟨"PATHS", 8, 7, .ro, false, false, false, 0⟩]⟩,
   ⟨"BLOCKS_OUT", 0x44, 1, 0, false, 2,
    [⟨"W", 0, 64, .ro, false, false, false, 0⟩]⟩,
   ⟨"BLOCKS_IN", 0x4c, 1, 0, false, 2,
    [⟨"W", 0, 64, .ro, false, false, false, 0⟩]⟩,
   ⟨"RAW_COUNT", 0x54, 1, 0, false, 1,
    [⟨"COUNT", 0, 32, .ro, false, false, false, 0⟩]⟩,
   ⟨"CHK_COUNT", 0x58, 1, 0, false, 1,
    [⟨"COUNT", 0, 32, .ro, false, false, false, 0⟩]⟩,
   ⟨"LAST_CHK", 0x5c, 1, 0, false, 1,
    [⟨"KIND", 0, 3, .ro, false, false, false, 0⟩,
     ⟨"PATH", 4, 3, .ro, false, false, false, 0⟩,
     ⟨"STALL", 7, 4, .ro, false, false, false, 0⟩]⟩,
   ⟨"LAST_CHK_BLOCK", 0x60, 1, 0, false, 1,
    [⟨"BLOCK", 0, 32, .ro, false, false, false, 0⟩]⟩,
   ⟨"SLOT_A", 0x100, 16, 8, false, 1,
    [⟨"FIRST", 0, 15, .rwl, true, false, false, 0⟩,
     ⟨"COUNT", 16, 15, .rwl, true, false, false, 0⟩]⟩,
   ⟨"SLOT_B", 0x104, 16, 8, false, 1,
    [⟨"OWNER", 0, 4, .rwl, true, false, false, 0⟩,
     ⟨"VALID", 4, 1, .ro, false, false, false, 0⟩,
     ⟨"COMMITS", 16, 16, .ro, false, false, false, 0⟩]⟩]

/-- The registers of page SEQ (spec chapter 03, 11). -/
def rowsSeq : List RegRow :=
  [
   ⟨"MUTE_CTL", 0x40, 1, 0, false, 1,
    [⟨"OUT_RELEASE", 0, 1, .w1s, true, false, false, 0⟩,
     ⟨"MUTE_RELEASE", 1, 1, .w1s, true, false, false, 0⟩,
     ⟨"MUTE_FORCE", 2, 1, .rw, true, false, false, 0⟩,
     ⟨"MUTE_PIN", 3, 1, .ro, false, false, false, 0⟩]⟩,
   ⟨"MISS_LAST", 0x44, 1, 0, false, 1,
    [⟨"STREAM", 0, 5, .ro, false, false, false, 0⟩]⟩,
   ⟨"PROMO_STAT", 0x100, 32, 16, false, 1,
    [⟨"STATE", 0, 3, .ro, false, false, false, 0⟩,
     ⟨"OUTCOME", 4, 4, .ro, false, false, false, 0⟩,
     ⟨"WARM_LEFT", 8, 8, .ro, false, false, false, 0⟩,
     ⟨"TAG", 16, 16, .ro, false, false, false, 0⟩]⟩,
   ⟨"PROMO_XPOS", 0x104, 32, 16, false, 1,
    [⟨"POS", 0, 13, .ro, false, false, false, 0⟩]⟩,
   ⟨"PROMO_COUNT", 0x108, 32, 16, false, 1,
    [⟨"COMMITS", 0, 16, .ro, false, false, false, 0⟩,
     ⟨"ABANDONS", 16, 16, .ro, false, false, false, 0⟩]⟩,
   ⟨"PROMO_SPLIT", 0x10c, 32, 16, false, 1,
    [⟨"P", 0, 8, .ro, false, false, false, 0⟩]⟩,
   ⟨"STRM_CFG", 0x300, 32, 96, false, 1,
    [⟨"EN", 0, 1, .rw, true, false, false, 0⟩,
     ⟨"BLK", 1, 3, .rw, true, false, false, 2⟩,
     ⟨"FB", 4, 1, .rw, true, false, false, 0⟩,
     ⟨"DORMANT_DRY", 5, 1, .rw, true, false, false, 0⟩,
     ⟨"IN_PORT", 8, 2, .rw, true, false, false, 0⟩,
     ⟨"OUT_PORT", 10, 2, .rw, true, false, false, 0⟩]⟩,
   ⟨"STRM_SLOTS", 0x304, 32, 96, false, 1,
    [⟨"IN_MASK", 0, 8, .rw, true, false, false, 0⟩,
     ⟨"OUT_MASK", 8, 8, .rw, true, false, false, 0⟩,
     ⟨"ZC_SLOT", 16, 3, .rw, true, false, false, 0⟩]⟩,
   ⟨"STRM_TRG_BASE", 0x308, 32, 96, false, 1,
    [⟨"BASE", 0, 20, .rw, true, false, false, 0⟩]⟩,
   ⟨"STRM_TRG_LEN", 0x30c, 32, 96, false, 1,
    [⟨"LEN", 0, 12, .rw, true, false, false, 0⟩]⟩,
   ⟨"STRM_BAYS", 0x310, 32, 96, false, 1,
    [⟨"PINNED", 0, 16, .rw, true, false, false, 0⟩,
     ⟨"STANDBY", 16, 16, .rw, true, false, false, 0⟩]⟩,
   ⟨"STRM_IN_BASE", 0x314, 32, 96, false, 1,
    [⟨"BASE", 0, 20, .rw, true, false, false, 0⟩]⟩] ++ [
   ⟨"STRM_OUT_BASE", 0x318, 32, 96, false, 1,
    [⟨"BASE", 0, 20, .rw, true, false, false, 0⟩]⟩,
   ⟨"STRM_STATE_BASE", 0x31c, 32, 96, false, 1,
    [⟨"BASE", 0, 20, .rw, true, false, false, 0⟩]⟩,
   ⟨"STRM_STATE_LEN", 0x320, 32, 96, false, 1,
    [⟨"LEN", 6, 8, .rw, true, false, false, 0⟩]⟩,
   ⟨"STRM_DRY_GAIN", 0x324, 32, 96, false, 1,
    [⟨"GAIN", 0, 16, .rw, true, false, false, 16384⟩]⟩,
   ⟨"STRM_ZC", 0x328, 32, 96, false, 1,
    [⟨"HYST", 0, 16, .rw, true, false, false, 8⟩,
     ⟨"TIMEOUT", 16, 14, .rw, true, false, false, 0⟩,
     ⟨"ARM", 31, 1, .wo, true, false, false, 0⟩]⟩,
   ⟨"STRM_SIL", 0x32c, 32, 96, false, 1,
    [⟨"LOG2", 0, 6, .rw, true, false, false, 0⟩,
     ⟨"BLOCKS", 8, 8, .rw, true, false, false, 16⟩]⟩,
   ⟨"STRM_STAT", 0x330, 32, 96, false, 1,
    [⟨"RUN", 0, 1, .ro, false, false, false, 0⟩,
     ⟨"SILENT", 1, 1, .ro, false, false, false, 0⟩,
     ⟨"ZC_ARMED", 2, 1, .ro, false, false, false, 0⟩,
     ⟨"ZC_HIT", 3, 1, .w1c, true, false, false, 0⟩,
     ⟨"ZC_TO", 4, 1, .w1c, true, false, false, 0⟩,
     ⟨"LAST_FB", 5, 1, .ro, false, false, false, 0⟩]⟩,
   ⟨"STRM_MISS_COUNT", 0x334, 32, 96, false, 1,
    [⟨"COUNT", 0, 32, .ro, false, false, false, 0⟩]⟩,
   ⟨"STRM_SLIP_COUNT", 0x338, 32, 96, false, 1,
    [⟨"COUNT", 0, 32, .ro, false, false, false, 0⟩]⟩,
   ⟨"STRM_BLOCK", 0x33c, 32, 96, false, 2,
    [⟨"W", 0, 64, .ro, false, false, false, 0⟩]⟩,
   ⟨"STRM_ENERGY", 0x344, 32, 96, false, 2,
    [⟨"W", 0, 64, .ro, false, false, false, 0⟩]⟩,
   ⟨"STRM_ZC_STC", 0x34c, 32, 96, false, 2,
    [⟨"W", 0, 64, .ro, false, false, false, 0⟩]⟩] ++ [
   ⟨"STRM_PORT_LATE", 0x354, 32, 96, false, 1,
    [⟨"COUNT", 0, 32, .ro, false, false, false, 0⟩]⟩]

/-- The registers of page TLY (spec chapter 16). -/
def rowsTly : List RegRow :=
  [
   ⟨"CTL", 0x40, 1, 0, false, 1,
    [⟨"START", 0, 1, .wo, true, false, false, 0⟩,
     ⟨"RESTORE", 1, 1, .wo, true, false, false, 0⟩,
     ⟨"FINAL", 2, 1, .wo, true, false, false, 0⟩]⟩,
   ⟨"STAT", 0x44, 1, 0, false, 1,
    [⟨"RUN", 0, 1, .ro, false, false, false, 0⟩,
     ⟨"LOSS_FLAG", 1, 1, .w1c, true, false, false, 0⟩,
     ⟨"BLANK", 2, 1, .ro, false, false, false, 0⟩,
     ⟨"PEND", 3, 1, .ro, false, false, false, 0⟩]⟩,
   ⟨"SETTLE_SEQ", 0x48, 1, 0, false, 2,
    [⟨"W", 0, 64, .ro, false, false, false, 0⟩]⟩,
   ⟨"PERSIST_PERIOD", 0x50, 1, 0, false, 1,
    [⟨"N", 0, 17, .rwl, true, false, false, 60000⟩]⟩,
   ⟨"PERSIST_ACK", 0x54, 1, 0, false, 1,
    [⟨"ACK", 0, 1, .w1s, true, false, false, 0⟩]⟩,
   ⟨"PERSIST_ADDR", 0x58, 1, 0, false, 1,
    [⟨"ADDR", 0, 26, .rw, true, false, false, 0⟩]⟩,
   ⟨"PERSIST_MISS", 0x5c, 1, 0, false, 1,
    [⟨"COUNT", 0, 32, .ro, false, false, false, 0⟩]⟩,
   ⟨"MISSED", 0x60, 1, 0, false, 2,
    [⟨"W", 0, 64, .ro, false, false, false, 0⟩]⟩,
   ⟨"VSTALE_COUNT", 0x68, 1, 0, false, 1,
    [⟨"COUNT", 0, 32, .ro, false, false, false, 0⟩]⟩,
   ⟨"SHARE_MASK", 0x6c, 1, 0, false, 2,
    [⟨"W", 0, 64, .rwl, true, false, false, 14699749183737298944⟩]⟩,
   ⟨"SLEEP_RATE_D", 0x74, 1, 0, false, 1,
    [⟨"UW", 0, 24, .rw, true, false, false, 0⟩]⟩,
   ⟨"SLEEP_RATE_F", 0x78, 1, 0, false, 1,
    [⟨"UW", 0, 24, .rw, true, false, false, 0⟩]⟩] ++ [
   ⟨"RAIL", 0x80, 5, 4, false, 1,
    [⟨"VNOM", 0, 16, .rw, true, false, false, 0⟩,
     ⟨"REG", 16, 3, .rw, true, false, false, 7⟩]⟩,
   ⟨"LOSS_BOUND", 0xa0, 1, 0, false, 3,
    [⟨"W", 0, 96, .ro, false, false, false, 0⟩]⟩,
   ⟨"SLEEP_FJ", 0xac, 1, 0, false, 3,
    [⟨"W", 0, 96, .ro, false, false, false, 0⟩]⟩,
   ⟨"ENERGY", 0x100, 12, 16, false, 3,
    [⟨"W", 0, 96, .ro, false, false, false, 0⟩]⟩,
   ⟨"MAC", 0x200, 9, 80, false, 3,
    [⟨"W", 0, 96, .ro, false, false, false, 0⟩]⟩,
   ⟨"ELEM", 0x210, 9, 80, false, 3,
    [⟨"W", 0, 96, .ro, false, false, false, 0⟩]⟩,
   ⟨"WINB", 0x220, 9, 80, false, 3,
    [⟨"W", 0, 96, .ro, false, false, false, 0⟩]⟩,
   ⟨"SHARE", 0x230, 9, 80, false, 3,
    [⟨"W", 0, 96, .ro, false, false, false, 0⟩]⟩,
   ⟨"ERASE", 0x240, 9, 80, false, 2,
    [⟨"W", 0, 64, .ro, false, false, false, 0⟩]⟩,
   ⟨"SENSOR", 0x600, 65, 4, false, 1,
    [⟨"OWNER", 0, 4, .ro, false, false, false, 10⟩,
     ⟨"MA", 16, 16, .ro, false, false, false, 0⟩]⟩]

/-- The registers of page KEY (spec chapter 18). -/
def rowsKey : List RegRow :=
  [
   ⟨"FUSE_STAT", 0x40, 1, 0, false, 1,
    [⟨"ROOT_OK", 0, 1, .ro, false, false, false, 0⟩,
     ⟨"REVOKED", 4, 4, .ro, false, false, false, 0⟩]⟩,
   ⟨"DEV_UID", 0x44, 1, 0, false, 2,
    [⟨"W", 0, 64, .ro, false, false, false, 0⟩]⟩,
   ⟨"GEN", 0x50, 9, 4, false, 1,
    [⟨"W", 0, 32, .rwl, true, false, false, 0⟩]⟩,
   ⟨"CMD", 0x80, 1, 0, false, 1,
    [⟨"OP", 0, 2, .wo, true, false, false, 0⟩]⟩,
   ⟨"SRC", 0x84, 1, 0, false, 2,
    [⟨"W", 0, 64, .rw, true, false, false, 0⟩]⟩,
   ⟨"LEN", 0x8c, 1, 0, false, 1,
    [⟨"BYTES", 0, 32, .rw, true, false, false, 0⟩]⟩,
   ⟨"RESULT", 0x90, 1, 0, false, 1,
    [⟨"CODE", 0, 2, .ro, false, false, false, 0⟩,
     ⟨"BUSY", 4, 1, .ro, false, false, false, 0⟩]⟩,
   ⟨"DIGEST", 0xa0, 1, 0, false, 8,
    [⟨"W", 0, 256, .ro, false, false, false, 0⟩]⟩,
   ⟨"PKH", 0x100, 4, 32, false, 8,
    [⟨"W", 0, 256, .ro, false, false, false, 0⟩]⟩]

/-- The registers of page STL (spec chapter 04 Table 04-6, 19 Table 19-6). -/
def rowsStl : List RegRow :=
  [
   ⟨"BIND", 0x40, 1, 0, false, 1,
    [⟨"KIND", 0, 2, .rwl, true, true, false, 0⟩,
     ⟨"PORT", 2, 1, .rwl, true, true, false, 0⟩,
     ⟨"FUNC", 3, 2, .rwl, true, true, false, 0⟩,
     ⟨"NODE", 16, 16, .rwl, true, true, false, 0⟩]⟩,
   ⟨"Q_SILO", 0x44, 1, 0, false, 1,
    [⟨"GRAN", 0, 11, .rwl, true, true, false, 0⟩]⟩,
   ⟨"Q_CELLAR", 0x48, 1, 0, false, 1,
    [⟨"GRAN", 0, 16, .rwl, true, true, false, 0⟩]⟩,
   ⟨"Q_BAYS", 0x4c, 1, 0, false, 1,
    [⟨"MASK", 0, 16, .rwl, true, true, false, 0⟩]⟩,
   ⟨"Q_STREAMS", 0x50, 1, 0, false, 1,
    [⟨"MASK", 0, 32, .rwl, true, true, false, 0⟩]⟩,
   ⟨"Q_RICK", 0x54, 1, 0, false, 1,
    [⟨"BASE", 0, 11, .rwl, true, true, false, 0⟩,
     ⟨"COUNT", 16, 11, .rwl, true, true, false, 0⟩]⟩,
   ⟨"GRANT_STAT", 0x58, 1, 0, false, 1,
    [⟨"SHORT", 0, 1, .w1c, true, true, false, 0⟩]⟩,
   ⟨"EGRESS", 0x5c, 1, 0, false, 1,
    [⟨"PATHS", 0, 3, .rwl, true, true, false, 0⟩]⟩,
   ⟨"EGRESS_SELF", 0x60, 1, 0, false, 1,
    [⟨"PATHS", 0, 3, .rw, true, false, true, 7⟩]⟩,
   ⟨"JOB_DECL", 0x64, 1, 0, false, 2,
    [⟨"W", 0, 64, .rw, true, false, true, 0⟩]⟩,
   ⟨"JOB_CTL", 0x6c, 1, 0, false, 1,
    [⟨"CMD", 0, 2, .wo, true, false, true, 0⟩,
     ⟨"EPOCH", 16, 16, .wo, true, false, true, 0⟩]⟩,
   ⟨"JOB_STAT", 0x70, 1, 0, false, 1,
    [⟨"STATE", 0, 2, .ro, false, false, false, 0⟩,
     ⟨"STATUS", 16, 16, .ro, false, false, false, 0⟩]⟩] ++ [
   ⟨"EV_BASE", 0x74, 1, 0, false, 2,
    [⟨"W", 12, 52, .rw, true, false, true, 0⟩]⟩,
   ⟨"EV_CFG", 0x7c, 1, 0, false, 1,
    [⟨"LOG2SIZE", 0, 4, .rw, true, false, true, 8⟩,
     ⟨"LOC", 4, 1, .rw, true, false, true, 0⟩]⟩,
   ⟨"EV_HEAD", 0x80, 1, 0, false, 1,
    [⟨"HEAD", 0, 32, .ro, false, false, false, 0⟩]⟩,
   ⟨"EV_TAIL", 0x84, 1, 0, false, 1,
    [⟨"TAIL", 0, 32, .rw, true, false, true, 0⟩]⟩,
   ⟨"EV_LOST", 0x88, 1, 0, false, 1,
    [⟨"COUNT", 0, 32, .ro, false, false, false, 0⟩]⟩,
   ⟨"LAST_STATUS", 0x8c, 1, 0, false, 1,
    [⟨"STATUS", 0, 16, .ro, false, false, false, 0⟩]⟩,
   ⟨"UNBOUND_COUNT", 0x90, 1, 0, false, 1,
    [⟨"COUNT", 0, 32, .ro, false, false, false, 0⟩]⟩,
   ⟨"FAULT_STAT", 0xa0, 1, 0, false, 1,
    [⟨"RETURNED", 0, 1, .ro, false, false, false, 0⟩,
     ⟨"ABORT_PEND", 8, 7, .ro, false, false, false, 0⟩,
     ⟨"KIND", 16, 2, .ro, false, false, false, 0⟩,
     ⟨"INDEX", 24, 5, .ro, false, false, false, 0⟩]⟩,
   ⟨"FAULT_POS", 0xa4, 1, 0, false, 1,
    [⟨"POS", 0, 32, .ro, false, false, false, 0⟩]⟩,
   ⟨"FAULT_COUNT", 0xa8, 1, 0, false, 1,
    [⟨"COUNT", 0, 32, .ro, false, false, false, 0⟩]⟩,
   ⟨"FAULT_EXTRA", 0xac, 1, 0, false, 1,
    [⟨"COUNT", 0, 32, .ro, false, false, false, 0⟩]⟩,
   ⟨"JOB_WDOG", 0xb0, 1, 0, false, 1,
    [⟨"MS", 0, 16, .rw, true, false, true, 1000⟩]⟩]

/-- The registers of page TRG (spec chapter 04). -/
def rowsTrg : List RegRow :=
  [
   ⟨"T_BASE", 0x100, 4, 64, false, 2,
    [⟨"W", 12, 52, .rw, true, false, true, 0⟩]⟩,
   ⟨"T_CFG", 0x108, 4, 64, false, 1,
    [⟨"LOG2SIZE", 0, 5, .rw, true, false, true, 6⟩,
     ⟨"LOC", 5, 1, .rw, true, false, true, 0⟩]⟩,
   ⟨"T_CTL", 0x10c, 4, 64, false, 1,
    [⟨"CMD", 0, 2, .wo, true, false, true, 0⟩,
     ⟨"EPOCH", 16, 16, .wo, true, false, true, 0⟩]⟩,
   ⟨"T_STAT", 0x110, 4, 64, false, 1,
    [⟨"STATE", 0, 2, .ro, false, false, false, 0⟩,
     ⟨"DB_BAD", 2, 1, .w1c, true, false, true, 0⟩,
     ⟨"STATUS", 16, 16, .ro, false, false, false, 0⟩]⟩,
   ⟨"T_HEAD", 0x114, 4, 64, false, 1,
    [⟨"HEAD", 0, 32, .ro, false, false, false, 0⟩]⟩,
   ⟨"T_TAIL", 0x118, 4, 64, false, 1,
    [⟨"TAIL", 0, 32, .ro, false, false, false, 0⟩]⟩,
   ⟨"T_WB", 0x11c, 4, 64, false, 2,
    [⟨"W", 2, 62, .rw, true, false, true, 0⟩]⟩,
   ⟨"T_DISCARD", 0x124, 4, 64, false, 1,
    [⟨"COUNT", 0, 32, .ro, false, false, false, 0⟩]⟩]

/-- The registers of page THR (spec chapter 06, 07). -/
def rowsThr : List RegRow :=
  [
   ⟨"CUR_MODE", 0x40, 1, 0, false, 1,
    [⟨"MODE", 0, 3, .ro, false, false, false, 0⟩,
     ⟨"WP", 3, 2, .ro, false, false, false, 0⟩,
     ⟨"AP", 5, 1, .ro, false, false, false, 0⟩,
     ⟨"RED", 8, 2, .ro, false, false, false, 0⟩,
     ⟨"EWOP", 10, 3, .ro, false, false, false, 0⟩,
     ⟨"TAPS", 16, 4, .ro, false, false, false, 0⟩,
     ⟨"DIL", 20, 2, .ro, false, false, false, 0⟩]⟩,
   ⟨"GANG", 0x44, 1, 0, false, 1,
    [⟨"SHAPE", 0, 3, .ro, false, false, false, 0⟩,
     ⟨"LEADER", 4, 4, .ro, false, false, false, 0⟩,
     ⟨"PINNED", 8, 1, .ro, false, false, false, 0⟩,
     ⟨"STREAM", 9, 5, .ro, false, false, false, 0⟩,
     ⟨"STANDBY", 14, 1, .ro, false, false, false, 0⟩]⟩,
   ⟨"RAMP_CFG", 0x48, 1, 0, false, 1,
    [⟨"LEN", 0, 2, .rwl, true, false, false, 1⟩]⟩,
   ⟨"ACT_STAT", 0x4c, 1, 0, false, 1,
    [⟨"PHASE", 0, 2, .ro, false, false, false, 0⟩,
     ⟨"FRONT", 4, 1, .ro, false, false, false, 0⟩,
     ⟨"FRONT_ROW", 8, 8, .ro, false, false, false, 0⟩,
     ⟨"HELD", 16, 1, .ro, false, false, false, 0⟩]⟩,
   ⟨"SAT_STAT", 0x50, 1, 0, false, 1,
    [⟨"SAT", 0, 1, .w1c, true, false, false, 0⟩,
     ⟨"LAST_TAG", 16, 16, .ro, false, false, false, 0⟩]⟩,
   ⟨"SAT_COUNT", 0x54, 1, 0, false, 1,
    [⟨"COUNT", 0, 32, .ro, false, false, false, 0⟩]⟩,
   ⟨"BUSY_CYC", 0x58, 1, 0, false, 2,
    [⟨"W", 0, 64, .ro, false, false, false, 0⟩]⟩,
   ⟨"HELD_CYC", 0x60, 1, 0, false, 2,
    [⟨"W", 0, 64, .ro, false, false, false, 0⟩]⟩,
   ⟨"PROG_CTX", 0x100, 1, 0, false, 1,
    [⟨"STATE", 0, 2, .ro, false, false, false, 0⟩,
     ⟨"RT", 2, 1, .ro, false, false, false, 0⟩,
     ⟨"STALL", 3, 4, .ro, false, false, false, 0⟩,
     ⟨"TROUGH", 7, 2, .ro, false, false, false, 0⟩,
     ⟨"TAG", 16, 16, .ro, false, false, false, 0⟩]⟩,
   ⟨"PROG_POS", 0x104, 1, 0, false, 1,
    [⟨"POS", 0, 32, .ro, false, false, false, 0⟩]⟩,
   ⟨"PROG_NM", 0x108, 1, 0, false, 1,
    [⟨"NF", 0, 16, .ro, false, false, false, 0⟩,
     ⟨"MF", 16, 16, .ro, false, false, false, 0⟩]⟩,
   ⟨"PROG_K", 0x10c, 1, 0, false, 1,
    [⟨"KF", 0, 16, .ro, false, false, false, 0⟩,
     ⟨"PARTIAL", 16, 1, .ro, false, false, false, 0⟩]⟩] ++ [
   ⟨"FOLDS_DONE", 0x110, 1, 0, false, 2,
    [⟨"W", 0, 64, .ro, false, false, false, 0⟩]⟩,
   ⟨"FOLDS_TOTAL", 0x118, 1, 0, false, 2,
    [⟨"W", 0, 64, .ro, false, false, false, 0⟩]⟩,
   ⟨"PROG_CTL", 0x120, 1, 0, false, 1,
    [⟨"YIELD", 0, 1, .wo, true, false, false, 0⟩]⟩,
   ⟨"YIELD_COUNT", 0x124, 1, 0, false, 1,
    [⟨"COUNT", 0, 32, .ro, false, false, false, 0⟩]⟩,
   ⟨"YIELD_LAT_MAX", 0x128, 1, 0, false, 1,
    [⟨"CYC", 0, 16, .ro, false, false, false, 0⟩]⟩,
   ⟨"BATCH_CTL", 0x130, 1, 0, true, 1,
    [⟨"PAUSED", 0, 1, .ro, false, false, false, 0⟩,
     ⟨"RELEASE", 1, 1, .w1s, true, false, false, 0⟩,
     ⟨"CAUSE_STEWARD", 4, 1, .ro, false, false, false, 0⟩,
     ⟨"CAUSE_THERMAL", 5, 1, .ro, false, false, false, 0⟩]⟩,
   ⟨"SLOT_CTX", 0x400, 32, 32, true, 1,
    [⟨"W", 0, 32, .ro, false, false, false, 0⟩]⟩,
   ⟨"SLOT_POS", 0x404, 32, 32, true, 1,
    [⟨"W", 0, 32, .ro, false, false, false, 0⟩]⟩,
   ⟨"SLOT_NM", 0x408, 32, 32, true, 1,
    [⟨"W", 0, 32, .ro, false, false, false, 0⟩]⟩,
   ⟨"SLOT_K", 0x40c, 32, 32, true, 1,
    [⟨"W", 0, 32, .ro, false, false, false, 0⟩]⟩,
   ⟨"SLOT_DONE", 0x410, 32, 32, true, 2,
    [⟨"W", 0, 64, .ro, false, false, false, 0⟩]⟩,
   ⟨"SLOT_GANG", 0x418, 32, 32, true, 1,
    [⟨"W", 0, 32, .ro, false, false, false, 0⟩]⟩]

/-- The registers of page HOP (spec chapter 08). -/
def rowsHop : List RegRow :=
  [
   ⟨"CFG", 0x40, 1, 0, false, 1,
    [⟨"RT_RESERVE", 0, 7, .rwl, true, false, false, 16⟩]⟩,
   ⟨"CREDIT", 0x44, 1, 0, false, 1,
    [⟨"FREE", 0, 7, .ro, false, false, false, 64⟩,
     ⟨"INFLIGHT", 8, 7, .ro, false, false, false, 0⟩,
     ⟨"RT_OCC", 16, 7, .ro, false, false, false, 0⟩,
     ⟨"BATCH_OCC", 24, 7, .ro, false, false, false, 0⟩]⟩,
   ⟨"STRIPS_IN", 0x48, 1, 0, false, 2,
    [⟨"W", 0, 64, .ro, false, false, false, 0⟩]⟩,
   ⟨"STRIPS_OUT", 0x50, 1, 0, false, 2,
    [⟨"W", 0, 64, .ro, false, false, false, 0⟩]⟩,
   ⟨"DISCARD", 0x58, 1, 0, false, 2,
    [⟨"W", 0, 64, .ro, false, false, false, 0⟩]⟩]

/-- The registers of page SFT (spec chapter 08). -/
def rowsSft : List RegRow :=
  [
   ⟨"STAT", 0x40, 1, 0, false, 1,
    [⟨"MODE", 0, 2, .ro, false, false, false, 0⟩,
     ⟨"RT", 2, 1, .ro, false, false, false, 0⟩,
     ⟨"SAVED", 3, 1, .ro, false, false, false, 0⟩,
     ⟨"STALL", 4, 4, .ro, false, false, false, 0⟩,
     ⟨"PARKED", 8, 4, .ro, false, false, false, 0⟩]⟩,
   ⟨"LOFT", 0x44, 1, 0, false, 1,
    [⟨"OWNER", 0, 4, .ro, false, false, false, 0⟩,
     ⟨"VALID", 4, 1, .ro, false, false, false, 0⟩]⟩,
   ⟨"FP_FLAGS", 0x48, 1, 0, false, 1,
    [⟨"FLAGS", 0, 5, .w1c, true, false, false, 0⟩]⟩,
   ⟨"PREEMPT_COUNT", 0x4c, 1, 0, false, 1,
    [⟨"COUNT", 0, 32, .ro, false, false, false, 0⟩]⟩,
   ⟨"YIELD_LAT_MAX", 0x50, 1, 0, false, 1,
    [⟨"CYC", 0, 16, .ro, false, false, false, 0⟩]⟩,
   ⟨"MBOX_HEAD", 0x60, 1, 0, true, 1,
    [⟨"HEAD", 0, 32, .ro, false, false, false, 0⟩]⟩,
   ⟨"MBOX_TAIL", 0x64, 1, 0, true, 1,
    [⟨"TAIL", 0, 32, .rw, true, false, false, 0⟩]⟩,
   ⟨"MBOX_LOST", 0x68, 1, 0, true, 1,
    [⟨"COUNT", 0, 32, .ro, false, false, false, 0⟩]⟩,
   ⟨"MBOX", 0x800, 256, 4, true, 1,
    [⟨"W", 0, 32, .ro, false, false, false, 0⟩]⟩]

/-- The registers of page FUR (spec chapter 15). -/
def rowsFur : List RegRow :=
  [
   ⟨"CTL", 0x40, 1, 0, false, 1,
    [⟨"EN", 0, 1, .rw, true, false, false, 0⟩,
     ⟨"DEEMPH", 1, 3, .rw, true, false, false, 2⟩]⟩,
   ⟨"STAT", 0x44, 1, 0, false, 1,
    [⟨"STATE", 0, 3, .ro, false, false, false, 0⟩,
     ⟨"POL", 4, 4, .ro, false, false, false, 0⟩,
     ⟨"LOST", 8, 1, .w1c, true, false, false, 0⟩,
     ⟨"PARTNER", 16, 16, .ro, false, false, false, 0⟩]⟩,
   ⟨"LOST_COUNT", 0x48, 1, 0, false, 1,
    [⟨"COUNT", 0, 32, .ro, false, false, false, 0⟩]⟩,
   ⟨"TRAIN_FAIL", 0x4c, 1, 0, false, 1,
    [⟨"COUNT", 0, 32, .ro, false, false, false, 0⟩]⟩,
   ⟨"CRC_ERR", 0x50, 1, 0, false, 1,
    [⟨"COUNT", 0, 32, .ro, false, false, false, 0⟩]⟩,
   ⟨"REPLAY_COUNT", 0x54, 1, 0, false, 1,
    [⟨"COUNT", 0, 32, .ro, false, false, false, 0⟩]⟩,
   ⟨"DROP_COUNT", 0x58, 1, 0, false, 1,
    [⟨"COUNT", 0, 32, .ro, false, false, false, 0⟩]⟩,
   ⟨"RX_REFUSE", 0x5c, 1, 0, false, 1,
    [⟨"COUNT", 0, 32, .ro, false, false, false, 0⟩]⟩,
   ⟨"TX_FLITS", 0x60, 1, 0, false, 2,
    [⟨"W", 0, 64, .ro, false, false, false, 0⟩]⟩,
   ⟨"RX_FLITS", 0x68, 1, 0, false, 2,
    [⟨"W", 0, 64, .ro, false, false, false, 0⟩]⟩,
   ⟨"VC", 0x80, 8, 4, false, 1,
    [⟨"DEPTH", 0, 10, .rwl, true, false, false, 128⟩,
     ⟨"AVAIL", 16, 10, .ro, false, false, false, 0⟩]⟩,
   ⟨"PVC", 0xa0, 8, 4, false, 1,
    [⟨"PDEPTH", 0, 10, .ro, false, false, false, 0⟩]⟩] ++ [
   ⟨"KNOCK_CTL", 0xc0, 1, 0, false, 1,
    [⟨"SEND", 0, 1, .wo, true, false, false, 0⟩]⟩,
   ⟨"KNOCK_MASK", 0xc4, 1, 0, false, 2,
    [⟨"W", 0, 64, .rw, true, false, false, 0⟩]⟩,
   ⟨"KNOCK_STAT", 0xcc, 1, 0, false, 1,
    [⟨"BUSY", 0, 1, .ro, false, false, false, 0⟩,
     ⟨"ECHO", 1, 1, .w1c, true, false, false, 0⟩,
     ⟨"FAIL", 2, 1, .w1c, true, false, false, 0⟩,
     ⟨"TRIES", 4, 4, .ro, false, false, false, 0⟩]⟩,
   ⟨"KNOCK_RETRY", 0xd0, 1, 0, false, 1,
    [⟨"COUNT", 0, 4, .rw, true, false, false, 8⟩]⟩,
   ⟨"NODE", 0x100, 1, 0, true, 1,
    [⟨"ID", 0, 16, .rwl, true, false, false, 0⟩]⟩,
   ⟨"KNOCK_PAT", 0x104, 1, 0, true, 2,
    [⟨"W", 0, 64, .rwl, true, false, false, 14097840166348085820⟩]⟩,
   ⟨"DEFAULT", 0x10c, 1, 0, true, 1,
    [⟨"PORT", 0, 3, .rwl, true, false, false, 4⟩]⟩,
   ⟨"RSIG_TIMEOUT", 0x110, 1, 0, true, 1,
    [⟨"US", 0, 20, .rw, true, false, false, 1000⟩]⟩,
   ⟨"RANGE", 0x200, 16, 8, true, 1,
    [⟨"LO", 0, 16, .rwl, true, false, false, 0⟩,
     ⟨"HI", 16, 16, .rwl, true, false, false, 0⟩]⟩,
   ⟨"RANGE_PORT", 0x204, 16, 8, true, 1,
    [⟨"PORT", 0, 2, .rwl, true, false, false, 0⟩,
     ⟨"EN", 2, 1, .rwl, true, false, false, 0⟩]⟩]

/-- The registers of page PCI (spec chapter 15). -/
def rowsPci : List RegRow :=
  [
   ⟨"LINK_STAT", 0x40, 1, 0, false, 1,
    [⟨"UP", 0, 1, .ro, false, false, false, 0⟩,
     ⟨"SPEED", 1, 3, .ro, false, false, false, 0⟩,
     ⟨"WIDTH", 4, 4, .ro, false, false, false, 0⟩,
     ⟨"PM", 8, 2, .ro, false, false, false, 0⟩,
     ⟨"NUM_VFS", 10, 2, .ro, false, false, false, 0⟩]⟩,
   ⟨"DOWN_COUNT", 0x44, 1, 0, false, 1,
    [⟨"COUNT", 0, 32, .ro, false, false, false, 0⟩]⟩,
   ⟨"CORR_ERR", 0x48, 1, 0, false, 1,
    [⟨"COUNT", 0, 32, .ro, false, false, false, 0⟩]⟩,
   ⟨"UNCORR_ERR", 0x4c, 1, 0, false, 1,
    [⟨"COUNT", 0, 32, .ro, false, false, false, 0⟩]⟩,
   ⟨"FLR_COUNT", 0x50, 1, 0, false, 1,
    [⟨"COUNT", 0, 32, .ro, false, false, false, 0⟩]⟩]

/-- The registers of page AUD (spec chapter 03). -/
def rowsAud : List RegRow :=
  [
   ⟨"PORT_CTL", 0x40, 1, 0, false, 1,
    [⟨"EN", 0, 1, .rw, true, false, false, 0⟩,
     ⟨"ROLE", 1, 1, .rw, true, false, false, 0⟩,
     ⟨"FMT", 2, 2, .rw, true, false, false, 0⟩,
     ⟨"RATE", 4, 3, .rw, true, false, false, 1⟩,
     ⟨"SLOTS", 8, 3, .rw, true, false, false, 1⟩,
     ⟨"BCLK_POL", 12, 1, .rw, true, false, false, 0⟩,
     ⟨"FS_POL", 13, 1, .rw, true, false, false, 0⟩]⟩,
   ⟨"PORT_STAT", 0x44, 1, 0, false, 1,
    [⟨"FRAME_OK", 0, 1, .ro, false, false, false, 0⟩,
     ⟨"SLIP", 1, 1, .w1c, true, false, false, 0⟩,
     ⟨"FRAME_LOST", 2, 1, .w1c, true, false, false, 0⟩,
     ⟨"PHASE", 16, 9, .ro, false, false, false, 0⟩]⟩,
   ⟨"SLIP_COUNT", 0x48, 1, 0, false, 1,
    [⟨"COUNT", 0, 32, .ro, false, false, false, 0⟩]⟩,
   ⟨"LOST_COUNT", 0x4c, 1, 0, false, 1,
    [⟨"COUNT", 0, 32, .ro, false, false, false, 0⟩]⟩]

/-- The registers of page SIL (spec chapter 12). -/
def rowsSil : List RegRow :=
  [
   ⟨"CE_COUNT", 0x40, 1, 0, false, 1,
    [⟨"COUNT", 0, 32, .ro, false, false, false, 0⟩]⟩,
   ⟨"UE_COUNT", 0x44, 1, 0, false, 1,
    [⟨"COUNT", 0, 32, .ro, false, false, false, 0⟩]⟩,
   ⟨"UE_ADDR", 0x48, 1, 0, false, 1,
    [⟨"ADDR", 0, 26, .ro, false, false, false, 0⟩]⟩,
   ⟨"UE_OWNER", 0x4c, 1, 0, false, 1,
    [⟨"STALL", 0, 4, .ro, false, false, false, 0⟩]⟩,
   ⟨"SCRUB", 0x50, 1, 0, false, 1,
    [⟨"INT", 0, 16, .rw, true, false, false, 4096⟩]⟩,
   ⟨"INTERLEAVE", 0x60, 1, 0, true, 1,
    [⟨"MODE", 0, 2, .rw, true, false, false, 0⟩]⟩,
   ⟨"ZERO_PEND", 0x64, 1, 0, true, 1,
    [⟨"COUNT", 0, 11, .ro, false, false, false, 0⟩]⟩,
   ⟨"EXTENT", 0x120, 64, 4, true, 1,
    [⟨"BASE", 0, 10, .rw, true, false, false, 0⟩,
     ⟨"COUNT", 16, 11, .rw, true, false, false, 0⟩]⟩]

/-- The registers a page of this kind has beside the common header. -/
def PageKind.rows : PageKind → List RegRow
  | .sys => rowsSys
  | .barn => rowsBarn
  | .pwr => rowsPwr
  | .thm => rowsThm
  | .clk => rowsClk
  | .rck => rowsRck
  | .win => rowsWin
  | .trn => rowsTrn
  | .cel => rowsCel
  | .grn => rowsGrn
  | .bal => rowsBal
  | .seq => rowsSeq
  | .tly => rowsTly
  | .key => rowsKey
  | .stl => rowsStl
  | .trg => rowsTrg
  | .thr => rowsThr
  | .hop => rowsHop
  | .sft => rowsSft
  | .fur => rowsFur
  | .pci => rowsPci
  | .aud => rowsAud
  | .sil => rowsSil

/-! ## Register addresses: `A.PAGE_REGISTER`, with the page instance `n` and the copy `i` as arguments -/

namespace A
abbrev PCTL (p : Nat) : Nat := p * 4096 + 0xc
abbrev PIRQ_RAW (p : Nat) : Nat := p * 4096 + 0x10
abbrev PIRQ_EN (p : Nat) : Nat := p * 4096 + 0x14
abbrev PIRQ_STAT (p : Nat) : Nat := p * 4096 + 0x18
abbrev POWNER (p : Nat) : Nat := p * 4096 + 0x1c
abbrev PERR_COUNT (p : Nat) : Nat := p * 4096 + 0x20
abbrev PERR_FIRST (p : Nat) : Nat := p * 4096 + 0x24
abbrev SYS_IF_EPOCH : Nat := 0x40
abbrev SYS_IF_EPOCH_MIN : Nat := 0x44
abbrev SYS_LIMP_CAUSE : Nat := 0x48
abbrev SYS_LIMP_CTL : Nat := 0x4c
abbrev SYS_BOOT_STAT : Nat := 0x50
abbrev SYS_TSM_EPOCH : Nat := 0x54
abbrev SYS_PWR_CMD : Nat := 0x58
abbrev SYS_RESET_CMD : Nat := 0x5c
abbrev SYS_DOM_FORCE : Nat := 0x60
abbrev SYS_MGMT_DIS : Nat := 0x68
abbrev SYS_MGMT_IRQ_EN : Nat := 0x70
abbrev SYS_MGMT_IRQ_STAT : Nat := 0x74
abbrev SYS_UPD_CTL : Nat := 0x80
abbrev SYS_UPD_LEN : Nat := 0x84
abbrev SYS_UPD_CHUNK : Nat := 0x88
abbrev SYS_UPD_STAT : Nat := 0x8c
abbrev SYS_MTIMECMP : Nat := 0xa0
abbrev SYS_MSIP : Nat := 0xa8
abbrev SYS_IRQ_PEND : Nat := 0xc0
abbrev SYS_WDOG_CTL : Nat := 0xd0
abbrev SYS_WDOG_KICK : Nat := 0xd4
abbrev SYS_WDOG_COUNT : Nat := 0xd8
abbrev SYS_RESET_CAUSE : Nat := 0xdc
abbrev SYS_FATAL_COUNT : Nat := 0xe0
abbrev SYS_ALIVE_STAT : Nat := 0xe4
abbrev SYS_UPD_WIN (i : Nat) : Nat := 0x0 + 0x800 + i * 4
abbrev BARN_WAKE_EN : Nat := 0x1040
abbrev BARN_WAKE_STAT : Nat := 0x1044
abbrev BARN_PENDING : Nat := 0x1048
abbrev BARN_WIN_LOST_COUNT : Nat := 0x104c
abbrev BARN_WAKE_MASK : Nat := 0x1050
abbrev BARN_KNOCK_MASK : Nat := 0x1058
abbrev BARN_PAD_CFG : Nat := 0x1060
abbrev BARN_PAD_RELEASE : Nat := 0x1064
abbrev BARN_PAD_STAT : Nat := 0x1068
abbrev BARN_TIMER : Nat := 0x106c
abbrev BARN_SAVE_STAT : Nat := 0x1070
abbrev BARN_WAKE_COUNT : Nat := 0x1074
abbrev PWR_STAT : Nat := 0x2040
abbrev PWR_CTL : Nat := 0x2044
abbrev PWR_HOST_PWR : Nat := 0x2048
abbrev PWR_IDLE_TIMER : Nat := 0x204c
abbrev PWR_DEV_IDLE : Nat := 0x2050
abbrev PWR_ACK_TIMEOUT : Nat := 0x2054
abbrev PWR_DOM_EN : Nat := 0x2058
abbrev PWR_DOM_ON : Nat := 0x2060
abbrev PWR_DOM_GATED : Nat := 0x2068
abbrev PWR_DORM_RET : Nat := 0x2070
abbrev PWR_REFUSE_COUNT : Nat := 0x2074
abbrev PWR_ACK_LATE_COUNT : Nat := 0x2078
abbrev PWR_REG_CFG (i : Nat) : Nat := 0x2000 + 0x80 + i * 16
abbrev PWR_REG_MV (i : Nat) : Nat := 0x2000 + 0x84 + i * 16
abbrev PWR_REG_ACK (i : Nat) : Nat := 0x2000 + 0x88 + i * 16
abbrev PWR_REG_FAIL (i : Nat) : Nat := 0x2000 + 0x8c + i * 16
abbrev PWR_DVFS_CTL : Nat := 0x20c0
abbrev PWR_DVFS_STAT : Nat := 0x20c4
abbrev THM_STAT : Nat := 0x3040
abbrev THM_THRESH : Nat := 0x3044
abbrev THM_HOT : Nat := 0x3048
abbrev THM_LOAD : Nat := 0x304c
abbrev THM_CAP : Nat := 0x3050
abbrev THM_CRIT_HOLD : Nat := 0x3054
abbrev THM_WARN_SET : Nat := 0x3058
abbrev THM_WARN_CLR : Nat := 0x305c
abbrev THM_THR_SET : Nat := 0x3060
abbrev THM_THR_CLR : Nat := 0x3064
abbrev THM_CRIT_SET : Nat := 0x3068
abbrev THM_STEP_COUNT : Nat := 0x306c
abbrev THM_TEMP (i : Nat) : Nat := 0x3000 + 0x80 + i * 4
abbrev CLK_REF_STAT : Nat := 0x4040
abbrev CLK_PLL_CTL : Nat := 0x4044
abbrev CLK_PLL_STAT : Nat := 0x4048
abbrev CLK_SRC_SEL : Nat := 0x404c
abbrev CLK_TCLK_DIV : Nat := 0x4050
abbrev CLK_LOL_COUNT : Nat := 0x4054
abbrev CLK_STC : Nat := 0x4060
abbrev CLK_STC_GAP : Nat := 0x4068
abbrev CLK_STC_GAP_COUNT : Nat := 0x4074
abbrev RCK_LAST_REFUSE : Nat := 0x5040
abbrev RCK_REFUSE_COUNT : Nat := 0x5044
abbrev RCK_SIG_TOTAL (i : Nat) : Nat := 0x5000 + 0x100 + i * 128
abbrev RCK_CONS_TOTAL (i : Nat) : Nat := 0x5000 + 0x10c + i * 128
abbrev RCK_SET_TOTAL (i : Nat) : Nat := 0x5000 + 0x118 + i * 128
abbrev RCK_REL_TOTAL (i : Nat) : Nat := 0x5000 + 0x124 + i * 128
abbrev RCK_RET_UP (i : Nat) : Nat := 0x5000 + 0x130 + i * 128
abbrev RCK_RET_DOWN (i : Nat) : Nat := 0x5000 + 0x13c + i * 128
abbrev RCK_RSIG_SENT (i : Nat) : Nat := 0x5000 + 0x148 + i * 128
abbrev RCK_RSIG_ACKED (i : Nat) : Nat := 0x5000 + 0x154 + i * 128
abbrev RCK_RSIG_RET (i : Nat) : Nat := 0x5000 + 0x160 + i * 128
abbrev RCK_RSIG_PEND (i : Nat) : Nat := 0x5000 + 0x16c + i * 128
abbrev RCK_RET_SEQ (i : Nat) : Nat := 0x5000 + 0x170 + i * 128
abbrev WIN_STAT : Nat := 0x6040
abbrev WIN_BLOCKS : Nat := 0x6044
abbrev WIN_INVALID_COUNT : Nat := 0x604c
abbrev WIN_LS_CFG (i : Nat) : Nat := 0x6000 + 0x140 + i * 64
abbrev WIN_LS_EXP (i : Nat) : Nat := 0x6000 + 0x144 + i * 64
abbrev WIN_LS_GROW (i : Nat) : Nat := 0x6000 + 0x148 + i * 64
abbrev WIN_LS_CTR (i : Nat) : Nat := 0x6000 + 0x14c + i * 64
abbrev WIN_LS_ID (i : Nat) : Nat := 0x6000 + 0x150 + i * 64
abbrev WIN_LS_TABLE (i : Nat) : Nat := 0x6000 + 0x154 + i * 64
abbrev WIN_LS_STEP (i : Nat) : Nat := 0x6000 + 0x15c + i * 64
abbrev WIN_LS_SKIP (i : Nat) : Nat := 0x6000 + 0x160 + i * 64
abbrev WIN_LS_STAT (i : Nat) : Nat := 0x6000 + 0x164 + i * 64
abbrev TRN_YIELD_LAT_MAX : Nat := 0x7040
abbrev TRN_CH_STAT (i : Nat) : Nat := 0x7000 + 0x100 + i * 32
abbrev TRN_CH_POS (i : Nat) : Nat := 0x7000 + 0x104 + i * 32
abbrev TRN_CH_DONE (i : Nat) : Nat := 0x7000 + 0x108 + i * 32
abbrev TRN_CH_TOTAL (i : Nat) : Nat := 0x7000 + 0x110 + i * 32
abbrev TRN_CH_YIELD_COUNT (i : Nat) : Nat := 0x7000 + 0x118 + i * 32
abbrev CEL_CFG : Nat := 0x8040
abbrev CEL_STAT : Nat := 0x8044
abbrev CEL_SIZE : Nat := 0x8048
abbrev CEL_ZERO_PEND : Nat := 0x804c
abbrev CEL_EXTENT (i : Nat) : Nat := 0x8000 + 0x120 + i * 4
abbrev GRN_CFG : Nat := 0x9040
abbrev GRN_READ_CFG : Nat := 0x9044
abbrev GRN_ERASE_STAT : Nat := 0x9048
abbrev GRN_ABORT_SECTOR : Nat := 0x904c
abbrev GRN_ERASE_SUSP : Nat := 0x9050
abbrev GRN_CORR_BITS : Nat := 0x9054
abbrev GRN_WARN_COUNT : Nat := 0x905c
abbrev GRN_WARN_ADDR : Nat := 0x9060
abbrev GRN_UE_COUNT : Nat := 0x9064
abbrev GRN_UE_ADDR : Nat := 0x9068
abbrev GRN_PROT_COUNT : Nat := 0x906c
abbrev GRN_PROT_ADDR : Nat := 0x9070
abbrev GRN_STW_LAST : Nat := 0x9074
abbrev GRN_LOOP_LAST : Nat := 0x9078
abbrev GRN_XO_BASE (i : Nat) : Nat := 0x9000 + 0x100 + i * 8
abbrev GRN_XO_COUNT (i : Nat) : Nat := 0x9000 + 0x104 + i * 8
abbrev GRN_WIN_FIRST (i : Nat) : Nat := 0x9000 + 0x180 + i * 16
abbrev GRN_WIN_P (i : Nat) : Nat := 0x9000 + 0x184 + i * 16
abbrev GRN_WIN_L (i : Nat) : Nat := 0x9000 + 0x188 + i * 16
abbrev GRN_WIN_BASE (i : Nat) : Nat := 0x9000 + 0x18c + i * 16
abbrev BAL_STAT : Nat := 0xa040
abbrev BAL_BLOCKS_OUT : Nat := 0xa044
abbrev BAL_BLOCKS_IN : Nat := 0xa04c
abbrev BAL_RAW_COUNT : Nat := 0xa054
abbrev BAL_CHK_COUNT : Nat := 0xa058
abbrev BAL_LAST_CHK : Nat := 0xa05c
abbrev BAL_LAST_CHK_BLOCK : Nat := 0xa060
abbrev BAL_SLOT_A (i : Nat) : Nat := 0xa000 + 0x100 + i * 8
abbrev BAL_SLOT_B (i : Nat) : Nat := 0xa000 + 0x104 + i * 8
abbrev SEQ_MUTE_CTL : Nat := 0xb040
abbrev SEQ_MISS_LAST : Nat := 0xb044
abbrev SEQ_PROMO_STAT (i : Nat) : Nat := 0xb000 + 0x100 + i * 16
abbrev SEQ_PROMO_XPOS (i : Nat) : Nat := 0xb000 + 0x104 + i * 16
abbrev SEQ_PROMO_COUNT (i : Nat) : Nat := 0xb000 + 0x108 + i * 16
abbrev SEQ_PROMO_SPLIT (i : Nat) : Nat := 0xb000 + 0x10c + i * 16
abbrev SEQ_STRM_CFG (i : Nat) : Nat := 0xb000 + 0x300 + i * 96
abbrev SEQ_STRM_SLOTS (i : Nat) : Nat := 0xb000 + 0x304 + i * 96
abbrev SEQ_STRM_TRG_BASE (i : Nat) : Nat := 0xb000 + 0x308 + i * 96
abbrev SEQ_STRM_TRG_LEN (i : Nat) : Nat := 0xb000 + 0x30c + i * 96
abbrev SEQ_STRM_BAYS (i : Nat) : Nat := 0xb000 + 0x310 + i * 96
abbrev SEQ_STRM_IN_BASE (i : Nat) : Nat := 0xb000 + 0x314 + i * 96
abbrev SEQ_STRM_OUT_BASE (i : Nat) : Nat := 0xb000 + 0x318 + i * 96
abbrev SEQ_STRM_STATE_BASE (i : Nat) : Nat := 0xb000 + 0x31c + i * 96
abbrev SEQ_STRM_STATE_LEN (i : Nat) : Nat := 0xb000 + 0x320 + i * 96
abbrev SEQ_STRM_DRY_GAIN (i : Nat) : Nat := 0xb000 + 0x324 + i * 96
abbrev SEQ_STRM_ZC (i : Nat) : Nat := 0xb000 + 0x328 + i * 96
abbrev SEQ_STRM_SIL (i : Nat) : Nat := 0xb000 + 0x32c + i * 96
abbrev SEQ_STRM_STAT (i : Nat) : Nat := 0xb000 + 0x330 + i * 96
abbrev SEQ_STRM_MISS_COUNT (i : Nat) : Nat := 0xb000 + 0x334 + i * 96
abbrev SEQ_STRM_SLIP_COUNT (i : Nat) : Nat := 0xb000 + 0x338 + i * 96
abbrev SEQ_STRM_BLOCK (i : Nat) : Nat := 0xb000 + 0x33c + i * 96
abbrev SEQ_STRM_ENERGY (i : Nat) : Nat := 0xb000 + 0x344 + i * 96
abbrev SEQ_STRM_ZC_STC (i : Nat) : Nat := 0xb000 + 0x34c + i * 96
abbrev SEQ_STRM_PORT_LATE (i : Nat) : Nat := 0xb000 + 0x354 + i * 96
abbrev TLY_CTL : Nat := 0xc040
abbrev TLY_STAT : Nat := 0xc044
abbrev TLY_SETTLE_SEQ : Nat := 0xc048
abbrev TLY_PERSIST_PERIOD : Nat := 0xc050
abbrev TLY_PERSIST_ACK : Nat := 0xc054
abbrev TLY_PERSIST_ADDR : Nat := 0xc058
abbrev TLY_PERSIST_MISS : Nat := 0xc05c
abbrev TLY_MISSED : Nat := 0xc060
abbrev TLY_VSTALE_COUNT : Nat := 0xc068
abbrev TLY_SHARE_MASK : Nat := 0xc06c
abbrev TLY_SLEEP_RATE_D : Nat := 0xc074
abbrev TLY_SLEEP_RATE_F : Nat := 0xc078
abbrev TLY_RAIL (i : Nat) : Nat := 0xc000 + 0x80 + i * 4
abbrev TLY_LOSS_BOUND : Nat := 0xc0a0
abbrev TLY_SLEEP_FJ : Nat := 0xc0ac
abbrev TLY_ENERGY (i : Nat) : Nat := 0xc000 + 0x100 + i * 16
abbrev TLY_MAC (i : Nat) : Nat := 0xc000 + 0x200 + i * 80
abbrev TLY_ELEM (i : Nat) : Nat := 0xc000 + 0x210 + i * 80
abbrev TLY_WINB (i : Nat) : Nat := 0xc000 + 0x220 + i * 80
abbrev TLY_SHARE (i : Nat) : Nat := 0xc000 + 0x230 + i * 80
abbrev TLY_ERASE (i : Nat) : Nat := 0xc000 + 0x240 + i * 80
abbrev TLY_SENSOR (i : Nat) : Nat := 0xc000 + 0x600 + i * 4
abbrev KEY_FUSE_STAT : Nat := 0xd040
abbrev KEY_DEV_UID : Nat := 0xd044
abbrev KEY_GEN (i : Nat) : Nat := 0xd000 + 0x50 + i * 4
abbrev KEY_CMD : Nat := 0xd080
abbrev KEY_SRC : Nat := 0xd084
abbrev KEY_LEN : Nat := 0xd08c
abbrev KEY_RESULT : Nat := 0xd090
abbrev KEY_DIGEST : Nat := 0xd0a0
abbrev KEY_PKH (i : Nat) : Nat := 0xd000 + 0x100 + i * 32
abbrev STL_BIND (n : Nat) : Nat := 0x10000 + n * 4096 + 0x40
abbrev STL_Q_SILO (n : Nat) : Nat := 0x10000 + n * 4096 + 0x44
abbrev STL_Q_CELLAR (n : Nat) : Nat := 0x10000 + n * 4096 + 0x48
abbrev STL_Q_BAYS (n : Nat) : Nat := 0x10000 + n * 4096 + 0x4c
abbrev STL_Q_STREAMS (n : Nat) : Nat := 0x10000 + n * 4096 + 0x50
abbrev STL_Q_RICK (n : Nat) : Nat := 0x10000 + n * 4096 + 0x54
abbrev STL_GRANT_STAT (n : Nat) : Nat := 0x10000 + n * 4096 + 0x58
abbrev STL_EGRESS (n : Nat) : Nat := 0x10000 + n * 4096 + 0x5c
abbrev STL_EGRESS_SELF (n : Nat) : Nat := 0x10000 + n * 4096 + 0x60
abbrev STL_JOB_DECL (n : Nat) : Nat := 0x10000 + n * 4096 + 0x64
abbrev STL_JOB_CTL (n : Nat) : Nat := 0x10000 + n * 4096 + 0x6c
abbrev STL_JOB_STAT (n : Nat) : Nat := 0x10000 + n * 4096 + 0x70
abbrev STL_EV_BASE (n : Nat) : Nat := 0x10000 + n * 4096 + 0x74
abbrev STL_EV_CFG (n : Nat) : Nat := 0x10000 + n * 4096 + 0x7c
abbrev STL_EV_HEAD (n : Nat) : Nat := 0x10000 + n * 4096 + 0x80
abbrev STL_EV_TAIL (n : Nat) : Nat := 0x10000 + n * 4096 + 0x84
abbrev STL_EV_LOST (n : Nat) : Nat := 0x10000 + n * 4096 + 0x88
abbrev STL_LAST_STATUS (n : Nat) : Nat := 0x10000 + n * 4096 + 0x8c
abbrev STL_UNBOUND_COUNT (n : Nat) : Nat := 0x10000 + n * 4096 + 0x90
abbrev STL_FAULT_STAT (n : Nat) : Nat := 0x10000 + n * 4096 + 0xa0
abbrev STL_FAULT_POS (n : Nat) : Nat := 0x10000 + n * 4096 + 0xa4
abbrev STL_FAULT_COUNT (n : Nat) : Nat := 0x10000 + n * 4096 + 0xa8
abbrev STL_FAULT_EXTRA (n : Nat) : Nat := 0x10000 + n * 4096 + 0xac
abbrev STL_JOB_WDOG (n : Nat) : Nat := 0x10000 + n * 4096 + 0xb0
abbrev TRG_T_BASE (n : Nat) (i : Nat) : Nat := 0x20000 + n * 4096 + 0x100 + i * 64
abbrev TRG_T_CFG (n : Nat) (i : Nat) : Nat := 0x20000 + n * 4096 + 0x108 + i * 64
abbrev TRG_T_CTL (n : Nat) (i : Nat) : Nat := 0x20000 + n * 4096 + 0x10c + i * 64
abbrev TRG_T_STAT (n : Nat) (i : Nat) : Nat := 0x20000 + n * 4096 + 0x110 + i * 64
abbrev TRG_T_HEAD (n : Nat) (i : Nat) : Nat := 0x20000 + n * 4096 + 0x114 + i * 64
abbrev TRG_T_TAIL (n : Nat) (i : Nat) : Nat := 0x20000 + n * 4096 + 0x118 + i * 64
abbrev TRG_T_WB (n : Nat) (i : Nat) : Nat := 0x20000 + n * 4096 + 0x11c + i * 64
abbrev TRG_T_DISCARD (n : Nat) (i : Nat) : Nat := 0x20000 + n * 4096 + 0x124 + i * 64
abbrev THR_CUR_MODE (n : Nat) : Nat := 0x30000 + n * 4096 + 0x40
abbrev THR_GANG (n : Nat) : Nat := 0x30000 + n * 4096 + 0x44
abbrev THR_RAMP_CFG (n : Nat) : Nat := 0x30000 + n * 4096 + 0x48
abbrev THR_ACT_STAT (n : Nat) : Nat := 0x30000 + n * 4096 + 0x4c
abbrev THR_SAT_STAT (n : Nat) : Nat := 0x30000 + n * 4096 + 0x50
abbrev THR_SAT_COUNT (n : Nat) : Nat := 0x30000 + n * 4096 + 0x54
abbrev THR_BUSY_CYC (n : Nat) : Nat := 0x30000 + n * 4096 + 0x58
abbrev THR_HELD_CYC (n : Nat) : Nat := 0x30000 + n * 4096 + 0x60
abbrev THR_PROG_CTX (n : Nat) : Nat := 0x30000 + n * 4096 + 0x100
abbrev THR_PROG_POS (n : Nat) : Nat := 0x30000 + n * 4096 + 0x104
abbrev THR_PROG_NM (n : Nat) : Nat := 0x30000 + n * 4096 + 0x108
abbrev THR_PROG_K (n : Nat) : Nat := 0x30000 + n * 4096 + 0x10c
abbrev THR_FOLDS_DONE (n : Nat) : Nat := 0x30000 + n * 4096 + 0x110
abbrev THR_FOLDS_TOTAL (n : Nat) : Nat := 0x30000 + n * 4096 + 0x118
abbrev THR_PROG_CTL (n : Nat) : Nat := 0x30000 + n * 4096 + 0x120
abbrev THR_YIELD_COUNT (n : Nat) : Nat := 0x30000 + n * 4096 + 0x124
abbrev THR_YIELD_LAT_MAX (n : Nat) : Nat := 0x30000 + n * 4096 + 0x128
abbrev THR_BATCH_CTL : Nat := 0x30130
abbrev THR_SLOT_CTX (i : Nat) : Nat := 0x30000 + 0x400 + i * 32
abbrev THR_SLOT_POS (i : Nat) : Nat := 0x30000 + 0x404 + i * 32
abbrev THR_SLOT_NM (i : Nat) : Nat := 0x30000 + 0x408 + i * 32
abbrev THR_SLOT_K (i : Nat) : Nat := 0x30000 + 0x40c + i * 32
abbrev THR_SLOT_DONE (i : Nat) : Nat := 0x30000 + 0x410 + i * 32
abbrev THR_SLOT_GANG (i : Nat) : Nat := 0x30000 + 0x418 + i * 32
abbrev HOP_CFG (n : Nat) : Nat := 0x40000 + n * 4096 + 0x40
abbrev HOP_CREDIT (n : Nat) : Nat := 0x40000 + n * 4096 + 0x44
abbrev HOP_STRIPS_IN (n : Nat) : Nat := 0x40000 + n * 4096 + 0x48
abbrev HOP_STRIPS_OUT (n : Nat) : Nat := 0x40000 + n * 4096 + 0x50
abbrev HOP_DISCARD (n : Nat) : Nat := 0x40000 + n * 4096 + 0x58
abbrev SFT_STAT (n : Nat) : Nat := 0x44000 + n * 4096 + 0x40
abbrev SFT_LOFT (n : Nat) : Nat := 0x44000 + n * 4096 + 0x44
abbrev SFT_FP_FLAGS (n : Nat) : Nat := 0x44000 + n * 4096 + 0x48
abbrev SFT_PREEMPT_COUNT (n : Nat) : Nat := 0x44000 + n * 4096 + 0x4c
abbrev SFT_YIELD_LAT_MAX (n : Nat) : Nat := 0x44000 + n * 4096 + 0x50
abbrev SFT_MBOX_HEAD : Nat := 0x44060
abbrev SFT_MBOX_TAIL : Nat := 0x44064
abbrev SFT_MBOX_LOST : Nat := 0x44068
abbrev SFT_MBOX (i : Nat) : Nat := 0x44000 + 0x800 + i * 4
abbrev FUR_CTL (n : Nat) : Nat := 0x48000 + n * 4096 + 0x40
abbrev FUR_STAT (n : Nat) : Nat := 0x48000 + n * 4096 + 0x44
abbrev FUR_LOST_COUNT (n : Nat) : Nat := 0x48000 + n * 4096 + 0x48
abbrev FUR_TRAIN_FAIL (n : Nat) : Nat := 0x48000 + n * 4096 + 0x4c
abbrev FUR_CRC_ERR (n : Nat) : Nat := 0x48000 + n * 4096 + 0x50
abbrev FUR_REPLAY_COUNT (n : Nat) : Nat := 0x48000 + n * 4096 + 0x54
abbrev FUR_DROP_COUNT (n : Nat) : Nat := 0x48000 + n * 4096 + 0x58
abbrev FUR_RX_REFUSE (n : Nat) : Nat := 0x48000 + n * 4096 + 0x5c
abbrev FUR_TX_FLITS (n : Nat) : Nat := 0x48000 + n * 4096 + 0x60
abbrev FUR_RX_FLITS (n : Nat) : Nat := 0x48000 + n * 4096 + 0x68
abbrev FUR_VC (n : Nat) (i : Nat) : Nat := 0x48000 + n * 4096 + 0x80 + i * 4
abbrev FUR_PVC (n : Nat) (i : Nat) : Nat := 0x48000 + n * 4096 + 0xa0 + i * 4
abbrev FUR_KNOCK_CTL (n : Nat) : Nat := 0x48000 + n * 4096 + 0xc0
abbrev FUR_KNOCK_MASK (n : Nat) : Nat := 0x48000 + n * 4096 + 0xc4
abbrev FUR_KNOCK_STAT (n : Nat) : Nat := 0x48000 + n * 4096 + 0xcc
abbrev FUR_KNOCK_RETRY (n : Nat) : Nat := 0x48000 + n * 4096 + 0xd0
abbrev FUR_NODE : Nat := 0x48100
abbrev FUR_KNOCK_PAT : Nat := 0x48104
abbrev FUR_DEFAULT : Nat := 0x4810c
abbrev FUR_RSIG_TIMEOUT : Nat := 0x48110
abbrev FUR_RANGE (i : Nat) : Nat := 0x48000 + 0x200 + i * 8
abbrev FUR_RANGE_PORT (i : Nat) : Nat := 0x48000 + 0x204 + i * 8
abbrev PCI_LINK_STAT (n : Nat) : Nat := 0x4c000 + n * 4096 + 0x40
abbrev PCI_DOWN_COUNT (n : Nat) : Nat := 0x4c000 + n * 4096 + 0x44
abbrev PCI_CORR_ERR (n : Nat) : Nat := 0x4c000 + n * 4096 + 0x48
abbrev PCI_UNCORR_ERR (n : Nat) : Nat := 0x4c000 + n * 4096 + 0x4c
abbrev PCI_FLR_COUNT (n : Nat) : Nat := 0x4c000 + n * 4096 + 0x50
abbrev AUD_PORT_CTL (n : Nat) : Nat := 0x50000 + n * 4096 + 0x40
abbrev AUD_PORT_STAT (n : Nat) : Nat := 0x50000 + n * 4096 + 0x44
abbrev AUD_SLIP_COUNT (n : Nat) : Nat := 0x50000 + n * 4096 + 0x48
abbrev AUD_LOST_COUNT (n : Nat) : Nat := 0x50000 + n * 4096 + 0x4c
abbrev SIL_CE_COUNT (n : Nat) : Nat := 0x60000 + n * 4096 + 0x40
abbrev SIL_UE_COUNT (n : Nat) : Nat := 0x60000 + n * 4096 + 0x44
abbrev SIL_UE_ADDR (n : Nat) : Nat := 0x60000 + n * 4096 + 0x48
abbrev SIL_UE_OWNER (n : Nat) : Nat := 0x60000 + n * 4096 + 0x4c
abbrev SIL_SCRUB (n : Nat) : Nat := 0x60000 + n * 4096 + 0x50
abbrev SIL_INTERLEAVE : Nat := 0x60060
abbrev SIL_ZERO_PEND : Nat := 0x60064
abbrev SIL_EXTENT (i : Nat) : Nat := 0x60000 + 0x120 + i * 4

end A

/-! ## Fields: `R.PAGE_REGISTER_FIELD`; `W` is a whole register -/

namespace R
abbrev PCTL_LOCK (p : Nat) : Fld := ⟨A.PCTL p, 0, 1⟩
abbrev PCTL_PERR_CLR (p : Nat) : Fld := ⟨A.PCTL p, 1, 1⟩
abbrev PIRQ_RAW (p : Nat) : Fld := ⟨A.PIRQ_RAW p, 0, 32⟩
abbrev PIRQ_EN (p : Nat) : Fld := ⟨A.PIRQ_EN p, 0, 32⟩
abbrev PIRQ_STAT (p : Nat) : Fld := ⟨A.PIRQ_STAT p, 0, 32⟩
abbrev POWNER_STALL (p : Nat) : Fld := ⟨A.POWNER p, 0, 4⟩
abbrev PERR_COUNT (p : Nat) : Fld := ⟨A.PERR_COUNT p, 0, 32⟩
abbrev PERR_FIRST_OFFSET (p : Nat) : Fld := ⟨A.PERR_FIRST p, 0, 12⟩
abbrev PERR_FIRST_REQ (p : Nat) : Fld := ⟨A.PERR_FIRST p, 12, 4⟩
abbrev PERR_FIRST_CAUSE (p : Nat) : Fld := ⟨A.PERR_FIRST p, 16, 3⟩
abbrev PERR_FIRST_PAGE (p : Nat) : Fld := ⟨A.PERR_FIRST p, 24, 7⟩
abbrev SYS_IF_EPOCH : Fld := ⟨A.SYS_IF_EPOCH, 0, 16⟩
abbrev SYS_IF_EPOCH_MIN_EPOCH : Fld := ⟨A.SYS_IF_EPOCH_MIN, 0, 16⟩
abbrev SYS_LIMP_CAUSE : Fld := ⟨A.SYS_LIMP_CAUSE, 0, 3⟩
abbrev SYS_LIMP_CTL_ENTER : Fld := ⟨A.SYS_LIMP_CTL, 0, 3⟩
abbrev SYS_LIMP_CTL_READY : Fld := ⟨A.SYS_LIMP_CTL, 8, 1⟩
abbrev SYS_BOOT_STAT_SLOT : Fld := ⟨A.SYS_BOOT_STAT, 0, 1⟩
abbrev SYS_BOOT_STAT_A_BAD : Fld := ⟨A.SYS_BOOT_STAT, 1, 1⟩
abbrev SYS_BOOT_STAT_B_BAD : Fld := ⟨A.SYS_BOOT_STAT, 2, 1⟩
abbrev SYS_BOOT_STAT_TSM_OK : Fld := ⟨A.SYS_BOOT_STAT, 3, 1⟩
abbrev SYS_BOOT_STAT_RECOVERY : Fld := ⟨A.SYS_BOOT_STAT, 4, 1⟩
abbrev SYS_BOOT_STAT_KIND : Fld := ⟨A.SYS_BOOT_STAT, 5, 2⟩
abbrev SYS_BOOT_STAT_GSR_EPOCH : Fld := ⟨A.SYS_BOOT_STAT, 16, 16⟩
abbrev SYS_TSM_EPOCH : Fld := ⟨A.SYS_TSM_EPOCH, 0, 16⟩
abbrev SYS_PWR_CMD : Fld := ⟨A.SYS_PWR_CMD, 0, 3⟩
abbrev SYS_PWR_CMD_FORCE : Fld := ⟨A.SYS_PWR_CMD, 8, 1⟩
abbrev SYS_RESET_CMD_STEWARD : Fld := ⟨A.SYS_RESET_CMD, 0, 1⟩
abbrev SYS_RESET_CMD_WARM : Fld := ⟨A.SYS_RESET_CMD, 1, 1⟩
abbrev SYS_RESET_CMD_BOOT_B : Fld := ⟨A.SYS_RESET_CMD, 2, 1⟩
abbrev SYS_RESET_CMD_STALLS : Fld := ⟨A.SYS_RESET_CMD, 8, 9⟩
abbrev SYS_DOM_FORCE : Fld := ⟨A.SYS_DOM_FORCE, 0, 64⟩
abbrev SYS_MGMT_DIS : Fld := ⟨A.SYS_MGMT_DIS, 0, 64⟩
abbrev SYS_MGMT_IRQ_EN : Fld := ⟨A.SYS_MGMT_IRQ_EN, 0, 7⟩
abbrev SYS_MGMT_IRQ_STAT_LIMP : Fld := ⟨A.SYS_MGMT_IRQ_STAT, 0, 1⟩
abbrev SYS_MGMT_IRQ_STAT_FAULT : Fld := ⟨A.SYS_MGMT_IRQ_STAT, 1, 1⟩
abbrev SYS_MGMT_IRQ_STAT_THERMAL : Fld := ⟨A.SYS_MGMT_IRQ_STAT, 2, 1⟩
abbrev SYS_MGMT_IRQ_STAT_WAKE : Fld := ⟨A.SYS_MGMT_IRQ_STAT, 3, 1⟩
abbrev SYS_MGMT_IRQ_STAT_LOSS : Fld := ⟨A.SYS_MGMT_IRQ_STAT, 4, 1⟩
abbrev SYS_MGMT_IRQ_STAT_UPD : Fld := ⟨A.SYS_MGMT_IRQ_STAT, 5, 1⟩
abbrev SYS_MGMT_IRQ_STAT_DISAGREE : Fld := ⟨A.SYS_MGMT_IRQ_STAT, 6, 1⟩
abbrev SYS_UPD_CTL_OP : Fld := ⟨A.SYS_UPD_CTL, 0, 2⟩
abbrev SYS_UPD_CTL_TARGET : Fld := ⟨A.SYS_UPD_CTL, 2, 2⟩
abbrev SYS_UPD_CTL_HOST_OK : Fld := ⟨A.SYS_UPD_CTL, 8, 1⟩
abbrev SYS_UPD_LEN_BYTES : Fld := ⟨A.SYS_UPD_LEN, 0, 21⟩
abbrev SYS_UPD_CHUNK_OFFSET : Fld := ⟨A.SYS_UPD_CHUNK, 0, 21⟩
abbrev SYS_UPD_STAT_STATE : Fld := ⟨A.SYS_UPD_STAT, 0, 2⟩
abbrev SYS_UPD_STAT_RESULT : Fld := ⟨A.SYS_UPD_STAT, 8, 8⟩
abbrev SYS_UPD_STAT_CHUNKS : Fld := ⟨A.SYS_UPD_STAT, 16, 16⟩
abbrev SYS_MTIMECMP : Fld := ⟨A.SYS_MTIMECMP, 0, 64⟩
abbrev SYS_MSIP : Fld := ⟨A.SYS_MSIP, 0, 1⟩
abbrev SYS_IRQ_PEND : Fld := ⟨A.SYS_IRQ_PEND, 0, 128⟩
abbrev SYS_WDOG_CTL_PERIOD : Fld := ⟨A.SYS_WDOG_CTL, 0, 16⟩
abbrev SYS_WDOG_CTL_EN : Fld := ⟨A.SYS_WDOG_CTL, 16, 1⟩
abbrev SYS_WDOG_KICK_KEY : Fld := ⟨A.SYS_WDOG_KICK, 0, 16⟩
abbrev SYS_WDOG_COUNT : Fld := ⟨A.SYS_WDOG_COUNT, 0, 32⟩
abbrev SYS_RESET_CAUSE : Fld := ⟨A.SYS_RESET_CAUSE, 0, 4⟩
abbrev SYS_RESET_CAUSE_REPEAT : Fld := ⟨A.SYS_RESET_CAUSE, 8, 4⟩
abbrev SYS_FATAL_COUNT : Fld := ⟨A.SYS_FATAL_COUNT, 0, 32⟩
abbrev SYS_ALIVE_STAT_TOGGLING : Fld := ⟨A.SYS_ALIVE_STAT, 0, 1⟩
abbrev SYS_UPD_WIN (i : Nat) : Fld := ⟨A.SYS_UPD_WIN i, 0, 32⟩
abbrev BARN_WAKE_EN_LANE : Fld := ⟨A.BARN_WAKE_EN, 0, 4⟩
abbrev BARN_WAKE_EN_KNOCK : Fld := ⟨A.BARN_WAKE_EN, 4, 4⟩
abbrev BARN_WAKE_EN_PCI : Fld := ⟨A.BARN_WAKE_EN, 8, 2⟩
abbrev BARN_WAKE_EN_AUD : Fld := ⟨A.BARN_WAKE_EN, 10, 4⟩
abbrev BARN_WAKE_EN_I3C : Fld := ⟨A.BARN_WAKE_EN, 14, 1⟩
abbrev BARN_WAKE_EN_TIMER : Fld := ⟨A.BARN_WAKE_EN, 15, 1⟩
abbrev BARN_WAKE_STAT_CAUSE : Fld := ⟨A.BARN_WAKE_STAT, 0, 4⟩
abbrev BARN_WAKE_STAT_PORT : Fld := ⟨A.BARN_WAKE_STAT, 4, 4⟩
abbrev BARN_WAKE_STAT_CRIT : Fld := ⟨A.BARN_WAKE_STAT, 8, 1⟩
abbrev BARN_WAKE_STAT_RAIL_FAIL : Fld := ⟨A.BARN_WAKE_STAT, 9, 1⟩
abbrev BARN_PENDING_EVENTS : Fld := ⟨A.BARN_PENDING, 0, 16⟩
abbrev BARN_WIN_LOST_COUNT : Fld := ⟨A.BARN_WIN_LOST_COUNT, 0, 32⟩
abbrev BARN_WAKE_MASK : Fld := ⟨A.BARN_WAKE_MASK, 0, 64⟩
abbrev BARN_KNOCK_MASK : Fld := ⟨A.BARN_KNOCK_MASK, 0, 64⟩
abbrev BARN_PAD_CFG_FLOAT : Fld := ⟨A.BARN_PAD_CFG, 0, 2⟩
abbrev BARN_PAD_RELEASE_GROUP : Fld := ⟨A.BARN_PAD_RELEASE, 0, 5⟩
abbrev BARN_PAD_STAT_HELD : Fld := ⟨A.BARN_PAD_STAT, 0, 5⟩
abbrev BARN_TIMER_CYC : Fld := ⟨A.BARN_TIMER, 0, 32⟩
abbrev BARN_SAVE_STAT_VALID : Fld := ⟨A.BARN_SAVE_STAT, 0, 1⟩
abbrev BARN_SAVE_STAT_RESTORED : Fld := ⟨A.BARN_SAVE_STAT, 1, 1⟩
abbrev BARN_SAVE_STAT_CRC_FAIL : Fld := ⟨A.BARN_SAVE_STAT, 2, 1⟩
abbrev BARN_WAKE_COUNT : Fld := ⟨A.BARN_WAKE_COUNT, 0, 32⟩
abbrev PWR_STAT_STATE : Fld := ⟨A.PWR_STAT, 0, 3⟩
abbrev PWR_STAT_REFUSE : Fld := ⟨A.PWR_STAT, 4, 3⟩
abbrev PWR_CTL_ENTRY_ACK : Fld := ⟨A.PWR_CTL, 0, 1⟩
abbrev PWR_CTL_AUTO_DORMANT : Fld := ⟨A.PWR_CTL, 1, 1⟩
abbrev PWR_CTL_CELLAR_SR : Fld := ⟨A.PWR_CTL, 2, 1⟩
abbrev PWR_HOST_PWR_STALLS : Fld := ⟨A.PWR_HOST_PWR, 1, 8⟩
abbrev PWR_IDLE_TIMER_CYC : Fld := ⟨A.PWR_IDLE_TIMER, 0, 16⟩
abbrev PWR_DEV_IDLE_MS : Fld := ⟨A.PWR_DEV_IDLE, 0, 16⟩
abbrev PWR_ACK_TIMEOUT_MS : Fld := ⟨A.PWR_ACK_TIMEOUT, 0, 8⟩
abbrev PWR_DOM_EN : Fld := ⟨A.PWR_DOM_EN, 0, 64⟩
abbrev PWR_DOM_ON : Fld := ⟨A.PWR_DOM_ON, 0, 64⟩
abbrev PWR_DOM_GATED : Fld := ⟨A.PWR_DOM_GATED, 0, 64⟩
abbrev PWR_DORM_RET_BANKS : Fld := ⟨A.PWR_DORM_RET, 0, 16⟩
abbrev PWR_REFUSE_COUNT : Fld := ⟨A.PWR_REFUSE_COUNT, 0, 32⟩
abbrev PWR_ACK_LATE_COUNT : Fld := ⟨A.PWR_ACK_LATE_COUNT, 0, 32⟩
abbrev PWR_REG_CFG_ADDR (i : Nat) : Fld := ⟨A.PWR_REG_CFG i, 0, 7⟩
abbrev PWR_REG_CFG_EN (i : Nat) : Fld := ⟨A.PWR_REG_CFG i, 7, 1⟩
abbrev PWR_REG_CFG_RAIL (i : Nat) : Fld := ⟨A.PWR_REG_CFG i, 8, 3⟩
abbrev PWR_REG_CFG_VOUT_MODE (i : Nat) : Fld := ⟨A.PWR_REG_CFG i, 16, 5⟩
abbrev PWR_REG_MV_RUN_MV (i : Nat) : Fld := ⟨A.PWR_REG_MV i, 0, 16⟩
abbrev PWR_REG_MV_FALLOW_MV (i : Nat) : Fld := ⟨A.PWR_REG_MV i, 16, 16⟩
abbrev PWR_REG_ACK_VOUT_ACK (i : Nat) : Fld := ⟨A.PWR_REG_ACK i, 0, 16⟩
abbrev PWR_REG_ACK_STAT (i : Nat) : Fld := ⟨A.PWR_REG_ACK i, 16, 2⟩
abbrev PWR_REG_FAIL_ACK_FAIL_COUNT (i : Nat) : Fld := ⟨A.PWR_REG_FAIL i, 0, 32⟩
abbrev PWR_DVFS_CTL_STEP : Fld := ⟨A.PWR_DVFS_CTL, 0, 2⟩
abbrev PWR_DVFS_CTL_MV : Fld := ⟨A.PWR_DVFS_CTL, 16, 16⟩
abbrev PWR_DVFS_STAT_BUSY : Fld := ⟨A.PWR_DVFS_STAT, 0, 1⟩
abbrev PWR_DVFS_STAT_DONE : Fld := ⟨A.PWR_DVFS_STAT, 1, 1⟩
abbrev PWR_DVFS_STAT_FAIL : Fld := ⟨A.PWR_DVFS_STAT, 2, 1⟩
abbrev THM_STAT_WARN : Fld := ⟨A.THM_STAT, 0, 1⟩
abbrev THM_STAT_THROTTLE : Fld := ⟨A.THM_STAT, 1, 1⟩
abbrev THM_STAT_CRIT : Fld := ⟨A.THM_STAT, 2, 1⟩
abbrev THM_STAT_SENSOR_FAULT : Fld := ⟨A.THM_STAT, 3, 1⟩
abbrev THM_THRESH_WARN : Fld := ⟨A.THM_THRESH, 0, 8⟩
abbrev THM_THRESH_THROTTLE : Fld := ⟨A.THM_THRESH, 8, 8⟩
abbrev THM_THRESH_CRIT : Fld := ⟨A.THM_THRESH, 16, 8⟩
abbrev THM_HOT_VALUE : Fld := ⟨A.THM_HOT, 0, 16⟩
abbrev THM_HOT_SENSOR : Fld := ⟨A.THM_HOT, 16, 4⟩
abbrev THM_LOAD_RT_LOAD : Fld := ⟨A.THM_LOAD, 0, 16⟩
abbrev THM_LOAD_RT_LIMIT : Fld := ⟨A.THM_LOAD, 16, 16⟩
abbrev THM_CAP_STEP : Fld := ⟨A.THM_CAP, 0, 2⟩
abbrev THM_CRIT_HOLD_MS : Fld := ⟨A.THM_CRIT_HOLD, 0, 16⟩
abbrev THM_WARN_SET_COUNT : Fld := ⟨A.THM_WARN_SET, 0, 32⟩
abbrev THM_WARN_CLR_COUNT : Fld := ⟨A.THM_WARN_CLR, 0, 32⟩
abbrev THM_THR_SET_COUNT : Fld := ⟨A.THM_THR_SET, 0, 32⟩
abbrev THM_THR_CLR_COUNT : Fld := ⟨A.THM_THR_CLR, 0, 32⟩
abbrev THM_CRIT_SET_COUNT : Fld := ⟨A.THM_CRIT_SET, 0, 32⟩
abbrev THM_STEP_COUNT : Fld := ⟨A.THM_STEP_COUNT, 0, 32⟩
abbrev THM_TEMP_VALUE (i : Nat) : Fld := ⟨A.THM_TEMP i, 0, 16⟩
abbrev CLK_REF_STAT_PRESENT : Fld := ⟨A.CLK_REF_STAT, 0, 1⟩
abbrev CLK_REF_STAT_FAMILY : Fld := ⟨A.CLK_REF_STAT, 1, 1⟩
abbrev CLK_REF_STAT_MISMATCH : Fld := ⟨A.CLK_REF_STAT, 2, 1⟩
abbrev CLK_REF_STAT_MEAS : Fld := ⟨A.CLK_REF_STAT, 16, 16⟩
abbrev CLK_PLL_CTL_EN : Fld := ⟨A.CLK_PLL_CTL, 0, 1⟩
abbrev CLK_PLL_STAT_LOCK : Fld := ⟨A.CLK_PLL_STAT, 0, 1⟩
abbrev CLK_PLL_STAT_LOL : Fld := ⟨A.CLK_PLL_STAT, 1, 1⟩
abbrev CLK_SRC_SEL_CORE_SRC : Fld := ⟨A.CLK_SRC_SEL, 0, 1⟩
abbrev CLK_SRC_SEL_ACLK_SRC : Fld := ⟨A.CLK_SRC_SEL, 1, 1⟩
abbrev CLK_TCLK_DIV_REQ : Fld := ⟨A.CLK_TCLK_DIV, 0, 3⟩
abbrev CLK_TCLK_DIV_CUR : Fld := ⟨A.CLK_TCLK_DIV, 8, 3⟩
abbrev CLK_LOL_COUNT : Fld := ⟨A.CLK_LOL_COUNT, 0, 32⟩
abbrev CLK_STC : Fld := ⟨A.CLK_STC, 0, 64⟩
abbrev CLK_STC_GAP : Fld := ⟨A.CLK_STC_GAP, 0, 64⟩
abbrev CLK_STC_GAP_COUNT : Fld := ⟨A.CLK_STC_GAP_COUNT, 0, 32⟩
abbrev RCK_LAST_REFUSE_COUNTER : Fld := ⟨A.RCK_LAST_REFUSE, 0, 16⟩
abbrev RCK_LAST_REFUSE_STALL : Fld := ⟨A.RCK_LAST_REFUSE, 16, 4⟩
abbrev RCK_LAST_REFUSE_CAUSE : Fld := ⟨A.RCK_LAST_REFUSE, 20, 2⟩
abbrev RCK_REFUSE_COUNT : Fld := ⟨A.RCK_REFUSE_COUNT, 0, 32⟩
abbrev RCK_SIG_TOTAL (i : Nat) : Fld := ⟨A.RCK_SIG_TOTAL i, 0, 96⟩
abbrev RCK_CONS_TOTAL (i : Nat) : Fld := ⟨A.RCK_CONS_TOTAL i, 0, 96⟩
abbrev RCK_SET_TOTAL (i : Nat) : Fld := ⟨A.RCK_SET_TOTAL i, 0, 96⟩
abbrev RCK_REL_TOTAL (i : Nat) : Fld := ⟨A.RCK_REL_TOTAL i, 0, 96⟩
abbrev RCK_RET_UP (i : Nat) : Fld := ⟨A.RCK_RET_UP i, 0, 96⟩
abbrev RCK_RET_DOWN (i : Nat) : Fld := ⟨A.RCK_RET_DOWN i, 0, 96⟩
abbrev RCK_RSIG_SENT (i : Nat) : Fld := ⟨A.RCK_RSIG_SENT i, 0, 96⟩
abbrev RCK_RSIG_ACKED (i : Nat) : Fld := ⟨A.RCK_RSIG_ACKED i, 0, 96⟩
abbrev RCK_RSIG_RET (i : Nat) : Fld := ⟨A.RCK_RSIG_RET i, 0, 96⟩
abbrev RCK_RSIG_PEND_COUNT (i : Nat) : Fld := ⟨A.RCK_RSIG_PEND i, 0, 32⟩
abbrev RCK_RET_SEQ_COUNT (i : Nat) : Fld := ⟨A.RCK_RET_SEQ i, 0, 32⟩
abbrev WIN_STAT_BUSY : Fld := ⟨A.WIN_STAT, 0, 1⟩
abbrev WIN_STAT_MODE : Fld := ⟨A.WIN_STAT, 1, 2⟩
abbrev WIN_STAT_STALL : Fld := ⟨A.WIN_STAT, 4, 4⟩
abbrev WIN_BLOCKS : Fld := ⟨A.WIN_BLOCKS, 0, 64⟩
abbrev WIN_INVALID_COUNT : Fld := ⟨A.WIN_INVALID_COUNT, 0, 32⟩
abbrev WIN_LS_CFG_MODE (i : Nat) : Fld := ⟨A.WIN_LS_CFG i, 0, 2⟩
abbrev WIN_LS_CFG_HEADROOM (i : Nat) : Fld := ⟨A.WIN_LS_CFG i, 4, 2⟩
abbrev WIN_LS_CFG_NT (i : Nat) : Fld := ⟨A.WIN_LS_CFG i, 16, 11⟩
abbrev WIN_LS_EXP_EMIN (i : Nat) : Fld := ⟨A.WIN_LS_EXP i, 0, 8⟩
abbrev WIN_LS_EXP_EMAX (i : Nat) : Fld := ⟨A.WIN_LS_EXP i, 8, 8⟩
abbrev WIN_LS_EXP_E0 (i : Nat) : Fld := ⟨A.WIN_LS_EXP i, 16, 8⟩
abbrev WIN_LS_EXP_E (i : Nat) : Fld := ⟨A.WIN_LS_EXP i, 24, 8⟩
abbrev WIN_LS_GROW_GROW_STEPS (i : Nat) : Fld := ⟨A.WIN_LS_GROW i, 0, 16⟩
abbrev WIN_LS_GROW_CLEAN (i : Nat) : Fld := ⟨A.WIN_LS_GROW i, 16, 16⟩
abbrev WIN_LS_CTR_DONE (i : Nat) : Fld := ⟨A.WIN_LS_CTR i, 0, 16⟩
abbrev WIN_LS_CTR_READY (i : Nat) : Fld := ⟨A.WIN_LS_CTR i, 16, 16⟩
abbrev WIN_LS_ID_ID_BASE (i : Nat) : Fld := ⟨A.WIN_LS_ID i, 0, 16⟩
abbrev WIN_LS_TABLE (i : Nat) : Fld := ⟨A.WIN_LS_TABLE i, 0, 64⟩
abbrev WIN_LS_STEP_COUNT (i : Nat) : Fld := ⟨A.WIN_LS_STEP i, 0, 32⟩
abbrev WIN_LS_SKIP_COUNT (i : Nat) : Fld := ⟨A.WIN_LS_SKIP i, 0, 32⟩
abbrev WIN_LS_STAT_BAD (i : Nat) : Fld := ⟨A.WIN_LS_STAT i, 0, 1⟩
abbrev TRN_YIELD_LAT_MAX_CYC : Fld := ⟨A.TRN_YIELD_LAT_MAX, 0, 16⟩
abbrev TRN_CH_STAT_STATE (i : Nat) : Fld := ⟨A.TRN_CH_STAT i, 0, 2⟩
abbrev TRN_CH_STAT_RT (i : Nat) : Fld := ⟨A.TRN_CH_STAT i, 2, 1⟩
abbrev TRN_CH_STAT_STALL (i : Nat) : Fld := ⟨A.TRN_CH_STAT i, 3, 4⟩
abbrev TRN_CH_STAT_TAG (i : Nat) : Fld := ⟨A.TRN_CH_STAT i, 16, 16⟩
abbrev TRN_CH_POS (i : Nat) : Fld := ⟨A.TRN_CH_POS i, 0, 32⟩
abbrev TRN_CH_DONE (i : Nat) : Fld := ⟨A.TRN_CH_DONE i, 0, 64⟩
abbrev TRN_CH_TOTAL (i : Nat) : Fld := ⟨A.TRN_CH_TOTAL i, 0, 64⟩
abbrev TRN_CH_YIELD_COUNT (i : Nat) : Fld := ⟨A.TRN_CH_YIELD_COUNT i, 0, 32⟩
abbrev CEL_CFG_DENS : Fld := ⟨A.CEL_CFG, 0, 3⟩
abbrev CEL_CFG_RATE : Fld := ⟨A.CEL_CFG, 4, 2⟩
abbrev CEL_CFG_WDBI : Fld := ⟨A.CEL_CFG, 8, 1⟩
abbrev CEL_STAT_TRAINED : Fld := ⟨A.CEL_STAT, 0, 1⟩
abbrev CEL_STAT_SR : Fld := ⟨A.CEL_STAT, 4, 4⟩
abbrev CEL_SIZE_MIB : Fld := ⟨A.CEL_SIZE, 0, 16⟩
abbrev CEL_ZERO_PEND_COUNT : Fld := ⟨A.CEL_ZERO_PEND, 0, 16⟩
abbrev CEL_EXTENT_BASE (i : Nat) : Fld := ⟨A.CEL_EXTENT i, 0, 16⟩
abbrev CEL_EXTENT_COUNT (i : Nat) : Fld := ⟨A.CEL_EXTENT i, 16, 16⟩
abbrev GRN_CFG_ECC_WARN_THRESH : Fld := ⟨A.GRN_CFG, 0, 2⟩
abbrev GRN_READ_CFG_PREFETCH : Fld := ⟨A.GRN_READ_CFG, 0, 1⟩
abbrev GRN_READ_CFG_BCACHE : Fld := ⟨A.GRN_READ_CFG, 1, 1⟩
abbrev GRN_READ_CFG_CONT : Fld := ⟨A.GRN_READ_CFG, 2, 1⟩
abbrev GRN_ERASE_STAT_SECTOR : Fld := ⟨A.GRN_ERASE_STAT, 0, 15⟩
abbrev GRN_ERASE_STAT_STATE : Fld := ⟨A.GRN_ERASE_STAT, 16, 2⟩
abbrev GRN_ERASE_STAT_SUSPENDED : Fld := ⟨A.GRN_ERASE_STAT, 18, 1⟩
abbrev GRN_ERASE_STAT_ABORTED : Fld := ⟨A.GRN_ERASE_STAT, 19, 1⟩
abbrev GRN_ABORT_SECTOR : Fld := ⟨A.GRN_ABORT_SECTOR, 0, 15⟩
abbrev GRN_ERASE_SUSP_US : Fld := ⟨A.GRN_ERASE_SUSP, 0, 32⟩
abbrev GRN_CORR_BITS : Fld := ⟨A.GRN_CORR_BITS, 0, 64⟩
abbrev GRN_WARN_COUNT : Fld := ⟨A.GRN_WARN_COUNT, 0, 32⟩
abbrev GRN_WARN_ADDR : Fld := ⟨A.GRN_WARN_ADDR, 0, 29⟩
abbrev GRN_UE_COUNT : Fld := ⟨A.GRN_UE_COUNT, 0, 32⟩
abbrev GRN_UE_ADDR : Fld := ⟨A.GRN_UE_ADDR, 0, 29⟩
abbrev GRN_PROT_COUNT : Fld := ⟨A.GRN_PROT_COUNT, 0, 32⟩
abbrev GRN_PROT_ADDR : Fld := ⟨A.GRN_PROT_ADDR, 0, 32⟩
abbrev GRN_STW_LAST_CORR : Fld := ⟨A.GRN_STW_LAST, 0, 2⟩
abbrev GRN_STW_LAST_LINE : Fld := ⟨A.GRN_STW_LAST, 4, 24⟩
abbrev GRN_LOOP_LAST_CORR : Fld := ⟨A.GRN_LOOP_LAST, 0, 2⟩
abbrev GRN_LOOP_LAST_LINE : Fld := ⟨A.GRN_LOOP_LAST, 4, 24⟩
abbrev GRN_XO_BASE_SECTOR (i : Nat) : Fld := ⟨A.GRN_XO_BASE i, 0, 15⟩
abbrev GRN_XO_COUNT (i : Nat) : Fld := ⟨A.GRN_XO_COUNT i, 0, 16⟩
abbrev GRN_XO_COUNT_EN (i : Nat) : Fld := ⟨A.GRN_XO_COUNT i, 16, 1⟩
abbrev GRN_XO_COUNT_WRITABLE (i : Nat) : Fld := ⟨A.GRN_XO_COUNT i, 17, 1⟩
abbrev GRN_XO_COUNT_LOCK (i : Nat) : Fld := ⟨A.GRN_XO_COUNT i, 18, 1⟩
abbrev GRN_WIN_FIRST_SECTOR (i : Nat) : Fld := ⟨A.GRN_WIN_FIRST i, 0, 15⟩
abbrev GRN_WIN_P (i : Nat) : Fld := ⟨A.GRN_WIN_P i, 0, 14⟩
abbrev GRN_WIN_L (i : Nat) : Fld := ⟨A.GRN_WIN_L i, 0, 13⟩
abbrev GRN_WIN_L_EN (i : Nat) : Fld := ⟨A.GRN_WIN_L i, 16, 1⟩
abbrev GRN_WIN_BASE (i : Nat) : Fld := ⟨A.GRN_WIN_BASE i, 0, 13⟩
abbrev BAL_STAT_BUSY : Fld := ⟨A.BAL_STAT, 0, 1⟩
abbrev BAL_STAT_STALL : Fld := ⟨A.BAL_STAT, 1, 4⟩
abbrev BAL_STAT_PATHS : Fld := ⟨A.BAL_STAT, 8, 7⟩
abbrev BAL_BLOCKS_OUT : Fld := ⟨A.BAL_BLOCKS_OUT, 0, 64⟩
abbrev BAL_BLOCKS_IN : Fld := ⟨A.BAL_BLOCKS_IN, 0, 64⟩
abbrev BAL_RAW_COUNT : Fld := ⟨A.BAL_RAW_COUNT, 0, 32⟩
abbrev BAL_CHK_COUNT : Fld := ⟨A.BAL_CHK_COUNT, 0, 32⟩
abbrev BAL_LAST_CHK_KIND : Fld := ⟨A.BAL_LAST_CHK, 0, 3⟩
abbrev BAL_LAST_CHK_PATH : Fld := ⟨A.BAL_LAST_CHK, 4, 3⟩
abbrev BAL_LAST_CHK_STALL : Fld := ⟨A.BAL_LAST_CHK, 7, 4⟩
abbrev BAL_LAST_CHK_BLOCK : Fld := ⟨A.BAL_LAST_CHK_BLOCK, 0, 32⟩
abbrev BAL_SLOT_A_FIRST (i : Nat) : Fld := ⟨A.BAL_SLOT_A i, 0, 15⟩
abbrev BAL_SLOT_A_COUNT (i : Nat) : Fld := ⟨A.BAL_SLOT_A i, 16, 15⟩
abbrev BAL_SLOT_B_OWNER (i : Nat) : Fld := ⟨A.BAL_SLOT_B i, 0, 4⟩
abbrev BAL_SLOT_B_VALID (i : Nat) : Fld := ⟨A.BAL_SLOT_B i, 4, 1⟩
abbrev BAL_SLOT_B_COMMITS (i : Nat) : Fld := ⟨A.BAL_SLOT_B i, 16, 16⟩
abbrev SEQ_MUTE_CTL_OUT_RELEASE : Fld := ⟨A.SEQ_MUTE_CTL, 0, 1⟩
abbrev SEQ_MUTE_CTL_MUTE_RELEASE : Fld := ⟨A.SEQ_MUTE_CTL, 1, 1⟩
abbrev SEQ_MUTE_CTL_MUTE_FORCE : Fld := ⟨A.SEQ_MUTE_CTL, 2, 1⟩
abbrev SEQ_MUTE_CTL_MUTE_PIN : Fld := ⟨A.SEQ_MUTE_CTL, 3, 1⟩
abbrev SEQ_MISS_LAST_STREAM : Fld := ⟨A.SEQ_MISS_LAST, 0, 5⟩
abbrev SEQ_PROMO_STAT_STATE (i : Nat) : Fld := ⟨A.SEQ_PROMO_STAT i, 0, 3⟩
abbrev SEQ_PROMO_STAT_OUTCOME (i : Nat) : Fld := ⟨A.SEQ_PROMO_STAT i, 4, 4⟩
abbrev SEQ_PROMO_STAT_WARM_LEFT (i : Nat) : Fld := ⟨A.SEQ_PROMO_STAT i, 8, 8⟩
abbrev SEQ_PROMO_STAT_TAG (i : Nat) : Fld := ⟨A.SEQ_PROMO_STAT i, 16, 16⟩
abbrev SEQ_PROMO_XPOS_POS (i : Nat) : Fld := ⟨A.SEQ_PROMO_XPOS i, 0, 13⟩
abbrev SEQ_PROMO_COUNT_COMMITS (i : Nat) : Fld := ⟨A.SEQ_PROMO_COUNT i, 0, 16⟩
abbrev SEQ_PROMO_COUNT_ABANDONS (i : Nat) : Fld := ⟨A.SEQ_PROMO_COUNT i, 16, 16⟩
abbrev SEQ_PROMO_SPLIT_P (i : Nat) : Fld := ⟨A.SEQ_PROMO_SPLIT i, 0, 8⟩
abbrev SEQ_STRM_CFG_EN (i : Nat) : Fld := ⟨A.SEQ_STRM_CFG i, 0, 1⟩
abbrev SEQ_STRM_CFG_BLK (i : Nat) : Fld := ⟨A.SEQ_STRM_CFG i, 1, 3⟩
abbrev SEQ_STRM_CFG_FB (i : Nat) : Fld := ⟨A.SEQ_STRM_CFG i, 4, 1⟩
abbrev SEQ_STRM_CFG_DORMANT_DRY (i : Nat) : Fld := ⟨A.SEQ_STRM_CFG i, 5, 1⟩
abbrev SEQ_STRM_CFG_IN_PORT (i : Nat) : Fld := ⟨A.SEQ_STRM_CFG i, 8, 2⟩
abbrev SEQ_STRM_CFG_OUT_PORT (i : Nat) : Fld := ⟨A.SEQ_STRM_CFG i, 10, 2⟩
abbrev SEQ_STRM_SLOTS_IN_MASK (i : Nat) : Fld := ⟨A.SEQ_STRM_SLOTS i, 0, 8⟩
abbrev SEQ_STRM_SLOTS_OUT_MASK (i : Nat) : Fld := ⟨A.SEQ_STRM_SLOTS i, 8, 8⟩
abbrev SEQ_STRM_SLOTS_ZC_SLOT (i : Nat) : Fld := ⟨A.SEQ_STRM_SLOTS i, 16, 3⟩
abbrev SEQ_STRM_TRG_BASE (i : Nat) : Fld := ⟨A.SEQ_STRM_TRG_BASE i, 0, 20⟩
abbrev SEQ_STRM_TRG_LEN (i : Nat) : Fld := ⟨A.SEQ_STRM_TRG_LEN i, 0, 12⟩
abbrev SEQ_STRM_BAYS_PINNED (i : Nat) : Fld := ⟨A.SEQ_STRM_BAYS i, 0, 16⟩
abbrev SEQ_STRM_BAYS_STANDBY (i : Nat) : Fld := ⟨A.SEQ_STRM_BAYS i, 16, 16⟩
abbrev SEQ_STRM_IN_BASE (i : Nat) : Fld := ⟨A.SEQ_STRM_IN_BASE i, 0, 20⟩
abbrev SEQ_STRM_OUT_BASE (i : Nat) : Fld := ⟨A.SEQ_STRM_OUT_BASE i, 0, 20⟩
abbrev SEQ_STRM_STATE_BASE (i : Nat) : Fld := ⟨A.SEQ_STRM_STATE_BASE i, 0, 20⟩
abbrev SEQ_STRM_STATE_LEN (i : Nat) : Fld := ⟨A.SEQ_STRM_STATE_LEN i, 6, 8⟩
abbrev SEQ_STRM_DRY_GAIN (i : Nat) : Fld := ⟨A.SEQ_STRM_DRY_GAIN i, 0, 16⟩
abbrev SEQ_STRM_ZC_HYST (i : Nat) : Fld := ⟨A.SEQ_STRM_ZC i, 0, 16⟩
abbrev SEQ_STRM_ZC_TIMEOUT (i : Nat) : Fld := ⟨A.SEQ_STRM_ZC i, 16, 14⟩
abbrev SEQ_STRM_ZC_ARM (i : Nat) : Fld := ⟨A.SEQ_STRM_ZC i, 31, 1⟩
abbrev SEQ_STRM_SIL_LOG2 (i : Nat) : Fld := ⟨A.SEQ_STRM_SIL i, 0, 6⟩
abbrev SEQ_STRM_SIL_BLOCKS (i : Nat) : Fld := ⟨A.SEQ_STRM_SIL i, 8, 8⟩
abbrev SEQ_STRM_STAT_RUN (i : Nat) : Fld := ⟨A.SEQ_STRM_STAT i, 0, 1⟩
abbrev SEQ_STRM_STAT_SILENT (i : Nat) : Fld := ⟨A.SEQ_STRM_STAT i, 1, 1⟩
abbrev SEQ_STRM_STAT_ZC_ARMED (i : Nat) : Fld := ⟨A.SEQ_STRM_STAT i, 2, 1⟩
abbrev SEQ_STRM_STAT_ZC_HIT (i : Nat) : Fld := ⟨A.SEQ_STRM_STAT i, 3, 1⟩
abbrev SEQ_STRM_STAT_ZC_TO (i : Nat) : Fld := ⟨A.SEQ_STRM_STAT i, 4, 1⟩
abbrev SEQ_STRM_STAT_LAST_FB (i : Nat) : Fld := ⟨A.SEQ_STRM_STAT i, 5, 1⟩
abbrev SEQ_STRM_MISS_COUNT (i : Nat) : Fld := ⟨A.SEQ_STRM_MISS_COUNT i, 0, 32⟩
abbrev SEQ_STRM_SLIP_COUNT (i : Nat) : Fld := ⟨A.SEQ_STRM_SLIP_COUNT i, 0, 32⟩
abbrev SEQ_STRM_BLOCK (i : Nat) : Fld := ⟨A.SEQ_STRM_BLOCK i, 0, 64⟩
abbrev SEQ_STRM_ENERGY (i : Nat) : Fld := ⟨A.SEQ_STRM_ENERGY i, 0, 64⟩
abbrev SEQ_STRM_ZC_STC (i : Nat) : Fld := ⟨A.SEQ_STRM_ZC_STC i, 0, 64⟩
abbrev SEQ_STRM_PORT_LATE_COUNT (i : Nat) : Fld := ⟨A.SEQ_STRM_PORT_LATE i, 0, 32⟩
abbrev TLY_CTL_START : Fld := ⟨A.TLY_CTL, 0, 1⟩
abbrev TLY_CTL_RESTORE : Fld := ⟨A.TLY_CTL, 1, 1⟩
abbrev TLY_CTL_FINAL : Fld := ⟨A.TLY_CTL, 2, 1⟩
abbrev TLY_STAT_RUN : Fld := ⟨A.TLY_STAT, 0, 1⟩
abbrev TLY_STAT_LOSS_FLAG : Fld := ⟨A.TLY_STAT, 1, 1⟩
abbrev TLY_STAT_BLANK : Fld := ⟨A.TLY_STAT, 2, 1⟩
abbrev TLY_STAT_PEND : Fld := ⟨A.TLY_STAT, 3, 1⟩
abbrev TLY_SETTLE_SEQ : Fld := ⟨A.TLY_SETTLE_SEQ, 0, 64⟩
abbrev TLY_PERSIST_PERIOD_N : Fld := ⟨A.TLY_PERSIST_PERIOD, 0, 17⟩
abbrev TLY_PERSIST_ACK : Fld := ⟨A.TLY_PERSIST_ACK, 0, 1⟩
abbrev TLY_PERSIST_ADDR : Fld := ⟨A.TLY_PERSIST_ADDR, 0, 26⟩
abbrev TLY_PERSIST_MISS_COUNT : Fld := ⟨A.TLY_PERSIST_MISS, 0, 32⟩
abbrev TLY_MISSED : Fld := ⟨A.TLY_MISSED, 0, 64⟩
abbrev TLY_VSTALE_COUNT : Fld := ⟨A.TLY_VSTALE_COUNT, 0, 32⟩
abbrev TLY_SHARE_MASK : Fld := ⟨A.TLY_SHARE_MASK, 0, 64⟩
abbrev TLY_SLEEP_RATE_D_UW : Fld := ⟨A.TLY_SLEEP_RATE_D, 0, 24⟩
abbrev TLY_SLEEP_RATE_F_UW : Fld := ⟨A.TLY_SLEEP_RATE_F, 0, 24⟩
abbrev TLY_RAIL_VNOM (i : Nat) : Fld := ⟨A.TLY_RAIL i, 0, 16⟩
abbrev TLY_RAIL_REG (i : Nat) : Fld := ⟨A.TLY_RAIL i, 16, 3⟩
abbrev TLY_LOSS_BOUND : Fld := ⟨A.TLY_LOSS_BOUND, 0, 96⟩
abbrev TLY_SLEEP_FJ : Fld := ⟨A.TLY_SLEEP_FJ, 0, 96⟩
abbrev TLY_ENERGY (i : Nat) : Fld := ⟨A.TLY_ENERGY i, 0, 96⟩
abbrev TLY_MAC (i : Nat) : Fld := ⟨A.TLY_MAC i, 0, 96⟩
abbrev TLY_ELEM (i : Nat) : Fld := ⟨A.TLY_ELEM i, 0, 96⟩
abbrev TLY_WINB (i : Nat) : Fld := ⟨A.TLY_WINB i, 0, 96⟩
abbrev TLY_SHARE (i : Nat) : Fld := ⟨A.TLY_SHARE i, 0, 96⟩
abbrev TLY_ERASE (i : Nat) : Fld := ⟨A.TLY_ERASE i, 0, 64⟩
abbrev TLY_SENSOR_OWNER (i : Nat) : Fld := ⟨A.TLY_SENSOR i, 0, 4⟩
abbrev TLY_SENSOR_MA (i : Nat) : Fld := ⟨A.TLY_SENSOR i, 16, 16⟩
abbrev KEY_FUSE_STAT_ROOT_OK : Fld := ⟨A.KEY_FUSE_STAT, 0, 1⟩
abbrev KEY_FUSE_STAT_REVOKED : Fld := ⟨A.KEY_FUSE_STAT, 4, 4⟩
abbrev KEY_DEV_UID : Fld := ⟨A.KEY_DEV_UID, 0, 64⟩
abbrev KEY_GEN (i : Nat) : Fld := ⟨A.KEY_GEN i, 0, 32⟩
abbrev KEY_CMD_OP : Fld := ⟨A.KEY_CMD, 0, 2⟩
abbrev KEY_SRC : Fld := ⟨A.KEY_SRC, 0, 64⟩
abbrev KEY_LEN_BYTES : Fld := ⟨A.KEY_LEN, 0, 32⟩
abbrev KEY_RESULT_CODE : Fld := ⟨A.KEY_RESULT, 0, 2⟩
abbrev KEY_RESULT_BUSY : Fld := ⟨A.KEY_RESULT, 4, 1⟩
abbrev KEY_DIGEST : Fld := ⟨A.KEY_DIGEST, 0, 256⟩
abbrev KEY_PKH (i : Nat) : Fld := ⟨A.KEY_PKH i, 0, 256⟩
abbrev STL_BIND_KIND (n : Nat) : Fld := ⟨A.STL_BIND n, 0, 2⟩
abbrev STL_BIND_PORT (n : Nat) : Fld := ⟨A.STL_BIND n, 2, 1⟩
abbrev STL_BIND_FUNC (n : Nat) : Fld := ⟨A.STL_BIND n, 3, 2⟩
abbrev STL_BIND_NODE (n : Nat) : Fld := ⟨A.STL_BIND n, 16, 16⟩
abbrev STL_Q_SILO_GRAN (n : Nat) : Fld := ⟨A.STL_Q_SILO n, 0, 11⟩
abbrev STL_Q_CELLAR_GRAN (n : Nat) : Fld := ⟨A.STL_Q_CELLAR n, 0, 16⟩
abbrev STL_Q_BAYS_MASK (n : Nat) : Fld := ⟨A.STL_Q_BAYS n, 0, 16⟩
abbrev STL_Q_STREAMS_MASK (n : Nat) : Fld := ⟨A.STL_Q_STREAMS n, 0, 32⟩
abbrev STL_Q_RICK_BASE (n : Nat) : Fld := ⟨A.STL_Q_RICK n, 0, 11⟩
abbrev STL_Q_RICK_COUNT (n : Nat) : Fld := ⟨A.STL_Q_RICK n, 16, 11⟩
abbrev STL_GRANT_STAT_SHORT (n : Nat) : Fld := ⟨A.STL_GRANT_STAT n, 0, 1⟩
abbrev STL_EGRESS_PATHS (n : Nat) : Fld := ⟨A.STL_EGRESS n, 0, 3⟩
abbrev STL_EGRESS_SELF_PATHS (n : Nat) : Fld := ⟨A.STL_EGRESS_SELF n, 0, 3⟩
abbrev STL_JOB_DECL (n : Nat) : Fld := ⟨A.STL_JOB_DECL n, 0, 64⟩
abbrev STL_JOB_CTL_CMD (n : Nat) : Fld := ⟨A.STL_JOB_CTL n, 0, 2⟩
abbrev STL_JOB_CTL_EPOCH (n : Nat) : Fld := ⟨A.STL_JOB_CTL n, 16, 16⟩
abbrev STL_JOB_STAT_STATE (n : Nat) : Fld := ⟨A.STL_JOB_STAT n, 0, 2⟩
abbrev STL_JOB_STAT_STATUS (n : Nat) : Fld := ⟨A.STL_JOB_STAT n, 16, 16⟩
abbrev STL_EV_BASE (n : Nat) : Fld := ⟨A.STL_EV_BASE n, 12, 52⟩
abbrev STL_EV_CFG_LOG2SIZE (n : Nat) : Fld := ⟨A.STL_EV_CFG n, 0, 4⟩
abbrev STL_EV_CFG_LOC (n : Nat) : Fld := ⟨A.STL_EV_CFG n, 4, 1⟩
abbrev STL_EV_HEAD (n : Nat) : Fld := ⟨A.STL_EV_HEAD n, 0, 32⟩
abbrev STL_EV_TAIL (n : Nat) : Fld := ⟨A.STL_EV_TAIL n, 0, 32⟩
abbrev STL_EV_LOST_COUNT (n : Nat) : Fld := ⟨A.STL_EV_LOST n, 0, 32⟩
abbrev STL_LAST_STATUS (n : Nat) : Fld := ⟨A.STL_LAST_STATUS n, 0, 16⟩
abbrev STL_UNBOUND_COUNT (n : Nat) : Fld := ⟨A.STL_UNBOUND_COUNT n, 0, 32⟩
abbrev STL_FAULT_STAT_RETURNED (n : Nat) : Fld := ⟨A.STL_FAULT_STAT n, 0, 1⟩
abbrev STL_FAULT_STAT_ABORT_PEND (n : Nat) : Fld := ⟨A.STL_FAULT_STAT n, 8, 7⟩
abbrev STL_FAULT_STAT_KIND (n : Nat) : Fld := ⟨A.STL_FAULT_STAT n, 16, 2⟩
abbrev STL_FAULT_STAT_INDEX (n : Nat) : Fld := ⟨A.STL_FAULT_STAT n, 24, 5⟩
abbrev STL_FAULT_POS (n : Nat) : Fld := ⟨A.STL_FAULT_POS n, 0, 32⟩
abbrev STL_FAULT_COUNT (n : Nat) : Fld := ⟨A.STL_FAULT_COUNT n, 0, 32⟩
abbrev STL_FAULT_EXTRA_COUNT (n : Nat) : Fld := ⟨A.STL_FAULT_EXTRA n, 0, 32⟩
abbrev STL_JOB_WDOG_MS (n : Nat) : Fld := ⟨A.STL_JOB_WDOG n, 0, 16⟩
abbrev TRG_T_BASE (n : Nat) (i : Nat) : Fld := ⟨A.TRG_T_BASE n i, 12, 52⟩
abbrev TRG_T_CFG_LOG2SIZE (n : Nat) (i : Nat) : Fld := ⟨A.TRG_T_CFG n i, 0, 5⟩
abbrev TRG_T_CFG_LOC (n : Nat) (i : Nat) : Fld := ⟨A.TRG_T_CFG n i, 5, 1⟩
abbrev TRG_T_CTL_CMD (n : Nat) (i : Nat) : Fld := ⟨A.TRG_T_CTL n i, 0, 2⟩
abbrev TRG_T_CTL_EPOCH (n : Nat) (i : Nat) : Fld := ⟨A.TRG_T_CTL n i, 16, 16⟩
abbrev TRG_T_STAT_STATE (n : Nat) (i : Nat) : Fld := ⟨A.TRG_T_STAT n i, 0, 2⟩
abbrev TRG_T_STAT_DB_BAD (n : Nat) (i : Nat) : Fld := ⟨A.TRG_T_STAT n i, 2, 1⟩
abbrev TRG_T_STAT_STATUS (n : Nat) (i : Nat) : Fld := ⟨A.TRG_T_STAT n i, 16, 16⟩
abbrev TRG_T_HEAD (n : Nat) (i : Nat) : Fld := ⟨A.TRG_T_HEAD n i, 0, 32⟩
abbrev TRG_T_TAIL (n : Nat) (i : Nat) : Fld := ⟨A.TRG_T_TAIL n i, 0, 32⟩
abbrev TRG_T_WB (n : Nat) (i : Nat) : Fld := ⟨A.TRG_T_WB n i, 2, 62⟩
abbrev TRG_T_DISCARD_COUNT (n : Nat) (i : Nat) : Fld := ⟨A.TRG_T_DISCARD n i, 0, 32⟩
abbrev THR_CUR_MODE (n : Nat) : Fld := ⟨A.THR_CUR_MODE n, 0, 3⟩
abbrev THR_CUR_MODE_WP (n : Nat) : Fld := ⟨A.THR_CUR_MODE n, 3, 2⟩
abbrev THR_CUR_MODE_AP (n : Nat) : Fld := ⟨A.THR_CUR_MODE n, 5, 1⟩
abbrev THR_CUR_MODE_RED (n : Nat) : Fld := ⟨A.THR_CUR_MODE n, 8, 2⟩
abbrev THR_CUR_MODE_EWOP (n : Nat) : Fld := ⟨A.THR_CUR_MODE n, 10, 3⟩
abbrev THR_CUR_MODE_TAPS (n : Nat) : Fld := ⟨A.THR_CUR_MODE n, 16, 4⟩
abbrev THR_CUR_MODE_DIL (n : Nat) : Fld := ⟨A.THR_CUR_MODE n, 20, 2⟩
abbrev THR_GANG_SHAPE (n : Nat) : Fld := ⟨A.THR_GANG n, 0, 3⟩
abbrev THR_GANG_LEADER (n : Nat) : Fld := ⟨A.THR_GANG n, 4, 4⟩
abbrev THR_GANG_PINNED (n : Nat) : Fld := ⟨A.THR_GANG n, 8, 1⟩
abbrev THR_GANG_STREAM (n : Nat) : Fld := ⟨A.THR_GANG n, 9, 5⟩
abbrev THR_GANG_STANDBY (n : Nat) : Fld := ⟨A.THR_GANG n, 14, 1⟩
abbrev THR_RAMP_CFG_LEN (n : Nat) : Fld := ⟨A.THR_RAMP_CFG n, 0, 2⟩
abbrev THR_ACT_STAT_PHASE (n : Nat) : Fld := ⟨A.THR_ACT_STAT n, 0, 2⟩
abbrev THR_ACT_STAT_FRONT (n : Nat) : Fld := ⟨A.THR_ACT_STAT n, 4, 1⟩
abbrev THR_ACT_STAT_FRONT_ROW (n : Nat) : Fld := ⟨A.THR_ACT_STAT n, 8, 8⟩
abbrev THR_ACT_STAT_HELD (n : Nat) : Fld := ⟨A.THR_ACT_STAT n, 16, 1⟩
abbrev THR_SAT_STAT_SAT (n : Nat) : Fld := ⟨A.THR_SAT_STAT n, 0, 1⟩
abbrev THR_SAT_STAT_LAST_TAG (n : Nat) : Fld := ⟨A.THR_SAT_STAT n, 16, 16⟩
abbrev THR_SAT_COUNT (n : Nat) : Fld := ⟨A.THR_SAT_COUNT n, 0, 32⟩
abbrev THR_BUSY_CYC (n : Nat) : Fld := ⟨A.THR_BUSY_CYC n, 0, 64⟩
abbrev THR_HELD_CYC (n : Nat) : Fld := ⟨A.THR_HELD_CYC n, 0, 64⟩
abbrev THR_PROG_CTX_STATE (n : Nat) : Fld := ⟨A.THR_PROG_CTX n, 0, 2⟩
abbrev THR_PROG_CTX_RT (n : Nat) : Fld := ⟨A.THR_PROG_CTX n, 2, 1⟩
abbrev THR_PROG_CTX_STALL (n : Nat) : Fld := ⟨A.THR_PROG_CTX n, 3, 4⟩
abbrev THR_PROG_CTX_TROUGH (n : Nat) : Fld := ⟨A.THR_PROG_CTX n, 7, 2⟩
abbrev THR_PROG_CTX_TAG (n : Nat) : Fld := ⟨A.THR_PROG_CTX n, 16, 16⟩
abbrev THR_PROG_POS (n : Nat) : Fld := ⟨A.THR_PROG_POS n, 0, 32⟩
abbrev THR_PROG_NM_NF (n : Nat) : Fld := ⟨A.THR_PROG_NM n, 0, 16⟩
abbrev THR_PROG_NM_MF (n : Nat) : Fld := ⟨A.THR_PROG_NM n, 16, 16⟩
abbrev THR_PROG_K_KF (n : Nat) : Fld := ⟨A.THR_PROG_K n, 0, 16⟩
abbrev THR_PROG_K_PARTIAL (n : Nat) : Fld := ⟨A.THR_PROG_K n, 16, 1⟩
abbrev THR_FOLDS_DONE (n : Nat) : Fld := ⟨A.THR_FOLDS_DONE n, 0, 64⟩
abbrev THR_FOLDS_TOTAL (n : Nat) : Fld := ⟨A.THR_FOLDS_TOTAL n, 0, 64⟩
abbrev THR_PROG_CTL_YIELD (n : Nat) : Fld := ⟨A.THR_PROG_CTL n, 0, 1⟩
abbrev THR_YIELD_COUNT (n : Nat) : Fld := ⟨A.THR_YIELD_COUNT n, 0, 32⟩
abbrev THR_YIELD_LAT_MAX_CYC (n : Nat) : Fld := ⟨A.THR_YIELD_LAT_MAX n, 0, 16⟩
abbrev THR_BATCH_CTL_PAUSED : Fld := ⟨A.THR_BATCH_CTL, 0, 1⟩
abbrev THR_BATCH_CTL_RELEASE : Fld := ⟨A.THR_BATCH_CTL, 1, 1⟩
abbrev THR_BATCH_CTL_CAUSE_STEWARD : Fld := ⟨A.THR_BATCH_CTL, 4, 1⟩
abbrev THR_BATCH_CTL_CAUSE_THERMAL : Fld := ⟨A.THR_BATCH_CTL, 5, 1⟩
abbrev THR_SLOT_CTX (i : Nat) : Fld := ⟨A.THR_SLOT_CTX i, 0, 32⟩
abbrev THR_SLOT_POS (i : Nat) : Fld := ⟨A.THR_SLOT_POS i, 0, 32⟩
abbrev THR_SLOT_NM (i : Nat) : Fld := ⟨A.THR_SLOT_NM i, 0, 32⟩
abbrev THR_SLOT_K (i : Nat) : Fld := ⟨A.THR_SLOT_K i, 0, 32⟩
abbrev THR_SLOT_DONE (i : Nat) : Fld := ⟨A.THR_SLOT_DONE i, 0, 64⟩
abbrev THR_SLOT_GANG (i : Nat) : Fld := ⟨A.THR_SLOT_GANG i, 0, 32⟩
abbrev HOP_CFG_RT_RESERVE (n : Nat) : Fld := ⟨A.HOP_CFG n, 0, 7⟩
abbrev HOP_CREDIT_FREE (n : Nat) : Fld := ⟨A.HOP_CREDIT n, 0, 7⟩
abbrev HOP_CREDIT_INFLIGHT (n : Nat) : Fld := ⟨A.HOP_CREDIT n, 8, 7⟩
abbrev HOP_CREDIT_RT_OCC (n : Nat) : Fld := ⟨A.HOP_CREDIT n, 16, 7⟩
abbrev HOP_CREDIT_BATCH_OCC (n : Nat) : Fld := ⟨A.HOP_CREDIT n, 24, 7⟩
abbrev HOP_STRIPS_IN (n : Nat) : Fld := ⟨A.HOP_STRIPS_IN n, 0, 64⟩
abbrev HOP_STRIPS_OUT (n : Nat) : Fld := ⟨A.HOP_STRIPS_OUT n, 0, 64⟩
abbrev HOP_DISCARD (n : Nat) : Fld := ⟨A.HOP_DISCARD n, 0, 64⟩
abbrev SFT_STAT_MODE (n : Nat) : Fld := ⟨A.SFT_STAT n, 0, 2⟩
abbrev SFT_STAT_RT (n : Nat) : Fld := ⟨A.SFT_STAT n, 2, 1⟩
abbrev SFT_STAT_SAVED (n : Nat) : Fld := ⟨A.SFT_STAT n, 3, 1⟩
abbrev SFT_STAT_STALL (n : Nat) : Fld := ⟨A.SFT_STAT n, 4, 4⟩
abbrev SFT_STAT_PARKED (n : Nat) : Fld := ⟨A.SFT_STAT n, 8, 4⟩
abbrev SFT_LOFT_OWNER (n : Nat) : Fld := ⟨A.SFT_LOFT n, 0, 4⟩
abbrev SFT_LOFT_VALID (n : Nat) : Fld := ⟨A.SFT_LOFT n, 4, 1⟩
abbrev SFT_FP_FLAGS (n : Nat) : Fld := ⟨A.SFT_FP_FLAGS n, 0, 5⟩
abbrev SFT_PREEMPT_COUNT (n : Nat) : Fld := ⟨A.SFT_PREEMPT_COUNT n, 0, 32⟩
abbrev SFT_YIELD_LAT_MAX_CYC (n : Nat) : Fld := ⟨A.SFT_YIELD_LAT_MAX n, 0, 16⟩
abbrev SFT_MBOX_HEAD : Fld := ⟨A.SFT_MBOX_HEAD, 0, 32⟩
abbrev SFT_MBOX_TAIL : Fld := ⟨A.SFT_MBOX_TAIL, 0, 32⟩
abbrev SFT_MBOX_LOST_COUNT : Fld := ⟨A.SFT_MBOX_LOST, 0, 32⟩
abbrev SFT_MBOX (i : Nat) : Fld := ⟨A.SFT_MBOX i, 0, 32⟩
abbrev FUR_CTL_EN (n : Nat) : Fld := ⟨A.FUR_CTL n, 0, 1⟩
abbrev FUR_CTL_DEEMPH (n : Nat) : Fld := ⟨A.FUR_CTL n, 1, 3⟩
abbrev FUR_STAT_STATE (n : Nat) : Fld := ⟨A.FUR_STAT n, 0, 3⟩
abbrev FUR_STAT_POL (n : Nat) : Fld := ⟨A.FUR_STAT n, 4, 4⟩
abbrev FUR_STAT_LOST (n : Nat) : Fld := ⟨A.FUR_STAT n, 8, 1⟩
abbrev FUR_STAT_PARTNER (n : Nat) : Fld := ⟨A.FUR_STAT n, 16, 16⟩
abbrev FUR_LOST_COUNT (n : Nat) : Fld := ⟨A.FUR_LOST_COUNT n, 0, 32⟩
abbrev FUR_TRAIN_FAIL_COUNT (n : Nat) : Fld := ⟨A.FUR_TRAIN_FAIL n, 0, 32⟩
abbrev FUR_CRC_ERR_COUNT (n : Nat) : Fld := ⟨A.FUR_CRC_ERR n, 0, 32⟩
abbrev FUR_REPLAY_COUNT (n : Nat) : Fld := ⟨A.FUR_REPLAY_COUNT n, 0, 32⟩
abbrev FUR_DROP_COUNT (n : Nat) : Fld := ⟨A.FUR_DROP_COUNT n, 0, 32⟩
abbrev FUR_RX_REFUSE_COUNT (n : Nat) : Fld := ⟨A.FUR_RX_REFUSE n, 0, 32⟩
abbrev FUR_TX_FLITS (n : Nat) : Fld := ⟨A.FUR_TX_FLITS n, 0, 64⟩
abbrev FUR_RX_FLITS (n : Nat) : Fld := ⟨A.FUR_RX_FLITS n, 0, 64⟩
abbrev FUR_VC_DEPTH (n : Nat) (i : Nat) : Fld := ⟨A.FUR_VC n i, 0, 10⟩
abbrev FUR_VC_AVAIL (n : Nat) (i : Nat) : Fld := ⟨A.FUR_VC n i, 16, 10⟩
abbrev FUR_PVC_PDEPTH (n : Nat) (i : Nat) : Fld := ⟨A.FUR_PVC n i, 0, 10⟩
abbrev FUR_KNOCK_CTL_SEND (n : Nat) : Fld := ⟨A.FUR_KNOCK_CTL n, 0, 1⟩
abbrev FUR_KNOCK_MASK (n : Nat) : Fld := ⟨A.FUR_KNOCK_MASK n, 0, 64⟩
abbrev FUR_KNOCK_STAT_BUSY (n : Nat) : Fld := ⟨A.FUR_KNOCK_STAT n, 0, 1⟩
abbrev FUR_KNOCK_STAT_ECHO (n : Nat) : Fld := ⟨A.FUR_KNOCK_STAT n, 1, 1⟩
abbrev FUR_KNOCK_STAT_FAIL (n : Nat) : Fld := ⟨A.FUR_KNOCK_STAT n, 2, 1⟩
abbrev FUR_KNOCK_STAT_TRIES (n : Nat) : Fld := ⟨A.FUR_KNOCK_STAT n, 4, 4⟩
abbrev FUR_KNOCK_RETRY_COUNT (n : Nat) : Fld := ⟨A.FUR_KNOCK_RETRY n, 0, 4⟩
abbrev FUR_NODE_ID : Fld := ⟨A.FUR_NODE, 0, 16⟩
abbrev FUR_KNOCK_PAT : Fld := ⟨A.FUR_KNOCK_PAT, 0, 64⟩
abbrev FUR_DEFAULT_PORT : Fld := ⟨A.FUR_DEFAULT, 0, 3⟩
abbrev FUR_RSIG_TIMEOUT_US : Fld := ⟨A.FUR_RSIG_TIMEOUT, 0, 20⟩
abbrev FUR_RANGE_LO (i : Nat) : Fld := ⟨A.FUR_RANGE i, 0, 16⟩
abbrev FUR_RANGE_HI (i : Nat) : Fld := ⟨A.FUR_RANGE i, 16, 16⟩
abbrev FUR_RANGE_PORT (i : Nat) : Fld := ⟨A.FUR_RANGE_PORT i, 0, 2⟩
abbrev FUR_RANGE_PORT_EN (i : Nat) : Fld := ⟨A.FUR_RANGE_PORT i, 2, 1⟩
abbrev PCI_LINK_STAT_UP (n : Nat) : Fld := ⟨A.PCI_LINK_STAT n, 0, 1⟩
abbrev PCI_LINK_STAT_SPEED (n : Nat) : Fld := ⟨A.PCI_LINK_STAT n, 1, 3⟩
abbrev PCI_LINK_STAT_WIDTH (n : Nat) : Fld := ⟨A.PCI_LINK_STAT n, 4, 4⟩
abbrev PCI_LINK_STAT_PM (n : Nat) : Fld := ⟨A.PCI_LINK_STAT n, 8, 2⟩
abbrev PCI_LINK_STAT_NUM_VFS (n : Nat) : Fld := ⟨A.PCI_LINK_STAT n, 10, 2⟩
abbrev PCI_DOWN_COUNT (n : Nat) : Fld := ⟨A.PCI_DOWN_COUNT n, 0, 32⟩
abbrev PCI_CORR_ERR_COUNT (n : Nat) : Fld := ⟨A.PCI_CORR_ERR n, 0, 32⟩
abbrev PCI_UNCORR_ERR_COUNT (n : Nat) : Fld := ⟨A.PCI_UNCORR_ERR n, 0, 32⟩
abbrev PCI_FLR_COUNT (n : Nat) : Fld := ⟨A.PCI_FLR_COUNT n, 0, 32⟩
abbrev AUD_PORT_CTL_EN (n : Nat) : Fld := ⟨A.AUD_PORT_CTL n, 0, 1⟩
abbrev AUD_PORT_CTL_ROLE (n : Nat) : Fld := ⟨A.AUD_PORT_CTL n, 1, 1⟩
abbrev AUD_PORT_CTL_FMT (n : Nat) : Fld := ⟨A.AUD_PORT_CTL n, 2, 2⟩
abbrev AUD_PORT_CTL_RATE (n : Nat) : Fld := ⟨A.AUD_PORT_CTL n, 4, 3⟩
abbrev AUD_PORT_CTL_SLOTS (n : Nat) : Fld := ⟨A.AUD_PORT_CTL n, 8, 3⟩
abbrev AUD_PORT_CTL_BCLK_POL (n : Nat) : Fld := ⟨A.AUD_PORT_CTL n, 12, 1⟩
abbrev AUD_PORT_CTL_FS_POL (n : Nat) : Fld := ⟨A.AUD_PORT_CTL n, 13, 1⟩
abbrev AUD_PORT_STAT_FRAME_OK (n : Nat) : Fld := ⟨A.AUD_PORT_STAT n, 0, 1⟩
abbrev AUD_PORT_STAT_SLIP (n : Nat) : Fld := ⟨A.AUD_PORT_STAT n, 1, 1⟩
abbrev AUD_PORT_STAT_FRAME_LOST (n : Nat) : Fld := ⟨A.AUD_PORT_STAT n, 2, 1⟩
abbrev AUD_PORT_STAT_PHASE (n : Nat) : Fld := ⟨A.AUD_PORT_STAT n, 16, 9⟩
abbrev AUD_SLIP_COUNT (n : Nat) : Fld := ⟨A.AUD_SLIP_COUNT n, 0, 32⟩
abbrev AUD_LOST_COUNT (n : Nat) : Fld := ⟨A.AUD_LOST_COUNT n, 0, 32⟩
abbrev SIL_CE_COUNT (n : Nat) : Fld := ⟨A.SIL_CE_COUNT n, 0, 32⟩
abbrev SIL_UE_COUNT (n : Nat) : Fld := ⟨A.SIL_UE_COUNT n, 0, 32⟩
abbrev SIL_UE_ADDR (n : Nat) : Fld := ⟨A.SIL_UE_ADDR n, 0, 26⟩
abbrev SIL_UE_OWNER_STALL (n : Nat) : Fld := ⟨A.SIL_UE_OWNER n, 0, 4⟩
abbrev SIL_SCRUB_INT (n : Nat) : Fld := ⟨A.SIL_SCRUB n, 0, 16⟩
abbrev SIL_INTERLEAVE_MODE : Fld := ⟨A.SIL_INTERLEAVE, 0, 2⟩
abbrev SIL_ZERO_PEND_COUNT : Fld := ⟨A.SIL_ZERO_PEND, 0, 11⟩
abbrev SIL_EXTENT_BASE (i : Nat) : Fld := ⟨A.SIL_EXTENT i, 0, 10⟩
abbrev SIL_EXTENT_COUNT (i : Nat) : Fld := ⟨A.SIL_EXTENT i, 16, 11⟩

end R

end Sys2Proof.Machine
end

