-- ==== Sys2Proof/Machine/Pages.lean ====
section
/-! DEFINITION. The page map and the reset contents of the register bank (spec/20_register_page_map.md). -/
namespace Sys2Proof.Machine

/-- The page kind and instance of page `p` (Table 20-1); none for a reserved page. -/
def pageKind (p : Nat) : Option (PageKind × Nat) :=
  if p < 0x0E then
    ([PageKind.sys, .barn, .pwr, .thm, .clk, .rck, .win, .trn, .cel, .grn, .bal, .seq, .tly, .key][p]?).map (·, 0)
  else if 0x10 ≤ p ∧ p ≤ 0x18 then some (.stl, p - 0x10)
  else if 0x20 ≤ p ∧ p ≤ 0x28 then some (.trg, p - 0x20)
  else if 0x30 ≤ p ∧ p ≤ 0x3F then some (.thr, p - 0x30)
  else if 0x40 ≤ p ∧ p ≤ 0x43 then some (.hop, p - 0x40)
  else if 0x44 ≤ p ∧ p ≤ 0x47 then some (.sft, p - 0x44)
  else if 0x48 ≤ p ∧ p ≤ 0x4B then some (.fur, p - 0x48)
  else if 0x4C ≤ p ∧ p ≤ 0x4D then some (.pci, p - 0x4C)
  else if 0x50 ≤ p ∧ p ≤ 0x53 then some (.aud, p - 0x50)
  else if 0x60 ≤ p ∧ p ≤ 0x6F then some (.sil, p - 0x60)
  else none

/-- PID.TYPE of a page kind (Table 20-1). -/
def PageKind.type : PageKind → Nat
  | .sys => 0 | .barn => 1 | .pwr => 2 | .thm => 3 | .clk => 4 | .stl => 5 | .trg => 6 | .rck => 7 | .thr => 8
  | .hop => 9 | .sft => 10 | .win => 11 | .sil => 12 | .trn => 13 | .cel => 14 | .grn => 15 | .bal => 16
  | .fur => 17 | .pci => 18 | .aud => 19 | .seq => 20 | .tly => 21 | .key => 22

/-- PCAP.DOMAIN of a page: its PD number, 0x7E for the Barn, 0x7F for none (Tables 20-1 and 20-2). -/
def PageKind.domain (n : Nat) : PageKind → Nat
  | .sys | .rck | .stl | .trg => 0x7F
  | .barn | .pwr | .thm | .clk => 0x7E
  | .win => 51 | .trn => 61 | .cel => 40 | .grn => 52 | .bal => 50 | .seq => 57 | .tly => 59 | .key => 60
  | .thr => n | .sft => 16 + n | .hop => 20 + n | .sil => 24 + n | .pci => 44 + n | .fur => 46 + n
  | .aud => 53 + n

/-- PCAP.NIRQ: the number of PIRQ bits the page's chapter defines. -/
def PageKind.nirq : PageKind → Nat
  | .clk => 4 | .aud => 3 | .seq => 3 | .rck => 2 | .thr => 2 | .hop => 1 | .sft => 2 | .win => 1 | .sil => 1
  | .grn => 4 | .bal => 2 | .fur => 4 | .pci => 1 | .tly => 3 | .barn => 3 | .pwr => 4 | .thm => 2 | .key => 1
  | .sys | .trn | .cel | .stl | .trg => 0

/-- PCAP.LOCKABLE: the page has RWL fields (Table 20-2). -/
def PageKind.lockable (k : PageKind) : Bool :=
  k.rows.any (fun r => r.fields.any (fun f => decide (f.acc = .rwl)))

/-- PCAP.WIDE: the page has wide registers (Table 20-2, R419). -/
def PageKind.wide (k : PageKind) : Bool := k.rows.any (fun r => decide (1 < r.words))

/-- Which copy of register `r`, and which of its words, the offset `off` of instance `n` names. -/
def RegRow.hit (r : RegRow) (n off : Nat) : Option (Nat × Nat) :=
  if r.first ∧ n ≠ 0 then none
  else if off < r.off then none
  else
    let x := off - r.off
    if r.count ≤ 1 then if x < 4 * r.words then some (0, x / 4) else none
    else if x / r.stride < r.count ∧ x % r.stride < 4 * r.words then some (x / r.stride, x % r.stride / 4) else none

/-- A register word found in the tables. -/
structure RegHit where
  row : RegRow
  copy : Nat
  word : Nat
  deriving DecidableEq, Repr

/-- The first row of the list that holds offset `off`. -/
def findRow (n off : Nat) : List RegRow → Option RegHit
  | [] => none
  | r :: rs =>
    match r.hit n off with
    | some (c, w) => some ⟨r, c, w⟩
    | none => findRow n off rs

/-- The register word at BAR0 address `addr`, header words included. -/
def regHit (addr : Nat) : Option RegHit :=
  match pageKind (addr / 4096) with
  | none => none
  | some (k, n) => findRow n (addr % 4096) (rowsHdr ++ k.rows)

/-- The bits of word `w` that field `f` covers, as its lowest bit, its width, and the bits of the field below it. -/
def FieldRow.inWord (f : FieldRow) (w : Nat) : Nat × Nat × Nat :=
  let lo := if w = 0 then f.lo else 0
  let skip := if w = 0 then 0 else 32 * w - f.lo
  (lo, min (32 - lo) (f.width - skip), skip)

/-- The reset word a register row gives word `w`. -/
def RegRow.resetWord (r : RegRow) (w : Nat) : Nat :=
  r.fields.foldl (fun v f => let (lo, wd, skip) := f.inWord w; v + bits f.reset skip wd <<< lo) 0

/-- The reset value of STL[n].BIND: stalls 1-4 on port 0's PF, VF1-VF3, stalls 5-8 on port 1's (R67). -/
def bindReset (n : Nat) : Nat := if n = 0 then 0 else 1 + ((n - 1) / 4) <<< 2 + ((n - 1) % 4) <<< 3

/-- The nominal voltage of rail `r` in mV at reset (spec/16 Table 16-4). -/
def railReset (r : Nat) : Nat := [850, 750, 800, 800, 1800].getD r 0

/-- What a register word reads as when nothing has changed it since reset: the tables' reset values, the binding of
R67 (offset 0x040 of the STL pages), VC 7's depth of zero (offset 0x09C of the FUR pages, spec/15 R290), and the rails'
nominal voltages (offsets 0x080-0x090 of the TLY page). -/
def resetWord (addr : Nat) : Word :=
  match pageKind (addr / 4096), regHit addr with
  | some (.stl, n), some h =>
    if addr % 4096 = 0x40 then BitVec.ofNat 32 (bindReset n) else BitVec.ofNat 32 (h.row.resetWord h.word)
  | some (.fur, _), some h =>
    if addr % 4096 = 0x9C then 0 else BitVec.ofNat 32 (h.row.resetWord h.word)
  | some (.tly, _), some h =>
    if 0x80 ≤ addr % 4096 ∧ addr % 4096 < 0x94 then
      BitVec.ofNat 32 (h.row.resetWord h.word + railReset ((addr % 4096 - 0x80) / 4))
    else BitVec.ofNat 32 (h.row.resetWord h.word)
  | _, some h => BitVec.ofNat 32 (h.row.resetWord h.word)
  | _, none => 0

end Sys2Proof.Machine
end

