-- ==== Sys2Proof/Machine/State.lean ====
section
/-! DEFINITION. The state of the ZG4832 as plain data, and the state after reset. -/
namespace Sys2Proof.Machine

/-! ## The bus and the register pages (spec/20) -/

/-- What the register buses hold beside the register words. A key of `shadows` is requester code × 2^24 + the BAR0
address of the upper word; a key of `snapSeq` and `snapStale` is requester code × 4096 + page. -/
structure Bus where
  /-- The data the latest read returned (the model's output latch). -/
  rdata : Nat
  /-- Each requester's shadow of each upper word of a wide register (R416). -/
  shadows : NMap (Option Word)
  /-- SNAP_STAT.SNAP_SEQ per requester and page (R419). -/
  snapSeq : NMap Nat
  /-- SNAP_STAT.SNAP_STALE per requester and page (R419). -/
  snapStale : NMap Bool
  /-- The MSI-X tables and pending bits: key function × 0x2000 + BAR4 offset (R412). -/
  bar4 : NMap Word
  deriving DecidableEq, Repr

/-- What a SECDED word of Silo is in (spec/12 R219): a correctable or an uncorrectable error. -/
inductive EccMark where
  | ce
  | ue
  deriving DecidableEq, Repr

/-- The memories (spec/12, spec/13, spec/18 Table 18-1, spec/08). Addresses are bytes; `host` is keyed by function × 2^64
+ address, where function = 4 × PCIe port + function number; `loft` by sifter × 2^18 + offset. -/
structure Mem where
  silo : NMap Byte
  cellar : NMap Byte
  host : NMap Byte
  loft : NMap Byte
  tcsram : NMap Byte
  /-- What the training of each Cellar channel found (R233); the spec gives the results no form, so they are free values. -/
  training : List Nat
  /-- Silo words (address ÷ 8) whose check bits are bad (R219). -/
  ecc : NMap (Option EccMark)
  /-- Silo granules that changed owner and are not yet zeroed (R223). -/
  siloPend : List Nat
  /-- Cellar granules that changed owner and are not yet zeroed (R223). -/
  celPend : List Nat
  /-- Silo banks still zeroing themselves (R217, R221, R224). -/
  bankPend : List Nat
  /-- The next line of each bank's patrol sweep (R220). -/
  scrubLine : NMap Nat
  deriving DecidableEq, Repr

/-! ## Stalls, troughs and Rick (spec/04, spec/05, spec/19) -/

/-- A job's declaration as it was read at OPEN (spec/04 Table 04-2). -/
structure Decl where
  /-- Counter index and initial value. -/
  counters : List (Nat × Nat)
  /-- First local granule and count. -/
  buffers : List (Nat × Nat)
  /-- Node IDs. -/
  peers : List Nat
  /-- Bay mask. -/
  bays : Nat
  deriving DecidableEq, Repr

/-- What the device keeps of a stall's job beside the STL page. -/
structure Job where
  decl : Decl
  /-- Epoch of the latest accepted OPEN (spec/19 R395). -/
  epoch : Nat
  /-- Barn cycles since the job's last progress event (spec/19 R398). -/
  wdog : Nat
  /-- Peers whose ABORT_ACK is awaited (spec/15 R294). -/
  abortPeers : List Nat
  /-- The record that a faulted job's return has ended is still to be written (spec/19 R394). -/
  okRecordDue : Bool
  deriving DecidableEq, Repr

/-- The job of a stall that has none. -/
def Job.none : Job := ⟨⟨[], [], [], 0⟩, 0, 0, [], false⟩

/-- Which trough a descriptor belongs to: a stall's batch trough, or a stream's realtime trough (live or standby). -/
inductive TroughId where
  | batch (stall trough : Nat)
  | realtime (stream : Nat) (standby : Bool)
  deriving DecidableEq, Repr

/-- How far a descriptor has come: at its header wait, started but its unit not yet working, working, its work done. -/
inductive Phase where
  | held
  | started
  | working
  | done
  deriving DecidableEq, Repr

/-- A descriptor the device has fetched and not yet retired. -/
structure Desc where
  trough : TroughId
  /-- TAIL position, or the index in a realtime trough. -/
  pos : Nat
  bits : DescWord
  phase : Phase
  /-- Rank in the order of starts, over the whole device. -/
  order : Nat
  /-- Units of work completed: granules, groups, blocks, packets, samples, slots of a SYNC. -/
  prog : Nat
  /-- The class's own progress word: a first block number, bytes produced, a stage. -/
  aux : Nat
  deriving DecidableEq, Repr

/-- What the device keeps of a batch trough beside its TRG context. -/
structure TroughSt where
  /-- Position of the next descriptor to fetch. -/
  next : Nat
  /-- Positions at or above HEAD that have retired out of order. -/
  retired : List Nat
  /-- The descriptors that halted the trough with DISABLED, oldest first (R78). -/
  halted : List Desc
  deriving DecidableEq, Repr

/-- A wait or consume queued on a counter, in arrival order (R91). -/
structure Waiter where
  ctr : Nat
  amount : Nat
  consume : Bool
  trough : TroughId
  pos : Nat
  deriving DecidableEq, Repr

/-- A remote signal the sender still counts in RSIG_PEND (R100). -/
structure RSig where
  stall : Nat
  node : Nat
  /-- The receiving stall, and the VC it rides. -/
  dstall : Nat
  vc : Nat
  seq : Nat
  ctr : Nat
  amount : Nat
  trough : TroughId
  pos : Nat
  deriving DecidableEq, Repr

/-- Something the device still has to write, or to read, because the place of it is not ready yet (spec/12 R222, R223): it
is made good when the place can be served. -/
inductive Owed where
  /-- An OPEN of a stall's job whose declaration cannot be read yet (R72): stall, driver epoch, the declaration's address. -/
  | jobOpen (stall epoch addr : Nat)
  /-- A write-back of HEAD (R76): stall, trough, position retired, the value, whether the trough's vector follows. -/
  | head (stall trough pos value : Nat) (irq : Bool)
  /-- An event record (R83): stall, its 16 bytes, whether it raises no vector (R394). -/
  | event (stall : Nat) (bytes : List Byte) (quiet : Bool)
  /-- A SWAP's result record (R213): the SWAP, its stream, the record's address and bytes, its status and block. -/
  | swap (trough : TroughId) (pos stream result status block : Nat) (bytes : List Byte)
  /-- A Tally record and its address (R323). -/
  | record (addr : Nat) (bytes : List Byte)
  /-- The loss-scale table of a stall whose enable the Steward has accepted, and its READY (spec/10 R196). -/
  | lossScale (stall : Nat)
  /-- A Steward access to a page that a wake has not restored yet (R341): whether a write, window, offset, bytes, value. -/
  | access (write : Bool) (bar : Bar) (addr len value : Nat)
  deriving DecidableEq, Repr

/-- Tenancy, troughs and the Rick table. -/
structure Tenancy where
  /-- Stall to job. -/
  jobs : NMap Job
  /-- Stall × 4 + trough to trough state. -/
  troughs : NMap TroughSt
  /-- Fetched descriptors, in the order they were fetched. -/
  live : List Desc
  /-- Descriptors started so far. -/
  starts : Nat
  /-- The Rick table: 65,536 counters of 32 bits (R89). -/
  rick : NMap Word
  waiters : List Waiter
  /-- The plain waits among them that a value has already met (R89). -/
  latched : List Waiter
  rsigs : List RSig
  /-- Next sequence number of remote signals: (sending stall × 16 + receiving stall) × 65536 + node (R99). -/
  rsigNext : NMap (Option Nat)
  /-- Last sequence number applied, and whether any was: (receiving stall × 16 + sending stall) × 65536 + sending node (R99). -/
  rsigLast : NMap (Option Nat)
  /-- Early and counted barrier packets: stall, node, BAR_ID (R97). -/
  barriers : List (Nat × Nat × Nat)
  /-- Accesses of the device's own that wait for their place, oldest first. -/
  owed : List Owed
  deriving DecidableEq, Repr

/-! ## Audio ports, streams, promotions (spec/03, spec/11) -/

/-- What a TDM port holds beside its AUD page. -/
structure Port where
  /-- The port has its grid: a controller from its enable, a target from its first frame start (R44, R45). -/
  framed : Bool
  /-- STC of the latest grid point served. -/
  grid : Nat
  /-- No frames arrive (R45). -/
  lost : Bool
  /-- Slots that fade to zero: slot, the word it fades from, the step m reached (R59, R60). -/
  fades : List (Nat × Nat × Nat)
  /-- The words the port last drove, by slot. -/
  last : NMap Word
  /-- The bypass RAM: the input words of the last 516 frames, newest first (spec/17 R333). -/
  bypass : List (List Nat)
  deriving DecidableEq, Repr

/-- The zero-crossing detector of a stream (R62). -/
structure Detector where
  /-- The side chosen: none, POS or NEG. -/
  side : Option Bool
  /-- The candidate: its input block, its position in the block and its STC. -/
  cand : Option (Nat × Nat × Nat)
  /-- Samples since arming. -/
  age : Nat
  deriving DecidableEq, Repr

/-- A realtime trough running for one block (R51). -/
structure RtRun where
  block : Nat
  /-- Index of the next descriptor. -/
  next : Nat
  /-- STC of the block's deadline. -/
  due : Nat
  /-- The trough was aborted (R52). -/
  aborting : Bool
  /-- The abort is complete. -/
  dead : Bool
  deriving DecidableEq, Repr

/-- A block chosen by the sequencer's select, waiting for or on its output frames (R50). -/
structure PlayBlock where
  block : Nat
  /-- STC of its first output frame. -/
  start : Nat
  /-- The words of each sample, in ascending output slot order. -/
  words : List (List Nat)
  deriving DecidableEq, Repr

/-- A promotion in progress (R207). -/
structure Promo where
  stall : Nat
  trough : TroughId
  pos : Nat
  mode : Nat
  warm : Nat
  /-- Crossfade length L. -/
  fadeLen : Nat
  trgBase : Nat
  trgLen : Nat
  outBase : Nat
  stateBase : Nat
  stateLen : Nat
  result : Nat
  /-- j′: standby blocks that met their deadline. -/
  met : Nat
  /-- A valid crossing: block, position p and STC (R209). -/
  hit : Option (Nat × Nat × Nat)
  /-- Block and STC at which the fade began. -/
  fadeBlock : Nat
  fadeStc : Nat
  /-- Whether the fade was requested (MODE 1). -/
  requested : Bool
  deriving DecidableEq, Repr

/-- What the sequencer holds of a stream beside its SEQ context. -/
structure Stream where
  /-- The block being filled has begun. -/
  filling : Bool
  /-- STC of the first input frame of the block being filled, and its number. -/
  blkStart : Nat
  block : Nat
  /-- Number of its first block since it was enabled. -/
  first : Nat
  /-- Input samples written to the block so far, lost frames as zeros. -/
  filled : Nat
  /-- Sum of squares of the block so far (R64). -/
  energy : Nat
  /-- Consecutive silent blocks. -/
  silent : Nat
  det : Option Detector
  live : Option RtRun
  standby : Option RtRun
  /-- The live and the standby trough met block `block - 1`. -/
  liveMet : Bool
  standbyMet : Bool
  /-- j: blocks that met their deadline since enable (R49). -/
  met : Nat
  /-- Blocks in which a slip of the input port or output port fell (R45). -/
  slips : List Nat
  /-- EN was cleared and the stream ends at its next boundaries (R60): 1 before the last boundary, 2 after it. -/
  stopping : Nat
  plays : List PlayBlock
  /-- The launch of the block waits for an abort (R52); its deadline. -/
  delayed : Option Nat
  /-- Frames that arrived before the boundary of a full block was served: grid point and words. -/
  early : List (Nat × List Nat)
  promo : Option Promo
  deriving DecidableEq, Repr

/-- A stream that is not enabled. -/
def Stream.idle : Stream :=
  ⟨false, 0, 0, 0, 0, 0, 0, none, none, none, false, false, 0, [], 0, [], none, [], none⟩

/-- A port that is not enabled. -/
def Port.idle : Port := ⟨false, 0, false, [], .empty, []⟩

/-- The words of one sample that a PORT descriptor carries: captured and not yet in its buffer, or fetched and not yet
played (R56). -/
structure Cap where
  trough : TroughId
  pos : Nat
  /-- The sample's number in the buffer. -/
  n : Nat
  words : List Nat
  /-- STC up to which a captured word may still reach the buffer (R58). -/
  due : Nat
  deriving DecidableEq, Repr

/-- The audio machine. -/
structure Audio where
  ports : NMap Port
  streams : NMap Stream
  /-- MUTE_N is low (R400). -/
  muteLow : Bool
  caps : List Cap
  /-- SWAPs that have passed their checks and wait for the stream's promotion in progress to end, oldest first (R205). -/
  checked : List Promo
  deriving DecidableEq, Repr

/-! ## Clocks (spec/02) -/

/-- What the clock unit holds beside the CLK page. -/
structure Clock where
  /-- The reference measurement in progress: 0 none, 1 after a reset, 2 after a rise of PRESENT (R26). -/
  measuring : Nat
  /-- Barn cycles of the gap in progress, if the reference has stopped (R37). -/
  gap : Option Nat
  /-- An accepted write of TCLK_DIV.REQ still owes its DIV_DONE (R33). -/
  divDue : Bool
  deriving DecidableEq, Repr

/-! ## The Thresher, the Hoppers and the sifters (spec/06, spec/07, spec/08) -/

/-- An output strip with its tag (spec/08 Table 08-1). -/
structure Strip where
  stall : Nat
  /-- The stream and the standby flag of a realtime TILE's strip. -/
  rt : Option (Nat × Bool)
  tag : Nat
  rowBase : Nat
  rows : Nat
  colBase : Nat
  cols : Nat
  /-- 2,048 elements, row by row. -/
  data : List Int
  /-- Lowest bay of the gang whose foot writes it. -/
  src : Nat
  deriving DecidableEq, Repr

/-- A TILE that the bay sequencer runs on a gang, or keeps in a yield slot (spec/07). -/
structure TileRun where
  trough : TroughId
  pos : Nat
  order : Nat
  /-- The descriptor's bits. -/
  bits : DescWord
  stall : Nat
  /-- Shape code 1-5 and lowest bay of the gang it runs on. -/
  shape : Nat
  leader : Nat
  /-- The next fold, and the folds completed. -/
  nf : Nat
  mf : Nat
  kf : Nat
  folds : Nat
  /-- Cycles of the ramp up in progress, and, until the first fold since the gang was taken, those of the ramp at its start. -/
  rampCyc : Nat
  lead : Option Nat
  /-- The ramp up has ended; the fold's images are complete; the save area has been read back. -/
  ramped : Bool
  loaded : Bool
  refilled : Bool
  /-- The weights of the image block in the cells: (nf, kf), then row-major cell images. -/
  image : Option (Nat × Nat × List Nat)
  /-- The accumulator file: for each output line, each result row's value and sticky-saturation bit. -/
  acc : List (List (Int × Bool))
  /-- Strips formed and waiting for credits, in emission order. -/
  strips : List Strip
  /-- Strips formed or in flight and not yet in their Hopper. -/
  flying : Nat
  /-- A yield is requested; the foot is spilling; the yield slot it holds. -/
  yielding : Bool
  spilling : Bool
  slot : Option Nat
  deriving DecidableEq, Repr

/-- The bay sequencer's work: running TILEs and yielded ones. -/
structure Thresher where
  runs : List TileRun
  yielded : List TileRun
  /-- Gangs that have ended a pass and stay at full activity for a queued one, with the cycles of the drain (R116). -/
  warm : List (List Nat × Nat)
  /-- Gangs that ramp down (R116). -/
  falling : List (List Nat)
  deriving DecidableEq, Repr

/-- A Hopper's strips; its FREE credits are HOP.CREDIT.FREE. -/
structure Hopper where
  inflight : List Strip
  rt : List Strip
  batch : List Strip
  deriving DecidableEq, Repr

/-- One summary in the making (spec/08 R164): everything any kind needs, kept exactly. -/
structure Summary where
  kind : Nat
  /-- Elements seen, and of these the finite ones. -/
  seen : Nat
  finite : Nat
  /-- Values were FP32. -/
  float : Bool
  /-- Largest magnitude: an FP32 pattern or an unsigned integer. -/
  maxAbs : Nat
  /-- Exact sum: integers, or FP32 values in units of 2⁻¹⁴⁹. -/
  sum : Int
  /-- Exact sum of squares: integers, or FP32 in units of 2⁻²⁹⁸. -/
  sumSq : Nat
  above : Nat
  deriving DecidableEq, Repr

/-- A SIFT on a sifter, saved in its Loft, or parked. -/
structure SiftRun where
  trough : TroughId
  pos : Nat
  order : Nat
  bits : DescWord
  stall : Nat
  /-- The program block, or the stage words, as read at the start; the parameters each chain stage fetched once. -/
  block : List Byte
  params : List (List Byte)
  /-- Vector registers v0-v31: register × 64 + lane. -/
  v : NMap Word
  /-- Scalar registers s0-s7 and tine temporaries t0-t15. -/
  s : NMap Word
  t : NMap Word
  /-- Next instruction of a lane program, and its open loops: first, last, remaining repeats. -/
  pc : Nat
  loops : List (Nat × Nat × Nat)
  /-- Bytes already copied by the LFILL or LSPILL in progress. -/
  copied : Nat
  /-- Strips taken, the strip in hand and the next element of it or of the memory inputs. -/
  strips : Nat
  strip : Option Strip
  elem : Nat
  /-- The chain buffer: for each stage the array entries or mask bits of the strip in hand, column by column (R162). -/
  chain : Option (List (List Nat))
  sums : List Summary
  /-- All work is done; the SIFT waits to retire. -/
  finished : Bool
  deriving DecidableEq, Repr

/-- One sifter: the SIFT it runs, the batch SIFT in its save area, the parked ones, and those that wait to retire. -/
structure Sifter where
  cur : Option SiftRun
  saved : Option SiftRun
  parked : List SiftRun
  ended : List SiftRun
  deriving DecidableEq, Repr

/-- A sifter with nothing to do, an empty Hopper. -/
def Sifter.idle : Sifter := ⟨none, none, [], []⟩
def Hopper.empty : Hopper := ⟨[], [], []⟩

/-- The compute machine. -/
structure Compute where
  thr : Thresher
  hops : NMap Hopper
  sifts : NMap Sifter
  deriving DecidableEq, Repr

/-! ## Adaptation (spec/10) -/

/-- What the Steward keeps of a stall's loss-scale context beside the WIN page (R193-R195). -/
structure LossScale where
  /-- The exponent of each tensor (MODE 2). -/
  exps : List Int
  /-- The ring of 16 maxima of each tensor, FP32 patterns, oldest first. -/
  rings : List (List Nat)
  /-- The mailbox entries posted when the notice of a step came: MBOX_HEAD at that moment (R194). -/
  notice : Option Nat
  deriving DecidableEq, Repr

/-- The WINNOW that runs (R197-R201). -/
structure WinRun where
  trough : TroughId
  pos : Nat
  /-- Next block, and the bytes of the stream written or read so far. -/
  block : Nat
  off : Nat
  /-- Elements seen, non-finite ones, and the largest magnitude of the finite g′ (FP32 pattern). -/
  seen : Nat
  nonfinite : Nat
  maxAbs : Nat
  /-- It has stopped at a block boundary for a pause (R201). -/
  held : Bool
  deriving DecidableEq, Repr

/-- Loss scaling and Winnow. -/
structure Adapt where
  scales : NMap LossScale
  /-- Mailbox entries the Steward has taken and not yet used: entry number and its four words (R194). -/
  drained : List (Nat × List Nat)
  win : Option WinRun
  deriving DecidableEq, Repr

/-- A loss-scale context that is off. -/
def LossScale.off : LossScale := ⟨[], [], none⟩

/-! ## Turner and Granary (spec/12, spec/13) -/

/-- A Turner channel: the MOVE it runs and the batch MOVE it has set aside, by trough and position (R230). -/
structure Channel where
  cur : Option (TroughId × Nat)
  held : Option (TroughId × Nat)
  deriving DecidableEq, Repr

/-- A channel with nothing to do. -/
def Channel.idle : Channel := ⟨none, none⟩

/-- A 64-bit word of the Granary (R239, R255): erased, programmed or uncorrectable, with the bits a read corrects. -/
inductive GWord where
  | erased (corr : Nat)
  | prog (v : BitVec 64) (corr : Nat)
  | bad
  deriving DecidableEq, Repr

/-- The Granary beside the GRN page. -/
structure Granary where
  /-- Physical sector × 512 + word. -/
  words : NMap GWord
  /-- The window whose logical sector 0 the running erase frees (R252). -/
  eraseWin : Option Nat
  /-- The stall the latest erase is billed to (R248). -/
  eraseStall : Nat
  /-- Lines (physical G-address ÷ 32) in the prefetch buffer and, most recent first, in the branch cache (R254). -/
  prefetch : List Nat
  bcache : List Nat
  /-- The controller accepts requests (R256). -/
  ready : Bool
  deriving DecidableEq, Repr

/-! ## The Baler and its receive paths (spec/14) -/

/-- The BALE that runs: its next block and the coded blocks so far. -/
structure BaleRun where
  trough : TroughId
  pos : Nat
  block : Nat
  body : List Byte
  /-- The stream has left the encoder; a peer's acknowledgment is awaited. -/
  sent : Bool
  /-- The next step of the filling of a slot, and the commit count its record held before (R274). -/
  fill : Nat
  commits : Nat
  /-- It has stopped at a block boundary for a pause (R273). -/
  held : Bool
  deriving DecidableEq, Repr

/-- The UNBALE on a receive path. -/
structure PathRun where
  trough : TroughId
  pos : Nat
  /-- The stream's bytes that have arrived from a peer, and whether its last packet has. -/
  raw : List Byte
  last : Bool
  /-- The decrypted body, once the envelope and header are checked. -/
  body : Option (List Byte)
  /-- The next block to dispatch and its byte offset in the body; the blocks its expanders have decoded and not yet written,
  with their values' bytes (R266). -/
  block : Nat
  off : Nat
  ready : List (Nat × List Byte)
  /-- It has stopped at a block boundary for a pause (R273). -/
  held : Bool
  /-- Its stream's envelope has ENC: the body is decrypted under its stall's keys (R269). -/
  sealed : Bool
  deriving DecidableEq, Repr

/-- The encoder and the seven receive paths: 0-1 PCIe, 2-5 Furrow, 6 loop. -/
structure Baler where
  bale : Option BaleRun
  paths : NMap (Option PathRun)
  deriving DecidableEq, Repr

/-! ## Furrow (spec/15) -/

/-- A packet: the header of Table 15-5, its 44 bytes of class fields, and its data. -/
structure Packet where
  cls : Nat
  ttl : Nat
  dst : Nat
  src : Nat
  dstall : Nat
  sstall : Nat
  fields : List Byte
  data : List Byte
  deriving DecidableEq, Repr

/-- A sequenced flit: its VC, whether it is a HEAD, its 56 payload bytes, and the descriptor it belongs to. -/
structure Flit where
  vc : Nat
  head : Bool
  payload : List Byte
  owner : Option (TroughId × Nat)
  deriving DecidableEq, Repr

/-- One Furrow port beside its FUR page. -/
structure Link where
  /-- Training: consecutive valid headers on lanes 0-3, at most 8; the framing errors of each lane's last 64 blocks, the
  latest lowest (R282, R283); and TS1 with LOCKED, TS2 received in this state. -/
  lock : List Nat
  framing : List Nat
  ts1 : Nat
  ts2 : Nat
  /-- The depths the partner's last TS carried, and its node. -/
  heard : List Nat
  heardNode : Nat
  /-- The transmitter holds its electrical idle after a loss (R287). -/
  idleHold : Bool
  /-- A knock is in progress (R304). -/
  knocking : Bool
  /-- Flits waiting for their first transmission, oldest first. -/
  txq : List Flit
  /-- Sequence number of the next new flit. -/
  txSeq : Nat
  /-- Flits sent and not acknowledged: sequence number, flit, replays. -/
  replay : List (Nat × Flit × Nat)
  /-- Flits first sent per VC, and the partner's FREED counts. -/
  sent : List Nat
  freedIn : List Nat
  /-- Own FREED counts; ACK: the last sequence number received in order; a NAK is to be sent. -/
  freedOut : List Nat
  rxSeq : Nat
  nak : Bool
  /-- A change in FREED or ACK has not been returned yet. -/
  returnDue : Bool
  /-- The packet being assembled on each VC: its header flit's packet, the bytes still due. -/
  partly : NMap (Option (Packet × Nat))
  /-- Whole packets in the receive buffer: VC, packet, oldest first. -/
  rxq : List (Nat × Packet)
  /-- Per VC, flits of the packet at its head that have left the buffer, their credits freed, before the whole packet is
  taken. -/
  staged : List Nat
  /-- Descriptors with flits that went with the port before the partner acknowledged them (R288, R301). -/
  gone : List (TroughId × Nat)
  /-- The scramblers: their states on lanes 0-3, transmit and receive (R280). -/
  scrTx : List Nat
  scrRx : List Nat
  deriving DecidableEq, Repr

/-- The scrambler seeds of lanes 0-3 (R280). -/
def scrSeeds : List Nat := [0x1D2C3B4A, 0x1D2C3B4B, 0x1D2C3B4C, 0x1D2C3B4D]

/-- A port that is down. -/
def Link.down : Link :=
  ⟨[0, 0, 0, 0], [0, 0, 0, 0], 0, 0, [], 0, false, false, [], 0, [], [0, 0, 0, 0, 0, 0, 0, 0], [0, 0, 0, 0, 0, 0, 0, 0],
    [0, 0, 0, 0, 0, 0, 0, 0], 4095, false, false, .empty, [], [0, 0, 0, 0, 0, 0, 0, 0], [], scrSeeds, scrSeeds⟩

/-- The four ports, the packets the device has addressed to itself, and the knock pattern the Barn's detectors keep while
FUR[0] has no supply (R303). -/
structure Furrow where
  links : NMap Link
  loop : List (Nat × Packet)
  knockPat : Nat
  deriving DecidableEq, Repr

/-! ## Tally (spec/16) -/

/-- What Tally holds beside the TLY page. A bin is a stall 0-8, 9 shared, 10 unattributed. -/
structure Tally where
  /-- Counts not yet settled: stall × 4 + kind, where kind is 0 MAC, 1 ELEM, 2 WINB, 3 ERASE. -/
  pend : NMap Nat
  /-- The interval's sums in µW-samples, by bin, and the readings billed directly to each stall. -/
  sums : NMap Nat
  acts : NMap Nat
  /-- The interval's number, the samples in it, and the STC of the latest sample. -/
  interval : Nat
  samples : Nat
  last : Option Nat
  /-- The ended interval that is not settled yet: its sums, its activity counts, its samples. -/
  closed : Option (NMap Nat × NMap Nat × Nat)
  /-- The remainders r_a by bin, and r_s (R316, R321). -/
  rem : NMap Nat
  remSleep : Nat
  /-- Each rail's voltage in force, and what each regulator's READ_VOUT gave for the next interval (R313). -/
  volt : NMap Nat
  voltNext : NMap (Option Nat)
  /-- Barn cycles slept and not yet billed, in DORMANT and in FALLOW. -/
  sleepD : Nat
  sleepF : Nat
  /-- The largest TOTAL gain of one settlement since the last record. -/
  peak : Nat
  /-- The stall each domain last billed, for the turns of R314. -/
  turn : NMap (Option Nat)
  deriving DecidableEq, Repr

/-! ## Power, regulators and thermal control (spec/17, spec/18 R379-R381) -/

/-- The entry into DORMANT or FALLOW that runs (Table 17-3). -/
structure Entry where
  fallow : Bool
  /-- Taken by R358. -/
  crit : Bool
  /-- The acknowledgment, or its timeout, has come; a running erase holds the rest. -/
  acked : Bool
  deriving DecidableEq, Repr

/-- What a VOUT_COMMAND is for (R351, R352). -/
inductive VoutUse where
  | raise
  | lower
  | fallow
  | run
  deriving DecidableEq, Repr

/-- A PMBus command that waits for its acknowledgment: regulator, target in mV, use (R349). -/
structure Vout where
  reg : Nat
  mv : Nat
  use : VoutUse
  deriving DecidableEq, Repr

/-- A DVFS change (Table 17-8). -/
structure Dvfs where
  step : Nat
  mv : Nat
  faster : Bool
  deriving DecidableEq, Repr

/-- The run of filtered values at or above a threshold, and at or below it less 4 °C. -/
structure Dwell where
  above : Nat
  below : Nat
  deriving DecidableEq, Repr

/-- What the pads of a group carry while the device does not drive them (R346, Table 17-7): a level, the levels that
LPDDR5X self-refresh requires with CS low and CK stopped low, or nothing. -/
inductive PadState where
  | low
  | high
  | refresh
  | float
  deriving DecidableEq, Repr

/-- The save area of the retention SRAM (R344): the header's MAGIC, length and STC, the register words, stall 0's counters
0-255 and the training results of the Cellar channels; the sequence state of R99 stands where it is. -/
structure Save where
  magic : Nat
  length : Nat
  stc : Nat
  regs : NMap Word
  ctrs : List Nat
  training : List Nat
  deriving DecidableEq, Repr

/-- Power, pads, regulators and thermal state beside the PWR, BARN and THM pages. -/
structure Power where
  entry : Option Entry
  /-- ENTRY_COMMIT has passed; WAKE_ARMED has. -/
  committed : Bool
  armed : Bool
  /-- The save area, and the restored words of pages whose domain has not come on yet (R331, R344). -/
  save : Option Save
  restored : NMap Word
  /-- The pads that are held or float: group, port, what they carry (R346, R347). -/
  pads : List (Nat × Nat × PadState)
  /-- The level-type wake sources whose cause persists: source and port (R337, R338). -/
  levels : List (Nat × Nat)
  /-- The wake event that runs or will run: WAKE_STAT.CAUSE, PORT and the domains it names. -/
  wake : Option (Nat × Nat × Nat)
  /-- Domains still to be switched on, in order; domains switched and not ON yet. -/
  toSwitch : List Nat
  rising : List Nat
  /-- Domains in retention. -/
  ret : List Nat
  /-- Draining domains and domains being forced off (R380, R381). -/
  draining : List Nat
  forcing : List Nat
  /-- The PMBus command in flight, those that wait, and the regulators that received a FALLOW action. -/
  vout : Option Vout
  queue : List Vout
  slept : List Nat
  dvfs : Option Dvfs
  /-- Tries of a failed RUN action (R341). -/
  tries : Nat
  /-- CRIT_HOLD runs: wake events are ignored (R358). -/
  critHold : Bool
  /-- The last 32 samples of each sensor, newest first, in 1/16 °C. -/
  temps : NMap (List Int)
  warn : Dwell
  throttle : Dwell
  crit : Dwell
  /-- RT_LOAD of the last 16 blocks of each stream, newest first (R356). -/
  loads : NMap (List Nat)
  /-- Barn cycles of the sleep's timer since WAKE_ARMED. -/
  timer : Nat
  deriving DecidableEq, Repr

/-! ## The Steward, images, update and management (spec/18, spec/19) -/

/-- What runs on the Steward core. -/
inductive CoreMode where
  /-- The core is held in reset. -/
  | inReset
  /-- The mask ROM's boot sequence (R367). -/
  | rom
  /-- The ROM service loop: no image runs (R367 step 8). -/
  | serviceLoop
  /-- The booted image. -/
  | image
  deriving DecidableEq, Repr

/-- An open image update (R374). -/
structure Update where
  target : Nat
  len : Nat
  /-- The next offset due. -/
  next : Nat
  /-- The chunk at offset 0, held until COMMIT. -/
  header : List Byte
  deriving DecidableEq, Repr

/-- The Steward core, its supervision, the update service and the management target. -/
structure Steward where
  mode : CoreMode
  /-- What ran when the device went to sleep, and runs again after the wake. -/
  resume : CoreMode
  /-- Integer registers x1-x31. -/
  x : NMap (BitVec 64)
  pc : Nat
  /-- Privilege: 3 = M, 0 = U (R362). -/
  priv : Nat
  /-- The control and status registers, by CSR number. -/
  csrs : NMap (BitVec 64)
  /-- The LR reservation: an address. -/
  reservation : Option Nat
  /-- The core waits in WFI. -/
  wfi : Bool
  /-- A Steward reset is requested and waits for a GSR call to return (R241, R399). -/
  resetReq : Bool
  /-- A GSR call has run since the Steward reset was requested (spec/13 R257). -/
  afterCall : Bool
  /-- Barn cycles since the last kick (R399). -/
  wdog : Nat
  /-- The core has been kicked since the last reset or expiry (R401). -/
  healthy : Bool
  /-- The ALIVE pin, and Barn cycles since it last moved (R401). -/
  alive : Bool
  aliveCount : Nat
  /-- Straps: REF_SEL, BOOT_SRC, I3C_ADDR (R24, R367). -/
  refSel : Bool
  bootSrc : Bool
  i3cStrap : Nat
  /-- BOOT_B, held in Barn retention (R368). -/
  bootB : Bool
  /-- Base of the boot window: the booted slot (Table 18-1). -/
  bootSlot : Nat
  /-- The entry point of the booted image (R370). -/
  entry : Nat
  update : Option Update
  /-- The control store: the TSM body loaded at boot (R367). -/
  tsm : List Byte
  /-- The key command in progress: operation, source, length (R385). -/
  keyCmd : Option (Nat × Nat × Nat)
  /-- Dynamic address, in-band interrupts enabled, maximum write and read lengths (R375). -/
  i3cDyn : Option Nat
  ibi : Bool
  mwl : Nat
  mrl : Nat
  /-- The answer waiting for the next private read: status and bytes (R376). -/
  reply : Option (Nat × List Byte)
  /-- The device is in cold reset: PWR_OK_AON has not been good, or the hold is running (R425). -/
  coldHold : Bool
  /-- PWR_OK_AON is high (R424, R425). -/
  pwrOk : Bool
  deriving DecidableEq, Repr


/-- What leaves the device's pins and links, in the order it leaves. -/
inductive Out where
  /-- An MSI-X message of a PCIe function (R84). -/
  | msix (func vec addr data : Nat)
  /-- An output frame of a TDM port: the divider of ACLK that gives its BCLK where it is a controller, else 0, and the words
  on its slot positions (R44). -/
  | frame (port bclk : Nat) (words : List Nat)
  /-- Pads of a group on a port: what they carry once the device no longer drives them; none when it drives them again
  (R346, R347). -/
  | pad (group port : Nat) (carries : Option PadState)
  /-- MUTE_N moves; true is low. -/
  | muteN (low : Bool)
  /-- A block leaves each lane of a Furrow port in one block time: the sync header, H0 lowest, and the 64 payload bytes in
  the order of a flit, byte k on lane k mod 4 (R280). A training block is sent over and over until the state changes. -/
  | block (port header : Nat) (bytes : List Nat)
  /-- A knock leaves lane 0 of a Furrow port: its cells, the pattern four times and the mask, true a 1 cell (R302). -/
  | knock (port : Nat) (cells : List Bool)
  /-- The echo of a knock (R304). -/
  | echo (port : Nat)
  /-- A PMBus write: regulator, command byte, data. -/
  | pmbus (reg cmd data : Nat)
  /-- A reply on the management bus: the bytes of a private read or a common command (R375, R376). -/
  | i3c (bytes : List Nat)
  /-- A NACK on the management bus. -/
  | i3cNack
  /-- An in-band interrupt with its mandatory byte (R377). -/
  | ibi (byte : Nat)
  /-- ALIVE moves (R401). -/
  | alive (level : Bool)
  deriving DecidableEq, Repr

/-- The whole device but its command queue. -/
structure Dev where
  /-- The register bank: BAR0 byte address of a word to its value (spec/20 R404). -/
  regs : NMap Word
  bus : Bus
  mem : Mem
  tn : Tenancy
  au : Audio
  ck : Clock
  cp : Compute
  wn : Adapt
  tr : NMap Channel
  gr : Granary
  ba : Baler
  fu : Furrow
  ta : Tally
  pw : Power
  sy : Steward
  /-- Everything that has left the device, latest last. -/
  outs : List Out
  /-- The model's count of free values used. -/
  free : Nat
  /-- The model's count of idle ticks. -/
  ticks : Nat
  deriving DecidableEq, Repr

/-- The machine: the device and the commands that wait for it. -/
structure State where
  dev : Dev
  pending : List Instr
  deriving DecidableEq, Repr

/-- Why the machine stops: it has no constructor, for the spec names no command that stops the device; what the spec
calls a fault (a job fault, a device-fatal fault) is a change of state. -/
inductive Fault where
  deriving DecidableEq, Repr

/-- Why a command has no meaning. -/
inductive Refusal where
  /-- Raised by the dispatcher for a row this model gives no meaning yet; safe. -/
  | notModelled (mnemonic : String)
  deriving DecidableEq, Repr

/-- The device right after reset. -/
def Dev.reset : Dev where
  regs := .empty
  bus := ⟨0, .empty, .empty, .empty, .empty⟩
  mem := ⟨.empty, .empty, .empty, .empty, .empty, [], .empty, [], [], List.range 16, .empty⟩
  tn := ⟨.empty, .empty, [], 0, .empty, [], [], [], .empty, .empty, [], []⟩
  au := ⟨.empty, .empty, true, [], []⟩
  ck := ⟨1, none, false⟩
  cp := ⟨⟨[], [], [], []⟩, .empty, .empty⟩
  wn := ⟨.empty, [], none⟩
  tr := .empty
  gr := ⟨.empty, none, 0, [], [], true⟩
  ba := ⟨none, .empty⟩
  fu := ⟨.empty, [], 0xC3A596F00F695A3C⟩
  ta := ⟨.empty, .empty, .empty, 0, 0, none, none, .empty, 0, .empty, .empty, 0, 0, 0, .empty⟩
  pw := ⟨none, false, false, none, .empty, [], [], none, [], [], [], [], [], none, [], [], none, 0, false, .empty, ⟨0, 0⟩, ⟨0, 0⟩, ⟨0, 0⟩,
    .empty, 0⟩
  sy := ⟨.rom, .rom, .empty, 0, 3, .empty, none, false, false, false, 0, false, false, 0, false, false, 0, false, 0, 0, none, [], none,
    none, false, 16, 16, none, false, true⟩
  outs := []
  free := 0
  ticks := 0

/-- The machine right after reset, with no command waiting. -/
def State.reset : State := ⟨Dev.reset, []⟩

end Sys2Proof.Machine
end

