-- ==== Sys2Proof/Machine/Ops.lean ====
section
/-! DEFINITION. The named operations over registers and memory: fields of the register bank, interrupts and error
counts of a page, Silo with its check bits, the data-path map of a stall, and the device's output. -/
namespace Sys2Proof.Machine

/-! ## The register bank -/

/-- The register word at BAR0 address `a`. -/
def Dev.word (d : Dev) (a : Nat) : Nat := (d.regs.get resetWord a).toNat

/-- `d` with the register word at BAR0 address `a` holding `v`. -/
def Dev.setWord (d : Dev) (a v : Nat) : Dev := { d with regs := d.regs.set resetWord a (BitVec.ofNat 32 v) }

/-- `k` register words from address `a` up, the first least significant (R9). -/
def Dev.words (d : Dev) (a : Nat) : Nat → Nat
  | 0 => 0
  | k + 1 => d.word a + 2 ^ 32 * d.words (a + 4) k

/-- `d` with `k` register words from address `a` up holding `v`. -/
def Dev.setWords (d : Dev) (a : Nat) : Nat → Nat → Dev
  | 0, _ => d
  | k + 1, v => (d.setWord a (v % 2 ^ 32)).setWords (a + 4) k (v / 2 ^ 32)

/-- How many words a field reaches over. -/
def Fld.words (f : Fld) : Nat := (f.lo + f.width + 31) / 32

/-- The value of a field. -/
def Dev.rd (d : Dev) (f : Fld) : Nat := bits (d.words f.addr f.words) f.lo f.width

/-- A one-bit field as a truth value. -/
def Dev.on (d : Dev) (f : Fld) : Bool := d.rd f != 0

/-- `d` with a field set to `v`, which is cut to the field's width. -/
def Dev.wr (d : Dev) (f : Fld) (v : Nat) : Dev :=
  d.setWords f.addr f.words (setBits (d.words f.addr f.words) f.lo f.width v)

/-- `d` with `k` added to a count that saturates at the field's largest value. -/
def Dev.bump (d : Dev) (f : Fld) (k : Nat := 1) : Dev := d.wr f (min (d.rd f + k) (2 ^ f.width - 1))

/-- `d` with `k` added to a total that wraps at the field's width. -/
def Dev.addTo (d : Dev) (f : Fld) (k : Nat) : Dev := d.wr f (d.rd f + k)

/-- `d` with bit `i` of a field set. -/
def Dev.setBitOf (d : Dev) (f : Fld) (i : Nat) : Dev := d.wr f (setBit (d.rd f) i)

/-- `d` with bit `i` of a field clear. -/
def Dev.clrBitOf (d : Dev) (f : Fld) (i : Nat) : Dev := d.wr f (clrBit (d.rd f) i)

/-! ## Page numbers, interrupts and error counts -/

/-- The page number of instance `n` of a page kind (spec/20 Table 20-1). -/
def PageKind.page (n : Nat) : PageKind → Nat
  | .sys => 0 | .barn => 1 | .pwr => 2 | .thm => 3 | .clk => 4 | .rck => 5 | .win => 6 | .trn => 7 | .cel => 8
  | .grn => 9 | .bal => 10 | .seq => 11 | .tly => 12 | .key => 13
  | .stl => 0x10 + n | .trg => 0x20 + n | .thr => 0x30 + n | .hop => 0x40 + n | .sft => 0x44 + n
  | .fur => 0x48 + n | .pci => 0x4C + n | .aud => 0x50 + n | .sil => 0x60 + n

/-- Latch event `b` of a page in PIRQ_RAW, whatever PIRQ_EN holds (R407). -/
def Dev.irq (d : Dev) (k : PageKind) (n b : Nat) : Dev := d.setBitOf (R.PIRQ_RAW (k.page n)) b

/-- The code a requester is recorded under: 1-8 a stall, 9 management, 10 the Steward (Table 20-2). -/
def reqCode : Req → Nat
  | .stall n => n.val
  | .mgmt => 9
  | .steward => 10

/-- Causes of an ignored and counted write (Table 20-2). -/
abbrev causeLocked : Nat := 1
abbrev causeValue : Nat := 2
abbrev causeAccess : Nat := 3
abbrev causeSize : Nat := 4

/-- Count an ignored write on page `p`: PERR_COUNT saturates, and the first is recorded in PERR_FIRST (R14, R415);
`target` is the page written. -/
def Dev.perrAt (d : Dev) (p target off req cause : Nat) : Dev :=
  let d' := if d.rd (R.PERR_COUNT p) = 0 then
      (((d.wr (R.PERR_FIRST_OFFSET p) off).wr (R.PERR_FIRST_REQ p) req).wr (R.PERR_FIRST_CAUSE p) cause).wr
        (R.PERR_FIRST_PAGE p) target
    else d
  d'.bump (R.PERR_COUNT p)

/-- Count an ignored write to BAR0 address `addr` on its own page. -/
def Dev.perr (d : Dev) (addr : Nat) (r : Req) (cause : Nat) : Dev :=
  d.perrAt (addr / 4096) (addr / 4096) (addr % 4096) (reqCode r) cause

/-- Whether the RWL fields of the page that holds `addr` are fixed (R14). -/
def Dev.locked (d : Dev) (addr : Nat) : Bool := d.on (R.PCTL_LOCK (addr / 4096))

/-- Record something that leaves the device. -/
def Dev.emit (d : Dev) (o : Out) : Dev := { d with outs := d.outs ++ [o] }

/-- Set a bit of SYS.MGMT_IRQ_STAT; a bit that was clear and is enabled raises an in-band interrupt when ENEC has enabled
them, with MGMT_IRQ_STAT[7:0] as its mandatory byte (R377, DEDUCED: only an enabled bit is pending). -/
def Dev.mgmtIrq (d : Dev) (b : Nat) : Dev :=
  let old := d.word A.SYS_MGMT_IRQ_STAT
  let d' := d.setWord A.SYS_MGMT_IRQ_STAT (setBit old b)
  if !old.testBit b && (d.rd R.SYS_MGMT_IRQ_EN).testBit b && d.sy.ibi then d'.emit (.ibi (setBit old b % 256)) else d'

/-- The bits of SYS.MGMT_IRQ_STAT (Table 18-7). -/
abbrev irqLimp : Nat := 0
abbrev irqFault : Nat := 1
abbrev irqThermal : Nat := 2
abbrev irqWake : Nat := 3
abbrev irqLoss : Nat := 4
abbrev irqUpd : Nat := 5
abbrev irqDisagree : Nat := 6

/-- The next free value: a value the spec leaves open. -/
def Dev.freeNext (d : Dev) : Nat × Dev := ((Config.freeValue d.free).toNat, { d with free := d.free + 1 })

/-- The sample time counter (R35). -/
def Dev.stc (d : Dev) : Nat := d.rd R.CLK_STC

/-- Whether TCLK and FCLK run (R29). -/
def Dev.coreOn (d : Dev) : Bool := d.on R.CLK_SRC_SEL_CORE_SRC

/-- Whether batch work is paused (spec/07 R139). -/
def Dev.paused (d : Dev) : Bool := d.on R.THR_BATCH_CTL_PAUSED

/-- Whether LIMP is active (R371). -/
def Dev.limp (d : Dev) : Bool := d.on R.SYS_LIMP_CAUSE

/-- Whether domain `x` is ON (R329, PWR.DOM_ON). -/
def Dev.domOn (d : Dev) (x : Nat) : Bool := (d.rd R.PWR_DOM_ON).testBit x

/-- Whether domain `x` takes new work: its DOM_EN bit is 1 (R380). -/
def Dev.domEn (d : Dev) (x : Nat) : Bool := (d.rd R.PWR_DOM_EN).testBit x

/-! ## Device states, gating and pads (spec/17) -/

/-- `d` with its power state replaced. -/
def Dev.setPw (d : Dev) (x : Power) : Dev := { d with pw := x }

/-- PWR.STAT.STATE values. -/
abbrev pwRun : Nat := 0
abbrev pwIdle : Nat := 1
abbrev pwEntering : Nat := 2
abbrev pwDormant : Nat := 3
abbrev pwFallow : Nat := 4
abbrev pwWaking : Nat := 5

/-- PWR.STAT.STATE. -/
def Dev.pwState (d : Dev) : Nat := d.rd R.PWR_STAT_STATE

/-- A request: the domains ungate and the device is no longer IDLE. -/
def Dev.ungate (d : Dev) : Dev :=
  let d := d.wr R.PWR_DOM_GATED 0
  if d.pwState = pwIdle then d.wr R.PWR_STAT_STATE pwRun else d

/-- Whether the pads of group `g` on port `p` are held or float (R346, R347). -/
def Dev.padsOff (d : Dev) (g p : Nat) : Bool := d.pw.pads.any (fun x => x.1 == g && x.2.1 == p)

/-- PAD_STAT.HELD follows the pads that hold a level. -/
def Dev.showHeld (d : Dev) : Dev :=
  d.wr R.BARN_PAD_STAT_HELD ((List.range 5).foldl (fun v g =>
    v + b2n (d.pw.pads.any (fun x => x.1 == g && x.2.2 != .float)) * 2 ^ g) 0)

/-- The pads of group `g` on port `p` stop following the device and carry `s` (R346). -/
def Dev.latchPad (d : Dev) (g p : Nat) (s : PadState) : Dev :=
  if d.padsOff g p then d
  else ((d.setPw { d.pw with pads := d.pw.pads ++ [(g, p, s)] }).showHeld).emit (.pad g p (some s))

/-- The device drives the pads again that satisfy `q`. -/
def Dev.drivePads (d : Dev) (q : Nat × Nat × PadState → Bool) : Dev :=
  let gone := d.pw.pads.filter q
  gone.foldl (fun (d : Dev) x => d.emit (.pad x.1 x.2.1 none))
    ((d.setPw { d.pw with pads := d.pw.pads.filter (fun x => !q x) }).showHeld)

/-- The cause of a level-type wake source on a port persists (R337), or no longer does. -/
def Dev.holdLevel (d : Dev) (cause port : Nat) : Dev :=
  if d.pw.levels.contains (cause, port) then d else d.setPw { d.pw with levels := d.pw.levels ++ [(cause, port)] }
def Dev.dropLevel (d : Dev) (cause port : Nat) : Dev :=
  d.setPw { d.pw with levels := d.pw.levels.filter (· != (cause, port)) }

/-! ## Stalls: binding and grants (spec/04) -/

/-- STL.JOB_STAT.STATE values. -/
abbrev jobClosed : Nat := 0
abbrev jobOpen : Nat := 1
abbrev jobFaulted : Nat := 2

/-- JOB_STAT.STATE of stall `n`. -/
def Dev.jobState (d : Dev) (n : Nat) : Nat := d.rd (R.STL_JOB_STAT_STATE n)

/-- The job of stall `n`. -/
def Dev.job (d : Dev) (n : Nat) : Job := d.tn.jobs.get (fun _ => Job.none) n

/-- `d` with the job of stall `n` replaced. -/
def Dev.setJob (d : Dev) (n : Nat) (j : Job) : Dev :=
  { d with tn := { d.tn with jobs := d.tn.jobs.set (fun _ => Job.none) n j } }

/-- A progress event of stall `n`'s job restarts its watchdog count (R398). -/
def Dev.progress (d : Dev) (n : Nat) : Dev := d.setJob n { d.job n with wdog := 0 }

/-- The PCIe function a stall is bound to, as 4 × port + function (R67). -/
def Dev.funcOf (d : Dev) (n : Nat) : Option Nat :=
  if d.rd (R.STL_BIND_KIND n) = 1 then some (4 * d.rd (R.STL_BIND_PORT n) + d.rd (R.STL_BIND_FUNC n)) else none

/-- The Furrow node a stall is bound to (R67). -/
def Dev.nodeOf (d : Dev) (n : Nat) : Option Nat :=
  if d.rd (R.STL_BIND_KIND n) = 2 then some (d.rd (R.STL_BIND_NODE n)) else none

/-- Whether PCIe function `f` can be reached: its port's link is up, and a VF is enabled (R68, R308). -/
def Dev.hostUp (d : Dev) (f : Nat) : Bool :=
  d.on (R.PCI_LINK_STAT_UP (f / 4)) && (f % 4 == 0 || decide (f % 4 ≤ d.rd (R.PCI_LINK_STAT_NUM_VFS (f / 4))))

/-- Whether accesses of stall `n`'s function or node can arrive. -/
def Dev.reachable (d : Dev) (n : Nat) : Bool :=
  match d.funcOf n with
  | some f => d.hostUp f
  | none => (d.nodeOf n).isSome

/-- The stalls 1-8. -/
def hostStalls : List Nat := [1, 2, 3, 4, 5, 6, 7, 8]

/-- The stall bound to PCIe function `f`. -/
def Dev.stallOfFunc (d : Dev) (f : Nat) : Option Nat := hostStalls.find? (fun n => d.funcOf n == some f)

/-- The stall bound to Furrow node `node`. -/
def Dev.stallOfNode (d : Dev) (node : Nat) : Option Nat := hostStalls.find? (fun n => d.nodeOf n == some node)

/-- The stall that holds stream `s` in Q_STREAMS. -/
def Dev.stallOfStream (d : Dev) (s : Nat) : Option Nat :=
  hostStalls.find? (fun n => (d.rd (R.STL_Q_STREAMS_MASK n)).testBit s)

/-- The stall whose map a descriptor is read in (R225); a stream no stall holds is the system's. -/
def Dev.stallOf (d : Dev) : TroughId → Nat
  | .batch n _ => n
  | .realtime s _ => (d.stallOfStream s).getD 0

/-! ## Silo: banks, extents, owners, check bits (spec/12) -/

/-- The bytes of Silo and of a Silo and a Cellar granule. -/
abbrev siloBytes : Nat := 0x4000000
abbrev siloGranule : Nat := 0x10000
abbrev cellarGranule : Nat := 0x100000

/-- The bank a physical Silo address lies in (Table 12-1). -/
def Dev.bankOf (d : Dev) (a : Nat) : Nat :=
  match d.rd R.SIL_INTERLEAVE_MODE with
  | 0 => bits a 7 4
  | 1 => 4 * bits a 24 2 + bits a 7 2
  | _ => bits a 22 4

/-- The offset within its bank of a physical Silo address (Table 12-1). -/
def Dev.bankOffset (d : Dev) (a : Nat) : Nat :=
  match d.rd R.SIL_INTERLEAVE_MODE with
  | 0 => bits a 11 15 * 128 + bits a 0 7
  | 1 => bits a 9 15 * 128 + bits a 0 7
  | _ => bits a 0 22

/-- The physical address of offset `off` of bank `b` (Table 12-1 read backwards). -/
def Dev.bankAddr (d : Dev) (b off : Nat) : Nat :=
  match d.rd R.SIL_INTERLEAVE_MODE with
  | 0 => (off / 128) <<< 11 + b <<< 7 + off % 128
  | 1 => (b / 4) <<< 24 + (off / 128) <<< 9 + (b % 4) <<< 7 + off % 128
  | _ => b <<< 22 + off

/-- Extents `x` = 0-7 of stall `n` in Silo, as first granule and count (R222). -/
def Dev.siloExtents (d : Dev) (n : Nat) : List (Nat × Nat) :=
  if n = 0 then [] else
    (List.range 8).map (fun x => (d.rd (R.SIL_EXTENT_BASE ((n - 1) * 8 + x)), d.rd (R.SIL_EXTENT_COUNT ((n - 1) * 8 + x))))

/-- Extents of stall `n` in Cellar (R222). -/
def Dev.celExtents (d : Dev) (n : Nat) : List (Nat × Nat) :=
  if n = 0 then [] else
    (List.range 8).map (fun x => (d.rd (R.CEL_EXTENT_BASE ((n - 1) * 8 + x)), d.rd (R.CEL_EXTENT_COUNT ((n - 1) * 8 + x))))

/-- The physical granule of local granule `g` through a list of extents taken in order. -/
def granuleAt : List (Nat × Nat) → Nat → Option Nat
  | [], _ => none
  | (base, count) :: es, g => if g < count then some (base + g) else granuleAt es (g - count)

/-- Whether granule `g` lies in one of the extents. -/
def inExtents (es : List (Nat × Nat)) (g : Nat) : Bool := es.any (fun e => decide (e.1 ≤ g ∧ g < e.1 + e.2))

/-- The owner of a physical Silo granule: the stall 1-8 in one of whose extents it lies (R223). -/
def Dev.siloOwner (d : Dev) (g : Nat) : Option Nat := hostStalls.find? (fun n => inExtents (d.siloExtents n) g)

/-- The owner of a physical Cellar granule (R223). -/
def Dev.celOwner (d : Dev) (g : Nat) : Option Nat := hostStalls.find? (fun n => inExtents (d.celExtents n) g)

/-- What a byte of a memory that lists nothing reads as. -/
def zeroByte : Nat → Byte := fun _ => 0

/-- A place a data-path address can lead to. -/
inductive Loc where
  /-- Silo, physical. -/
  | silo (a : Nat)
  /-- Cellar, physical. -/
  | cellar (a : Nat)
  /-- Host memory of function `f`. -/
  | host (f a : Nat)
  /-- The Loft of sifter `k`. -/
  | loft (k a : Nat)
  deriving DecidableEq, Repr

/-- The byte at a place, check bits aside. -/
def Dev.peek (d : Dev) : Loc → Byte
  | .silo a => d.mem.silo.get zeroByte a
  | .cellar a => d.mem.cellar.get zeroByte a
  | .host f a => d.mem.host.get zeroByte (f * 2 ^ 64 + a % 2 ^ 64)
  | .loft k a => d.mem.loft.get zeroByte (k * 0x40000 + a % 0x40000)

/-- `d` with the byte at a place replaced, check bits aside. -/
def Dev.poke (d : Dev) (l : Loc) (b : Byte) : Dev :=
  match l with
  | .silo a => { d with mem := { d.mem with silo := d.mem.silo.set zeroByte a b } }
  | .cellar a => { d with mem := { d.mem with cellar := d.mem.cellar.set zeroByte a b } }
  | .host f a => { d with mem := { d.mem with host := d.mem.host.set zeroByte (f * 2 ^ 64 + a % 2 ^ 64) b } }
  | .loft k a => { d with mem := { d.mem with loft := d.mem.loft.set zeroByte (k * 0x40000 + a % 0x40000) b } }

/-- A list without its repeats, in order of first appearance. -/
def dedup {α : Type} [DecidableEq α] : List α → List α
  | [] => []
  | a :: as => a :: (dedup as).filter (fun b => decide (b ≠ a))

/-- The Silo words (address ÷ 8) a list of places touches. -/
def siloWords (ls : List Loc) : List Nat :=
  dedup (ls.filterMap (fun l => match l with | .silo a => some (a / 8) | _ => none))

/-- The state of the check bits of Silo word `w`. -/
def Dev.eccOf (d : Dev) (w : Nat) : Option EccMark := d.mem.ecc.get (fun _ => none) w

/-- `d` with the check bits of Silo word `w` in state `m`. -/
def Dev.setEcc (d : Dev) (w : Nat) (m : Option EccMark) : Dev :=
  { d with mem := { d.mem with ecc := d.mem.ecc.set (fun _ => none) w m } }

/-- The device notices Silo word `w` on a read (R219): a correctable word is counted and written back, an uncorrectable
one is counted, its address and owner recorded and PIRQ UE raised. -/
def Dev.eccTouch (d : Dev) (w : Nat) : Dev :=
  let b := d.bankOf (8 * w)
  match d.eccOf w with
  | none => d
  | some .ce => (d.bump (R.SIL_CE_COUNT b)).setEcc w none
  | some .ue =>
    ((((d.bump (R.SIL_UE_COUNT b)).wr (R.SIL_UE_ADDR b) (8 * w)).wr (R.SIL_UE_OWNER_STALL b)
      ((d.siloOwner (8 * w / siloGranule)).getD 0xF)).irq .sil b 0)

/-- Read the bytes at a list of places: the bytes, zero in place of uncorrectable words, whether there was one, and the
device after the counts (R219). -/
def Dev.readLocs (d : Dev) (ls : List Loc) : List Byte × Bool × Dev :=
  let ws := siloWords ls
  let bad := ws.filter (fun w => d.eccOf w == some .ue)
  let val := fun l => match l with
    | .silo a => if a / 8 ∈ bad then 0 else d.peek l
    | _ => d.peek l
  (ls.map val, !bad.isEmpty, ws.foldl Dev.eccTouch d)

/-- Whether a list of places covers the whole of Silo word `w`. -/
def coversWord (ls : List Loc) (w : Nat) : Bool := (List.range 8).all (fun i => decide (Loc.silo (8 * w + i) ∈ ls))

/-- Write bytes at a list of places: whether a read-modify-write met an uncorrectable word, and the device after. A
whole-word write replaces bad check bits; a partial write of an uncorrectable word is reported and leaves it (R219). -/
def Dev.writeLocs (d : Dev) (ls : List Loc) (bs : List Byte) : Bool × Dev :=
  let ws := siloWords ls
  let whole := ws.filter (coversWord ls)
  let part := ws.filter (fun w => !coversWord ls w)
  let bad := part.filter (fun w => d.eccOf w == some .ue)
  let d1 := part.foldl Dev.eccTouch d
  let d2 := whole.foldl (fun d w => d.setEcc w none) d1
  let put := fun (d : Dev) (p : Loc × Byte) => match p.1 with
    | .silo a => if a / 8 ∈ bad then d else d.poke p.1 p.2
    | _ => d.poke p.1 p.2
  (!bad.isEmpty, (ls.zip bs).foldl put d2)

/-- The places of `n` physical Silo bytes from `a`. -/
def siloSpan (a n : Nat) : List Loc := (List.range n).map (fun i => .silo (a + i))

/-- Read `n` bytes of physical Silo. -/
def Dev.siloRead (d : Dev) (a n : Nat) : List Byte × Bool × Dev := d.readLocs (siloSpan a n)

/-- Write bytes to physical Silo. -/
def Dev.siloWrite (d : Dev) (a : Nat) (bs : List Byte) : Bool × Dev := d.writeLocs (siloSpan a bs.length) bs

/-- Whether a physical Silo address can be served now: its granule is zeroed, its bank is on and not zeroing itself
(R221, R223). -/
def Dev.siloReady (d : Dev) (a : Nat) : Bool :=
  let b := d.bankOf a
  !(d.mem.siloPend.contains (a / siloGranule)) && !(d.mem.bankPend.contains b) && d.domOn (24 + b)

/-- Whether every byte of `n` from a physical Silo address can be served now; a line of 128 bytes lies in one bank and one
granule. -/
def Dev.siloReadyRun (d : Dev) (a n : Nat) : Bool :=
  n == 0 || (List.range (ceilDiv (a % 128 + n) 128)).all (fun i => d.siloReady (a / 128 * 128 + 128 * i))

/-- Read `n` bytes of physical Silo for work that cannot wait: a byte that cannot be served now reads as zero (DESIGN
CHOICE: what its granule or bank reads as once it is zeroed). -/
def Dev.siloReadNow (d : Dev) (a n : Nat) : List Byte × Bool × Dev :=
  if d.siloReadyRun a n then d.siloRead a n
  else
    let ls := (siloSpan a n).filter (fun l => match l with | .silo x => d.siloReady x | _ => false)
    let r := d.readLocs ls
    let got := (ls.zip r.1)
    ((siloSpan a n).map (fun l => ((got.find? (fun p => p.1 == l)).map (·.2)).getD 0), r.2)

/-- Whether a physical Cellar address can be served now (R223, R233): its channel pair's pads follow the device (R347). -/
def Dev.cellarReady (d : Dev) (a : Nat) : Bool :=
  d.on R.CEL_STAT_TRAINED && !(d.mem.celPend.contains (a / cellarGranule)) && d.domOn (40 + bits a 7 2) &&
    !d.padsOff 4 (bits a 7 2)

/-! ## Descriptors -/

/-- The header fields of a descriptor (Table 04-3). -/
def Desc.fld (x : Desc) (lo w : Nat) : Nat := Machine.bits x.bits.toNat lo w
def Desc.opcode (x : Desc) : Nat := x.fld 0 8
def Desc.waitEn (x : Desc) : Bool := x.bits.toNat.testBit 8
def Desc.consume (x : Desc) : Bool := x.bits.toNat.testBit 9
def Desc.sigEn (x : Desc) : Bool := x.bits.toNat.testBit 10
def Desc.cmpl (x : Desc) : Bool := x.bits.toNat.testBit 11
def Desc.irq (x : Desc) : Bool := x.bits.toNat.testBit 12
def Desc.tag (x : Desc) : Nat := x.fld 16 16
def Desc.waitCtr (x : Desc) : Nat := x.fld 32 16
def Desc.sigCtr (x : Desc) : Nat := x.fld 48 16
def Desc.waitVal (x : Desc) : Nat := x.fld 64 32
def Desc.sigInc (x : Desc) : Nat := x.fld 96 32

end Sys2Proof.Machine
end

