-- ==== Sys2Proof/Machine/Packets.lean ====
section
/-! DEFINITION. Furrow flits and packets: routes, credits, first transmission (spec/15 R280-R291). -/
namespace Sys2Proof.Machine

/-- Furrow port `p`. -/
def Dev.link (d : Dev) (p : Nat) : Link := d.fu.links.get (fun _ => Link.down) p

/-- `d` with Furrow port `p` replaced. -/
def Dev.setLink (d : Dev) (p : Nat) (x : Link) : Dev :=
  { d with fu := { d.fu with links := d.fu.links.set (fun _ => Link.down) p x } }

/-- The four ports. -/
def furPorts : List Nat := [0, 1, 2, 3]

/-- FUR.STAT.STATE values. -/
abbrev furDown : Nat := 0
abbrev furDetect : Nat := 1
abbrev furTrain1 : Nat := 2
abbrev furTrain2 : Nat := 3
abbrev furActive : Nat := 4
abbrev furKnocking : Nat := 5

/-- Whether port `p` is ACTIVE. -/
def Dev.furUp (d : Dev) (p : Nat) : Bool := d.rd (R.FUR_STAT_STATE p) == furActive

/-- The device's own node ID. -/
def Dev.node (d : Dev) : Nat := d.rd R.FUR_NODE_ID

/-- The port by which a packet to node `n` leaves (R291). -/
def Dev.route (d : Dev) (n : Nat) : Option Nat :=
  match (List.range 16).find? (fun r => d.on (R.FUR_RANGE_PORT_EN r) &&
      decide (d.rd (R.FUR_RANGE_LO r) ≤ n ∧ n ≤ d.rd (R.FUR_RANGE_HI r))) with
  | some r => some (d.rd (R.FUR_RANGE_PORT r))
  | none => if d.rd R.FUR_DEFAULT_PORT < 4 then some (d.rd R.FUR_DEFAULT_PORT) else none

/-! ## Lists by index -/

/-- A list of counts with `k` added to entry `i`, modulo 65,536. -/
def addAt (l : List Nat) (i k : Nat) : List Nat := l.set i ((l.getD i 0 + k) % 65536)

/-! ## Scrambling (R280) -/

/-- One step of the PRBS31 generator x³¹ + x²⁸ + 1: the bit it puts out, and its next state (DEDUCED: the output is the
bit that enters). -/
def prbsStep (s : Nat) : Nat × Nat :=
  let b := (s / 2 ^ 30 + s / 2 ^ 27) % 2
  (b, (2 * s + b) % 2 ^ 31)

/-- `n` bits of the generator, first bit least significant. -/
def prbsBits : Nat → Nat → Nat × Nat
  | 0, s => (0, s)
  | n + 1, s =>
    let (b, s1) := prbsStep s
    let (v, s2) := prbsBits n s1
    (b + 2 * v, s2)

/-- Scramble or descramble a flit: byte k travels on lane k mod 4 as payload byte k div 4, and each lane's 128 bits are
XORed with its own generator. -/
def scramble (st : List Nat) (bs : List Byte) : List Byte × List Nat :=
  let ks := st.map (prbsBits 128)
  let key := fun k => BitVec.ofNat 8 (((ks.getD (k % 4) (0, 0)).1 >>> (8 * (k / 4))) % 256)
  ((List.range bs.length).map (fun k => bs.getD k 0 ^^^ key k), ks.map (·.2))

/-! ## Flits (Table 15-4) -/

abbrev ftNull : Nat := 0
abbrev ftHead : Nat := 1
abbrev ftData : Nat := 2

/-- The 64 bytes of a flit, with the ACK and NAK of port state `l`. -/
def flitBytes (l : Link) (ftype seq vc : Nat) (payload : List Byte) : List Byte :=
  withCrc (leBytes 2 (ftype + seq * 16) ++ leBytes 2 (vc + b2n l.nak * 8 + l.rxSeq * 16) ++ padTo 56 payload)

/-- The sync headers of data and control blocks, H0 lowest (R280). -/
abbrev hdrData : Nat := 5
abbrev hdrControl : Nat := 10

/-- One block time of port `p`: a header and the 64 payload bytes of its four lanes. -/
def Dev.emitBlock (d : Dev) (p hdr : Nat) (bs : List Byte) : Dev := d.emit (.block p hdr (bs.map BitVec.toNat))

/-- Put a flit's bytes on the lanes of port `p`. -/
def Dev.emitFlit (d : Dev) (p : Nat) (bs : List Byte) : Dev :=
  let l := d.link p
  let (xs, st) := scramble l.scrTx bs
  (d.setLink p { l with scrTx := st, nak := false }).emitBlock p hdrData xs

/-- Available credits of VC `v` on port `p` (R285). -/
def Dev.avail (d : Dev) (p v : Nat) : Nat :=
  let l := d.link p
  (d.rd (R.FUR_PVC_PDEPTH p v) + 65536 - (l.sent.getD v 0 + 65536 - l.freedIn.getD v 0) % 65536) % 65536

/-- AVAIL follows the counts. -/
def Dev.showAvail (d : Dev) (p v : Nat) : Dev := d.wr (R.FUR_VC_AVAIL p v) (d.avail p v)

/-- Send flit `f` of port `p` for the first time: it takes a credit and a sequence number and is kept for replay. -/
def Dev.firstSend (d : Dev) (p : Nat) (f : Flit) : Dev :=
  let l := d.link p
  let seq := l.txSeq
  let d := d.setLink p { l with txSeq := (seq + 1) % 4096, replay := l.replay ++ [(seq, f, 0)], sent := addAt l.sent f.vc 1 }
  let d := (d.addTo (R.FUR_TX_FLITS p) 1).showAvail p f.vc
  d.emitFlit p (flitBytes (d.link p) (if f.head then ftHead else ftData) seq f.vc f.payload)

/-- The first flit of a queue that may be sent, and behind which no earlier flit of its VC stays. -/
def firstReady (ok : Flit → Bool) : List Nat → List Flit → List Flit → Option (Flit × List Flit)
  | _, _, [] => none
  | held, pre, f :: fs =>
    if ok f && !held.contains f.vc then some (f, pre ++ fs) else firstReady ok (f.vc :: held) (pre ++ [f]) fs

/-- Whether port `p` may send flit `f` for the first time: its VC has a credit, and it begins no packet of a LINK or a BALE
while batch work is paused (R285, R301). -/
def Dev.maySend (d : Dev) (p : Nat) (f : Flit) : Bool :=
  decide (0 < d.avail p f.vc) && !(d.paused && f.head && f.owner.isSome)

/-- Send what port `p` can send now, at most `fuel` flits: it is ACTIVE and holds fewer than 256 unacknowledged (R286). -/
def Dev.pump (d : Dev) (p : Nat) : Nat → Dev
  | 0 => d
  | k + 1 =>
    let l := d.link p
    if d.furUp p && decide (l.replay.length < 256) then
      match firstReady (d.maySend p) [] [] l.txq with
      | some (f, rest) => ((d.setLink p { l with txq := rest }).firstSend p f).pump p k
      | none => d
    else d

/-- Send what port `p` can send now. -/
def Dev.pumpAll (d : Dev) (p : Nat) : Dev := d.pump p (d.link p).txq.length

/-! ## Packets (R289) -/

/-- Packet classes (Table 15-6). -/
abbrev pkAct : Nat := 1
abbrev pkGrad : Nat := 2
abbrev pkRsig : Nat := 3
abbrev pkRack : Nat := 4
abbrev pkCkpt : Nat := 5
abbrev pkAbort : Nat := 6
abbrev pkAbortAck : Nat := 7
abbrev pkBarrier : Nat := 8
abbrev pkReg : Nat := 9
abbrev pkRegRsp : Nat := 10
abbrev pkNotify : Nat := 11

/-- Whether a packet class may ride a VC (Table 15-6). -/
def vcOk (cls vc : Nat) : Bool :=
  match cls with
  | 1 => vc == 3 | 2 => vc == 4 | 3 => vc == 3 || vc == 4 || vc == 6 | 5 => vc == 5 | 9 => vc == 1 | 10 => vc == 2
  | 4 | 6 | 7 | 8 | 11 => vc == 0
  | _ => false

/-- The 56 payload bytes of a packet's HEAD flit (Table 15-5). -/
def Packet.head (x : Packet) : List Byte :=
  leBytes 1 x.cls ++ leBytes 1 x.ttl ++ leBytes 2 x.dst ++ leBytes 2 x.src ++ leBytes 1 (x.dstall + x.sstall * 16) ++
    zeros 1 ++ leBytes 2 x.data.length ++ zeros 2 ++ padTo 44 (x.fields.take 44)

/-- The packet a HEAD flit's payload begins, and its LEN. -/
def Packet.ofHead (p : List Byte) : Packet × Nat :=
  (⟨leAt p 0 1, leAt p 1 1, leAt p 2 2, leAt p 4 2, leAt p 6 1 % 16, leAt p 6 1 / 16, slice p 12 44, []⟩, leAt p 8 2)

/-- The field of `n` bytes at flit byte `k` of a packet's class fields. -/
def Packet.fld (x : Packet) (k n : Nat) : Nat := leAt x.fields (k - 16) n

/-- A list cut into pieces of at most `k`. -/
def cutUp (k : Nat) : Nat → List Byte → List (List Byte)
  | 0, _ => []
  | n + 1, bs => if bs.isEmpty then [] else bs.take k :: cutUp k n (bs.drop k)

/-- The flits of a packet on VC `v` (R289). -/
def Packet.flits (x : Packet) (v : Nat) (owner : Option (TroughId × Nat)) : List Flit :=
  ⟨v, true, x.head, owner⟩ ::
    (cutUp 56 x.data.length x.data).map (fun c => ⟨v, false, padTo 56 c, owner⟩)

/-- Send a packet on VC `v` (R291): to the device itself, or by its route; one with no route is dropped. -/
def Dev.sendPacket (d : Dev) (v : Nat) (x : Packet) (owner : Option (TroughId × Nat) := none) : Dev :=
  if x.dst = d.node then { d with fu := { d.fu with loop := d.fu.loop ++ [(v, x)] } }
  else match d.route x.dst with
    | none => d
    | some p =>
      let l := d.link p
      (d.setLink p { l with txq := l.txq ++ x.flits v owner }).pumpAll p

/-- A packet of this device. -/
def Dev.packet (d : Dev) (cls dst dstall sstall : Nat) (fields data : List Byte) : Packet :=
  ⟨cls, 16, dst, d.node, dstall, sstall, padTo 44 fields, data⟩

/-- Whether flits of a descriptor are still unsent or unacknowledged, or went unacknowledged with their port. -/
def Dev.flitsLeft (d : Dev) (t : TroughId) (pos : Nat) : Bool :=
  furPorts.any (fun p => (d.link p).txq.any (fun f => f.owner == some (t, pos)) ||
    (d.link p).replay.any (fun r => r.2.1.owner == some (t, pos)) || (d.link p).gone.contains (t, pos))

/-- A flit that belongs to no descriptor of trough `t` any more. -/
def Flit.disown (t : TroughId) (f : Flit) : Flit := if f.owner.any (fun o => o.1 == t) then { f with owner := none } else f

/-- A transmit queue without the packets of trough `t` whose HEAD has not left yet (R301); `cut` holds the VCs whose packet
goes. -/
def dropUnsent (t : TroughId) : List Nat → List Flit → List Flit
  | _, [] => []
  | cut, f :: fs =>
    if f.head then
      if f.owner.any (fun o => o.1 == t) then dropUnsent t (f.vc :: cut) fs else f :: dropUnsent t (cut.filter (· != f.vc)) fs
    else if cut.contains f.vc then dropUnsent t cut fs
    else f.disown t :: dropUnsent t cut fs

/-- A link without what trough `t` still had to send; what it has sent stays sent. -/
def Link.dropSends (l : Link) (t : TroughId) : Link :=
  { l with txq := dropUnsent t [] l.txq, replay := l.replay.map (fun r => (r.1, r.2.1.disown t, r.2.2)),
           gone := l.gone.filter (fun o => o.1 != t) }

/-- Trough `t` ends: its LINK stops at its next packet (R301). -/
def Dev.dropSends (d : Dev) (t : TroughId) : Dev := furPorts.foldl (fun d p => d.setLink p ((d.link p).dropSends t)) d

/-- The owners of flits that no acknowledgement will come for: the unacknowledged, and the DATA flits that lead their VC. -/
def lostOwners (l : Link) (tails : List Flit) : List (TroughId × Nat) :=
  dedup (l.gone ++ (l.replay.map (fun r => r.2.1) ++ tails).filterMap (fun f => f.owner))

/-- A transmit queue's packets of which nothing has left yet (`whole`), or the DATA flits that lead their VC; `seen` holds
the VCs whose next HEAD has passed. -/
def splitTails (whole : Bool) : List Nat → List Flit → List Flit
  | _, [] => []
  | seen, f :: fs =>
    if f.head ∨ seen.contains f.vc then
      if whole then f :: splitTails whole (f.vc :: seen) fs else splitTails whole (f.vc :: seen) fs
    else if whole then splitTails whole seen fs else f :: splitTails whole seen fs

/-- A link whose port has lost its partner: only packets of which nothing has left stay (R288); it stays idle if it was. -/
def Link.cut (l : Link) : Link :=
  { Link.down with txq := splitTails true [] l.txq, gone := lostOwners l (splitTails false [] l.txq), idleHold := l.idleHold }

end Sys2Proof.Machine
end

