-- ==== Sys2Proof/Machine/Path.lean ====
section
/-! DEFINITION. The data-path address map of a stall (spec/12 Table 12-2, R222-R226) with the stream aliases (spec/03
Table 03-3, spec/11 R207), and reads and writes through it. -/
namespace Sys2Proof.Machine

/-! ## Streams as the map needs them -/

/-- Stream `s`. -/
def Dev.stream (d : Dev) (s : Nat) : Stream := d.au.streams.get (fun _ => Stream.idle) s

/-- `d` with stream `s` replaced. -/
def Dev.setStream (d : Dev) (s : Nat) (x : Stream) : Dev :=
  { d with au := { d.au with streams := d.au.streams.set (fun _ => Stream.idle) s x } }

/-- B, the samples of a block of stream `s` (R48). -/
def Dev.blkLen (d : Dev) (s : Nat) : Nat := 8 * 2 ^ min (d.rd (R.SEQ_STRM_CFG_BLK s)) 5

/-- The slots of a mask, ascending. -/
def slotList (m : Nat) : List Nat := maskList 8 m

/-- Input and output slots of stream `s`. -/
def Dev.inSlots (d : Dev) (s : Nat) : List Nat := slotList (d.rd (R.SEQ_STRM_SLOTS_IN_MASK s))
def Dev.outSlots (d : Dev) (s : Nat) : List Nat := slotList (d.rd (R.SEQ_STRM_SLOTS_OUT_MASK s))

/-- `a` rounded up to a multiple of 64: each ring entry starts on a 64-byte boundary (R48). -/
def up64 (a : Nat) : Nat := ceilDiv a 64 * 64

/-- Bytes of an input entry and of an output entry (Table 03-3). -/
def Dev.inBytes (d : Dev) (s : Nat) : Nat := d.blkLen s * 4 * (d.inSlots s).length
def Dev.outBytes (d : Dev) (s : Nat) : Nat := d.blkLen s * 4 * (d.outSlots s).length

/-- STATE_LEN in bytes (R66). -/
def Dev.stateBytes (d : Dev) (s : Nat) : Nat := 64 * d.rd (R.SEQ_STRM_STATE_LEN s)

/-- Physical address of input entry `k mod 4` (R49). -/
def Dev.inEntry (d : Dev) (s k : Nat) : Nat := 64 * d.rd (R.SEQ_STRM_IN_BASE s) + (k % 4) * up64 (d.inBytes s)

/-- Physical address of output entry `k mod 3` of the ring at `base` (in 64-byte units). -/
def Dev.outEntry (d : Dev) (s base k : Nat) : Nat := 64 * base + (k % 3) * up64 (d.outBytes s)

/-- The block a running trough of stream `s` computes. -/
def Dev.runBlock (d : Dev) (s : Nat) (standby : Bool) : Nat :=
  match (if standby then (d.stream s).standby else (d.stream s).live) with
  | some r => r.block
  | none => d.rd (R.SEQ_STRM_BLOCK s)

/-- Where offset `o` of stream `s`'s live or standby alias window leads (Table 03-3, R207); none past the mapped
size. Until a promotion attaches, the standby window leads where the live one does (DEDUCED: a committed trough still names
it). -/
def Dev.aliasAddr (d : Dev) (s : Nat) (standby : Bool) (o : Nat) : Option Nat :=
  let st := d.stream s
  let k := d.runBlock s standby
  let p := if standby && decide (2 ≤ d.rd (R.SEQ_PROMO_STAT_STATE s)) then st.promo else none
  let outBase := match p with | some p => p.outBase | none => d.rd (R.SEQ_STRM_OUT_BASE s)
  let stBase := match p with | some p => p.stateBase | none => d.rd (R.SEQ_STRM_STATE_BASE s)
  let stLen := match p with | some p => p.stateLen | none => d.stateBytes s
  let j := match p with | some p => p.met | none => st.met
  if o < 0x4000 then
    if o < d.inBytes s then some (d.inEntry s k + o) else none
  else if o < 0x8000 then
    if o - 0x4000 < d.outBytes s then some (d.outEntry s outBase k + (o - 0x4000)) else none
  else if o < 0xC000 then
    if o - 0x8000 < stLen then some (64 * stBase + (j % 2) * stLen + (o - 0x8000)) else none
  else
    if o - 0xC000 < stLen then some (64 * stBase + ((j + 1) % 2) * stLen + (o - 0xC000)) else none

/-! ## The map -/

/-- What becomes of one byte of an access. -/
inductive Reach where
  /-- It is served at this place. -/
  | ok (l : Loc)
  /-- It waits: its granule, bank or interface is not ready, or no extent covers it yet (R222, R223, R233). -/
  | wait
  /-- It faults the job with QUOTA (R225). -/
  | quota
  deriving DecidableEq, Repr

/-- Bases of the regions of Table 12-2. -/
abbrev aliasBase : Nat := 0x10000000
abbrev aliasStandby : Nat := 0x10200000
abbrev aliasEnd : Nat := 0x10400000
abbrev cellarBase : Nat := 0x1000000000
abbrev cellarEnd : Nat := 0x1800000000
abbrev hostBase : Nat := 0x8000000000000000
abbrev hostEnd : Nat := 0x10000000000000000

/-- A physical Silo byte, served or waiting. -/
def Dev.siloReach (d : Dev) (a : Nat) : Reach := if d.siloReady a then .ok (.silo a) else .wait

/-- The data-path map of stall `n` (Table 12-2); `rt` is the stream whose realtime trough makes the access, which reaches its
own aliases alone. A stream that stops keeps its aliases until its last block has played (R60). Stall 0 reaches the granules in
no extent of stalls 1-8 (R222; DEDUCED: another is beyond its grant). -/
def Dev.reach (d : Dev) (n : Nat) (rt : Option Nat) (a : Nat) : Reach :=
  if a < siloBytes then
    if n = 0 then if (d.siloOwner (a / siloGranule)).isSome then .quota else d.siloReach a
    else if a < d.rd (R.STL_Q_SILO_GRAN n) * siloGranule then
      match granuleAt (d.siloExtents n) (a / siloGranule) with
      | some g => d.siloReach (g * siloGranule + a % siloGranule)
      | none => .wait
    else .quota
  else if aliasBase ≤ a ∧ a < aliasEnd then
    match rt with
    | none => .quota
    | some r =>
      let standby := decide (aliasStandby ≤ a)
      let o := if standby then a - aliasStandby else a - aliasBase
      let s := o / 0x10000
      if s = r ∧ (d.on (R.SEQ_STRM_CFG_EN s) ∨ (d.stream s).stopping ≠ 0) ∧ (d.stallOfStream s).getD 0 = n then
        match d.aliasAddr s standby (o % 0x10000) with
        | some p => d.siloReach p
        | none => .quota
      else .quota
  else if cellarBase ≤ a ∧ a < cellarEnd then
    let o := a - cellarBase
    if n = 0 then
      if o < d.rd R.CEL_SIZE_MIB * 1024 * cellarGranule then
        if (d.celOwner (o / cellarGranule)).isSome then .quota
        else if d.cellarReady o then .ok (.cellar o) else .wait
      else .quota
    else if o < d.rd (R.STL_Q_CELLAR_GRAN n) * cellarGranule then
      match granuleAt (d.celExtents n) (o / cellarGranule) with
      | some g =>
        let p := g * cellarGranule + o % cellarGranule
        if d.cellarReady p then .ok (.cellar p) else .wait
      | none => .wait
    else .quota
  else if hostBase ≤ a ∧ a < hostEnd then
    match d.funcOf n with
    | some f => if n = 0 then .quota else if d.hostUp f then .ok (.host f (a - hostBase)) else .wait
    | none => .quota
  else .quota

/-- The places of `len` bytes from `a`: all served, or the first byte that is not. -/
def Dev.reachSpan (d : Dev) (n : Nat) (rt : Option Nat) (a : Nat) : Nat → Except Reach (List Loc)
  | 0 => .ok []
  | k + 1 =>
    match d.reach n rt a with
    | .ok l =>
      match d.reachSpan n rt (a + 1) k with
      | .ok ls => .ok (l :: ls)
      | .error r => .error r
    | r => .error r

/-- The stream whose realtime trough a descriptor belongs to. -/
def TroughId.rt : TroughId → Option Nat
  | .batch _ _ => none
  | .realtime s _ => some s

/-! ## Which addresses a descriptor may name (R80) -/

/-- Whether no granule from `g` to `h` has an owner. -/
def granulesFree (owner : Nat → Option Nat) (g h : Nat) : Bool := (List.range (h + 1 - g)).all (fun i => (owner (g + i)).isNone)

/-- Whether `len` bytes from `a` lie in stall `n`'s grant, host memory, or a realtime trough's aliases (R225): the check
a realtime descriptor's addresses get. -/
def Dev.inMap (d : Dev) (n : Nat) (rt : Option Nat) (a len : Nat) : Bool :=
  if len = 0 then true
  else if a < siloBytes then
    if n = 0 then decide (a + len ≤ siloBytes) && granulesFree d.siloOwner (a / siloGranule) ((a + len - 1) / siloGranule)
    else decide (a + len ≤ min siloBytes (d.rd (R.STL_Q_SILO_GRAN n) * siloGranule))
  else if aliasBase ≤ a ∧ a < aliasEnd then
    (List.range len).all (fun i => decide (d.reach n rt (a + i) ≠ .quota))
  else if cellarBase ≤ a ∧ a < cellarEnd then
    if n = 0 then decide (a - cellarBase + len ≤ d.rd R.CEL_SIZE_MIB * 1024 * cellarGranule) &&
      granulesFree d.celOwner ((a - cellarBase) / cellarGranule) ((a - cellarBase + len - 1) / cellarGranule)
    else decide (a - cellarBase + len ≤ d.rd (R.STL_Q_CELLAR_GRAN n) * cellarGranule)
  else if hostBase ≤ a ∧ a + len ≤ hostEnd then n != 0 && (d.funcOf n).isSome
  else false

/-- Whether local Silo granule `g` lies in one of the job's buffers. -/
def Decl.hasGranule (j : Decl) (g : Nat) : Bool := inExtents j.buffers g

/-- Whether `len` bytes from `a` lie in the job's buffers, its Cellar range or its own host memory (R80). -/
def Dev.inJob (d : Dev) (n a len : Nat) : Bool :=
  d.inMap n none a len &&
    (if len ≠ 0 ∧ a < siloBytes then
      (List.range ((a + len - 1) / siloGranule - a / siloGranule + 1)).all
        (fun i => (d.job n).decl.hasGranule (a / siloGranule + i))
    else true)

/-- The address check of a descriptor of trough `t` (R80): a batch descriptor against its job's areas, a realtime one
against its stall's Silo grant and the aliases. -/
def Dev.mayUse (d : Dev) (t : TroughId) (a len : Nat) : Bool :=
  match t with
  | .batch n _ => d.inJob n a len
  | .realtime s _ => d.inMap (d.stallOf t) (some s) a len && decide (a < aliasEnd)

/-- Whether stall `n` may send its data by egress path `p` (spec/04 R86): 0 host memory, 1 Furrow peers, 2 Granary. -/
def Dev.egress (d : Dev) (n p : Nat) : Bool :=
  (d.rd (R.STL_EGRESS_PATHS n)).testBit p && (d.rd (R.STL_EGRESS_SELF_PATHS n)).testBit p

/-! ## Reads and writes through the map -/

/-- What a read through the map gives. -/
inductive PathRead where
  | data (bs : List Byte) (ue : Bool) (d : Dev)
  | wait
  | quota

/-- Read `len` bytes at data-path address `a` of stall `n`. -/
def Dev.pathRead (d : Dev) (n : Nat) (rt : Option Nat) (a len : Nat) : PathRead :=
  match d.reachSpan n rt a len with
  | .ok ls => let r := d.readLocs ls; .data r.1 r.2.1 r.2.2
  | .error .wait => .wait
  | .error _ => .quota

/-- What a write through the map gives. -/
inductive PathWrite where
  | done (ue : Bool) (d : Dev)
  | wait
  | quota

/-- Write bytes at data-path address `a` of stall `n`. -/
def Dev.pathWrite (d : Dev) (n : Nat) (rt : Option Nat) (a : Nat) (bs : List Byte) : PathWrite :=
  match d.reachSpan n rt a bs.length with
  | .ok ls => let r := d.writeLocs ls bs; .done r.1 r.2
  | .error .wait => .wait
  | .error _ => .quota

end Sys2Proof.Machine
end

