-- ==== Sys2Proof/Machine/Rick.lean ====
section
/-! DEFINITION. The Rick counters (spec/05 R89-R104) and what a stall is told of: MSI-X vectors, notify packets and
event records (spec/04 R83, R84). -/
namespace Sys2Proof.Machine

/-! ## Counters -/

/-- The value of counter `c`. -/
def Dev.ctr (d : Dev) (c : Nat) : Nat := (d.tn.rick.get (fun _ => 0) c).toNat

/-- `d` with counter `c` holding `v`. -/
def Dev.setCtr (d : Dev) (c v : Nat) : Dev :=
  { d with tn := { d.tn with rick := d.tn.rick.set (fun _ => 0) c (BitVec.ofNat 32 v) } }

/-- Counters 0-4,095 are stall 0's standing counters (R444). -/
abbrev standingEnd : Nat := 4096

/-- Whether counter `c` lies in stall `n`'s Q_RICK range (Table 04-1). -/
def Dev.inRick (d : Dev) (n c : Nat) : Bool :=
  let base := d.rd (R.STL_Q_RICK_BASE n) * 64
  decide (base ≤ c ∧ c < base + d.rd (R.STL_Q_RICK_COUNT n) * 64)

/-- Whether stall `n`'s declaration names counter `c`; the standing counters are declared to stall 0 at all times. -/
def Dev.declares (d : Dev) (n c : Nat) : Bool :=
  (n == 0 && decide (c < standingEnd)) ||
    (d.jobState n != jobClosed && (d.job n).decl.counters.any (fun x => x.1 == c))

/-- The stall whose counter `c` is: stall 0's standing counter, or the stall whose job declared it. -/
def Dev.ctrStall (d : Dev) (c : Nat) : Option Nat :=
  if c < standingEnd then some 0 else (0 :: hostStalls).find? (fun n => d.declares n c)

/-- Whether a signal to counter `c` is applied (R445): its job is in STATE 1, or in STATE 2 before its return and the
signal comes from a descriptor of that job, or it is a standing counter. -/
def Dev.takesSignal (d : Dev) (c : Nat) (own : Bool) : Bool :=
  if c < standingEnd then true
  else match d.ctrStall c with
    | none => false
    | some n => d.jobState n == jobOpen || (own && d.jobState n == jobFaulted && !d.on (R.STL_FAULT_STAT_RETURNED n))

/-- Causes of RCK.LAST_REFUSE (Table 05-5). -/
abbrev refuseWrap : Nat := 0
abbrev refuseRemote : Nat := 1
abbrev refuseWindow : Nat := 2

/-- Record a refused signal to counter `c` by stall `n` (R90, Table 05-5). -/
def Dev.refuseSignal (d : Dev) (c n cause : Nat) : Dev :=
  ((((d.wr R.RCK_LAST_REFUSE_COUNTER c).wr R.RCK_LAST_REFUSE_STALL n).wr R.RCK_LAST_REFUSE_CAUSE cause).bump
    R.RCK_REFUSE_COUNT).irq .rck 0 0

/-- Whether adding `v` would carry counter `c` above 0xFFFF_FFFF (R90). -/
def Dev.wraps (d : Dev) (c v : Nat) : Bool := decide (maxWord < d.ctr c + v)

/-- The loss-scale state of stall `n`. -/
def Dev.lossScale (d : Dev) (n : Nat) : LossScale := d.wn.scales.get (fun _ => LossScale.off) n

/-- `d` with the loss-scale state of stall `n` replaced. -/
def Dev.setLossScale (d : Dev) (n : Nat) (x : LossScale) : Dev :=
  { d with wn := { d.wn with scales := d.wn.scales.set (fun _ => LossScale.off) n x } }

/-- Note for the Steward that stall `n`'s DONE counter has reached LS_STEP + 1: the mailbox entries posted so far belong to
the step (spec/10 R194). -/
def Dev.noteStep (d : Dev) (n : Nat) : Dev :=
  if n ≠ 0 ∧ d.rd (R.WIN_LS_CFG_MODE (n - 1)) ≠ 0 ∧ (d.lossScale n).notice = none ∧
      d.rd (R.WIN_LS_STEP_COUNT (n - 1)) + 1 ≤ d.ctr (d.rd (R.WIN_LS_CTR_DONE (n - 1))) then
    d.setLossScale n { d.lossScale n with notice := some (d.rd R.SFT_MBOX_HEAD) }
  else d

/-- The plain waits on counter `c` that its value meets are met for good: no consume that follows takes the value from
them (R89). -/
def Dev.latchWaits (d : Dev) (c : Nat) : Dev :=
  let hit := fun (w : Waiter) => !w.consume && w.ctr == c && decide (w.amount ≤ d.ctr c) && !d.tn.latched.contains w
  { d with tn := { d.tn with latched := d.tn.latched ++ d.tn.waiters.filter hit } }

/-- Apply a signal that does not wrap: the counter gains `v`, and so does its stall's SIG_TOTAL (R101); the plain waits it
meets are met before any consume is evaluated (R89). -/
def Dev.applySignal (d : Dev) (c v : Nat) : Dev :=
  let n := (d.ctrStall c).getD 0
  (((d.setCtr c (d.ctr c + v)).addTo (R.RCK_SIG_TOTAL n) v).latchWaits c).noteStep n

/-- A signal by stall `n`'s work: applied, or refused in full with a wrap. -/
def Dev.signal (d : Dev) (c v n : Nat) : Dev × Bool :=
  if d.wraps c v then (d.refuseSignal c n refuseWrap, false) else (d.applySignal c v, true)

/-- A consume that is met: the counter loses `v`, and CONS_TOTAL gains it (R101). -/
def Dev.applyConsume (d : Dev) (c v : Nat) : Dev :=
  (d.setCtr c (d.ctr c - v)).addTo (R.RCK_CONS_TOTAL ((d.ctrStall c).getD 0)) v

/-- `d` with the queue of waits and consumes replaced. -/
def Dev.setWaiters (d : Dev) (ws : List Waiter) : Dev :=
  { d with tn := { d.tn with waiters := ws, latched := d.tn.latched.filter ws.contains } }

/-- Put a wait in the queue unless it stands there already (R91); a plain wait is evaluated as it arrives. -/
def Dev.enqueue (d : Dev) (w : Waiter) : Dev :=
  if d.tn.waiters.contains w then d else (d.setWaiters (d.tn.waiters ++ [w])).latchWaits w.ctr

/-- Whether a queued wait is met now: a plain one once its counter has reached its amount, whatever consumes took since;
a consume when the counter holds its amount and no consumer arrived before it on the same counter (R89, R91). A threshold of
zero succeeds at once (R90). -/
def Dev.waitMet (d : Dev) (w : Waiter) : Bool :=
  if w.amount = 0 then true
  else if w.consume then decide (w.amount ≤ d.ctr w.ctr) &&
    (d.tn.waiters.find? (fun x => x.consume && x.ctr == w.ctr)).all (fun x => x == w)
  else d.tn.latched.contains w || decide (w.amount ≤ d.ctr w.ctr)

/-- Take a met wait out of the queue, with its subtraction if it consumes. -/
def Dev.takeWait (d : Dev) (w : Waiter) : Dev :=
  let d' := d.setWaiters (d.tn.waiters.filter (fun x => x != w))
  if w.consume && w.amount != 0 then d'.applyConsume w.ctr w.amount else d'

/-- Drop every queued wait of stall `n` (R103), and the barrier packets its job holds. -/
def Dev.dropWaits (d : Dev) (n : Nat) : Dev :=
  let d := d.setWaiters (d.tn.waiters.filter (fun x => match x.trough with | .batch m _ => m != n | .realtime _ _ => true))
  { d with tn := { d.tn with barriers := d.tn.barriers.filter (fun b => b.1 != n) } }

/-! ## Vectors and event records -/

/-- What the MSI-X table holds before anything writes it: every entry masked, all else zero (PRESUMED from PCI Express;
R412 lays the table out "as PCI Express defines"). -/
def bar4Reset (k : Nat) : Word := if k % 0x2000 < 0x200 ∧ k % 16 = 12 then 1 else 0

/-- A word of a function's BAR4. -/
def Dev.bar4 (d : Dev) (f off : Nat) : Nat := (d.bus.bar4.get bar4Reset (f * 0x2000 + off)).toNat

/-- `d` with a word of a function's BAR4 replaced. -/
def Dev.setBar4 (d : Dev) (f off v : Nat) : Dev :=
  { d with bus := { d.bus with bar4 := d.bus.bar4.set bar4Reset (f * 0x2000 + off) (BitVec.ofNat 32 v) } }

/-- Raise MSI-X vector `v` of stall `n`, or send a NOTIFY packet to the node of a Furrow-bound stall (R84, R297, R412): a
masked vector sets its pending bit instead, and a message has nowhere to go while the function cannot be reached. -/
def Dev.raise (d : Dev) (n v : Nat) : Dev :=
  match d.funcOf n with
  | some f =>
    if (d.bar4 f (16 * v + 12)).testBit 0 then d.setBar4 f 0x1000 (setBit (d.bar4 f 0x1000) v)
    else if !d.hostUp f then d
    else d.emit (.msix f v (d.bar4 f (16 * v) + 2 ^ 32 * d.bar4 f (16 * v + 4)) (d.bar4 f (16 * v + 8)))
  | none =>
    match d.nodeOf n with
    | some node => d.sendPacket 0 (d.packet pkNotify node n n (leBytes 1 v) [])
    | none => d

/-- Source kinds of an event record (R83). -/
abbrev kindTrough : Nat := 0
abbrev kindStream : Nat := 1
abbrev kindJob : Nat := 2
abbrev kindStall : Nat := 3
abbrev kindMark : Nat := 4

/-- The 16 bytes of an event record (R83). -/
def eventBytes (status kind index pos stc : Nat) : List Byte :=
  leBytes 2 status ++ leBytes 1 kind ++ leBytes 1 index ++ leBytes 4 pos ++ leBytes 8 stc

/-- Data-path address of `off` bytes into a ring at `base`, in host memory (LOC 0) or in Silo (LOC 1). -/
def ringAddr (loc : Bool) (base off : Nat) : Nat := if loc then base + off else hostBase + base + off

/-- `d` with one more access that waits for its place (spec/12 R222, R223). -/
def Dev.owe (d : Dev) (o : Owed) : Dev := { d with tn := { d.tn with owed := d.tn.owed ++ [o] } }

/-- `d` with the list of accesses that wait replaced. -/
def Dev.setOwed (d : Dev) (os : List Owed) : Dev := { d with tn := { d.tn with owed := os } }

/-- Whether an access that waits is stall `n`'s. -/
def Owed.ofStall (n : Nat) : Owed → Bool
  | .jobOpen m _ _ | .head m _ _ _ _ | .event m _ _ | .lossScale m => m == n
  | .swap t .. => match t with
    | .batch m _ => m == n
    | .realtime _ _ => false
  | .record _ _ => false
  | .access .. => false

/-- The accesses of stall `n` that wait are given up: its job is gone. -/
def Dev.dropOwed (d : Dev) (n : Nat) : Dev := d.setOwed (d.tn.owed.filter (fun o => !o.ofStall n))

/-- The event records of stall `n` that wait for their place. -/
def Dev.owedEvents (d : Dev) (n : Nat) : Nat :=
  (d.tn.owed.filter (fun o => match o with | .event m _ _ => m == n | _ => false)).length

/-- Records in stall `n`'s ring that its host has not taken. -/
def Dev.ringUsed (d : Dev) (n : Nat) : Nat := (d.rd (R.STL_EV_HEAD n) + 2 ^ 32 - d.rd (R.STL_EV_TAIL n)) % 2 ^ 32

/-- Write the 16 bytes of an event record at EV_HEAD (R83): the device after it, or none while the place is not ready. A place
R225 would fault, or one of a ring in Silo (LOC 1) that does not lie there (R69), discards the record and counts EV_LOST;
vector 0 follows a record that fills an emptied ring unless `quiet` (R84, R394). -/
def Dev.putEvent (d : Dev) (n : Nat) (bs : List Byte) (quiet : Bool) : Option Dev :=
  let head := d.rd (R.STL_EV_HEAD n)
  let loc := d.on (R.STL_EV_CFG_LOC n)
  let a := ringAddr loc (d.rd (R.STL_EV_BASE n) * 4096) (head % 2 ^ d.rd (R.STL_EV_CFG_LOG2SIZE n) * 16)
  if loc && decide (siloBytes < a + 16) then some (d.bump (R.STL_EV_LOST_COUNT n))
  else match d.pathWrite n none a bs with
    | .done _ d' =>
      let d' := d'.wr (R.STL_EV_HEAD n) (head + 1)
      some (if head = d.rd (R.STL_EV_TAIL n) ∧ !quiet then d'.raise n 0 else d')
    | .wait => none
    | .quota => some (d.bump (R.STL_EV_LOST_COUNT n))

/-- An event record for stall `n`'s ring (R83): a full ring discards it and counts EV_LOST, and one whose place is not ready
waits, in order. A status goes to LAST_STATUS too; a MARK's record carries none. A write of EV_BASE or EV_CFG acts from the
next record on (DESIGN CHOICE). -/
def Dev.event (d : Dev) (n status kind index pos : Nat) (quiet : Bool := false) : Dev :=
  let d := if kind = kindMark then d else d.wr (R.STL_LAST_STATUS n) status
  let bs := eventBytes status kind index pos d.stc
  if 2 ^ d.rd (R.STL_EV_CFG_LOG2SIZE n) ≤ d.ringUsed n + d.owedEvents n then d.bump (R.STL_EV_LOST_COUNT n)
  else if d.owedEvents n ≠ 0 then d.owe (.event n bs quiet)
  else (d.putEvent n bs quiet).getD (d.owe (.event n bs quiet))

end Sys2Proof.Machine
end

