-- ==== Sys2Proof/Machine/Hoppers.lean ====
section
/-! DEFINITION. Hopper slots and credits, the Steward mailbox, and the counts handed to Tally (spec/08 R146-R150,
R164-R165, spec/16). -/
namespace Sys2Proof.Machine

/-! ## Counts for Tally -/

/-- The kinds of operation count (spec/16). -/
abbrev cntMac : Nat := 0
abbrev cntElem : Nat := 1
abbrev cntWinb : Nat := 2
abbrev cntErase : Nat := 3

/-- Hand `k` operations of a kind, done for stall `n`, to Tally, which adds them to the account at the next settlement. -/
def Dev.count (d : Dev) (n kind k : Nat) : Dev :=
  let key := n * 4 + kind
  { d with ta := { d.ta with pend := d.ta.pend.set (fun _ => 0) key (d.ta.pend.get (fun _ => 0) key + k) } }

/-! ## Hoppers -/

/-- Hopper `h`. -/
def Dev.hopper (d : Dev) (h : Nat) : Hopper := d.cp.hops.get (fun _ => Hopper.empty) h

/-- `d` with Hopper `h` replaced; its occupancy fields follow its queues (R147). -/
def Dev.setHopper (d : Dev) (h : Nat) (x : Hopper) : Dev :=
  let d := { d with cp := { d.cp with hops := d.cp.hops.set (fun _ => Hopper.empty) h x } }
  ((d.wr (R.HOP_CREDIT_INFLIGHT h) x.inflight.length).wr (R.HOP_CREDIT_RT_OCC h) x.rt.length).wr
    (R.HOP_CREDIT_BATCH_OCC h) x.batch.length

/-- FREE credits of Hopper `h`. -/
def Dev.credits (d : Dev) (h : Nat) : Nat := d.rd (R.HOP_CREDIT_FREE h)

/-- `k` credits return to FREE. -/
def Dev.giveCredits (d : Dev) (h k : Nat) : Dev := d.wr (R.HOP_CREDIT_FREE h) (d.credits h + k)

/-- Whether a foot may take a credit: any free one for realtime work, one above RT_RESERVE for batch (R147). -/
def Dev.creditFree (d : Dev) (h : Nat) (rt : Bool) : Bool :=
  if rt then decide (0 < d.credits h) else decide (d.rd (R.HOP_CFG_RT_RESERVE h) < d.credits h)

/-- A foot takes a credit for strip `s`, which is then in flight; FULL is raised when FREE reaches 0. -/
def Dev.takeCredit (d : Dev) (h : Nat) (s : Strip) : Dev :=
  let x := d.hopper h
  let d := (d.setHopper h { x with inflight := x.inflight ++ [s] }).wr (R.HOP_CREDIT_FREE h) (d.credits h - 1)
  if d.credits h = 0 then d.irq .hop h 0 else d

/-- The oldest strip in flight to Hopper `h` enters its queue. -/
def Dev.enterStrip (d : Dev) (h : Nat) : Dev :=
  let x := d.hopper h
  match x.inflight with
  | [] => d
  | s :: rest =>
    let x := { x with inflight := rest }
    let x := if s.rt.isSome then { x with rt := x.rt ++ [s] } else { x with batch := x.batch ++ [s] }
    (d.setHopper h x).addTo (R.HOP_STRIPS_IN h) 1

/-- Discard from Hopper `h` every strip that satisfies `p`: slots and credits return, and the strips that had entered are
counted in DISCARD (R149). -/
def Dev.discardStrips (d : Dev) (h : Nat) (p : Strip → Bool) : Dev :=
  let x := d.hopper h
  let gone := (x.rt.filter p).length + (x.batch.filter p).length
  let y : Hopper := ⟨x.inflight.filter (fun s => !p s), x.rt.filter (fun s => !p s), x.batch.filter (fun s => !p s)⟩
  ((d.setHopper h y).giveCredits h (gone + (x.inflight.filter p).length)).addTo (R.HOP_DISCARD h) gone

/-- The four Hoppers, and the four sifters. -/
def fourUnits : List Nat := [0, 1, 2, 3]

/-- Sifter `k`. -/
def Dev.sifter (d : Dev) (k : Nat) : Sifter := d.cp.sifts.get (fun _ => Sifter.idle) k

/-- SFT.STAT.MODE of a SIFT: lane 1, chain 2, tine 3 (Table 08-9). -/
def SiftRun.modeCode (x : SiftRun) : Nat := Machine.bits x.bits.toNat 128 2 + 1

/-- Whether a SIFT is realtime. -/
def SiftRun.rt (x : SiftRun) : Bool := x.trough.rt.isSome

/-- `d` with sifter `k` replaced; SFT.STAT follows it (Table 08-9). -/
def Dev.setSifter (d : Dev) (k : Nat) (x : Sifter) : Dev :=
  let d := { d with cp := { d.cp with sifts := d.cp.sifts.set (fun _ => Sifter.idle) k x } }
  let d := (d.wr (R.SFT_STAT_SAVED k) (b2n x.saved.isSome)).wr (R.SFT_STAT_PARKED k) x.parked.length
  match x.cur with
  | some r => ((d.wr (R.SFT_STAT_MODE k) r.modeCode).wr (R.SFT_STAT_RT k) (b2n r.rt)).wr (R.SFT_STAT_STALL k) r.stall
  | none => ((d.wr (R.SFT_STAT_MODE k) 0).wr (R.SFT_STAT_RT k) 0).wr (R.SFT_STAT_STALL k) 0

/-- Drop from every sifter the SIFTs that satisfy `p`, without writing anything (R167). -/
def Dev.dropSifts (d : Dev) (p : TroughId → Bool) : Dev :=
  let keep := fun (r : SiftRun) => !p r.trough
  fourUnits.foldl (fun d k =>
    let x := d.sifter k
    d.setSifter k ⟨x.cur.filter keep, x.saved.filter keep, x.parked.filter keep, x.ended.filter keep⟩) d

/-! ## The Steward mailbox (R165) -/

/-- Entries between MBOX_TAIL and MBOX_HEAD. -/
def Dev.mboxUsed (d : Dev) : Nat := (d.rd R.SFT_MBOX_HEAD + 2 ^ 32 - d.rd R.SFT_MBOX_TAIL) % 2 ^ 32

/-- Whether the mailbox holds 64 entries. -/
def Dev.mboxFull (d : Dev) : Bool := decide (64 ≤ d.mboxUsed)

/-- Write an entry of four words at MBOX_HEAD; MBOX is raised in SFT[0] when the mailbox had been empty (R165, R171). -/
def Dev.mboxPut (d : Dev) (w0 w1 w2 w3 : Nat) : Dev :=
  let e := d.rd R.SFT_MBOX_HEAD % 64 * 4
  let empty := d.mboxUsed = 0
  let d := (((d.wr (R.SFT_MBOX e) w0).wr (R.SFT_MBOX (e + 1)) w1).wr (R.SFT_MBOX (e + 2)) w2).wr (R.SFT_MBOX (e + 3)) w3
  let d := d.wr R.SFT_MBOX_HEAD (d.rd R.SFT_MBOX_HEAD + 1)
  if empty then d.irq .sft 0 0 else d

/-- The first word of a mailbox entry (R165). -/
def mboxWord (kind sifter stall fmt rt id : Nat) : Nat :=
  kind + sifter <<< 4 + stall <<< 6 + fmt <<< 10 + rt <<< 11 + id <<< 16

/-- Post an entry that is dropped and counted when the mailbox is full: a SAT, or a realtime summary (R165). -/
def Dev.mboxPostOrLose (d : Dev) (w0 w1 w2 w3 : Nat) : Dev :=
  if d.mboxFull then d.bump R.SFT_MBOX_LOST_COUNT else d.mboxPut w0 w1 w2 w3

end Sys2Proof.Machine
end

