-- ==== Sys2Proof/Machine/Gangs.lean ====
section
/-! DEFINITION. Gangs of bays, the TILE body and its checks, and the exact arithmetic of a pass (spec/06 R106-R125,
spec/07 R129-R136). -/
namespace Sys2Proof.Machine

/-! ## Gangs (R106, R107) -/

/-- Bay rows and bay columns of a shape code (Table 06-1). -/
def shapeDim : Nat → Nat × Nat
  | 1 => (1, 1) | 2 => (1, 2) | 3 => (2, 2) | 4 => (2, 4) | 5 => (4, 4) | _ => (0, 0)

/-- Bays in a shape. -/
def shapeBays (shape : Nat) : Nat := (shapeDim shape).1 * (shapeDim shape).2

/-- Whether a shape and its lowest bay form a set of Table 06-1. -/
def gangOk (shape leader : Nat) : Bool :=
  shapeBays shape != 0 && leader % shapeBays shape == 0 && decide (leader + shapeBays shape ≤ 16)

/-- The bays of a gang. -/
def gangBays (shape leader : Nat) : List Nat := (List.range (shapeBays shape)).map (leader + ·)

/-- Row and column of bay `b` in the 4 × 4 grid (R106). -/
def bayRow (b : Nat) : Nat := 2 * (b / 8) + (b % 4) / 2
def bayCol (b : Nat) : Nat := 2 * ((b / 4) % 2) + b % 2

/-- The bay at gang row `r`, gang column `c` of bays. -/
def gangBay (shape leader r c : Nat) : Nat :=
  ((gangBays shape leader).find? (fun b => bayRow b == bayRow leader + r && bayCol b == bayCol leader + c)).getD leader

/-- Whether two lists of bays meet. -/
def overlap (xs ys : List Nat) : Bool := xs.any (fun x => ys.contains x)

/-! ## The TILE body (Table 07-1) -/

/-- A TILE's fields, with the coded ones decoded: T taps, dilation D, M, N, K. -/
structure Tile where
  mode : Nat
  wp : Nat
  ap : Nat
  red : Nat
  ewop : Nat
  taps : Nat
  dil : Nat
  hist : Nat
  shape : Nat
  leader : Nat
  any : Bool
  hop : Nat
  m : Nat
  n : Nat
  k : Nat
  aBase : Nat
  aStride : Nat
  wBase : Nat
  saveBase : Nat
  reserved : Nat
  deriving DecidableEq, Repr

/-- The TILE body in a descriptor's bits. -/
def Tile.of (b : DescWord) : Tile :=
  let f := Machine.bits b.toNat
  { mode := f 128 3, wp := f 131 2, ap := f 133 1, red := f 134 2, ewop := f 136 3, taps := f 139 4 + 1
    dil := 2 ^ f 143 2, hist := f 145 4, shape := f 149 3, leader := f 152 4, any := f 156 1 == 1, hop := f 157 2
    m := f 160 16 + 1, n := f 176 16 + 1, k := f 192 16 + 1, aBase := f 224 64, aStride := f 288 32
    wBase := f 320 64, saveBase := f 384 64, reserved := f 159 1 + f 208 16 + f 448 64 }

/-- Weight and activation precision in bits, and the activation size e in bytes. -/
def Tile.pw (x : Tile) : Nat := 4 * 2 ^ x.wp
def Tile.pa (x : Tile) : Nat := 8 * 2 ^ x.ap
def Tile.e (x : Tile) : Nat := x.pa / 8

/-- Cells of the gang: R_g rows and C_g columns. -/
def Tile.rg (x : Tile) : Nat := 128 * (shapeDim x.shape).1
def Tile.cg (x : Tile) : Nat := 128 * (shapeDim x.shape).2

/-- The vector time c (Table 06-2). -/
def Tile.c (x : Tile) : Nat :=
  match x.mode with
  | 0 | 1 => x.taps * (x.pw / 2) * (x.pa / 8)
  | 2 => x.pw / 2
  | 3 => 8
  | _ => 1

/-- Inputs and outputs of a piece (Table 07-2). -/
def Tile.kp (x : Tile) : Nat := if x.mode = 4 then 128 else if x.mode = 1 then x.cg else x.rg
def Tile.np (x : Tile) : Nat := if x.mode = 1 then x.rg else x.cg

/-- VR: the most result rows of a fold. -/
def Tile.vr (x : Tile) : Nat :=
  let u := 2048 / x.c - x.hist
  if 16 ≤ u then min 256 (16 * (u / 16)) else u

/-- Fold counts. -/
def Tile.kf (x : Tile) : Nat := ceilDiv x.k x.kp
def Tile.nf (x : Tile) : Nat := if x.mode = 4 then 1 else ceilDiv x.n x.np
def Tile.mf (x : Tile) : Nat := ceilDiv x.m x.vr
def Tile.folds (x : Tile) : Nat := x.nf * x.mf * x.kf

/-- Result rows and vectors of the folds of run `mf`. -/
def Tile.rows (x : Tile) (mf : Nat) : Nat := min x.vr (x.m - mf * x.vr)
def Tile.vectors (x : Tile) (mf : Nat) : Nat := x.rows mf + x.hist

/-- Bytes of a cell image and of an image block (R135), and the front's cycles per bay row g (R118). -/
def Tile.bc (x : Tile) : Nat := ceilDiv (x.taps * x.pw) 8
def Tile.block (x : Tile) : Nat := x.rg * x.cg * x.bc
def Tile.g (x : Tile) : Nat := 2 * ceilDiv (x.taps * x.pw) 16

/-- Address of the image block of a fold (R133, R135). -/
def Tile.blockAddr (x : Tile) (nf kf : Nat) : Nat :=
  if x.mode = 1 then x.wBase + (kf * x.nf + nf) * x.block else x.wBase + (nf * x.kf + kf) * x.block

/-- Whether a mode, its precisions, taps, dilation, reduction and operation are allowed (R111, R112, R124, R125). -/
def Tile.modeOk (x : Tile) : Bool :=
  (match x.mode with
    | 0 | 1 => decide (x.wp ≤ 2 ∧ x.red = 0)
    | 2 => decide (x.wp ≤ 1 ∧ x.ap = 0 ∧ x.taps = 1 ∧ x.red ≤ 2)
    | 3 => decide (x.wp = 1 ∧ x.ap = 0 ∧ x.taps = 1 ∧ x.red ≤ 2)
    | 4 => decide (x.wp = 1 ∧ x.ap = 0 ∧ x.taps = 1 ∧ x.red = 0 ∧ x.ewop ≤ 5 ∧ x.shape ≤ 2)
    | _ => false) && decide ((x.taps - 1) * x.dil + 1 ≤ 16)

/-- The checks of R130 that fault with DESC; `batch` is whether the TILE stands in a batch trough. -/
def Tile.wellFormed (x : Tile) (batch : Bool) : Bool :=
  x.reserved == 0 && x.modeOk && (decide (x.mode < 2) || x.hist == 0) && gangOk x.shape x.leader &&
    x.aBase % 64 == 0 && x.wBase % 64 == 0 && x.aStride % x.e == 0 && decide (x.k * x.e ≤ x.aStride) &&
    x.saveBase % 4096 == 0 && decide (1 ≤ x.vr) &&
    (x.mode != 4 || x.n * 128 == x.k * x.cg) && (!batch || decide (x.kf ≤ 1) || x.saveBase != 0)

/-- Whether all the bytes a TILE names may be used by its trough (R130). -/
def Dev.tileSpans (d : Dev) (t : TroughId) (x : Tile) : Bool :=
  (List.range (x.m + x.hist)).all (fun u => d.mayUse t (x.aBase + u * x.aStride) (x.k * x.e)) &&
    d.mayUse t x.wBase ((if x.mode = 4 then x.kf else x.nf * x.kf) * x.block) &&
    (x.saveBase == 0 || d.mayUse t x.saveBase (x.np * 1056))

/-! ## The arithmetic of a pass -/

/-- Tap `r` of a cell image: its weight, sign-extended (R135). -/
def Tile.tap (x : Tile) (image r : Nat) : Int := toSigned x.pw (Machine.bits image (r * x.pw) x.pw)

/-- Read element (`v`, `i`) of a fold's vectors, zero outside. -/
def actAt (acts : Array (Array Int)) (v i : Nat) : Int := (acts.getD v #[]).getD i 0

/-- The sum of `f` over the numbers below `n`. -/
def sumTo (n : Nat) (f : Nat → Int) : Int := (List.range n).foldl (fun s i => s + f i) 0

/-- The product a cell adds for vector `v`: tap `r` of the image against the activation `r × D` vectors earlier (R112), or
in reversed mode `(T - 1 - r) × D` (R122); the delay line holds zero at the start of the pass. -/
def Tile.cell (x : Tile) (acts : Array (Array Int)) (v i image : Nat) : Int :=
  sumTo x.taps (fun r =>
    let back := (if x.mode = 1 then x.taps - 1 - r else r) * x.dil
    if back ≤ v then x.tap image r * actAt acts (v - back) i else 0)

/-- The value of a distance cell (R123). -/
def Tile.dist (x : Tile) (a w : Int) : Nat := if x.mode = 2 then (a - w).natAbs else ((a - w) * (a - w)).toNat

/-- An element-wise operation (R125). -/
def ewise (op : Nat) (a w : Int) : Int :=
  match op with
  | 0 => a * w | 1 => a + w | 2 => a - w | 3 => min a w | 4 => max a w | _ => ((a - w).natAbs : Int)

/-- A result word of a min or max: value in bits [15:0], index in [31:16] (R124). -/
def bestWord (v k : Nat) : Int := toSigned 32 (v % 65536 + (k % 65536) * 65536)

/-- Keep the better of two result words; on a tie the first stays (R124). -/
def better (red : Nat) (a b : Int) : Int :=
  let va := ofSigned 32 a % 65536
  let vb := ofSigned 32 b % 65536
  if red = 1 then (if vb < va then b else a) else (if va < vb then b else a)

/-- What reaches the foot of output line `j` for vector `v` of a fold: the column sum of modes 0 and 4, the row sum of mode
1, or the reduction of the distances (R112, R121, R124, R125). The sum is exact: where it does not fit 40 bits, as one of INT16
products with many taps may not, R114 calls the path both 40-bit and exact, and the model keeps it exact (DESIGN CHOICE). -/
def Tile.line (x : Tile) (acts : Array (Array Int)) (img : Array Nat) (kf v j : Nat) : Int :=
  let w := fun (i c : Nat) => img.getD (i * x.cg + c) 0
  match x.mode with
  | 0 => sumTo x.rg (fun i => x.cell acts v i (w i j))
  | 1 => sumTo x.cg (fun c => x.cell acts v c (w j c))
  | 4 => ewise x.ewop (actAt acts v (j % 128)) (x.tap (w (j % 128) j) 0)
  | _ =>
    let val := fun i => x.dist (actAt acts v i) (x.tap (w i j) 0)
    if x.red = 0 then sumTo x.rg (fun i => (val i : Int))
    else
      let live := (List.range x.rg).filter (fun i => decide (kf * x.kp + i < x.k))
      match live with
      | [] => 0
      | i :: is => is.foldl (fun b i => better x.red b (bestWord (val i) (kf * x.kp + i))) (bestWord (val i) (kf * x.kp + i))

/-- Clamp to INT32, telling whether it clamped. -/
def clamp32 (v : Int) : Int × Bool := let c := clampSigned 32 v; (c, decide (c ≠ v))

/-- The foot takes a column sum into an accumulator entry (R114): stored on the first fold of a group, added on a later
one, saturating and sticky; a running best is compared instead (R124). -/
def Tile.foot (x : Tile) (first : Bool) (old : Int × Bool) (v : Int) : Int × Bool :=
  if x.red ≠ 0 then (if first then (v, false) else (better x.red old.1 v, false))
  else if first then clamp32 v
  else if old.2 then old
  else clamp32 (old.1 + v)

/-- One fold into the accumulator file: per output line, per result row. The first `hist` results are discarded (R134). -/
def Tile.fold (x : Tile) (acts : Array (Array Int)) (img : Array Nat) (mf kf : Nat) (first : Bool)
    (acc : List (List (Int × Bool))) : List (List (Int × Bool)) :=
  (List.range x.np).map (fun j =>
    let old := (acc.getD j []).toArray
    (List.range (x.rows mf)).map (fun r =>
      x.foot first (old.getD r (0, false)) (x.line acts img kf (r + x.hist) j)))

/-- How many entries of a line clamped in a fold: those whose sticky bit is new. -/
def clamps (old new : List (Int × Bool)) : Nat :=
  ((List.range new.length).filter (fun r => (new.getD r (0, false)).2 && !(old.getD r (0, false)).2)).length

/-- The strips of a group (R115, R136): 16 result rows at a time, by ascending bay column (bay row in mode 1); lines at or
beyond N are zero, and a bay column wholly beyond N emits none. -/
def Tile.strips (x : Tile) (acc : List (List (Int × Bool))) (nf mf kf stall : Nat) (rt : Option (Nat × Bool))
    (tag leader : Nat) : List Strip :=
  let base := if x.mode = 4 then kf * x.cg else nf * x.np
  let lines := (acc.map List.toArray).toArray
  (List.range (ceilDiv (x.rows mf) 16)).flatMap (fun s =>
    ((List.range (x.np / 128)).filter (fun b => decide (base + b * 128 < x.n))).map (fun b =>
      let col0 := base + b * 128
      let row0 := mf * x.vr + 16 * s
      { stall := stall, rt := rt, tag := tag, rowBase := row0, rows := min 16 (x.m - row0), colBase := col0
        cols := min 128 (x.n - col0), src := leader
        data := (List.range 2048).map (fun q =>
          let r := q / 128
          let c := q % 128
          if 16 * s + r < x.rows mf ∧ col0 + c < x.n then ((lines.getD (b * 128 + c) #[]).getD (16 * s + r) (0, false)).1
          else 0) }))

end Sys2Proof.Machine
end

