-- ==== Sys2Proof/Machine/Bays.lean ====
section
/-! DEFINITION. The bay sequencer's runs and the registers that show them, and stopping a TILE (spec/06 R128, spec/07
R139-R145). -/
namespace Sys2Proof.Machine

/-- `d` with the bay sequencer's work replaced. -/
def Dev.setThr (d : Dev) (x : Thresher) : Dev := { d with cp := { d.cp with thr := x } }

/-- The body, the gang and the trough of a run. -/
def TileRun.tile (r : TileRun) : Tile := Tile.of r.bits
def TileRun.bays (r : TileRun) : List Nat := gangBays r.shape r.leader
def TileRun.tag (r : TileRun) : Nat := Machine.bits r.bits.toNat 16 16

/-- The stream and standby flag of a realtime trough. -/
def TroughId.rtKey : TroughId → Option (Nat × Bool)
  | .batch _ _ => none
  | .realtime s b => some (s, b)

/-- The number a trough shows in a context: its trough number, 0 for a realtime trough. -/
def TroughId.num : TroughId → Nat
  | .batch _ t => t
  | .realtime _ _ => 0

/-- Whether the group holds accumulated folds. -/
def TileRun.partially (r : TileRun) : Bool := r.kf != 0 && r.tile.mode != 4

/-- The run on the gang whose lowest bay is `leader`. -/
def Dev.runAt (d : Dev) (leader : Nat) : Option TileRun := d.cp.thr.runs.find? (fun r => r.leader == leader)

/-- The run that holds bay `b`. -/
def Dev.runOn (d : Dev) (b : Nat) : Option TileRun := d.cp.thr.runs.find? (fun r => r.bays.contains b)

/-- `f` applied for each bay of a list. -/
def Dev.eachBay (d : Dev) (bs : List Nat) (f : Nat → Dev → Dev) : Dev := bs.foldl (fun d b => f b d) d

/-- The words a run shows: PROG_CTX with a state code, PROG_POS, PROG_NM, PROG_K (Table 07-3). -/
def TileRun.ctxWord (r : TileRun) (st : Nat) : Nat :=
  st + b2n r.trough.rt.isSome * 4 + r.stall * 8 + r.trough.num * 128 + r.tag * 65536
def TileRun.nmWord (r : TileRun) : Nat := r.nf + r.mf * 65536
def TileRun.kWord (r : TileRun) : Nat := r.kf + b2n r.partially * 65536

/-- FOLDS_TOTAL (Table 07-3): NF × MF × KF, or KF in mode 4. -/
def Tile.total (x : Tile) : Nat := if x.mode = 4 then x.kf else x.folds

/-- PROG_CTX.STATE of a run on its gang. -/
def TileRun.state (r : TileRun) : Nat := if r.yielding then 2 else 1

/-- Show a run's progress on every bay of its gang, with state code `st` (Table 07-3). -/
def Dev.showAs (d : Dev) (r : TileRun) (st : Nat) : Dev :=
  d.eachBay r.bays (fun b d =>
    let d := ((d.setWord (A.THR_PROG_CTX b) (r.ctxWord st)).setWord (A.THR_PROG_POS b) r.pos)
    let d := (d.setWord (A.THR_PROG_NM b) r.nmWord).setWord (A.THR_PROG_K b) r.kWord
    (d.wr (R.THR_FOLDS_DONE b) r.folds).wr (R.THR_FOLDS_TOTAL b) r.tile.total)

/-- Show a run's progress on every bay of its gang. -/
def Dev.showRun (d : Dev) (r : TileRun) : Dev := d.showAs r r.state

/-- Replace the run on `r`'s gang by `r`, and show it. -/
def Dev.setRun (d : Dev) (r : TileRun) : Dev :=
  (d.setThr { d.cp.thr with runs := d.cp.thr.runs.map (fun x => if x.leader = r.leader then r else x) }).showRun r

/-- A gang takes up run `r`: its mode, its shape and its context show. -/
def Dev.placeRun (d : Dev) (r : TileRun) : Dev :=
  let x := r.tile
  let d := d.setThr { d.cp.thr with runs := d.cp.thr.runs ++ [r] }
  let mode := x.mode + x.wp * 8 + x.ap * 32 + x.red * 256 + x.ewop * 1024 + (x.taps - 1) * 65536 +
    Machine.bits r.bits.toNat 143 2 * 2 ^ 20
  (d.eachBay r.bays (fun b d =>
    ((d.setWord (A.THR_CUR_MODE b) mode).wr (R.THR_GANG_SHAPE b) r.shape).wr (R.THR_GANG_LEADER b) r.leader)).showRun r

/-! ## Which gang a TILE may take (R131, R139) -/

/-- Whether a bay may serve a TILE of trough `t`: unpinned for a batch TILE, pinned to its stream and set for a realtime
one; enabled for batch work, and switched on. -/
def Dev.bayServes (d : Dev) (t : TroughId) (b : Nat) : Bool :=
  d.domOn b &&
    (match t with
      | .batch _ _ => d.domEn b && !d.on (R.THR_GANG_PINNED b)
      | .realtime s sb => d.on (R.THR_GANG_PINNED b) && d.rd (R.THR_GANG_STREAM b) == s &&
          d.on (R.THR_GANG_STANDBY b) == sb)

/-- Whether the bays of a set all serve `t` and run no TILE. -/
def Dev.setFree (d : Dev) (t : TroughId) (bs : List Nat) : Bool :=
  bs.all (fun b => d.bayServes t b && (d.runOn b).isNone)

/-- The lowest bay of the set a TILE takes now: its named set, or with ANY the lowest set of its shape within the job's
bays. -/
def Dev.pickGang (d : Dev) (t : TroughId) (x : Tile) : Option Nat :=
  if x.any then
    (List.range 16).find? (fun l => gangOk x.shape l &&
      (gangBays x.shape l).all (fun b => (d.job (d.stallOf t)).decl.bays.testBit b) && d.setFree t (gangBays x.shape l))
  else if d.setFree t (gangBays x.shape x.leader) then some x.leader
  else none

/-- A TILE that waits for a gang: a started descriptor the sequencer holds, or a yielded run. -/
structure Waiting where
  trough : TroughId
  pos : Nat
  order : Nat
  tile : Tile
  deriving DecidableEq, Repr

/-- Every waiting TILE. -/
def Dev.waitingTiles (d : Dev) : List Waiting :=
  (d.tn.live.filter (fun x => x.opcode == 1 && decide (x.phase = .working) &&
      !(d.cp.thr.runs ++ d.cp.thr.yielded).any (fun r => r.trough == x.trough && r.pos == x.pos))).map
    (fun x => ⟨x.trough, x.pos, x.order, Tile.of x.bits⟩) ++
  d.cp.thr.yielded.map (fun r => ⟨r.trough, r.pos, r.order, r.tile⟩)

/-! ## Phases of a gang (R116, R117) -/

/-- N, the ramp length of a gang: the longest of its bays' RAMP_CFG.LEN. -/
def Dev.rampLen (d : Dev) (bs : List Nat) : Nat := (bs.map (fun b => 16 * (d.rd (R.THR_RAMP_CFG_LEN b) + 1))).foldl max 16

/-- Add busy cycles to every bay of a gang. -/
def Dev.busy (d : Dev) (bs : List Nat) (k : Nat) : Dev := d.eachBay bs (fun b d => d.addTo (R.THR_BUSY_CYC b) k)

/-- Whether a waiting TILE's pass is queued for the gang of bays `bs`: it names that gang, or with ANY it would take it now. -/
def Dev.queuedFor (d : Dev) (bs : List Nat) (w : Waiting) : Bool :=
  (w.trough.rt.isSome || !d.paused) &&
    (if w.tile.any then (d.pickGang w.trough w.tile).any (fun l => gangBays w.tile.shape l == bs)
      else gangBays w.tile.shape w.tile.leader == bs && bs.all (d.bayServes w.trough))

/-- The bays of a gang begin to ramp down together (R116). -/
def Dev.rampDown (d : Dev) (bs : List Nat) : Dev :=
  let d := d.eachBay bs (fun b d => d.wr (R.THR_ACT_STAT_PHASE b) 3)
  if d.cp.thr.falling.contains bs then d else d.setThr { d.cp.thr with falling := d.cp.thr.falling ++ [bs] }

/-- Gangs that stay at full activity ramp down, after their drain, once no pass is queued for them; a TILE of a trough that
satisfies `gone` is queued no more. -/
def Dev.settleGangs (d : Dev) (gone : TroughId → Bool := fun _ => false) : Dev :=
  let stay := fun (g : List Nat × Nat) => d.waitingTiles.any (fun w => !gone w.trough && d.queuedFor g.1 w)
  let leave := d.cp.thr.warm.filter (fun g => !stay g)
  leave.foldl (fun d g => (d.busy g.1 g.2).rampDown g.1) (d.setThr { d.cp.thr with warm := d.cp.thr.warm.filter stay })

/-- The gang of run `r` loses it and no context shows: a gang at full activity stays so, its drain of `drain` cycles going on,
until `Dev.settleGangs` finds no pass queued for it; one that still ramps up turns round. -/
def Dev.clearRun (d : Dev) (r : TileRun) (drain : Nat) : Dev :=
  let d := d.setThr { d.cp.thr with runs := d.cp.thr.runs.filter (fun x => x.leader != r.leader) }
  let d := d.eachBay r.bays (fun b d =>
    let d := (((d.setWords (A.THR_PROG_CTX b) 4 0).setWords (A.THR_FOLDS_DONE b) 4 0).wr (R.THR_ACT_STAT_FRONT b) 0).wr
      (R.THR_ACT_STAT_HELD b) 0
    (d.wr (R.THR_GANG_SHAPE b) 0).wr (R.THR_GANG_LEADER b) 0)
  match d.rd (R.THR_ACT_STAT_PHASE r.leader) with
  | 0 => d
  | 2 => d.setThr { d.cp.thr with warm := d.cp.thr.warm ++ [(r.bays, drain)] }
  | _ => d.rampDown r.bays

/-- The 32 yield slots. -/
def yieldSlots : List Nat := List.range 32

/-- Whether yield slot `s` is free. -/
def Dev.slotFree (d : Dev) (s : Nat) : Bool := d.cp.thr.yielded.all (fun r => r.slot != some s)

/-- Show the slot of a yielded run (Table 07-3). -/
def Dev.showSlot (d : Dev) (s : Nat) (r : TileRun) : Dev :=
  let d := ((d.wr (R.THR_SLOT_CTX s) (r.ctxWord (b2n (!r.spilling)))).wr (R.THR_SLOT_POS s) r.pos)
  let d := (d.wr (R.THR_SLOT_NM s) r.nmWord).wr (R.THR_SLOT_K s) r.kWord
  (d.wr (R.THR_SLOT_DONE s) r.folds).wr (R.THR_SLOT_GANG s) (r.leader + 16 * r.shape)

/-- Free yield slot `s`. -/
def Dev.freeSlot (d : Dev) (s : Nat) : Dev := d.setWords (A.THR_SLOT_CTX s) 7 0

/-- The bays of a gang whose spill ends show no context any more, those apart that a run has taken. -/
def Dev.hideSpill (d : Dev) (r : TileRun) : Dev :=
  d.eachBay r.bays (fun b d =>
    if (d.runOn b).isSome then d else (d.setWords (A.THR_PROG_CTX b) 4 0).setWords (A.THR_FOLDS_DONE b) 4 0)

/-- Stop at once every TILE that satisfies `p`: running ones leave their gangs, yielded ones their slots, with no spill
(R140). -/
def Dev.stopTiles (d : Dev) (p : TroughId → Bool) : Dev :=
  let d := (d.cp.thr.runs.filter (fun r => p r.trough)).foldl (fun d r => d.clearRun r 0) d
  let gone := d.cp.thr.yielded.filter (fun r => p r.trough)
  let d := gone.foldl (fun d r =>
    let d := if r.spilling then d.hideSpill r else d
    match r.slot with
    | some s => d.freeSlot s
    | none => d) d
  (d.setThr { d.cp.thr with yielded := d.cp.thr.yielded.filter (fun r => !p r.trough) }).settleGangs p

/-- Whether bay `b` is idle: it runs no TILE, spills none, and does not ramp (R20). -/
def Dev.bayIdle (d : Dev) (b : Nat) : Bool :=
  (d.runOn b).isNone && d.cp.thr.yielded.all (fun r => !(r.spilling && r.bays.contains b)) &&
    d.rd (R.THR_ACT_STAT_PHASE b) == 0

/-- Pinned bays that their stream no longer holds become batch bays as soon as they are idle (R20): a stream holds the bays
of its two sets while it is enabled or its last boundary is still to come. -/
def Dev.freePins (d : Dev) : Dev :=
  (List.range 16).foldl (fun d b =>
    let s := d.rd (R.THR_GANG_STREAM b)
    let holds := (d.on (R.SEQ_STRM_CFG_EN s) || (d.stream s).stopping == 1) &&
      ((d.rd (R.SEQ_STRM_BAYS_PINNED s)).testBit b || (d.rd (R.SEQ_STRM_BAYS_STANDBY s)).testBit b)
    if d.on (R.THR_GANG_PINNED b) && !holds && d.bayIdle b then
      ((d.wr (R.THR_GANG_PINNED b) 0).wr (R.THR_GANG_STREAM b) 0).wr (R.THR_GANG_STANDBY b) 0
    else d) d

/-- PAUSED follows the two causes; gangs that waited at full activity for batch work ramp down in a pause, and the ports send
on after one. -/
def Dev.setPause (d : Dev) : Dev :=
  let d := d.wr R.THR_BATCH_CTL_PAUSED (b2n (d.on R.THR_BATCH_CTL_CAUSE_STEWARD || d.on R.THR_BATCH_CTL_CAUSE_THERMAL))
  (furPorts.foldl Dev.pumpAll d).settleGangs

/-- Request a yield of run `r` (R140, R141): dropped when the fold in progress is the TILE's last. -/
def Dev.askYield (d : Dev) (r : TileRun) : Dev :=
  let begun := r.ramped && r.loaded
  if r.trough.rt.isSome ∨ r.tile.folds ≤ r.folds ∨ (begun ∧ r.folds + 1 = r.tile.folds) then d
  else d.setRun { r with yielding := true }

/-- Request a yield of every batch TILE that runs. -/
def Dev.yieldAll (d : Dev) : Dev := d.cp.thr.runs.foldl Dev.askYield d

end Sys2Proof.Machine
end

