-- ==== Sys2Proof/Machine/Units.lean ====
section
/-! DEFINITION. The other units' registers, and stopping a unit's work (spec/12 R230, spec/10 R203, spec/14 R273). -/
namespace Sys2Proof.Machine

/-! ## Turner channels (Table 12-7) -/

/-- Turner channel `c`. -/
def Dev.channel (d : Dev) (c : Nat) : Channel := d.tr.get (fun _ => Channel.idle) c

/-- `d` with Turner channel `c` replaced; CH_STAT.STATE and RT follow it. -/
def Dev.setChannel (d : Dev) (c : Nat) (x : Channel) : Dev :=
  let d := { d with tr := d.tr.set (fun _ => Channel.idle) c x }
  (d.wr (R.TRN_CH_STAT_STATE c) (if x.cur.isSome then 1 else if x.held.isSome then 2 else 0)).wr (R.TRN_CH_STAT_RT c)
    (b2n (match x.cur with | some (t, _) => t.rt.isSome | none => false))

/-- The four channels. -/
def channels : List Nat := [0, 1, 2, 3]

/-- Stop every MOVE whose trough satisfies `p`; nothing is kept (R230). -/
def Dev.stopMoves (d : Dev) (p : TroughId → Bool) : Dev :=
  channels.foldl (fun d c =>
    let x := d.channel c
    d.setChannel c ⟨x.cur.filter (fun m => !p m.1), x.held.filter (fun m => !p m.1)⟩) d

/-! ## Winnow (Table 10-7) -/

/-- `d` with Winnow's work replaced; STAT.BUSY follows it. -/
def Dev.setWin (d : Dev) (x : Option WinRun) : Dev :=
  ({ d with wn := { d.wn with win := x } }).wr R.WIN_STAT_BUSY (b2n x.isSome)

/-- Stop a WINNOW whose trough satisfies `p`. -/
def Dev.stopWinnow (d : Dev) (p : TroughId → Bool) : Dev := d.setWin (d.wn.win.filter (fun r => !p r.trough))

/-! ## The Baler (Table 14-8) -/

/-- `d` with the encoder's work replaced; STAT.BUSY and STALL follow it. -/
def Dev.setBale (d : Dev) (x : Option BaleRun) : Dev :=
  ({ d with ba := { d.ba with bale := x } }).wr R.BAL_STAT_BUSY (b2n x.isSome)

/-- Receive path `k`. -/
def Dev.path (d : Dev) (k : Nat) : Option PathRun := d.ba.paths.get (fun _ => none) k

/-- `d` with receive path `k` replaced; STAT.PATHS follows it. -/
def Dev.setPath (d : Dev) (k : Nat) (x : Option PathRun) : Dev :=
  let d := { d with ba := { d.ba with paths := d.ba.paths.set (fun _ => none) k x } }
  if x.isSome then d.setBitOf R.BAL_STAT_PATHS k else d.clrBitOf R.BAL_STAT_PATHS k

/-- The seven receive paths. -/
def rxPaths : List Nat := [0, 1, 2, 3, 4, 5, 6]

/-- Stop a BALE and the UNBALEs whose trough satisfies `p` (R273). -/
def Dev.stopBaler (d : Dev) (p : TroughId → Bool) : Dev :=
  let d := d.setBale (d.ba.bale.filter (fun r => !p r.trough))
  rxPaths.foldl (fun d k => d.setPath k ((d.path k).filter (fun r => !p r.trough))) d

/-! ## All units -/

/-- Stop at once everything the troughs that satisfy `p` have under way, and discard the strips that satisfy `q`. -/
def Dev.stopWork (d : Dev) (p : TroughId → Bool) (q : Strip → Bool) : Dev :=
  let d := (((d.stopTiles p).stopMoves p).stopWinnow p).stopBaler p
  fourUnits.foldl (fun d h => d.discardStrips h q) (d.dropSifts p)

/-- Whether a trough is a batch trough of stall `n`, and whether a strip is its batch work. -/
def TroughId.batchOf (t : TroughId) (n : Nat) : Bool := match t with | .batch m _ => m == n | .realtime _ _ => false
def Strip.batchOf (s : Strip) (n : Nat) : Bool := s.stall == n && s.rt.isNone

/-- Whether a strip comes from the realtime trough `s`, live or standby. -/
def Strip.realtimeOf (x : Strip) (s : Nat) (b : Bool) : Bool := x.rt == some (s, b)

end Sys2Proof.Machine
end

