-- ==== Sys2Proof/Machine/Faults.lean ====
section
/-! DEFINITION. Status codes, the job fault procedure and the return of a job's counters (spec/19 R388-R395, spec/05
R101, R103). -/
namespace Sys2Proof.Machine

/-! ## Status codes (Table 19-2) -/

abbrev stOk : Nat := 0x0000
abbrev stEpoch : Nat := 0x0001
abbrev stDisabled : Nat := 0x0002
abbrev stQuota : Nat := 0x0003
abbrev stWrap : Nat := 0x0010
abbrev stDesc : Nat := 0x0011
abbrev stEcc : Nat := 0x0020
abbrev stLink : Nat := 0x0021
abbrev stBalechk : Nat := 0x0022
abbrev stDeadline : Nat := 0x0030
abbrev stWatchdog : Nat := 0x0031
abbrev stAborted : Nat := 0x00F0
abbrev stForcedOff : Nat := 0x00FF

/-! ## Troughs and descriptors -/

/-- The trough that nothing has opened. -/
def TroughSt.reset : TroughSt := ⟨0, [], []⟩

/-- Trough `t` of stall `n`. -/
def Dev.trough (d : Dev) (n t : Nat) : TroughSt := d.tn.troughs.get (fun _ => TroughSt.reset) (n * 4 + t)

/-- `d` with trough `t` of stall `n` replaced. -/
def Dev.setTrough (d : Dev) (n t : Nat) (x : TroughSt) : Dev :=
  { d with tn := { d.tn with troughs := d.tn.troughs.set (fun _ => TroughSt.reset) (n * 4 + t) x } }

/-- T_STAT.STATE values (Table 04-7). -/
abbrev trgClosed : Nat := 0
abbrev trgOpen : Nat := 1
abbrev trgHalted : Nat := 2
abbrev trgClosing : Nat := 3

/-- T_STAT.STATE of trough `t` of stall `n`. -/
def Dev.troughState (d : Dev) (n t : Nat) : Nat := d.rd (R.TRG_T_STAT_STATE n t)

/-- The four troughs. -/
def troughNums : List Nat := [0, 1, 2, 3]

/-- The live descriptors. -/
def Dev.setLive (d : Dev) (ls : List Desc) : Dev := { d with tn := { d.tn with live := ls } }

/-- The live descriptor at a place of a trough. -/
def Dev.findDesc (d : Dev) (t : TroughId) (pos : Nat) : Option Desc :=
  d.tn.live.find? (fun x => x.trough == t && x.pos == pos)

/-- `d` with the live descriptor at `x`'s place replaced by `x`. -/
def Dev.updDesc (d : Dev) (x : Desc) : Dev :=
  d.setLive (d.tn.live.map (fun y => if y.trough = x.trough ∧ y.pos = x.pos then x else y))

/-- `d` without the live descriptor at a place. -/
def Dev.dropDesc (d : Dev) (t : TroughId) (pos : Nat) : Dev :=
  d.setLive (d.tn.live.filter (fun y => !(y.trough == t && y.pos == pos)))

/-- Whether a descriptor belongs to batch work of stall `n`. -/
def Desc.batchOf (x : Desc) (n : Nat) : Bool := match x.trough with | .batch m _ => m == n | .realtime _ _ => false

/-- Where the PORTs of stall `n` stand that a job fault or a reset took from their troughs, until their streams' next
boundaries: a place beside its troughs 0-3, by start rank (spec/03 R58). -/
def leftTrough (n : Nat) : TroughId := .batch n 4

/-- A PORT of trough `t` that moves samples is not dropped with the trough: it stands apart until its stream's next
boundary, with what it has captured or fetched (spec/03 R58). -/
def Dev.leavePorts (d : Dev) (n t : Nat) : Dev :=
  let runs := fun (x : Desc) => x.trough == .batch n t && x.opcode == 10 && decide (x.phase = .working)
  let move := fun (c : Cap) => match d.tn.live.find? (fun x => runs x && x.pos == c.pos) with
    | some x => { c with trough := leftTrough n, pos := x.order }
    | none => c
  let caps := d.au.caps.map (fun c => if c.trough = .batch n t then move c else c)
  let d : Dev := { d with au := { d.au with caps := caps.filter (fun c => !(c.trough == .batch n t)) } }
  d.setLive (d.tn.live.map (fun x => if runs x then { x with trough := leftTrough n, pos := x.order } else x))

/-- Set HEAD to TAIL on a trough and count the descriptors discarded (R77); the trough takes `state`, and `status` if one
is given. -/
def Dev.discardTrough (d : Dev) (n t state : Nat) (status : Option Nat) : Dev :=
  let tail := d.rd (R.TRG_T_TAIL n t)
  let lost := (tail + 2 ^ 32 - d.rd (R.TRG_T_HEAD n t)) % 2 ^ 32 - (d.trough n t).retired.length
  let d := (d.bump (R.TRG_T_DISCARD_COUNT n t) lost).wr (R.TRG_T_HEAD n t) tail
  let d := (d.wr (R.TRG_T_STAT_STATE n t) state).setTrough n t ⟨tail, [], []⟩
  let d := (d.leavePorts n t).dropSends (.batch n t)
  let d : Dev := { d with au := { d.au with checked := d.au.checked.filter (fun p => !(p.trough == .batch n t)) } }
  let d := d.setLive (d.tn.live.filter (fun x => !(x.trough == .batch n t)))
  let d := d.setWaiters (d.tn.waiters.filter (fun w => !(w.trough == .batch n t)))
  match status with
  | some s => d.wr (R.TRG_T_STAT_STATUS n t) s
  | none => d

/-! ## Stopping the units of a job (Table 19-3 steps 3 and 4) -/

/-- Stop every unit that works for stall `n`'s job, and discard what it had in flight; realtime strips stay (R149, R393). -/
def Dev.stopUnits (d : Dev) (n : Nat) : Dev := d.stopWork (fun t => t.batchOf n) (fun s => s.batchOf n)

/-- Turn off the loss-scale context of stall `n`; its other fields stay readable (spec/10 R196). -/
def Dev.offLossScale (d : Dev) (n : Nat) : Dev :=
  if n = 0 then d else 
    let d := d.setOwed (d.tn.owed.filter (· != .lossScale n))
    (d.wr (R.WIN_LS_CFG_MODE (n - 1)) 0).setLossScale n { d.lossScale n with notice := none }

/-- Stop a realtime trough whose descriptor fails (R80): its units stop, its strips go, and its block will miss its
deadline. No job faults for it. -/
def Dev.failRealtime (d : Dev) (s : Nat) (b : Bool) : Dev :=
  let d := d.stopWork (fun t => t == .realtime s b) (fun x => x.realtimeOf s b)
  let d := d.setLive (d.tn.live.filter (fun x => !(x.trough == .realtime s b)))
  let st := d.stream s
  let mark := fun (r : RtRun) => { r with aborting := true }
  d.setStream s (if b then { st with standby := st.standby.map mark } else { st with live := st.live.map mark })

/-! ## The job fault procedure (R392) -/

/-- Send ABORT to every declared peer of stall `n`'s job: step 2 of Table 19-3 (spec/15 R294). -/
def Dev.sendAborts (d : Dev) (n : Nat) : Dev :=
  let peers := (d.job n).decl.peers
  let d := (d.setJob n { d.job n with abortPeers := peers }).wr (R.STL_FAULT_STAT_ABORT_PEND n) peers.length
  peers.foldl (fun d p => d.sendPacket 0 (d.packet pkAbort p 0 n (leBytes 2 (d.rd (R.STL_JOB_STAT_STATUS n))) [])) d

/-- The job of stall `n` faults with `status`; `kind`, `index` and `pos` say what caused it (R390, R392). A fault that
reaches a job already in STATE 2 is only counted; one that reaches a closed job has no job to fault. -/
def Dev.faultJob (d : Dev) (n status kind index pos : Nat) (aborts : Bool := true) : Dev :=
  if d.jobState n = jobFaulted then d.bump (R.STL_FAULT_EXTRA_COUNT n)
  else if d.jobState n ≠ jobOpen then d
  else
    let d := (d.wr (R.STL_JOB_STAT_STATE n) jobFaulted).wr (R.STL_JOB_STAT_STATUS n) status
    let d := ((d.wr (R.STL_FAULT_STAT_KIND n) kind).wr (R.STL_FAULT_STAT_INDEX n) index).wr (R.STL_FAULT_POS n) pos
    let d := ((d.wr (R.STL_FAULT_STAT_RETURNED n) 0).bump (R.STL_FAULT_COUNT n)).mgmtIrq irqFault
    let d := (d.event n status kindJob 0 0).raise n 5
    let d := if aborts then d.sendAborts n else d
    let d := ((d.stopUnits n).dropWaits n).offLossScale n
    troughNums.foldl (fun d t =>
      if d.troughState n t = trgClosed then d else d.discardTrough n t trgHalted (some status)) d

/-- A descriptor fails: it faults the job that issued it; a realtime one stops its trough, and faults no job unless its
cause is an uncorrectable word (R80, R219). -/
def Dev.failDesc (d : Dev) (t : TroughId) (pos status : Nat) : Dev :=
  match t with
  | .batch n q => d.faultJob n status kindTrough q pos
  | .realtime s b =>
    let k := d.runBlock s b
    let n := d.stallOf t
    let d := d.failRealtime s b
    if status = stEcc ∧ n ≠ 0 then d.faultJob n status kindStream s k else d

/-- An uncorrectable word in a descriptor's data (R219): stall 0's own work is told by the interrupt alone. -/
def Dev.failEcc (d : Dev) (t : TroughId) (pos : Nat) : Dev :=
  match t with
  | .batch 0 _ => d
  | _ => d.failDesc t pos stEcc

/-! ## The return of the counters (R101, R392 step 5) -/

/-- Return one declared counter to its initial value, recording the change in RET_UP or RET_DOWN (R101). -/
def Dev.returnCtr (d : Dev) (n c init : Nat) : Dev :=
  let v := d.ctr c
  let d := if init < v then d.addTo (R.RCK_RET_UP n) (v - init) else d.addTo (R.RCK_RET_DOWN n) (init - v)
  d.setCtr c init

/-- Release the declared counters of stall `n` at a close: their values go to REL_TOTAL and they hold zero (R101). -/
def Dev.releaseCtrs (d : Dev) (n : Nat) : Dev :=
  (d.job n).decl.counters.foldl (fun d x => (d.addTo (R.RCK_REL_TOTAL n) (d.ctr x.1)).setCtr x.1 0) d

/-- Close stall `n`'s job: its counters, buffers and bays are released (R73), and no result record that waits is written any
more. -/
def Dev.closeJob (d : Dev) (n : Nat) : Dev :=
  let d := d.releaseCtrs n
  let d := ((d.wr (R.STL_JOB_STAT_STATE n) jobClosed).wr (R.STL_FAULT_STAT_RETURNED n) 0).offLossScale n
  let d := d.setOwed (d.tn.owed.filter (fun o => match o with | .swap .. => !o.ofStall n | _ => true))
  d.setJob n { d.job n with decl := Job.none.decl, wdog := 0, okRecordDue := false }

/-- Write the restart record once the return is done and every ABORT is answered (R394). -/
def Dev.okRecord (d : Dev) (n : Nat) : Dev :=
  if (d.job n).okRecordDue ∧ d.jobState n = jobFaulted ∧ d.on (R.STL_FAULT_STAT_RETURNED n)
      ∧ d.rd (R.STL_FAULT_STAT_ABORT_PEND n) = 0 then
    (d.setJob n { d.job n with okRecordDue := false }).event n stOk kindJob 0 (d.rd (R.RCK_RET_SEQ_COUNT n)) true
  else d

end Sys2Proof.Machine
end

