-- ==== Sys2Proof/Machine/Regs.lean ====
section
/-! DEFINITION. Who may see and write which register field, and the screening every register write goes through
(spec/20 R407-R420, spec/00 R13-R15). -/
namespace Sys2Proof.Machine

/-! ## Visibility to a stall (R410, Table 20-3) -/

/-- Offset of SNAP_STAT in a page (R419). -/
def PageKind.snapOff : PageKind → Nat
  | .clk => 0x70 | .tly => 0xC0 | .sys => 0xF0 | _ => 0xFF0

/-- Whether stall `n` sees the field block at offset `off` of a page, its header apart (Table 20-3). -/
def Dev.seesBlock (d : Dev) (n : Nat) (k : PageKind) (inst off : Nat) (write : Bool) : Bool :=
  match k with
  | .sys =>
    [0x40, 0x44, 0x48, 0x50, 0x54].contains off ||
    (write && (off == 0x58 ||
      (decide (0x800 ≤ off) && d.on R.SYS_UPD_CTL_HOST_OK && d.funcOf n == some 0)))
  | .clk => [0x40, 0x60, 0x64, 0x70].contains off
  | .stl | .trg => inst == n
  | .rck => decide (0x100 + n * 0x80 ≤ off ∧ off < 0x180 + n * 0x80) || off == 0xFF0
  | .thr => decide (0x40 ≤ off ∧ off ≤ 0x128) && d.jobState n == jobOpen && (d.job n).decl.bays.testBit inst
  | .win => decide (0x40 ≤ off ∧ off < 0x50) ||
      (n != 0 && decide (0x140 + (n - 1) * 0x40 ≤ off ∧ off < 0x180 + (n - 1) * 0x40))
  | .bal => decide (0x100 ≤ off ∧ off < 0x180) && d.rd (R.BAL_SLOT_B_OWNER ((off - 0x100) / 8)) == n
  | .seq =>
    (decide (0x100 ≤ off ∧ off < 0x300) && (d.rd (R.STL_Q_STREAMS_MASK n)).testBit ((off - 0x100) / 16)) ||
    (decide (0x300 ≤ off ∧ off < 0xF00) && (d.rd (R.STL_Q_STREAMS_MASK n)).testBit ((off - 0x300) / 0x60)) ||
    off == 0xFF0
  | .tly => decide (0x100 + n * 16 ≤ off ∧ off < 0x110 + n * 16) ||
      decide (0x200 + n * 0x50 ≤ off ∧ off < 0x250 + n * 0x50) || [0x48, 0x4C, 0xC0].contains off
  | _ => false

/-- Whether any field of a page is visible to stall `n` (R410). -/
def Dev.seesPage (d : Dev) (n : Nat) (k : PageKind) (inst : Nat) : Bool :=
  match k with
  | .sys | .clk | .rck | .win | .seq | .tly => true
  | .stl | .trg => inst == n
  | .thr => d.jobState n == jobOpen && (d.job n).decl.bays.testBit inst
  | .bal => (List.range 16).any (fun i => d.rd (R.BAL_SLOT_B_OWNER i) == n)
  | _ => false

/-- Whether stall `n` sees the word at BAR0 address `addr` (R410). -/
def Dev.sees (d : Dev) (n addr : Nat) (write : Bool) : Bool :=
  match pageKind (addr / 4096) with
  | none => false
  | some (k, inst) =>
    let off := addr % 4096
    if off < 0x40 then
      if k = .stl ∨ k = .trg then inst == n
      else [0x00, 0x04, 0x08, 0x1C].contains off && d.seesPage n k inst
    else d.seesBlock n k inst off write

/-! ## Screening a write (R409, R13-R14) -/

/-- Whether a requester is among a field's writers. -/
def FieldRow.mayWrite (f : FieldRow) : Req → Bool
  | .steward => f.s
  | .mgmt => f.m
  | .stall _ => f.n

/-- What is left of a write after the rights, the access codes and the lock have been applied: each RW field holds its
new value or the one it had, each action bit is set only where the requester may act. -/
structure Screened where
  val : Nat
  /-- The requester may write some field of the word, lock apart. -/
  some : Bool
  /-- It would have had an effect in a field the requester may not write (CAUSE 3). -/
  denied : Bool
  /-- An RWL field stayed unchanged (CAUSE 1). -/
  locked : Bool
  deriving DecidableEq, Repr

/-- Whether writing `v` over a field that reads `cur` would have an effect (R409). -/
def Access.effect (a : Access) (v cur : Nat) : Bool :=
  match a with
  | .ro => false
  | .rw | .rwl => v != cur
  | .w1c | .w1s | .wo => v != 0

/-- Screen one field of a write. -/
def screenField (r : Req) (lock : Bool) (w v cur : Nat) (s : Screened) (f : FieldRow) : Screened :=
  let (lo, wd, _) := f.inWord w
  let x := bits v lo wd
  let c := bits cur lo wd
  let keep := match f.acc with
    | .rw | .rwl => c
    | _ => 0
  if f.acc = .ro then s
  else if !f.mayWrite r then
    { s with val := setBits s.val lo wd keep, denied := s.denied || f.acc.effect x c }
  else if f.acc = .rwl ∧ lock then { s with val := setBits s.val lo wd c, locked := true }
  else { s with val := setBits s.val lo wd x, some := true }

/-- Screen a 4-byte write of `v` to the register word found at `h`, which holds `cur`. -/
def screen (r : Req) (lock : Bool) (h : RegHit) (v cur : Nat) : Screened :=
  h.row.fields.foldl (screenField r lock h.word v cur) ⟨0, false, false, false⟩

/-- Whether every field of a register is RO. -/
def RegRow.readOnly (r : RegRow) : Bool := r.fields.all (fun f => decide (f.acc = .ro))

/-- Store the RW and RWL fields of a screened word, clear its W1C bits and set its W1S bits: what a write does where
no rule gives the register an effect of its own. -/
def Dev.storeWord (d : Dev) (addr v : Nat) : Dev :=
  match regHit addr with
  | none => d
  | some h =>
    let cur := d.word addr
    let new := h.row.fields.foldl (fun u f =>
      let (lo, wd, _) := f.inWord h.word
      let x := bits v lo wd
      match f.acc with
      | .rw | .rwl => setBits u lo wd x
      | .w1c => setBits u lo wd (bits u lo wd - (bits u lo wd &&& x))
      | .w1s => setBits u lo wd (bits u lo wd ||| x)
      | .ro | .wo => u) cur
    d.setWord addr new

/-- A 4-byte write of `v` to BAR0 address `addr` by `r`, whose effect on the screened value is `op`. What the requester
may not see or write is left as it is and counted (R409, R410, R414, R420); reserved offsets ignore writes (R15). A write
of a stall that cannot be reached does not arrive (R68). -/
def Dev.regWith (d : Dev) (r : Req) (addr v : Nat) (op : Nat → Dev → Dev) : Dev :=
  match regHit addr with
  | none => d
  | some h =>
    let hidden := match r with
      | .stall n => !d.sees n addr true
      | _ => false
    let away := match r with
      | .stall n => !d.reachable n
      | _ => false
    let own := match r with
      | .stall n => 0x10 + n.val
      | _ => addr / 4096
    if away then d
    else if hidden then d.perrAt own (addr / 4096) (addr % 4096) (reqCode r) causeAccess
    else if h.row.readOnly then
      if 1 < h.row.words then d.perr addr r causeAccess else d
    else
      let s := screen r (d.locked addr) h v (d.word addr)
      let d1 := if s.denied then d.perr addr r causeAccess else if s.locked then d.perr addr r causeLocked else d
      if s.some then op s.val d1 else d1

/-! ## Header words (R407, R414, R415) -/

/-- PCTL: PERR_CLR clears the error count, LOCK fixes the RWL fields of a lockable page (R414, R415). A write that
would lock a page without RWL fields is ignored and counted. -/
def Dev.pctlWrite (d : Dev) (r : Req) (p v : Nat) : Dev :=
  let lockable := match pageKind p with
    | some (k, _) => k.lockable
    | none => false
  if v.testBit 0 && !lockable then d.perr (A.PCTL p) r causeValue
  else
    let d := if v.testBit 1 then ((d.setWord (A.PERR_COUNT p) 0).setWord (A.PERR_FIRST p) 0) else d
    if v.testBit 0 then d.wr (R.PCTL_LOCK p) 1 else d

/-- PIRQ_STAT: a 1 clears its bit in RAW, whatever PIRQ_EN holds (R407). -/
def Dev.pirqStatWrite (d : Dev) (p v : Nat) : Dev :=
  d.wr (R.PIRQ_RAW p) (d.rd (R.PIRQ_RAW p) - (d.rd (R.PIRQ_RAW p) &&& v))

/-! ## Shadows (R416-R419) -/

/-- Key of a requester's state on a page. -/
def snapKey (r : Req) (p : Nat) : Nat := reqCode r * 4096 + p

/-- SNAP_SEQ and SNAP_STALE as requester `r` sees them on page `p` (R419). -/
def Dev.snapStat (d : Dev) (r : Req) (p : Nat) : Nat :=
  d.bus.snapSeq.get (fun _ => 0) (snapKey r p) % 65536 +
    65536 * b2n (d.bus.snapStale.get (fun _ => false) (snapKey r p))

/-- `d` with requester `r`'s SNAP_SEQ of page `p` counted on (modulo 2¹⁶, R419). -/
def Dev.snapCount (d : Dev) (r : Req) (p : Nat) : Dev :=
  let k := snapKey r p
  { d with bus := { d.bus with snapSeq := d.bus.snapSeq.set (fun _ => 0) k ((d.bus.snapSeq.get (fun _ => 0) k + 1) % 65536) } }

/-- `d` with requester `r`'s SNAP_STALE of page `p` set to `b`. -/
def Dev.setStale (d : Dev) (r : Req) (p : Nat) (b : Bool) : Dev :=
  { d with bus := { d.bus with snapStale := d.bus.snapStale.set (fun _ => false) (snapKey r p) b } }

/-- Requester `r`'s shadow of the upper word at `addr` (R416). -/
def Dev.shadow (d : Dev) (r : Req) (addr : Nat) : Option Word :=
  d.bus.shadows.get (fun _ => none) (reqCode r * 2 ^ 24 + addr)

/-- `d` with requester `r`'s shadow of the upper word at `addr` replaced. -/
def Dev.setShadow (d : Dev) (r : Req) (addr : Nat) (w : Option Word) : Dev :=
  { d with bus := { d.bus with shadows := d.bus.shadows.set (fun _ => none) (reqCode r * 2 ^ 24 + addr) w } }

/-- Clear every shadow of the requester with code `c` (R418). -/
def Dev.clearShadows (d : Dev) (c : Nat) : Dev :=
  { d with bus := { d.bus with shadows := d.bus.shadows.keep (fun k => k / 2 ^ 24 != c) } }

end Sys2Proof.Machine
end

