-- ==== Sys2Proof/Machine/Stalls.lean ====
section
/-! DEFINITION. Binding, grants, jobs, troughs and doorbells (spec/04 R67-R78, spec/19 R392-R396). -/
namespace Sys2Proof.Machine

/-- Whether the four troughs of stall `n` are closed. -/
def Dev.troughsClosed (d : Dev) (n : Nat) : Bool := troughNums.all (fun t => d.troughState n t == trgClosed)

/-! ## Binding (R67, R68) -/

/-- Whether a BIND word would bind the function or node of another stall (R67). -/
def Dev.bindTaken (d : Dev) (n v : Nat) : Bool :=
  match bits v 0 2 with
  | 1 => hostStalls.any (fun m => m != n && d.funcOf m == some (4 * bits v 2 1 + bits v 3 2))
  | 2 => hostStalls.any (fun m => m != n && d.nodeOf m == some (bits v 16 16))
  | _ => false

/-- A write of STL[n].BIND: ignored and counted for stall 0, for KIND 3, for a function or node bound elsewhere, and while
the stall's job is not closed; every write clears the stall's shadows (R67, R68, R418). -/
def Dev.bindWrite (d : Dev) (r : Req) (n v : Nat) : Dev :=
  let d := d.clearShadows n
  if n = 0 ∨ bits v 0 2 = 3 ∨ d.bindTaken n v ∨ d.jobState n ≠ jobClosed then d.perr (A.STL_BIND n) r causeValue
  else d.storeWord (A.STL_BIND n) v

/-! ## Grants (R70, R71) -/

/-- The sum of a field over stalls 1-8, with stall `n`'s value taken as `v`. -/
def Dev.grantSum (d : Dev) (f : Nat → Fld) (n v : Nat) : Nat :=
  (hostStalls.map (fun m => if m = n then v else d.rd (f m))).foldl (· + ·) 0

/-- Whether a mask is disjoint from every other stall's. -/
def Dev.maskFree (d : Dev) (f : Nat → Fld) (n v : Nat) : Bool :=
  (0 :: hostStalls).all (fun m => m == n || (d.rd (f m) &&& v) == 0)

/-- Whether a Q_RICK word names a range above counter 4,095 that meets no other stall's (Table 04-1). -/
def Dev.rickFree (d : Dev) (n v : Nat) : Bool :=
  let base := bits v 0 11
  let count := bits v 16 11
  count == 0 || (decide (standingEnd ≤ base * 64 ∧ base * 64 + count * 64 ≤ 65536) &&
    (0 :: hostStalls).all (fun m => m == n ||
      (let b := d.rd (R.STL_Q_RICK_BASE m)
       let c := d.rd (R.STL_Q_RICK_COUNT m)
       c == 0 || decide (base + count ≤ b ∨ b + c ≤ base))))

/-- The register of a grant. -/
def grantAddr (n : Nat) : Grant → Nat
  | .silo => A.STL_Q_SILO n
  | .cellar => A.STL_Q_CELLAR n
  | .bays => A.STL_Q_BAYS n
  | .streams => A.STL_Q_STREAMS n
  | .rick => A.STL_Q_RICK n

/-- Whether a grant word keeps the rule across stalls of Table 04-1. -/
def Dev.grantFits (d : Dev) (n v : Nat) : Grant → Bool
  | .silo => n == 0 || decide (d.grantSum R.STL_Q_SILO_GRAN n (bits v 0 11) ≤ 1024)
  | .cellar => n == 0 || decide (d.grantSum R.STL_Q_CELLAR_GRAN n (bits v 0 16) ≤ d.rd R.CEL_SIZE_MIB * 1024)
  | .bays => d.maskFree R.STL_Q_BAYS_MASK n (bits v 0 16)
  | .streams => d.maskFree R.STL_Q_STREAMS_MASK n v
  | .rick => d.rickFree n v

/-- The first local granule past the job's buffers. -/
def Decl.siloEnd (j : Decl) : Nat := (j.buffers.map (fun b => if b.2 = 0 then 0 else b.1 + b.2)).foldl max 0

/-- Whether a grant word covers what the stall's open or faulted job has declared (R71): a job declares no Cellar granules
and no streams. -/
def Dev.grantCovers (d : Dev) (n v : Nat) (g : Grant) : Bool :=
  let j := (d.job n).decl
  if d.jobState n = jobClosed then true
  else match g with
    | .silo => n == 0 || decide (j.siloEnd ≤ bits v 0 11)
    | .cellar | .streams => true
    | .bays => (j.bays &&& bits v 0 16) == j.bays
    | .rick => j.counters.all (fun c => decide (bits v 0 11 * 64 ≤ c.1 ∧ c.1 < (bits v 0 11 + bits v 16 11) * 64))

/-- A write of a grant field: it takes effect, or is ignored, counted and sets SHORT (R71). -/
def Dev.grantWrite (d : Dev) (r : Req) (n : Nat) (g : Grant) (v : Nat) : Dev :=
  if d.grantFits n v g && d.grantCovers n v g then d.storeWord (grantAddr n g) v
  else (d.perr (grantAddr n g) r causeValue).wr (R.STL_GRANT_STAT_SHORT n) 1

/-! ## The job declaration (R72, Table 04-2) -/

/-- Whether the declaration's address obeys R72: 64-byte aligned, wholly within one region, and in Silo for a
Furrow-bound stall. -/
def Dev.declPlaced (d : Dev) (n a len : Nat) : Bool :=
  a % 64 == 0 && d.inMap n none a len &&
    ((d.nodeOf n).isNone || decide (a < siloBytes))

/-- The 16-byte counter entries, 8 bytes each. -/
def chunks (k : Nat) : Nat → List Byte → List (List Byte)
  | 0, _ => []
  | m + 1, bs => bs.take k :: chunks k m (bs.drop k)

/-- Whether a list has no repeats. -/
def distinct {α : Type} [DecidableEq α] : List α → Bool
  | [] => true
  | a :: as => !as.contains a && distinct as

/-- Whether no two buffers overlap; empty ones take no part. -/
def buffersApart : List (Nat × Nat) → Bool
  | [] => true
  | b :: bs => bs.all (fun c => b.2 == 0 || c.2 == 0 || decide (b.1 + b.2 ≤ c.1 ∨ c.1 + c.2 ≤ b.1)) && buffersApart bs

/-- What the reading of a declaration gives. -/
inductive DeclRead where
  /-- It has the form of Table 04-2. -/
  | good (j : Decl) (d : Dev)
  /-- It is malformed or beyond the limits of Table 04-2. -/
  | bad
  /-- It cannot be read yet (spec/12 R222, R223). -/
  | wait

/-- Read stall `n`'s declaration at address `a` and check its form. -/
def Dev.readDecl (d : Dev) (n a : Nat) : DeclRead :=
  if !d.declPlaced n a 16 then .bad
  else match d.pathRead n none a 16 with
  | .data h _ d1 =>
    let nc := leNat (h.take 2)
    let nb := leNat ((h.drop 2).take 2)
    let np := leNat ((h.drop 4).take 2)
    let len := 16 + 8 * nc + 8 * nb + 4 * np
    if 4096 < nc ∨ 256 < nb ∨ 64 < np ∨ leNat (h.drop 8) ≠ 0 then .bad
    else if !d.declPlaced n a len then .bad
    else match d1.pathRead n none a len with
    | .data bs _ d2 =>
      let cs := chunks 8 nc (bs.drop 16)
      let us := chunks 8 nb (bs.drop (16 + 8 * nc))
      let ps := chunks 4 np (bs.drop (16 + 8 * nc + 8 * nb))
      let counters := cs.map (fun c => (leNat (c.take 2), leNat (c.drop 4)))
      let buffers := us.map (fun u => (leNat (u.take 4), leNat (u.drop 4)))
      let peers := ps.map (fun p => leNat (p.take 2))
      if cs.all (fun c => leNat ((c.drop 2).take 2) == 0) && ps.all (fun p => leNat (p.drop 2) == 0) &&
          distinct (counters.map (·.1)) && distinct peers && peers.all (fun p => p != 0 && p != 0xFFFF) &&
          buffersApart buffers then
        .good ⟨counters, buffers, peers, leNat ((h.drop 6).take 2)⟩ d2
      else .bad
    | .wait => .wait
    | .quota => .bad
  | .wait => .wait
  | .quota => .bad

/-- Check 4 of R72: every declared counter, bay and buffer lies within the grant; stall 0's granules are physical and
lie in no extent of stalls 1-8. -/
def Dev.declGranted (d : Dev) (n : Nat) (j : Decl) : Bool :=
  j.counters.all (fun c => d.inRick n c.1 && decide (standingEnd ≤ c.1)) &&
  (j.bays &&& d.rd (R.STL_Q_BAYS_MASK n)) == j.bays &&
  j.buffers.all (fun b => b.2 == 0 ||
    (if n = 0 then decide (b.1 + b.2 ≤ 1024) &&
        hostStalls.all (fun m => (d.siloExtents m).all (fun e => e.2 == 0 || decide (e.1 + e.2 ≤ b.1 ∨ b.1 + b.2 ≤ e.1)))
      else decide (b.1 + b.2 ≤ d.rd (R.STL_Q_SILO_GRAN n))))

/-! ## Job open and close (R72, R73, R395) -/

/-- Whether a driver epoch is served (R72, R373). -/
def Dev.epochServed (d : Dev) (e : Nat) : Bool := decide (d.rd R.SYS_IF_EPOCH_MIN_EPOCH ≤ e ∧ e ≤ d.rd R.SYS_IF_EPOCH)

/-- A refused job open: STATUS takes the code and a record of kind 2 is written (R72, R83). -/
def Dev.refuseJob (d : Dev) (n status : Nat) : Dev :=
  (d.wr (R.STL_JOB_STAT_STATUS n) status).event n status kindJob 0 0

/-- Set each declared counter to its initial value; SET_TOTAL gains them (R72, R101). -/
def Dev.setCounters (d : Dev) (n : Nat) (cs : List (Nat × Nat)) : Dev :=
  cs.foldl (fun d c => (d.setCtr c.1 c.2).addTo (R.RCK_SET_TOTAL n) c.2) d

/-- Checks 3 and 4 of R72 and the open itself, with the declaration at address `a`; none while it cannot be read. -/
def Dev.openDecl (d : Dev) (n epoch a : Nat) : Option Dev :=
  match d.readDecl n a with
  | .wait => none
  | .bad => some (d.refuseJob n stDesc)
  | .good j d1 =>
    if !d1.declGranted n j then some (d1.refuseJob n stQuota)
    else
      let d2 := d1.setJob n { d1.job n with decl := j, epoch := epoch, wdog := 0, abortPeers := [], okRecordDue := false }
      some (((d2.setCounters n j.counters).wr (R.STL_JOB_STAT_STATUS n) stOk).wr (R.STL_JOB_STAT_STATE n) jobOpen)

/-- `d` without an OPEN of stall `n` that waits. -/
def Dev.dropOpen (d : Dev) (n : Nat) : Dev :=
  d.setOwed (d.tn.owed.filter (fun o => match o with | .jobOpen m _ _ => m != n | _ => true))

/-- An OPEN of a closed job, checked in the order of R72; one whose declaration cannot be read yet waits, and takes the place
of one that waited before it (DESIGN CHOICE). -/
def Dev.openJob (d : Dev) (n epoch : Nat) : Dev :=
  let d := d.dropOpen n
  let a := d.rd (R.STL_JOB_DECL n)
  if d.limp then d.refuseJob n stDisabled
  else if !d.epochServed epoch then d.refuseJob n stEpoch
  else (d.openDecl n epoch a).getD (d.owe (.jobOpen n epoch a))

/-- An OPEN of a faulted job (R395): nothing but LIMP and the epoch is checked, and the declaration stands. -/
def Dev.reopenJob (d : Dev) (r : Req) (n epoch : Nat) : Dev :=
  if !(d.troughsClosed n && d.on (R.STL_FAULT_STAT_RETURNED n) && d.rd (R.STL_FAULT_STAT_ABORT_PEND n) == 0) then
    d.perr (A.STL_JOB_CTL n) r causeValue
  else if d.limp then d.refuseJob n stDisabled
  else if !d.epochServed epoch then d.refuseJob n stEpoch
  else
    let d := d.setJob n { d.job n with epoch := epoch, wdog := 0 }
    ((d.wr (R.STL_JOB_STAT_STATUS n) stOk).wr (R.STL_FAULT_STAT_RETURNED n) 0).wr (R.STL_JOB_STAT_STATE n) jobOpen

/-- A write of STL.JOB_CTL (R72, R73, R395). -/
def Dev.jobCtlWrite (d : Dev) (r : Req) (n v : Nat) : Dev :=
  let st := d.jobState n
  match bits v 0 2 with
  | 1 =>
    if st = jobClosed then d.openJob n (bits v 16 16)
    else if st = jobFaulted then d.reopenJob r n (bits v 16 16)
    else d.perr (A.STL_JOB_CTL n) r causeValue
  | 2 =>
    if st = jobClosed then d
    else if !d.troughsClosed n || (st == jobFaulted && !d.on (R.STL_FAULT_STAT_RETURNED n)) then
      d.perr (A.STL_JOB_CTL n) r causeValue
    else d.closeJob n
  | _ => d

/-! ## Troughs (R74-R78) -/

/-- Bytes of a trough's ring. -/
def Dev.troughSize (d : Dev) (n t : Nat) : Nat := 2 ^ d.rd (R.TRG_T_CFG_LOG2SIZE n t)

/-- Data-path address of descriptor `pos` of a trough (R74). A write of T_BASE or T_CFG while the trough is open acts from the
next descriptor read on (DESIGN CHOICE: the spec says nothing of it). -/
def Dev.slotAddr (d : Dev) (n t pos : Nat) : Nat :=
  ringAddr (d.on (R.TRG_T_CFG_LOC n t)) (d.rd (R.TRG_T_BASE n t) * 4096) (pos % d.troughSize n t * 64)

/-- Whether a trough's size and place obey R74. -/
def Dev.troughPlaced (d : Dev) (n t : Nat) : Bool :=
  let lg := d.rd (R.TRG_T_CFG_LOG2SIZE n t)
  decide (6 ≤ lg ∧ lg ≤ 16) && (d.on (R.TRG_T_CFG_LOC n t) || (d.nodeOf n).isNone) &&
    (let a := d.slotAddr n t 0
     d.inMap n none a (64 * 2 ^ lg) && (if d.on (R.TRG_T_CFG_LOC n t) then decide (a < siloBytes) else decide (hostBase ≤ a)))

/-- A refused trough open: T_STAT.STATUS takes the code and a record of kind 0 is written (R74, R83). -/
def Dev.refuseTrough (d : Dev) (n t status : Nat) : Dev :=
  (d.wr (R.TRG_T_STAT_STATUS n t) status).event n status kindTrough t 0

/-- An OPEN of a closed trough, checked in the order of R74. -/
def Dev.openTrough (d : Dev) (n t epoch : Nat) : Dev :=
  if d.limp then d.refuseTrough n t stDisabled
  else if d.jobState n ≠ jobOpen then d.refuseTrough n t stDisabled
  else if !d.epochServed epoch then d.refuseTrough n t stEpoch
  else if !d.troughPlaced n t then d.refuseTrough n t stDesc
  else
    let d := ((d.wr (R.TRG_T_HEAD n t) 0).wr (R.TRG_T_TAIL n t) 0).setTrough n t TroughSt.reset
    (d.wr (R.TRG_T_STAT_STATUS n t) stOk).wr (R.TRG_T_STAT_STATE n t) trgOpen

/-- How far HEAD can move from `h` over retired positions, at most `fuel` of them. -/
def advance (retired : List Nat) (h : Nat) : Nat → Nat
  | 0 => h
  | k + 1 => if retired.contains h then advance retired ((h + 1) % 2 ^ 32) k else h

/-- Mark position `pos` of a trough retired: HEAD advances over the oldest retired descriptors (R76). -/
def Dev.markRetired (d : Dev) (n t pos : Nat) : Dev :=
  let ts := d.trough n t
  let rs := ts.retired ++ [pos]
  let h := d.rd (R.TRG_T_HEAD n t)
  let h' := advance rs h rs.length
  let left := rs.filter (fun p => !((List.range rs.length).any (fun i => (h + i) % 2 ^ 32 == p &&
    decide (i < (h' + 2 ^ 32 - h) % 2 ^ 32))))
  (d.wr (R.TRG_T_HEAD n t) h').setTrough n t { ts with retired := left }

/-- Write `value` back to T_WB for the retired descriptor at `pos`, and raise the trough vector after it if `irq` (R76): a
write-back R225 would fault is not made and faults the job with QUOTA, and the advance of HEAD stands. None while its place is
not ready. -/
def Dev.putHead (d : Dev) (n t pos value : Nat) (irq : Bool) : Option Dev :=
  let told := fun (d : Dev) => if irq then d.raise n (1 + t) else d
  match d.pathWrite n none (4 * d.rd (R.TRG_T_WB n t)) (leBytes 4 value) with
  | .done false d' => some (told d')
  | .done true d' => some (told (if n = 0 then d' else d'.faultJob n stEcc kindTrough t pos))
  | .quota => some (told (d.faultJob n stQuota kindTrough t pos))
  | .wait => none

/-- Whether a write-back of HEAD of a trough waits for its place. -/
def Dev.headOwed (d : Dev) (n t : Nat) : Bool :=
  d.tn.owed.any (fun o => match o with | .head m q _ _ _ => m == n && q == t | _ => false)

/-- The write-back of HEAD and the trough vector of a retired descriptor (R76), in the order of the retirements. -/
def Dev.completion (d : Dev) (n t : Nat) (x : Desc) : Dev :=
  let head := d.rd (R.TRG_T_HEAD n t)
  if x.cmpl ∧ d.rd (R.TRG_T_WB n t) ≠ 0 then
    if d.headOwed n t then d.owe (.head n t x.pos head x.irq)
    else (d.putHead n t x.pos head x.irq).getD (d.owe (.head n t x.pos head x.irq))
  else if x.irq then d.raise n (1 + t)
  else d

/-- CLOSE, OPEN and SKIP of a trough: a write of T_CTL (R73, R74, R78). SKIP retires the oldest descriptor that halted the
trough; while another stands halted behind it the trough stays halted (DESIGN CHOICE). -/
def Dev.tCtlWrite (d : Dev) (r : Req) (n t v : Nat) : Dev :=
  let st := d.troughState n t
  match bits v 0 2 with
  | 1 => if st ≠ trgClosed then d.perr (A.TRG_T_CTL n t) r causeValue else d.openTrough n t (bits v 16 16)
  | 2 => if st = trgClosed ∨ st = trgClosing then d else d.wr (R.TRG_T_STAT_STATE n t) trgClosing
  | 3 =>
    match st == trgHalted, (d.trough n t).halted with
    | true, x :: xs =>
      let d := d.setTrough n t { d.trough n t with halted := xs }
      let d := if xs.isEmpty then d.wr (R.TRG_T_STAT_STATE n t) trgOpen else d
      ((d.markRetired n t x.pos).progress n).completion n t x
    | _, _ => d.perr (A.TRG_T_CTL n t) r causeValue
  | _ => d

/-- A closing trough whose started descriptors have ended: the rest are discarded and it reads STATE 0 (R78). -/
def Dev.closeDone (d : Dev) (n t : Nat) : Dev :=
  if d.troughState n t = trgClosing ∧
      d.tn.live.all (fun x => !(x.trough == .batch n t) || decide (x.phase = .held)) then
    d.discardTrough n t trgClosed none
  else d

/-- A doorbell of trough `t` of stall `n` (R75): accepted when it does not go back and stays within the ring. One to a trough
that is not open is ignored and counted, and leaves DB_BAD as it is (DESIGN CHOICE: the rule names only the count). -/
def Dev.doorbell (d : Dev) (r : Req) (n t v : Nat) : Dev :=
  let head := d.rd (R.TRG_T_HEAD n t)
  let tail := d.rd (R.TRG_T_TAIL n t)
  let bad := d.perrAt (0x20 + n) (0x20 + n) (t * 8) (reqCode r) causeValue
  if d.troughState n t ≠ trgOpen then bad
  else
    let new := (v + 2 ^ 32 - head) % 2 ^ 32
    if (tail + 2 ^ 32 - head) % 2 ^ 32 ≤ new ∧ new ≤ d.troughSize n t then d.wr (R.TRG_T_TAIL n t) v
    else bad.wr (R.TRG_T_STAT_DB_BAD n t) 1

/-- Halt a trough with DISABLED on descriptor `x` (R80): the descriptor stays for SKIP, and a record is written (R83). A
trough that closes goes on closing, and the descriptor is discarded with it (R78). -/
def Dev.haltTrough (d : Dev) (n t : Nat) (x : Desc) : Dev :=
  let d := (d.dropDesc x.trough x.pos).setWaiters (d.tn.waiters.filter (fun w => !(w.trough == x.trough && w.pos == x.pos)))
  let d := if d.troughState n t = trgClosing then d
    else (d.wr (R.TRG_T_STAT_STATE n t) trgHalted).setTrough n t { d.trough n t with halted := (d.trough n t).halted ++ [x] }
  (d.wr (R.TRG_T_STAT_STATUS n t) stDisabled).event n stDisabled kindTrough t x.pos

/-! ## The counter window (R104) -/

/-- Whether counter `c` lies outside the window of requester `r`. -/
def Dev.windowHides (d : Dev) (r : Req) (c : Nat) : Bool :=
  match r with
  | .stall n => !d.inRick n c
  | .steward => false
  | .mgmt => true

/-- A window write to counter `c`: it signals the counter where R445 lets a signal reach it, else it is refused, counted
and faults no job. LAST_REFUSE.STALL of a refused write by the Steward reads 0, the stall the Steward drives (DESIGN
CHOICE). -/
def Dev.windowWrite (d : Dev) (r : Req) (c v : Nat) : Dev :=
  let who := match r with
    | .stall n => n.val
    | _ => 0
  let count := fun (d : Dev) cause => d.perrAt 5 5 (c * 8) (reqCode r) cause
  if d.windowHides r c then count d causeAccess
  else if !d.takesSignal c false then (count d causeValue).refuseSignal c who refuseWindow
  else if d.wraps c v then (count d causeValue).refuseSignal c who refuseWrap
  else d.applySignal c v

/-- A write to the upper word of a counter's window entry: ignored, and counted where the counter lies outside the
requester's window (Table 05-4). -/
def Dev.windowHigh (d : Dev) (r : Req) (c : Nat) : Dev :=
  if d.windowHides r c then d.perrAt 5 5 (c * 8 + 4) (reqCode r) causeAccess else d

/-- The two words of a counter's window entry (Table 05-4); DECLARED is for a counter of an open job, or a standing one. -/
def Dev.windowRead (d : Dev) (r : Req) (c word : Nat) : Nat :=
  if d.windowHides r c then 0
  else if word = 0 then d.ctr c
  else b2n (d.takesSignal c false) + 2 * b2n (d.tn.waiters.any (fun w => w.consume && w.ctr == c))

end Sys2Proof.Machine
end

