-- ==== Sys2Proof/Machine/Thresher.lean ====
section
/-! DEFINITION. The commands of the bays and the bay sequencer: granting gangs, ramps, fronts, folds, credits, yields
(spec/06 R114-R127, spec/07 R131-R144). -/
namespace Sys2Proof.Machine

/-! ## Granting a gang (R131, R139) -/

/-- The bays a waiting TILE keeps from later ones: its named set, or with ANY the set it could take now. -/
def Dev.wants (d : Dev) (w : Waiting) : List Nat :=
  if w.tile.any then
    match d.pickGang w.trough w.tile with
    | some l => gangBays w.tile.shape l
    | none => []
  else gangBays w.tile.shape w.tile.leader

/-- Whether an earlier TILE waits for one of these bays. -/
def Dev.behind (d : Dev) (t : TroughId) (order : Nat) (bs : List Nat) : Bool :=
  d.waitingTiles.any (fun w => w.trough.rt.isSome == t.rt.isSome && decide (w.order < order) && overlap (d.wants w) bs)

/-- Whether domain `x` takes work of trough `t`: a batch trough's while it is enabled; a realtime one's as long as it is on,
so that a drain serves the streams it holds (R80, R380). -/
def Dev.takesWork (d : Dev) (t : TroughId) (x : Nat) : Bool := if t.rt.isSome then d.domOn x else d.domEn x

/-- A TILE's named set holds a bay that is disabled, or its Hopper is disabled (R80). -/
def Dev.tileDisabled (d : Dev) (t : TroughId) (x : Tile) : Bool :=
  !d.takesWork t (20 + x.hop) || (!x.any && (gangBays x.shape x.leader).any (fun b => !d.takesWork t b))

/-- A descriptor aimed at a disabled unit: a batch trough halts with DISABLED, a realtime one is aborted (R80). -/
def Dev.stopDisabled (d : Dev) (x : Desc) : Dev :=
  match x.trough with
  | .batch n t => d.haltTrough n t x
  | .realtime s b => d.failRealtime s b

/-! ## Phases of a gang (R116, R117) -/

/-- The cycles of the ramp up of a gang that is not at full activity. A bay taken in its ramp down turns round at its step,
which the commands do not tell: a free value of 0 to 16, whose cycles it has been busy with; the gang then climbs as many
steps where all its bays were falling, else all 16 (R117). -/
def Dev.climb (d : Dev) (bs : List Nat) : Nat × Dev :=
  let step := d.rampLen bs / 16
  let down := bs.filter (fun b => d.rd (R.THR_ACT_STAT_PHASE b) == 3)
  if down.isEmpty then (16 * step, d)
  else
    let (v, d) := d.freeNext
    let k := v % 17
    let fall := (d.cp.thr.falling.map (fun g => g.filter (fun b => !bs.contains b))).filter (fun g => !g.isEmpty)
    let d := (d.busy down (k * step)).setThr { d.cp.thr with falling := fall }
    (if down.length = bs.length then k * step else 16 * step, d)

/-- A run takes its gang: a gang that stayed at full activity goes on with no ramp, others ramp up, and the front of its next
fold starts. FRONT_ROW reads 0 from then until the front is complete (DESIGN CHOICE: no row is complete yet). -/
def Dev.takeGang (d : Dev) (r : TileRun) : Dev :=
  let active := d.cp.thr.warm.any (fun g => g.1 == r.bays)
  let others := d.cp.thr.warm.filter (fun g => g.1 != r.bays && overlap g.1 r.bays)
  let d := others.foldl (fun d g => (d.busy g.1 g.2).rampDown (g.1.filter (fun b => !r.bays.contains b))) d
  let d := d.setThr { d.cp.thr with warm := d.cp.thr.warm.filter (fun g => !overlap g.1 r.bays) }
  let (n, d) := if active then (0, d) else d.climb r.bays
  let d := d.placeRun { r with ramped := active, loaded := false, rampCyc := n, lead := some n }
  d.eachBay r.bays (fun b d =>
    ((d.wr (R.THR_ACT_STAT_PHASE b) (if active then 2 else 1)).wr (R.THR_ACT_STAT_FRONT b) 1).wr (R.THR_ACT_STAT_FRONT_ROW b) 0)

/-- The run a started TILE begins as. -/
def Desc.run (x : Desc) (stall leader : Nat) : TileRun :=
  { trough := x.trough, pos := x.pos, order := x.order, bits := x.bits, stall := stall, shape := (Tile.of x.bits).shape
    leader := leader, nf := 0, mf := 0, kf := 0, folds := 0, rampCyc := 0, lead := none, ramped := false, loaded := false, refilled := true
    image := none, acc := [], strips := [], flying := 0, yielding := false, spilling := false, slot := none }

/-- TILE: the bay sequencer takes a started TILE into its line (R130, R139). -/
def tileDesc (t : TroughId) (pos : Nat) (d : Dev) : Dev :=
  match d.findDesc t pos with
  | some x => if x.opcode = 1 ∧ x.phase = .started ∧ d.coreOn then d.updDesc { x with phase := .working } else d
  | none => d

/-- TILE_GRANT: a waiting TILE takes its gang once the bays qualify, batch work is not paused and none that started
before it waits for them (R139). A named set with a disabled bay halts the trough (R80). -/
def tileGrant (t : TroughId) (pos : Nat) (d : Dev) : Dev :=
  match d.findDesc t pos with
  | some x =>
    let body := Tile.of x.bits
    if !(d.waitingTiles.any (fun w => w.trough == t && w.pos == pos)) ∨
        d.cp.thr.yielded.any (fun r => r.trough == t && r.pos == pos) then d
    else if d.tileDisabled t body then (d.stopDisabled x).settleGangs
    else if !d.coreOn || (t.rt.isNone && d.paused) then d
    else match d.pickGang t body with
    | some l =>
      if d.behind t x.order (gangBays body.shape l) then d
      else (d.takeGang (x.run (d.stallOf t) l)).settleGangs
    | none => d
  | none => d

/-- RAMP_UP_DONE: the ballast ramp of a gang ends (R116). -/
def rampUpDone (leader : Nat) (d : Dev) : Dev :=
  match d.runAt leader with
  | some r =>
    if d.coreOn ∧ !r.ramped ∧ r.bays.all (fun b => d.rd (R.THR_ACT_STAT_PHASE b) == 1) then
      let d := d.busy r.bays r.rampCyc
      (d.setRun { r with ramped := true }).eachBay r.bays (fun b d => d.wr (R.THR_ACT_STAT_PHASE b) 2)
    else d
  | none => d

/-! ## Fronts and folds -/

/-- The bytes of an image block as cell images (R135). -/
def Tile.images (x : Tile) (bs : List Byte) : List Nat := (cutUp x.bc (x.rg * x.cg) bs).map leNat

/-- Whether the gang of run `r` holds: a strip waits for a credit, or for the ramp up after a hold (R115, R116). -/
def Dev.holds (d : Dev) (r : TileRun) : Bool :=
  !r.strips.isEmpty && (d.on (R.THR_ACT_STAT_HELD r.leader) || !r.ramped || !d.creditFree r.tile.hop r.trough.rt.isSome)

/-- FRONT_COMPLETE: the images of the next fold are complete in every cell (R119, R120); a hold stops the front. -/
def frontComplete (leader : Nat) (d : Dev) : Dev :=
  match d.runAt leader with
  | some r =>
    let x := r.tile
    if !d.coreOn ∨ r.loaded ∨ r.yielding ∨ x.folds ≤ r.folds ∨ d.holds r then d
    else match d.pathRead r.stall r.trough.rt (x.blockAddr r.nf r.kf) x.block with
    | .data bs ue d1 =>
      if ue ∧ !(r.trough.rt.isNone ∧ r.stall = 0) then d1.failEcc r.trough r.pos
      else
        let d := d1.setRun { r with loaded := true, image := some (r.nf, r.kf, x.images bs) }
        d.eachBay r.bays (fun b d => (d.wr (R.THR_ACT_STAT_FRONT b) 0).wr (R.THR_ACT_STAT_FRONT_ROW b) 127)
    | .wait => d
    | .quota => d.failDesc r.trough r.pos stQuota
  | none => d

/-- What reading a fold's vectors gives. -/
inductive ActRead where
  | data (rows : List (List Int)) (ue : Bool) (d : Dev)
  | wait
  | quota

/-- Read the vectors `u` to `u + n - 1` of a fold, elements `k0` to `k0 + len - 1` of each (R134). -/
def Dev.readActs (d : Dev) (r : TileRun) (k0 len u : Nat) : Nat → ActRead
  | 0 => .data [] false d
  | n + 1 =>
    let x := r.tile
    match d.pathRead r.stall r.trough.rt (x.aBase + u * x.aStride + k0 * x.e) (len * x.e) with
    | .data bs ue d1 =>
      match d1.readActs r k0 len (u + 1) n with
      | .data rows ue' d2 => .data ((cutUp x.e len bs).map (fun b => toSigned x.pa (leNat b)) :: rows) (ue || ue') d2
      | e => e
    | .wait => .wait
    | .quota => .quota

/-- The cycles a fold adds on its bays: the wait for its front, as far as no ramp covers it, and its vectors (R119, R137). -/
def TileRun.foldCycles (r : TileRun) (fresh : Bool) : Nat :=
  let x := r.tile
  let entry := 128 * x.g - 127
  x.vectors r.mf * x.c + (match r.lead with
    | some n => entry - n
    | none => if fresh then entry else 0)

/-- Count the entries that clamped in a fold, each at the bay at the foot of its line, with its SAT summary (R114). -/
def Dev.reportClamps (d : Dev) (r : TileRun) (old new : List (List (Int × Bool))) : Dev :=
  let x := r.tile
  let dim := shapeDim r.shape
  (List.range new.length).foldl (fun d j =>
    let k := clamps (old.getD j []) (new.getD j [])
    if k = 0 then d
    else
      let b := if x.mode = 1 then gangBay r.shape r.leader (j / 128) 0 else gangBay r.shape r.leader (dim.1 - 1) (j / 128)
      let d := (((d.bump (R.THR_SAT_COUNT b) k).wr (R.THR_SAT_STAT_SAT b) 1).wr (R.THR_SAT_STAT_LAST_TAG b) r.tag).irq .thr b 0
      (List.range k).foldl (fun d _ =>
        d.mboxPostOrLose (mboxWord 6 x.hop r.stall 0 (b2n r.trough.rt.isSome) r.tag) 1 b 0) d) d

/-- The fold after (nf, mf, kf) in the order of R133. -/
def Tile.next (x : Tile) (nf mf kf : Nat) : Nat × Nat × Nat :=
  if kf + 1 < x.kf then (nf, mf, kf + 1)
  else if mf + 1 < x.mf then (nf, mf + 1, 0)
  else (nf + 1, 0, 0)

/-- The multiply-accumulates of a pass (R127). -/
def Tile.macs (x : Tile) (mf : Nat) : Nat :=
  let v := x.vectors mf
  match x.mode with
  | 0 | 1 => v * x.taps * x.rg * x.cg
  | 2 | 3 => v * x.rg * x.cg
  | _ => v * 128 * shapeBays x.shape

/-- Whether a spill holds the next pass on one of these bays (R142). -/
def Dev.spillHolds (d : Dev) (bs : List Nat) : Bool := d.cp.thr.yielded.any (fun r => r.spilling && overlap r.bays bs)

/-- FOLD_COMPLETE: the fold's column sums are in the foot; at the last fold of its group the strips are formed (R114, R115,
R133-R136). -/
def foldComplete (leader : Nat) (d : Dev) : Dev :=
  match d.runAt leader with
  | some r =>
    let x := r.tile
    match r.image with
    | some (_, _, img) =>
      if !d.coreOn ∨ !r.ramped ∨ !r.loaded ∨ !r.refilled ∨ !r.strips.isEmpty ∨ d.spillHolds r.bays then d
      else
        let k0 := r.kf * x.kp
        match d.readActs r k0 (min x.kp (x.k - k0)) (r.mf * x.vr) (x.vectors r.mf) with
        | .data rows ue d1 =>
          if ue ∧ !(r.trough.rt.isNone ∧ r.stall = 0) then d1.failEcc r.trough r.pos
          else
            let first := r.kf == 0 || x.mode == 4
            let old := if first then [] else r.acc
            let acc := x.fold ((rows.map List.toArray).toArray) img.toArray r.mf r.kf first old
            let final := r.kf + 1 == x.kf || x.mode == 4
            let strips := if final then x.strips acc r.nf r.mf r.kf r.stall r.trough.rtKey r.tag r.leader else []
            let nx := x.next r.nf r.mf r.kf
            let same := nx.1 == r.nf && nx.2.2 == r.kf
            let done := r.folds + 1
            let keep := same && !r.yielding && decide (done < x.folds)
            let cyc := r.foldCycles (x.kf != 1 || r.mf == 0)
            let d := (d1.reportClamps r old acc).busy r.bays cyc
            let d := (d.count r.stall cntMac (x.macs r.mf)).progress r.stall
            let r := { r with nf := nx.1, mf := nx.2.1, kf := nx.2.2, folds := done, acc := if final then [] else acc
                              strips := strips, loaded := keep, lead := none }
            let d := d.setRun r
            if keep ∨ x.folds ≤ done ∨ r.yielding then d
            else d.eachBay r.bays (fun b d => (d.wr (R.THR_ACT_STAT_FRONT b) 1).wr (R.THR_ACT_STAT_FRONT_ROW b) 0)
        | .wait => d
        | .quota => d.failDesc r.trough r.pos stQuota
    | none => d
  | none => d

/-! ## Credits and strips (R115, R138, R147) -/

/-- The TILE of a run is finished: all folds done, no strip left. It leaves its gang, and its descriptor's work is done. -/
def Dev.endTile (d : Dev) (leader : Nat) : Dev :=
  match d.runAt leader with
  | some r =>
    let x := r.tile
    if x.folds ≤ r.folds ∧ r.strips.isEmpty ∧ r.flying = 0 then
      let d := (d.clearRun r (x.rg + x.cg)).settleGangs
      match d.findDesc r.trough r.pos with
      | some y => d.updDesc { y with phase := .done }
      | none => d
    else d
  | none => d

/-- CREDIT_TAKE: the foot takes a credit for its next strip, after `held` cycles without one, or the gang holds (R115,
R147). A gang that ramped down in the hold first ramps up again (R116): the strip goes with a later credit. -/
def creditTake (leader held : Nat) (d : Dev) : Dev :=
  match d.runAt leader with
  | some r =>
    match r.strips with
    | [] => d
    | s :: rest =>
      let h := r.tile.hop
      if !d.coreOn ∨ !r.ramped then d
      else if !d.creditFree h r.trough.rt.isSome then d.eachBay r.bays (fun b d => d.wr (R.THR_ACT_STAT_HELD b) 1)
      else
        let full := d.rd (R.THR_ACT_STAT_PHASE leader) == 2
        let d := if d.on (R.THR_ACT_STAT_HELD leader) then
            (d.eachBay r.bays (fun b d => (d.addTo (R.THR_HELD_CYC b) held).wr (R.THR_ACT_STAT_HELD b) 0)).busy r.bays
              (if full then held else 0)
          else d
        if full then (d.takeCredit h s).setRun { r with strips := rest, flying := r.flying + 1 }
        else
          let (n, d) := d.climb r.bays
          (d.setRun { r with ramped := false, rampCyc := n }).eachBay r.bays (fun b d => d.wr (R.THR_ACT_STAT_PHASE b) 1)
  | none => d

/-- Whether sifter `k`'s batch work has to give way: a realtime strip waits in its Hopper, or a realtime SIFT has started on
it (R166). -/
def Dev.rtPressing (d : Dev) (k : Nat) : Bool :=
  !(d.hopper k).rt.isEmpty ||
    d.tn.live.any (fun x => x.opcode == 2 && x.trough.rt.isSome && x.fld 130 2 == k && decide (x.phase ≠ .held) &&
      decide (x.phase ≠ .done))

/-- Raise PREEMPT when the pressure on sifter `k` is new and a batch SIFT runs on it (R166). -/
def Dev.pressOn (d : Dev) (k : Nat) (before : Bool) : Dev :=
  match (d.sifter k).cur with
  | some r => if !before && !r.rt && d.rtPressing k then (d.bump (R.SFT_PREEMPT_COUNT k)).irq .sft k 1 else d
  | none => d

/-- STRIP_ENTER: the oldest strip in flight enters its Hopper's queue; a TILE whose last strip this is has done its work
(R138, R147). -/
def stripEnter (h : Nat) (d : Dev) : Dev :=
  match (d.hopper h).inflight with
  | [] => d
  | s :: _ =>
    if !d.coreOn then d
    else
      let before := d.rtPressing h
      let d := (d.enterStrip h).pressOn h before
      match d.runAt s.src with
      | some r => (d.setRun { r with flying := r.flying - 1 }).endTile s.src
      | none => d

/-- HOLD_RAMP_DOWN: a hold has lasted `cycles`, at least 1,024, in which the bays ran ballast; they ramp down (R116). -/
def holdRampDown (leader cycles : Nat) (d : Dev) : Dev :=
  match d.runAt leader with
  | some r =>
    if 1024 ≤ cycles ∧ d.coreOn ∧ r.bays.all (fun b => d.on (R.THR_ACT_STAT_HELD b) && d.rd (R.THR_ACT_STAT_PHASE b) == 2) then
      (d.busy r.bays cycles).rampDown r.bays
    else d
  | none => d

/-- RAMP_DOWN_DONE: the bays that ramp down with bay `b` have finished, and raise IDLE (R116); a pinned one that its stream
no longer holds becomes a batch bay (R20). -/
def rampDownDone (b : Nat) (d : Dev) : Dev :=
  match d.cp.thr.falling.find? (fun g => g.contains b) with
  | some g =>
    if !d.coreOn then d
    else
      let d := d.setThr { d.cp.thr with falling := d.cp.thr.falling.filter (· != g) }
      let d := d.busy g (d.rampLen g)
      (d.eachBay g (fun b d => (d.wr (R.THR_ACT_STAT_PHASE b) 0).irq .thr b 1)).freePins
  | none => d

/-! ## Yield and resume (R140-R143) -/

/-- The effect of a write of PROG_CTL on bay `b` by `q` (R140): the request is ignored and counted while the gang is pinned
or fewer than 16 yield slots are free. On a bay without a running TILE there is nothing to yield: the request does nothing and
is not counted, also while fewer than 16 slots are free (DESIGN CHOICE). -/
def Dev.progCtl (d : Dev) (q : Req) (b v : Nat) : Dev :=
  if !v.testBit 0 then d
  else if d.on (R.THR_GANG_PINNED b) then d.perr (A.THR_PROG_CTL b) q causeValue
  else match d.runOn b with
  | none => d
  | some r =>
    if (yieldSlots.filter d.slotFree).length < 16 then d.perr (A.THR_PROG_CTL b) q causeValue else d.askYield r

/-- YIELD_TAKE: at a fold boundary the TILE's progress goes to the lowest free slot and its gang is freed; `latency` is the
advancing cycles since the request, at most 2,048 (R141). A TILE that has not read its save area back yet has nothing to spill:
its folds still lie there (R143). -/
def yieldTake (leader latency : Nat) (d : Dev) : Dev :=
  match d.runAt leader, yieldSlots.find? d.slotFree with
  | some r, some s =>
    if !r.yielding ∨ (r.loaded ∧ r.ramped) ∨ !r.strips.isEmpty ∨ r.flying ≠ 0 ∨ 2048 < latency ∨ !d.coreOn then d
    else
      let y := { r with yielding := false, ramped := false, loaded := false, image := none, spilling := r.partially && r.refilled
                        refilled := !r.partially, slot := some s }
      let d := d.eachBay r.bays (fun b d =>
        (d.bump (R.THR_YIELD_COUNT b)).wr (R.THR_YIELD_LAT_MAX_CYC b) (max latency (d.rd (R.THR_YIELD_LAT_MAX_CYC b))))
      let d := d.clearRun r (r.tile.rg + r.tile.cg)
      let d := if y.spilling then d.showAs r 3 else d
      ((d.setThr { d.cp.thr with yielded := d.cp.thr.yielded ++ [y] }).showSlot s y).settleGangs
  | _, _ => d

/-- The bytes a foot spills for one output line (R142): 256 INT32 entries, then their 256 sticky bits. Entries beyond the
group's rows, of which the spec says nothing, are written as 0 with a clear sticky bit (DESIGN CHOICE). -/
def spillLine (l : List (Int × Bool)) : List Byte :=
  (List.range 256).flatMap (fun e => leBytes 4 (ofSigned 32 (l.getD e (0, false)).1)) ++
    (List.range 32).map (fun k => BitVec.ofNat 8
      (((List.range 8).filter (fun i => (l.getD (8 * k + i) (0, false)).2)).foldl (fun v i => v + 2 ^ i) 0))

/-- The line a spill of `n` entries reads back as. -/
def refillLine (n : Nat) (bs : List Byte) : List (Int × Bool) :=
  (List.range n).map (fun e => (toSigned 32 (leAt bs (4 * e) 4), (leAt bs (1024 + e / 8) 1).testBit (e % 8)))

/-- `d` with the yielded run of slot `s` replaced. -/
def Dev.setYielded (d : Dev) (s : Nat) (r : TileRun) : Dev :=
  d.setThr { d.cp.thr with yielded := d.cp.thr.yielded.map (fun x => if x.slot = some s then r else x) }

/-- SPILL_DONE: the foot has written its accumulator file to the save area (R142); the foot works on TCLK (R29). -/
def spillDone (s : Nat) (d : Dev) : Dev :=
  match d.cp.thr.yielded.find? (fun r => r.slot == some s && r.spilling) with
  | some r =>
    let bytes := (List.range r.tile.np).flatMap (fun j => spillLine (r.acc.getD j []))
    if !d.coreOn then d
    else if decide (hostBase ≤ r.tile.saveBase) && !d.egress r.stall 0 then d.failDesc r.trough r.pos stDesc
    else match d.pathWrite r.stall none r.tile.saveBase bytes with
    | .done ue d1 =>
      let y := { r with spilling := false, acc := [] }
      let d := ((d1.hideSpill r).setYielded s y).showSlot s y
      if ue then d.failEcc r.trough r.pos else d
    | .wait => d
    | .quota => d.failDesc r.trough r.pos stQuota
  | none => d

/-- TILE_RESUME: a yielded TILE takes a qualifying gang again, in its original place in the line, while batch work is not
paused (R139, R143). A disabled bay of its named set halts its trough. -/
def tileResume (s : Nat) (d : Dev) : Dev :=
  match d.cp.thr.yielded.find? (fun r => r.slot == some s && !r.spilling) with
  | some r =>
    if !d.coreOn ∨ d.paused then d
    else
      let drop := fun (d : Dev) => (d.setThr { d.cp.thr with yielded := d.cp.thr.yielded.filter (fun x => x.slot != some s) }).freeSlot s
      if d.tileDisabled r.trough r.tile then
        match d.findDesc r.trough r.pos with
        | some x => ((drop d).stopDisabled x).settleGangs
        | none => d
      else match d.pickGang r.trough r.tile with
      | some l =>
        if d.behind r.trough r.order (gangBays r.shape l) then d
        else ((drop d).takeGang { r with leader := l, slot := none, refilled := !r.partially }).settleGangs
      | none => d
  | none => d

/-- REFILL_DONE: the foot has read the save area back (R143). -/
def refillDone (leader : Nat) (d : Dev) : Dev :=
  match d.runAt leader with
  | some r =>
    if r.refilled ∨ !d.coreOn then d
    else match d.pathRead r.stall none r.tile.saveBase (r.tile.np * 1056) with
    | .data bs ue d1 =>
      let acc := (cutUp 1056 r.tile.np bs).map (refillLine (r.tile.rows r.mf))
      let d := d1.setRun { r with refilled := true, acc := acc }
      if ue then d.failEcc r.trough r.pos else d
    | .wait => d
    | .quota => d.failDesc r.trough r.pos stQuota
  | none => d

/-- The effect of a write of BATCH_CTL: a 1 sets RELEASE, a W1S bit (R13), and clears CAUSE_STEWARD (R139). -/
def Dev.batchRelease (d : Dev) (v : Nat) : Dev :=
  if v.testBit 1 then ((d.wr R.THR_BATCH_CTL_RELEASE 1).wr R.THR_BATCH_CTL_CAUSE_STEWARD 0).setPause else d

end Sys2Proof.Machine
end

