-- ==== Sys2Proof/Machine/Work.lean ====
section
/-! DEFINITION. A unit's piece of work on a descriptor: it is done, it has to wait, or it fails its descriptor; and the
reads and writes it makes through the data path (spec/04 R80, spec/12 R219, R225). -/
namespace Sys2Proof.Machine

/-- How a piece of work ends. -/
inductive Work (α : Type) where
  | ok (a : α) (d : Dev)
  /-- Something it needs is not ready: the work has not been done. -/
  | wait
  /-- It fails its descriptor with this status. -/
  | fail (status : Nat) (d : Dev)

/-- One piece of work after another. -/
def Work.bind {α β : Type} (w : Work α) (f : α → Dev → Work β) : Work β :=
  match w with
  | .ok a d => f a d
  | .wait => .wait
  | .fail s d => .fail s d

/-- Fail unless `b`. -/
def Work.check (b : Bool) (status : Nat) (d : Dev) : Work Unit := if b then .ok () d else .fail status d

/-- Wait unless `b`. -/
def Work.when (b : Bool) (d : Dev) : Work Unit := if b then .ok () d else .wait

/-- What a piece of work leaves: unchanged where it waits, the descriptor failed where it fails. -/
def Work.close (w : Work Unit) (d : Dev) (t : TroughId) (pos : Nat) : Dev :=
  match w with
  | .ok () d' => d'
  | .wait => d
  | .fail s d' => if s = stEcc then d'.failEcc t pos else d'.failDesc t pos s

/-- Whether an uncorrectable word faults the work of trough `t`: all but stall 0's own (R219). -/
def TroughId.minds (t : TroughId) : Bool := match t with | .batch 0 _ => false | _ => true

/-- Whether trough `t` may write at address `a`, host memory being egress path 0 (spec/04 R86). -/
def Dev.mayLeave (d : Dev) (t : TroughId) (a : Nat) : Bool := decide (a < hostBase) || d.egress (d.stallOf t) 0

/-- Read `len` bytes for trough `t`. -/
def Dev.getBytes (d : Dev) (t : TroughId) (a len : Nat) : Work (List Byte) :=
  if !d.mayUse t a len then .fail stQuota d
  else match d.pathRead (d.stallOf t) t.rt a len with
  | .data bs ue d' => if ue && t.minds then .fail stEcc d' else .ok bs d'
  | .wait => .wait
  | .quota => .fail stQuota d

/-- Write bytes for trough `t`; to host memory only where its stall may send data there (spec/04 R86). -/
def Dev.putBytes (d : Dev) (t : TroughId) (a : Nat) (bs : List Byte) : Work Unit :=
  if !d.mayUse t a bs.length then .fail stQuota d
  else if !d.mayLeave t a then .fail stDesc d
  else match d.pathWrite (d.stallOf t) t.rt a bs with
  | .done ue d' => if ue && t.minds then .fail stEcc d' else .ok () d'
  | .wait => .wait
  | .quota => .fail stQuota d

/-- The places of a list of data-path byte addresses: all served, or the first that is not. -/
def Dev.locsAt (d : Dev) (t : TroughId) : List Nat → Except Reach (List Loc)
  | [] => .ok []
  | a :: as =>
    match d.reach (d.stallOf t) t.rt a with
    | .ok l =>
      match d.locsAt t as with
      | .ok ls => .ok (l :: ls)
      | .error e => .error e
    | e => .error e

/-- Read the bytes at a list of addresses as one access. -/
def Dev.gather (d : Dev) (t : TroughId) (as : List Nat) : Work (List Byte) :=
  if !as.all (fun a => d.mayUse t a 1) then .fail stQuota d
  else match d.locsAt t as with
  | .ok ls =>
    let r := d.readLocs ls
    if r.2.1 && t.minds then .fail stEcc r.2.2 else .ok r.1 r.2.2
  | .error .wait => .wait
  | .error _ => .fail stQuota d

/-- Write bytes at a list of addresses as one access. -/
def Dev.scatter (d : Dev) (t : TroughId) (as : List Nat) (bs : List Byte) : Work Unit :=
  if !as.all (fun a => d.mayUse t a 1) then .fail stQuota d
  else if !as.all (d.mayLeave t) then .fail stDesc d
  else match d.locsAt t as with
  | .ok ls =>
    let r := d.writeLocs ls bs
    if r.1 && t.minds then .fail stEcc r.2 else .ok () r.2
  | .error .wait => .wait
  | .error _ => .fail stQuota d

/-- Repeat a piece of work over a list. -/
def Dev.each {α : Type} (d : Dev) (f : α → Dev → Work Unit) : List α → Work Unit
  | [] => .ok () d
  | a :: as => (f a d).bind (fun _ d' => d'.each f as)

/-- Do at most `fuel` steps of work, each of which tells whether the next may follow; a wait keeps what the steps before it
did. -/
def Dev.steps (f : Dev → Work Bool) : Nat → Dev → Work Unit
  | 0, d => .ok () d
  | n + 1, d =>
    match f d with
    | .ok true d' => Dev.steps f n d'
    | .ok false d' => .ok () d'
    | .wait => .ok () d
    | .fail s d' => .fail s d'

/-- Whether every index below `n` satisfies `p`. -/
def allBelow (p : Nat → Bool) : Nat → Bool
  | 0 => true
  | n + 1 => p n && allBelow p n

end Sys2Proof.Machine
end

