-- ==== Sys2Proof/Machine/Turner.lean ====
section
/-! DEFINITION. Silo and Cellar as memories, and the Turner's MOVE (spec/12 R216-R236). -/
namespace Sys2Proof.Machine

/-! ## The MOVE body (Table 12-3) -/

/-- A MOVE body. -/
structure Move where
  kind : Nat
  esize : Nat
  chan : Nat
  cols : Nat
  rows : Nat
  src : Nat
  dst : Nat
  srcPitch : Nat
  dstPitch : Nat
  fill : Nat
  deriving DecidableEq, Repr

/-- The MOVE body of a descriptor. -/
def Move.of (b : DescWord) : Move :=
  let f := fun k w => bits b.toNat (8 * k) w
  ⟨f 16 2, bits b.toNat 130 2, bits b.toNat 132 2, f 20 32, f 24 32, f 28 64, f 36 64, f 44 32, f 48 32, f 52 32⟩

/-- Element size in bytes, bytes of a row, and T. -/
def Move.e (x : Move) : Nat := 2 ^ x.esize
def Move.rowBytes (x : Move) : Nat := x.cols * x.e
def Move.tileSide (x : Move) : Nat := 128 / x.e

/-- A set of bytes laid out in rows: base, pitch, rows, bytes per row. -/
structure ByteRows where
  base : Nat
  pitch : Nat
  rows : Nat
  len : Nat
  deriving DecidableEq, Repr

/-- The bytes a MOVE reads, and those it writes (R227). -/
def Move.source (x : Move) : ByteRows := ⟨x.src, x.srcPitch, x.rows, x.rowBytes⟩
def Move.target (x : Move) : ByteRows :=
  if x.kind = 1 then ⟨x.dst, x.dstPitch, x.cols, x.rows * x.e⟩ else ⟨x.dst, x.dstPitch, x.rows, x.rowBytes⟩

/-- The first byte past a set. -/
def ByteRows.top (s : ByteRows) : Nat := s.base + (s.rows - 1) * s.pitch + s.len

/-- Whether the bytes `x` to `x + l - 1` meet a row of `s`. -/
def ByteRows.meets (s : ByteRows) (x l : Nat) : Bool :=
  if s.pitch = 0 then decide (s.base < x + l ∧ x < s.base + s.len)
  else
    let first := if x < s.base + s.len then 0 else (x - s.base - s.len) / s.pitch + 1
    decide (first < s.rows ∧ s.base + first * s.pitch < x + l)

/-- Whether two sets share a byte. -/
def ByteRows.overlaps (s t : ByteRows) : Bool :=
  if s.top ≤ t.base ∨ t.top ≤ s.base then false
  else
    let n := if s.pitch = 0 then 1 else s.rows
    !allBelow (fun r => !t.meets (s.base + r * s.pitch) s.len) n

/-- Whether a MOVE body obeys Table 12-3 and R228; SRC alone is ignored for a fill. -/
def Move.wellFormed (b : DescWord) : Bool :=
  let x := Move.of b
  let fill := decide (x.kind = 2)
  let al := fun v => v % x.e == 0
  bits b.toNat 134 26 == 0 && bits b.toNat 448 64 == 0 && decide (x.kind < 3) && decide (x.esize < 3) &&
    decide (0 < x.cols) && decide (0 < x.rows) &&
    al x.dst && al x.dstPitch && al x.srcPitch && (fill || al x.src) &&
    (if x.kind = 1 then decide (x.cols ≤ 65536 ∧ x.rows ≤ 65536 ∧ x.rowBytes ≤ x.srcPitch ∧ x.rows * x.e ≤ x.dstPitch)
      else decide (x.rows = 1 ∨ x.rowBytes ≤ x.dstPitch)) &&
    (fill || !x.source.overlaps x.target)

/-- Whether trough `t` may use every row of a set (R225). -/
def Dev.rowsMayUse (d : Dev) (t : TroughId) (s : ByteRows) : Bool :=
  d.mayUse t s.base (s.top - s.base) || allBelow (fun r => d.mayUse t (s.base + r * s.pitch) s.len) s.rows

/-- Whether a set lies in host memory. -/
def ByteRows.inHost (s : ByteRows) : Bool := decide (hostBase ≤ s.base)

/-! ## Groups (R229, R230) -/

/-- Lines that `n` bytes from `a` touch. -/
def linesOf (a n : Nat) : Nat := (a + n - 1) / 128 - a / 128 + 1

/-- Lines of row `r` of a copy or fill: the larger of what it reads and what it writes (DEDUCED: "the lines that the row
touches"). -/
def Move.rowLines (x : Move) (r : Nat) : Nat :=
  let d := linesOf (x.dst + r * x.dstPitch) x.rowBytes
  if x.kind = 2 then d else max d (linesOf (x.src + r * x.srcPitch) x.rowBytes)

/-- Lines of rows 0 to `n - 1`, for `n` at most 128. -/
def Move.linesTo (x : Move) : Nat → Nat
  | 0 => 0
  | n + 1 => x.linesTo n + x.rowLines n

/-- Lines of the whole of a copy or fill; a row's count depends on its number modulo 128 alone. -/
def Move.lines (x : Move) : Nat := (x.rows / 128) * x.linesTo 128 + x.linesTo (x.rows % 128)

/-- Groups of a MOVE: 64 lines each, or one transpose tile. -/
def Move.groups (x : Move) : Nat :=
  if x.kind = 1 then ceilDiv x.rows x.tileSide * ceilDiv x.cols x.tileSide else ceilDiv x.lines 64

/-- The row, and the line within it, of line `k` counted from row `r`, at most `fuel` rows on. -/
def Move.seek (x : Move) : Nat → Nat → Nat → Nat × Nat
  | 0, r, k => (r, k)
  | fuel + 1, r, k => if k < x.rowLines r then (r, k) else x.seek fuel (r + 1) (k - x.rowLines r)

/-- The row of line `k` of a MOVE, and the line within the row. -/
def Move.lineAt (x : Move) (k : Nat) : Nat × Nat :=
  let p := x.linesTo 128
  let (r, l) := x.seek 128 0 (k % p)
  (k / p * 128 + r, l)

/-- The bytes of row `r` that line `l` writes: their first offset in the row, and how many. -/
def Move.lineSpan (x : Move) (r l : Nat) : Nat × Nat :=
  let a := x.dst + r * x.dstPitch
  let lo := max a ((a / 128 + l) * 128)
  let hi := min (a + x.rowBytes) ((a / 128 + l + 1) * 128)
  (lo - a, hi - lo)

/-- The first source row and the first source column of transpose tile `g`. -/
def Move.tileAt (x : Move) (g : Nat) : Nat × Nat :=
  let n := ceilDiv x.cols x.tileSide
  (g / n * x.tileSide, g % n * x.tileSide)

/-- The lines of group `g`: of a transpose tile, the rows it writes. -/
def Move.groupLines (x : Move) (g : Nat) : Nat :=
  if x.kind = 1 then min x.tileSide (x.cols - (x.tileAt g).2) else min 64 (x.lines - 64 * g)

/-- The (source, destination) byte addresses of line `k` of group `g`, in the order they are moved; the source of a fill is the
offset in its row. -/
def Move.pairs (x : Move) (g k : Nat) : List (Nat × Nat) :=
  if x.kind = 1 then
    let (r0, i0) := x.tileAt g
    (List.range (min x.tileSide (x.rows - r0))).flatMap (fun r =>
      (List.range x.e).map (fun b => (x.src + (r0 + r) * x.srcPitch + (i0 + k) * x.e + b,
        x.dst + (i0 + k) * x.dstPitch + (r0 + r) * x.e + b)))
  else
    let (r, l) := x.lineAt (64 * g + k)
    let (o, n) := x.lineSpan r l
    (List.range n).map (fun b =>
      (if x.kind = 2 then o + b else x.src + r * x.srcPitch + o + b, x.dst + r * x.dstPitch + o + b))

/-- Move one line. -/
def Move.line (x : Move) (t : TroughId) (g k : Nat) (d : Dev) : Work Unit :=
  let ps := x.pairs g k
  (if x.kind = 2 then Work.ok (ps.map (fun p => BitVec.ofNat 8 (x.fill >>> (8 * (p.1 % 4))))) d
    else d.gather t (ps.map (·.1))).bind fun bs d => d.scatter t (ps.map (·.2)) bs

/-! ## Channels (R230) -/

/-- Whether a realtime MOVE has started for channel `c` and waits for it. -/
def Dev.rtMoveWaits (d : Dev) (c : Nat) : Bool :=
  d.tn.live.any (fun x => x.opcode == 3 && x.trough.rt.isSome && (Move.of x.bits).chan == c && decide (x.phase = .started))

/-- Whether batch MOVEs of channel `c` have to stand back: a realtime MOVE waits, batch work is paused, or the Turner drains. -/
def Dev.moveHeldBack (d : Dev) (c : Nat) : Bool := d.rtMoveWaits c || d.paused || d.pw.draining.contains 61

/-- Whether a started MOVE may take its channel now: the channel is free and none of its kind started earlier waits. -/
def Dev.moveMayBegin (d : Dev) (y : Desc) (c : Nat) : Bool :=
  let s := d.channel c
  let earlier := d.tn.live.any (fun z => z.opcode == 3 && (Move.of z.bits).chan == c && decide (z.phase = .started) &&
    z.trough.rt.isSome == y.trough.rt.isSome && decide (z.order < y.order))
  d.coreOn && d.domOn 61 && s.cur.isNone && !earlier && (y.trough.rt.isSome || (s.held.isNone && !d.moveHeldBack c))

/-- Channel `c` takes up descriptor `y`: its context shows it (Table 12-7). -/
def Dev.takeChannel (d : Dev) (c : Nat) (y : Desc) (s : Channel) : Dev :=
  let d := d.setChannel c s
  let d := ((d.wr (R.TRN_CH_STAT_STALL c) (d.stallOf y.trough)).wr (R.TRN_CH_STAT_TAG c) y.tag).wr (R.TRN_CH_POS c) y.pos
  (d.wr (R.TRN_CH_DONE c) y.prog).wr (R.TRN_CH_TOTAL c) (Move.of y.bits).groups

/-- One line of the MOVE at a place; true while more may follow. A batch MOVE that has to stand back does so at a group
boundary. -/
def moveStep (t : TroughId) (pos c : Nat) (d : Dev) : Work Bool :=
  match d.findDesc t pos with
  | none => .wait
  | some y =>
    let x := Move.of y.bits
    if t.rt.isNone ∧ y.aux = 0 ∧ d.moveHeldBack c then .wait
    else (x.line t y.prog y.aux d).bind fun _ d =>
      if y.aux + 1 < x.groupLines y.prog then .ok true (d.updDesc { y with aux := y.aux + 1 })
      else
        let n := y.prog + 1
        let d := (d.wr (R.TRN_CH_DONE c) n).progress (d.stallOf t)
        if x.groups ≤ n then
          .ok false ((d.updDesc { y with prog := n, aux := 0, phase := .done }).setChannel c { d.channel c with cur := none })
        else .ok true (d.updDesc { y with prog := n, aux := 0 })

/-- MOVE: a started MOVE takes its channel, or one that has it moves up to `fuel` further lines (R227-R230). -/
def move (t : TroughId) (pos fuel : Nat) (d : Dev) : Dev :=
  match d.findDesc t pos with
  | none => d
  | some y =>
    let c := (Move.of y.bits).chan
    if y.opcode ≠ 3 then d
    else if y.phase = .started then
      if d.moveMayBegin y c then
        (d.takeChannel c y { d.channel c with cur := some (t, pos) }).updDesc { y with phase := .working }
      else d
    else if (d.channel c).cur = some (t, pos) ∧ d.coreOn ∧ d.domOn 61 then
      (Dev.steps (moveStep t pos c) fuel d).close d t pos
    else d

/-- MOVE_YIELD: the batch MOVE of channel `c` stands back at a group boundary; `latency` is the advancing cycles since the
request, at most 160 (R230). -/
def moveYield (c latency : Nat) (d : Dev) : Dev :=
  let s := d.channel c
  match s.cur with
  | some (t, pos) =>
    if t.rt.isSome ∨ s.held.isSome ∨ !d.moveHeldBack c ∨ 160 < latency ∨ !d.coreOn ∨
      ((d.findDesc t pos).map (·.aux)).getD 0 ≠ 0 then d
    else ((d.setChannel c ⟨none, some (t, pos)⟩).bump (R.TRN_CH_YIELD_COUNT c)).wr R.TRN_YIELD_LAT_MAX_CYC
      (max latency (d.rd R.TRN_YIELD_LAT_MAX_CYC))
  | none => d

/-- MOVE_RESUME: with no realtime MOVE waiting and no pause, the MOVE set aside goes on (R230). -/
def moveResume (c : Nat) (d : Dev) : Dev :=
  let s := d.channel c
  match s.held with
  | some (t, pos) =>
    if s.cur.isSome ∨ d.moveHeldBack c ∨ !d.coreOn ∨ !d.domOn 61 then d
    else match d.findDesc t pos with
    | some y => d.takeChannel c y ⟨some (t, pos), none⟩
    | none => d
  | none => d

/-! ## Silo as a memory (R217-R224) -/

/-- The sixteen banks. -/
def banks : List Nat := List.range 16

/-- Whether no stall has a Silo extent and no stream is enabled (R217). -/
def Dev.siloUnused (d : Dev) : Bool :=
  hostStalls.all (fun n => (d.siloExtents n).all (fun e => e.2 == 0)) && (List.range 32).all (fun s => !d.on (R.SEQ_STRM_CFG_EN s))

/-- The effect of a write of SIL[0].INTERLEAVE (R217). -/
def Dev.interleave (d : Dev) (q : Req) (v : Nat) : Dev :=
  let m := bits v 0 2
  if m = 3 ∨ !d.siloUnused then d.perr A.SIL_INTERLEAVE q causeValue
  else if m = d.rd R.SIL_INTERLEAVE_MODE then d
  else
    let d := d.wr R.SIL_INTERLEAVE_MODE m
    { d with mem := { d.mem with bankPend := banks } }

/-- Zero bank `b` with good check bits. -/
def Dev.zeroBank (d : Dev) (b : Nat) : Dev :=
  { d with mem := { d.mem with silo := d.mem.silo.keep (fun a => d.bankOf a != b)
                               ecc := d.mem.ecc.keep (fun w => d.bankOf (8 * w) != b) } }

/-- BANK_ZERO_DONE: bank `b` has zeroed itself and serves requests (R217, R221, R224). -/
def bankZeroDone (b : Nat) (d : Dev) : Dev :=
  if d.mem.bankPend.contains b ∧ d.coreOn then
    let d := d.zeroBank b
    { d with mem := { d.mem with bankPend := d.mem.bankPend.filter (· != b) } }
  else d

/-- SCRUB_LINE: the patrol scrubber reads the next line of bank `b`, corrects what it can and reports the rest (R220). -/
def scrubLine (b : Nat) (d : Dev) : Dev :=
  if d.rd (R.SIL_SCRUB_INT b) = 0 ∨ !d.coreOn ∨ !d.domOn (24 + b) ∨ d.mem.bankPend.contains b then d
  else
    let l := d.mem.scrubLine.get (fun _ => 0) b
    let d := (List.range 16).foldl (fun d i => d.eccTouch (d.bankAddr b (128 * l + 8 * i) / 8)) d
    { d with mem := { d.mem with scrubLine := d.mem.scrubLine.set (fun _ => 0) b ((l + 1) % 32768) } }

/-! ## Placement (R222, R223) -/

/-- ZERO_PEND of Silo and of Cellar follow their lists. -/
def Dev.setSiloPend (d : Dev) (gs : List Nat) : Dev :=
  ({ d with mem := { d.mem with siloPend := gs } }).wr R.SIL_ZERO_PEND_COUNT gs.length
def Dev.setCelPend (d : Dev) (gs : List Nat) : Dev :=
  ({ d with mem := { d.mem with celPend := gs } }).wr R.CEL_ZERO_PEND_COUNT gs.length

/-- Whether no two non-empty extents of a list share a granule. -/
def extentsApart : List (Nat × Nat) → Bool
  | [] => true
  | e :: es => es.all (fun f => e.2 == 0 || f.2 == 0 || decide (e.1 + e.2 ≤ f.1 ∨ f.1 + f.2 ≤ e.1)) && extentsApart es

/-- The number of an extents list's last non-empty one. -/
def lastFull (es : List (Nat × Nat)) : Option Nat :=
  ((List.range es.length).filter (fun i => (es.getD i (0, 0)).2 != 0)).getLast?

/-- Whether changing extent `x` of `old` to `e` is one of the two changes allowed while the stall's job is open. -/
def extentGrows (old : List (Nat × Nat)) (x : Nat) (e : Nat × Nat) : Bool :=
  let o := old.getD x (0, 0)
  e == o || (match lastFull old with
    | none => e.2 != 0
    | some l => (decide (l < x) && e.2 != 0) || (x == l && e.1 == o.1 && decide (o.2 < e.2)))

/-- Whether a write of extent `x` of stall `n` to `e` obeys R222. -/
def Dev.extentFits (d : Dev) (cellar : Bool) (n x : Nat) (e : Nat × Nat) : Bool :=
  let es := fun m => if cellar then d.celExtents m else d.siloExtents m
  let new := (es n).set x e
  let grant := if cellar then d.rd (R.STL_Q_CELLAR_GRAN n) else d.rd (R.STL_Q_SILO_GRAN n)
  let top := if cellar then d.rd R.CEL_SIZE_MIB * 1024 else 1024
  (new.map (·.2)).foldl (· + ·) 0 == grant &&
    extentsApart (hostStalls.flatMap (fun m => if m = n then new else es m)) &&
    new.all (fun f => f.2 == 0 || decide (f.1 + f.2 ≤ top)) &&
    (d.jobState n == jobClosed || extentGrows (es n) x e)

/-- The effect of a write of extent `x` of stall `n`: granules that change owner wait to be zeroed (R222, R223). -/
def Dev.extentWrite (d : Dev) (q : Req) (cellar : Bool) (n x v : Nat) : Dev :=
  let i := (n - 1) * 8 + x
  let addr := if cellar then A.CEL_EXTENT i else A.SIL_EXTENT i
  let e := if cellar then (bits v 0 16, bits v 16 16) else (bits v 0 10, bits v 16 11)
  if n = 0 ∨ 8 < n ∨ 8 ≤ x then d
  else if !d.extentFits cellar n x e then d.perr addr q causeValue
  else
    let o := ((if cellar then d.celExtents n else d.siloExtents n).getD x (0, 0))
    let d1 := d.storeWord addr v
    let gs := (List.range o.2).map (o.1 + ·) ++ ((List.range e.2).map (e.1 + ·)).filter (fun g => !decide (o.1 ≤ g ∧ g < o.1 + o.2))
    if cellar then
      let moved := gs.filter (fun g => d.celOwner g != d1.celOwner g && !d.mem.celPend.contains g)
      d1.setCelPend (d.mem.celPend ++ moved)
    else
      let moved := gs.filter (fun g => d.siloOwner g != d1.siloOwner g && !d.mem.siloPend.contains g)
      d1.setSiloPend (d.mem.siloPend ++ moved)

/-- GRANULE_ZERO_DONE: granule `g` has been zeroed, and accesses to it proceed (R223). -/
def granuleZeroDone (cellar : Bool) (g : Nat) (d : Dev) : Dev :=
  if cellar then
    if d.mem.celPend.contains g ∧ d.on R.CEL_STAT_TRAINED then
      let d := { d with mem := { d.mem with cellar := d.mem.cellar.keep (fun a => a / cellarGranule != g) } }
      d.setCelPend (d.mem.celPend.filter (· != g))
    else d
  else if d.mem.siloPend.contains g ∧ d.coreOn then
    let d := { d with mem := { d.mem with silo := d.mem.silo.keep (fun a => a / siloGranule != g)
                                          ecc := d.mem.ecc.keep (fun w => 8 * w / siloGranule != g) } }
    d.setSiloPend (d.mem.siloPend.filter (· != g))
  else d

/-! ## Cellar (R231-R236) -/

/-- The channel pairs that are on. -/
def Dev.pairOn (d : Dev) : Bool := [40, 41, 42, 43].any d.domOn

/-- CELLAR_TRAINED: the Steward has trained the interface (R233). -/
def cellarTrained (d : Dev) : Dev :=
  if d.pairOn then
    let (found, d) := (List.range 8).foldl (fun (p : List Nat × Dev) _ =>
      let (v, d) := p.2.freeNext
      (p.1 ++ [v], d)) ([], d)
    ({ d with mem := { d.mem with training := found } }).wr R.CEL_STAT_TRAINED 1
  else d

/-- The effect of a write of CEL.CFG (R236): ignored and counted while TRAINED is 1, and for DENS 5-7 or RATE 3; SIZE
follows the density (Table 12-5). -/
def Dev.celCfg (d : Dev) (q : Req) (v : Nat) : Dev :=
  if d.on R.CEL_STAT_TRAINED ∨ 4 < bits v 0 3 ∨ bits v 4 2 = 3 then d.perr A.CEL_CFG q causeValue
  else
    let d := d.storeWord A.CEL_CFG v
    d.wr R.CEL_SIZE_MIB (8 * d.rd R.CEL_CFG_DENS)

end Sys2Proof.Machine
end

