-- ==== Sys2Proof/Machine/Granary.lean ====
section
/-! DEFINITION. The Granary and the Granary service routine (spec/13 R237-R259). -/
namespace Sys2Proof.Machine

/-! ## The Steward core as the Granary needs it (spec/18 R362) -/

/-- Integer register `i` of the Steward, and its replacement; x0 stays zero. -/
def Dev.xreg (d : Dev) (i : Nat) : Nat := (d.sy.x.get (fun _ => 0) i).toNat
def Dev.setX (d : Dev) (i v : Nat) : Dev :=
  if i = 0 then d else { d with sy := { d.sy with x := d.sy.x.set (fun _ => 0) i (BitVec.ofNat 64 v) } }

/-- What an unlisted control and status register reads as: misa as R362 gives it, the others zero. -/
def csrReset (i : Nat) : BitVec 64 := if i = 0x301 then 0x8000000000101105 else 0

/-- A control and status register of the Steward, and its replacement. -/
def Dev.csr (d : Dev) (i : Nat) : Nat := (d.sy.csrs.get csrReset i).toNat
def Dev.setCsr (d : Dev) (i v : Nat) : Dev :=
  { d with sy := { d.sy with csrs := d.sy.csrs.set csrReset i (BitVec.ofNat 64 v) } }

/-- The Steward takes an exception as the RISC-V privileged specification that R362 names defines it: mepc, mcause and mtval
are written, mstatus saves MIE and the privilege, and the pc goes to mtvec's base, in its vectored mode plus 4 × the cause of
an interrupt. -/
def Dev.stwTrap (d : Dev) (cause tval : Nat) : Dev :=
  let st := d.csr 0x300
  let st' := setBits (setBits (setBits st 7 1 (bits st 3 1)) 3 1 0) 11 2 d.sy.priv
  let d := (((d.setCsr 0x341 d.sy.pc).setCsr 0x342 cause).setCsr 0x343 tval).setCsr 0x300 st'
  let vec := if d.csr 0x305 % 4 = 1 ∧ 2 ^ 63 ≤ cause then 4 * (cause - 2 ^ 63) else 0
  { d with sy := { d.sy with pc := d.csr 0x305 / 4 * 4 + vec, priv := 3, wfi := false } }

/-! ## Words, addresses, protections -/

/-- Word `w` of the array (sector × 512 + word), erased where nothing is listed. -/
def gBlank : Nat → GWord := fun _ => .erased 0
def Dev.gword (d : Dev) (w : Nat) : GWord := d.gr.words.get gBlank w
def Dev.setGword (d : Dev) (w : Nat) (x : GWord) : Dev := { d with gr := { d.gr with words := d.gr.words.set gBlank w x } }

/-- Whether a word is erased (R239), the bits a read of it corrects, and whether it is uncorrectable. -/
def GWord.isErased : GWord → Bool
  | .erased _ => true
  | _ => false
def GWord.corr : GWord → Nat
  | .erased c | .prog _ c => c
  | .bad => 0
def GWord.isBad : GWord → Bool
  | .bad => true
  | _ => false

/-- What a read of a word returns (R239, R255). -/
def GWord.value : GWord → Nat
  | .erased _ => 2 ^ 64 - 1
  | .prog v _ => v.toNat
  | .bad => 0

/-- The partner of a word, and whether the word is an upper one (R237). -/
def gUpper (w : Nat) : Bool := decide (256 ≤ w % 512)
def gPartner (w : Nat) : Nat := if gUpper w then w - 256 else w + 256

/-- The reserved sectors begin here; the array ends here (R238). -/
abbrev gReserved : Nat := 32752
abbrev gSectors : Nat := 32768

/-- Whether a G-address lies in the window views. -/
def gView (a : Nat) : Bool := decide (0x10000000 ≤ a)

/-- The window a G-address names, and its logical byte. -/
def gWindow (a : Nat) : Nat × Nat := ((a - 0x10000000) / 0x2000000, a % 0x2000000)

/-- The physical byte of a G-address (Table 13-1, R251); none outside the map. -/
def Dev.gPhys (d : Dev) (a : Nat) : Option Nat :=
  if a < 0x8000000 then some a
  else if 0x10000000 ≤ a ∧ a < 0x18000000 then
    let (w, x) := gWindow a
    if d.on (R.GRN_WIN_L_EN w) ∧ x < d.rd (R.GRN_WIN_L w) * 4096 then
      some ((d.rd (R.GRN_WIN_FIRST_SECTOR w) + (d.rd (R.GRN_WIN_BASE w) + x / 4096) % max 1 (d.rd (R.GRN_WIN_P w))) * 4096 + x % 4096)
    else none
  else none

/-- The eight execute-only regions, and whether region `x` is in force over a sector (R253). -/
def xoRegions : List Nat := [0, 1, 2, 3, 4, 5, 6, 7]
def Dev.xoCovers (d : Dev) (x sector : Nat) : Bool :=
  d.on (R.GRN_XO_COUNT_EN x) &&
    decide (d.rd (R.GRN_XO_BASE_SECTOR x) ≤ sector ∧ sector < d.rd (R.GRN_XO_BASE_SECTOR x) + d.rd (R.GRN_XO_COUNT x))

/-- Whether a sector is execute-only, and whether a program or erase of it is forbidden (R238, R253). -/
def Dev.xoOnly (d : Dev) (sector : Nat) : Bool := xoRegions.any (fun x => d.xoCovers x sector)
def Dev.gForbidden (d : Dev) (sector : Nat) : Bool :=
  decide (gReserved ≤ sector) || xoRegions.any (fun x => d.xoCovers x sector && !d.on (R.GRN_XO_COUNT_WRITABLE x))

/-! ## The service routine (R240-R242) -/

/-- Return codes (Table 13-3). -/
abbrev gOk : Nat := 0
abbrev gBadArg : Nat := 1
abbrev gProtected : Nat := 2
abbrev gBusy : Nat := 3
abbrev gNotErased : Nat := 4
abbrev gPairOrder : Nat := 5
abbrev gProgramFail : Nat := 6
abbrev gWarnPair : Nat := 7
abbrev gPairLost : Nat := 8

/-- Whether the Granary's domain is on, and an erase runs. -/
def Dev.gOn (d : Dev) : Bool := d.domOn 52
def Dev.erasing (d : Dev) : Bool := d.rd R.GRN_ERASE_STAT_STATE == 1

/-- A GSR call returns: a0 and a1 (R240). -/
def Dev.gsrRet (d : Dev) (code res : Nat) : Dev := (d.setX 10 code).setX 11 res

/-- Fill `n` double words of tightly coupled SRAM from offset `a` with open values. -/
def Dev.openBytes (d : Dev) (a : Nat) : Nat → Dev
  | 0 => d
  | n + 1 =>
    let (v, d1) := d.freeNext
    let put := fun (m : NMap Byte) (p : Nat × Byte) => m.set zeroByte p.1 p.2
    let bs := ((List.range 8).map (a + ·)).zip (leBytes 8 v)
    ({ d1 with mem := { d1.mem with tcsram := bs.foldl put d1.mem.tcsram } }).openBytes (a + 8) n

/-- The 512 bytes below sp that a call leaves with unspecified contents (R240), where sp points into the SRAM. -/
def Dev.gsrStack (d : Dev) : Dev :=
  let sp := d.xreg 2
  if 0x10000200 ≤ sp ∧ sp ≤ 0x10040000 then d.openBytes (sp - 0x200 - 0x10000000) 64 else d

/-- Whether a call can run now: the core runs in M mode, and the controller takes requests or is switched off (R240, R256). -/
def Dev.gsrRuns (d : Dev) : Bool := d.sy.mode != .inReset && d.sy.priv == 3 && (d.gr.ready || !d.gOn)

/-- The GSR entry vector (R240). -/
abbrev gsrVector : Nat := 0x100

/-- A jump into mask ROM from U mode: an instruction access fault (R240). -/
def Dev.gsrFault (d : Dev) : Dev := ({ d with sy := { d.sy with pc := gsrVector } }).stwTrap 1 gsrVector

/-- A GSR call as the Steward makes it: its stack is used, and the code and result of `f` return in a0 and a1; from U mode it
faults. A Steward reset that is requested meanwhile is taken after it (R257). -/
def gsrCall (f : Dev → Nat × Nat × Dev) (d : Dev) : Dev :=
  if d.gsrRuns then
    let (code, res, d1) := f d
    let d2 := d1.gsrStack.gsrRet code res
    { d2 with sy := { d2.sy with afterCall := d.sy.resetReq } }
  else if d.sy.mode != .inReset && d.sy.priv != 3 then d.gsrFault
  else d

/-- INFO: the GSR epoch and the sectors available to firmware (Table 13-2). -/
def Dev.gsrInfo (d : Dev) : Nat × Nat × Dev :=
  if !d.gOn then (gBusy, 0, d) else (gOk, Config.gsrEpoch.toNat + gReserved * 65536, d)

/-- Invalidate the prefetch and branch-cache lines of a sector (R244, R254). -/
def Dev.gInvalidate (d : Dev) (sector : Nat) : Dev :=
  let keep := fun (l : Nat) => l / 128 != sector
  { d with gr := { d.gr with prefetch := d.gr.prefetch.filter keep, bcache := d.gr.bcache.filter keep } }

/-- What a program that reads back wrong leaves: an open value other than the data, or an uncorrectable word. -/
def Dev.gBadWrite (d : Dev) (w : Nat) (data : BitVec 64) : Dev :=
  let (v, d1) := d.freeNext
  d1.setGword w (if BitVec.ofNat 64 v = data then .bad else .prog (BitVec.ofNat 64 v) 0)

/-- The partner of an upper word after its program: `p` as R245 lets it be disturbed. -/
def GWord.disturb (x : GWord) (p : GPartner) : GWord :=
  match p, x with
  | none, _ => .bad
  | _, .bad => .bad
  | some c, .erased _ => .erased c.val
  | some c, .prog v _ => .prog v c.val

/-- PROGRAM of the word at G-address `a` (R242-R245): `fails` says that the word reads back wrong, `corr` how many bits a
read of it then corrects, `partner` what an upper word's program leaves in its partner. -/
def Dev.gsrProgram (d : Dev) (a : Nat) (data : BitVec 64) (fails : Bool) (corr : Fin 3) (partner : GPartner) : Nat × Nat × Dev :=
  match d.gPhys a with
  | none => (gBadArg, 0, d)
  | some p =>
    let w := p / 8
    let q := gPartner w
    let up := gUpper w
    if a % 8 ≠ 0 then (gBadArg, 0, d)
    else if d.gForbidden (p / 4096) then (gProtected, 0, d)
    else if d.erasing ∨ !d.gOn then (gBusy, 0, d)
    else if !(d.gword w).isErased then (gNotErased, 0, d)
    else if !up ∧ !(d.gword q).isErased then (gPairOrder, 0, d)
    else if data.toNat = 2 ^ 64 - 1 then (gOk, if up then (d.gword q).corr else 0, d)
    else
      let d := d.gInvalidate (p / 4096)
      let d := if fails then d.gBadWrite w data else d.setGword w (.prog data corr.val)
      let d := if up then d.setGword q ((d.gword q).disturb partner) else d
      let c := if up then (d.gword q).corr else 0
      (if fails then gProgramFail
        else if up ∧ (d.gword q).isBad then gPairLost
        else if up ∧ d.rd R.GRN_CFG_ECC_WARN_THRESH < c then gWarnPair
        else gOk, c, d)

/-- ERASE_START of the sector at G-address `a`, billed to a stall (R247, R248, R252). -/
def Dev.gsrErase (d : Dev) (a stall : Nat) : Nat × Nat × Dev :=
  match d.gPhys a with
  | none => (gBadArg, 0, d)
  | some p =>
    let s := p / 4096
    if a % 4096 ≠ 0 ∨ 8 < stall then (gBadArg, 0, d)
    else if d.gForbidden s then (gProtected, 0, d)
    else if d.erasing ∨ !d.gOn then (gBusy, 0, d)
    else
      let win := if gView a ∧ (gWindow a).2 = 0 then some (gWindow a).1 else none
      let d := ((d.gInvalidate s).wr R.GRN_ERASE_STAT_SECTOR s).wr R.GRN_ERASE_STAT_STATE 1
      let d := ((d.wr R.GRN_ERASE_STAT_SUSPENDED 0).wr R.GRN_ERASE_SUSP_US 0).count stall cntErase 1
      (gOk, s, { d with gr := { d.gr with eraseWin := win, eraseStall := stall } })

/-- ERASE_POLL: the state, and DONE or FAILED returns to NONE (R247). -/
def Dev.gsrPoll (d : Dev) : Nat × Nat × Dev :=
  let st := d.rd R.GRN_ERASE_STAT_STATE
  if !d.gOn then (gBusy, 0, d) else (gOk, st, if st = 2 ∨ st = 3 then d.wr R.GRN_ERASE_STAT_STATE 0 else d)

/-- VERIFY_ERASED: how many words of a sector are not erased (Table 13-2). -/
def Dev.gsrVerify (d : Dev) (a : Nat) : Nat × Nat × Dev :=
  match d.gPhys a with
  | none => (gBadArg, 0, d)
  | some p =>
    let s := p / 4096
    if a % 4096 ≠ 0 then (gBadArg, 0, d)
    else if gReserved ≤ s then (gProtected, 0, d)
    else if d.erasing ∨ !d.gOn then (gBusy, 0, d)
    else (gOk, ((List.range 512).filter (fun i => !(d.gword (512 * s + i)).isErased)).length, d)

/-- XO_SET: region `x` over physical sectors (R253). -/
def Dev.gsrXo (d : Dev) (x first count flags : Nat) : Nat × Nat × Dev :=
  if 7 < x ∨ gSectors < first + count ∨ gSectors ≤ first ∨ 7 < flags then (gBadArg, 0, d)
  else if gReserved < first + count ∨ d.on (R.GRN_XO_COUNT_LOCK x) then (gProtected, 0, d)
  else if !d.gOn then (gBusy, 0, d)
  else
    let d := (d.wr (R.GRN_XO_BASE_SECTOR x) first).wr (R.GRN_XO_COUNT x) count
    (gOk, 0, ((d.wr (R.GRN_XO_COUNT_EN x) flags).wr (R.GRN_XO_COUNT_WRITABLE x) (flags / 2)).wr (R.GRN_XO_COUNT_LOCK x) (flags / 4))

/-- The four windows, and whether `count` sectors from `first` meet the run of enabled window `w`. -/
def gWindows : List Nat := [0, 1, 2, 3]
def Dev.winMeets (d : Dev) (w first count : Nat) : Bool :=
  d.on (R.GRN_WIN_L_EN w) && decide (first < d.rd (R.GRN_WIN_FIRST_SECTOR w) + d.rd (R.GRN_WIN_P w) ∧
    d.rd (R.GRN_WIN_FIRST_SECTOR w) < first + count)

/-- Whether `count` sectors from `first` meet execute-only region `x`. -/
def Dev.xoMeets (d : Dev) (x first count : Nat) : Bool :=
  d.on (R.GRN_XO_COUNT_EN x) && decide (first < d.rd (R.GRN_XO_BASE_SECTOR x) + d.rd (R.GRN_XO_COUNT x) ∧
    d.rd (R.GRN_XO_BASE_SECTOR x) < first + count)

/-- WIN_SET: enable or remove window `w` (R251). -/
def Dev.gsrWin (d : Dev) (w first p l flags : Nat) : Nat × Nat × Dev :=
  let en := flags == 1
  if 3 < w ∨ 1 < flags then (gBadArg, 0, d)
  else if en ∧ (l = 0 ∨ 8191 < l ∨ p < l + 1 ∨ 8192 < p ∨ gSectors < first + p ∨ d.on (R.GRN_WIN_L_EN w) ∨
      gWindows.any (fun v => d.winMeets v first p)) then (gBadArg, 0, d)
  else if en ∧ (gReserved < first + p ∨ xoRegions.any (fun x => d.xoMeets x first p && d.on (R.GRN_XO_COUNT_LOCK x))) then
    (gProtected, 0, d)
  else if d.erasing ∨ !d.gOn then (gBusy, 0, d)
  else
    let d := (d.wr (R.GRN_WIN_FIRST_SECTOR w) (if en then first else 0)).wr (R.GRN_WIN_P w) (if en then p else 0)
    let d := (d.wr (R.GRN_WIN_L w) (if en then l else 0)).wr (R.GRN_WIN_L_EN w) (b2n en)
    (gOk, 0, d.wr (R.GRN_WIN_BASE w) 0)

/-! ## The end of an erase (R247, R249, R252, R257) -/

/-- What a word of a half-erased sector reads as: erased, its old value, or uncorrectable (Table 13-7). -/
def GWord.torn (x : GWord) (k : Nat) : GWord :=
  match k % 3 with
  | 0 => .erased 0
  | 1 => x
  | _ => .bad

/-- Leave each of `n` words from word `w` torn. -/
def Dev.tear (d : Dev) (w : Nat) : Nat → Dev
  | 0 => d
  | n + 1 =>
    let (k, d1) := d.freeNext
    (d1.setGword w ((d1.gword w).torn k)).tear (w + 1) n

/-- Erase every word of a sector. -/
def Dev.blankSector (d : Dev) (s : Nat) : Dev :=
  { d with gr := { d.gr with words := d.gr.words.keep (fun w => w / 512 != s) } }

/-- ERASE_END: the erase that runs, and is not suspended, ends as DONE or FAILED (R247); the base of a window whose logical
sector 0 was erased moves on (R252). -/
def eraseEnd (done : Bool) (d : Dev) : Dev :=
  if !d.erasing ∨ d.on R.GRN_ERASE_STAT_SUSPENDED ∨ !d.gOn then d
  else
    let s := d.rd R.GRN_ERASE_STAT_SECTOR
    let d := if done then d.blankSector s else d.tear (512 * s) 512
    let d := (d.wr R.GRN_ERASE_STAT_STATE (if done then 2 else 3)).irq .grn 0 3
    let d := match done, d.gr.eraseWin with
      | true, some w => d.wr (R.GRN_WIN_BASE w) ((d.rd (R.GRN_WIN_BASE w) + 1) % max 1 (d.rd (R.GRN_WIN_P w)))
      | _, _ => d
    { d with gr := { d.gr with eraseWin := none } }

/-- ERASE_RESUME: the suspended erase goes on, `us` microseconds after it was suspended (R249). -/
def eraseResume (us : Nat) (d : Dev) : Dev :=
  if d.erasing ∧ d.on R.GRN_ERASE_STAT_SUSPENDED ∧ d.gOn then
    (d.wr R.GRN_ERASE_STAT_SUSPENDED 0).bump R.GRN_ERASE_SUSP_US us
  else d

/-- A reset stops the erase that runs: ABORTED and the sector are recorded, and the sector is left torn (R257). -/
def Dev.stopErase (d : Dev) : Dev :=
  if d.erasing then
    let s := d.rd R.GRN_ERASE_STAT_SECTOR
    let d := ((d.tear (512 * s) 512).wr R.GRN_ERASE_STAT_ABORTED 1).wr R.GRN_ABORT_SECTOR s
    let d := (d.wr R.GRN_ERASE_STAT_STATE 0).wr R.GRN_ERASE_STAT_SUSPENDED 0
    { d with gr := { d.gr with eraseWin := none } }
  else d

/-- What a loss of the Granary's supply leaves (Table 13-7). -/
def Dev.granaryLoss (d : Dev) (op : GOp) : Dev :=
  let d := if d.erasing then d.tear (512 * d.rd R.GRN_ERASE_STAT_SECTOR) 512 else d
  match op with
  | .none => d
  | .registry w => if d.on (R.GRN_WIN_L_EN w.val) then
      d.blankSector (d.rd (R.GRN_WIN_FIRST_SECTOR w.val) + d.rd (R.GRN_WIN_BASE w.val)) else d
  | .program w data =>
    if gReserved * 512 ≤ w ∨ !(d.gword w).isErased then d
    else
      let (k, d) := d.freeNext
      let d := d.setGword w (match k % 3 with | 0 => d.gword w | 1 => .prog data 0 | _ => .bad)
      if gUpper w then
        let (j, d) := d.freeNext
        if j % 2 = 1 then d.setGword (gPartner w) .bad else d
      else d

/-! ## Reads (R254, R255) -/

/-- Count a protection error at G-address `a` (Table 13-6). -/
def Dev.protError (d : Dev) (a : Nat) : Dev := ((d.bump R.GRN_PROT_COUNT).wr R.GRN_PROT_ADDR a).irq .grn 0 2

/-- Whether a reader may see a sector through this address (R238, R253). -/
def Dev.gReadable (d : Dev) (who : GReader) (a sector : Nat) : Bool :=
  decide (sector < gReserved) && (!d.xoOnly sector ||
    (match who with | .fetch _ => !gView a | _ => false))

/-- Read the words of the line at G-address `a`, physical line `l`: the words as stored and the device after the counts. A
word of the sector being erased reads torn. -/
def Dev.gReadWords (d : Dev) (a l : Nat) : List Nat → List GWord × Dev
  | [] => ([], d)
  | i :: is =>
    let w := 4 * l + i
    let (x, d) :=
      if d.erasing ∧ w / 512 = d.rd R.GRN_ERASE_STAT_SECTOR then
        let (k, d1) := d.freeNext
        ((d1.gword w).torn k, d1)
      else (d.gword w, d)
    let at_ := a + 8 * i
    let d := d.addTo R.GRN_CORR_BITS x.corr
    let d := if d.rd R.GRN_CFG_ECC_WARN_THRESH < x.corr then
        ((d.bump R.GRN_WARN_COUNT).wr R.GRN_WARN_ADDR at_).irq .grn 0 0 else d
    let d := if x.isBad then ((d.bump R.GRN_UE_COUNT).wr R.GRN_UE_ADDR at_).irq .grn 0 1 else d
    let (xs, d) := d.gReadWords a l is
    (x :: xs, d)

/-- A read that reaches the array suspends a running erase (R249). -/
def Dev.suspendErase (d : Dev) : Dev := if d.erasing then d.wr R.GRN_ERASE_STAT_SUSPENDED 1 else d

/-- What a read of a line gives: its 32 bytes, and whether a word of it was uncorrectable. -/
structure GLine where
  bytes : List Byte
  bad : Bool

/-- The bytes of a line's words. -/
def GLine.of (xs : List GWord) : GLine := ⟨xs.flatMap (fun x => leBytes 8 x.value), xs.any GWord.isBad⟩

/-- Read one line from the array at G-address `a` for `who`; protections return zero and count (R238, R253, R255). -/
def Dev.gLine (d : Dev) (who : GReader) (a : Nat) : GLine × Dev :=
  match d.gPhys a with
  | none => (⟨zeros 32, false⟩, d.protError a)
  | some p =>
    if !d.gReadable who a (p / 4096) then (⟨zeros 32, false⟩, d.protError a)
    else
      let (xs, d) := d.suspendErase.gReadWords a (p / 32) [0, 1, 2, 3]
      let top := (xs.map GWord.corr).foldl max 0
      let d := match who with
        | .load => (d.wr R.GRN_STW_LAST_CORR top).wr R.GRN_STW_LAST_LINE (a / 32)
        | .loop => (d.wr R.GRN_LOOP_LAST_CORR top).wr R.GRN_LOOP_LAST_LINE (a / 32)
        | .fetch _ => d
      (GLine.of xs, d)

/-- Instruction access fault and load access fault (mcause values of the RISC-V privileged specification). -/
abbrev causeFetch : Nat := 1
abbrev causeLoad : Nat := 5

/-- The trough and position of the UNBALE that streams through the loop port. -/
def Dev.loopRun (d : Dev) : Option (TroughId × Nat) := (d.path 6).map (fun r => (r.trough, r.pos))

/-- The Steward address of G-address `a` (R237). -/
def gStw (a : Nat) : Nat := 0x20000000 + a

/-- What becomes of a requester whose word was uncorrectable, or whose Granary is off (R255, R256). -/
def Dev.gFault (d : Dev) (who : GReader) (a : Nat) : Dev :=
  match who with
  | .fetch _ => d.stwTrap causeFetch (gStw a)
  | .load => d.stwTrap causeLoad (gStw a)
  | .loop => match d.loopRun with
    | some (t, pos) => d.failDesc t pos stEcc
    | none => d

/-- The lines a fetch miss brings into the prefetch buffer: line `l` and the three that follow in the array (R254). -/
def prefetchLines (l : Nat) : List Nat := (List.range 4).map (l + ·)

/-- A fetch that misses: its line comes from the array, the prefetch buffer takes the lines from it on, and the branch cache
takes the target of a taken branch (R254). The lines read ahead are recorded by the address the requester would use (R255). -/
def Dev.gMiss (d : Dev) (branch : Bool) (a p : Nat) : GLine × Dev :=
  let l := p / 32
  let (g, d) := d.gLine (.fetch branch) a
  let ahead := if d.on R.GRN_READ_CFG_PREFETCH then (prefetchLines l).drop 1 else []
  let ok := ahead.filter (fun k => decide (k / 128 < gReserved))
  let d := ok.foldl (fun d k => (d.gReadWords (a + 32 * (k - l)) k [0, 1, 2, 3]).2) d
  let gr := d.gr
  let pf := if d.on R.GRN_READ_CFG_PREFETCH then l :: ok else gr.prefetch
  let bc := if branch ∧ d.on R.GRN_READ_CFG_BCACHE then (l :: gr.bcache.filter (· != l)).take 16 else gr.bcache
  (g, { d with gr := { gr with prefetch := pf, bcache := bc } })

/-- GRANARY_READ: a fetch, load or loop-port read of the line at G-address `a` (R254-R256); the data goes to the model's read
latch. A read waits until the controller accepts requests. -/
def granaryRead (who : GReader) (a0 : Nat) (d : Dev) : Dev :=
  let a := a0 / 32 * 32
  if !d.gOn then d.gFault who a
  else if !d.gr.ready then d
  else
    let deliver := fun (p : GLine × Dev) =>
      let d := { p.2 with bus := { p.2.bus with rdata := leNat p.1.bytes } }
      if p.1.bad then d.gFault who a else d
    match who, d.gPhys a with
    | .fetch branch, some p =>
      let l := p / 32
      let hitP := d.on R.GRN_READ_CFG_PREFETCH && d.gr.prefetch.contains l
      let hitB := d.on R.GRN_READ_CFG_BCACHE && d.gr.bcache.contains l
      if !d.gReadable who a (p / 4096) then deliver (d.gLine who a)
      else if hitP ∨ hitB then
        let bc := if hitB then l :: d.gr.bcache.filter (· != l) else d.gr.bcache
        deliver (GLine.of ([0, 1, 2, 3].map (fun i => d.gword (4 * l + i))), { d with gr := { d.gr with bcache := bc } })
      else deliver (d.gMiss branch a p)
    | _, _ => deliver (d.gLine who a)

/-- GRANARY_READY: 50 µs after its domain came on, the controller accepts requests (R256). -/
def granaryReady (d : Dev) : Dev := if d.gOn then { d with gr := { d.gr with ready := true } } else d

end Sys2Proof.Machine
end

