-- ==== Sys2Proof/Machine/Stream.lean ====
section
/-! DEFINITION. The checkpoint stream format: code tables, blocks, header, envelope (spec/14 R260-R265, R270). -/
namespace Sys2Proof.Machine

/-! ## Bitstreams (most significant bit of each byte first) -/

/-- A bitstream: its bits as one number, first bit most significant, and how many there are. -/
structure Bits where
  val : Nat
  len : Nat
  deriving DecidableEq, Repr

/-- The bitstream of a list of (value, width) pairs. -/
def Bits.pack (l : List (Nat × Nat)) : Bits := l.foldl (fun b p => ⟨b.val * 2 ^ p.2 + p.1 % 2 ^ p.2, b.len + p.2⟩) ⟨0, 0⟩

/-- Its bytes, padded with zero bits to a whole byte. -/
def Bits.bytes (b : Bits) : List Byte :=
  let n := ceilDiv b.len 8
  beBytes n (b.val * 2 ^ (8 * n - b.len))

/-- The bitstream of a list of bytes. -/
def Bits.ofBytes (bs : List Byte) : Bits := ⟨beNat bs, 8 * bs.length⟩

/-- `w` bits from bit `k` on. -/
def Bits.at (b : Bits) (k w : Nat) : Nat := bits b.val (b.len - k - w) w

/-! ## Values (Terms) -/

/-- Width of the exponent field of a format (0 BF16, 1 FP16), and of its fraction. -/
def expBits (fmt : Nat) : Nat := if fmt = 0 then 8 else 5
def fracBits (fmt : Nat) : Nat := 15 - expBits fmt

/-- The exponent field of a value, and its sign-mantissa with the sign first. -/
def valExp (fmt v : Nat) : Nat := bits v (fracBits fmt) (expBits fmt)
def valSm (fmt v : Nat) : Nat := bits v 15 1 * 2 ^ fracBits fmt + bits v 0 (fracBits fmt)

/-- The value of a sign-mantissa and an exponent field. -/
def valOf (fmt sm e : Nat) : Nat :=
  sm / 2 ^ fracBits fmt * 2 ^ 15 + e % 2 ^ expBits fmt * 2 ^ fracBits fmt + sm % 2 ^ fracBits fmt

/-- Whether a value is not finite: its exponent field is all ones. -/
def valInf (fmt v : Nat) : Bool := valExp fmt v == 2 ^ expBits fmt - 1

/-! ## Code tables (R262) -/

/-- A code table: counts of lengths 1-15, and the symbols in canonical order. -/
structure CodeTable where
  counts : List Nat
  syms : List Nat
  deriving DecidableEq, Repr

/-- The table at the start of a list of bytes. -/
def CodeTable.of (bs : List Byte) : CodeTable :=
  ⟨(List.range 15).map (fun l => leAt bs (2 + 2 * l) 2), (slice bs 32 (leAt bs 0 2)).map BitVec.toNat⟩

/-- Whether all the entries of a list differ. -/
def noRepeats : List Nat → Bool
  | [] => true
  | a :: as => !as.contains a && noRepeats as

/-- Whether a table is valid for a format (R262). -/
def CodeTable.valid (t : CodeTable) (fmt : Nat) : Bool :=
  t.counts.foldl (· + ·) 0 == t.syms.length &&
    decide ((List.range 15).foldl (fun s l => s + t.counts.getD l 0 * 2 ^ (14 - l)) 0 ≤ 2 ^ 15) &&
    noRepeats t.syms && t.syms.all (fun s => decide (s < 2 ^ expBits fmt)) && !t.syms.isEmpty

/-- The canonical codes of a table: (length, code, symbol), from length `l + 1` with `code` next. -/
def codesFrom : List Nat → Nat → Nat → List Nat → List (Nat × Nat × Nat)
  | [], _, _, _ => []
  | c :: cs, l, code, syms =>
    ((List.range c).zip (syms.take c)).map (fun p => (l + 1, code + p.1, p.2)) ++
      codesFrom cs (l + 1) (2 * (code + c)) (syms.drop c)

/-- The codes of a table. -/
def CodeTable.codes (t : CodeTable) : List (Nat × Nat × Nat) := codesFrom t.counts 0 0 t.syms

/-- The code of a symbol, as (value, width). -/
def CodeTable.code (cs : List (Nat × Nat × Nat)) (sym : Nat) : Option (Nat × Nat) :=
  (cs.find? (fun c => c.2.2 == sym)).map (fun c => (c.2.1, c.1))

/-- The table section of `n` tables: the tables and its length; the last table may end with its last symbol or on the next
4-byte boundary (DEDUCED). -/
def tablesOf : Nat → List Byte → List (CodeTable × Nat)
  | 0, _ => []
  | n + 1, bs =>
    let len := 32 + leAt bs 0 2
    (CodeTable.of bs, len) :: tablesOf n (bs.drop (ceilDiv len 4 * 4))

/-- Whether a table section of `n` tables is valid for a format and exactly `bs`. -/
def tablesOk (fmt n : Nat) (bs : List Byte) : Bool :=
  let ts := tablesOf n bs
  let all := (ts.map (fun t => ceilDiv t.2 4 * 4)).foldl (· + ·) 0
  let last := match ts.getLast? with | some t => ceilDiv t.2 4 * 4 - t.2 | none => 0
  ts.all (fun t => t.1.valid fmt) && (bs.length == all || bs.length + last == all)

/-! ## Coding a block (R263-R265) -/

/-- The sign-mantissa part of a block. -/
def smPart (fmt : Nat) (vs : List Nat) : List Byte :=
  (Bits.pack (vs.map (fun v => (valSm fmt v, fracBits fmt + 1)))).bytes

/-- A block of header word `w` and body: the CRC covers the word and the body, zeros pad it to a multiple of 4. -/
def blockBytes (w : Nat) (body : List Byte) : List Byte :=
  let h := leBytes 4 w
  let n := 8 + body.length
  padTo (ceilDiv n 4 * 4) (h ++ leBytes 4 (crc32c (h ++ body)) ++ body)

/-- The body of a block under one table, if the table has every symbol. -/
def codedBody (fmt : Nat) (t : CodeTable) (vs : List Nat) : Option (List Byte) :=
  let cs := t.codes
  let codes := vs.map (fun v => CodeTable.code cs (valExp fmt v))
  if codes.all Option.isSome then
    some (smPart fmt vs ++ (Bits.pack (codes.map (fun c => c.getD (0, 0)))).bytes)
  else none

/-- The shortest body over the tables from number `k` on, the lowest table first among equals. -/
def bestBody (fmt : Nat) (vs : List Nat) : List CodeTable → Nat → Option (Nat × List Byte)
  | [], _ => none
  | t :: ts, k =>
    match codedBody fmt t vs, bestBody fmt vs ts (k + 1) with
    | some b, some (j, c) => if b.length ≤ c.length then some (k, b) else some (j, c)
    | some b, none => some (k, b)
    | none, r => r

/-- A lossless block of values, and whether it is stored raw (R264). -/
def encodeLossless (fmt : Nat) (ts : List CodeTable) (vs : List Nat) : List Byte × Bool :=
  let n := vs.length
  let raw := (blockBytes (2 * n + 2 ^ 14 + (n - 1) * 2 ^ 18) (vs.flatMap (leBytes 2)), true)
  match bestBody fmt vs ts 0 with
  | some (k, b) => if 2 * n ≤ b.length then raw else (blockBytes (b.length + k * 2 ^ 15 + (n - 1) * 2 ^ 18) b, false)
  | none => raw

/-- A lossy block of values (R265). -/
def encodeLossy (fmt : Nat) (vs : List Nat) : List Byte :=
  let n := vs.length
  let top := (vs.map (valExp fmt)).foldl max 0
  let base := max 1 (top - 6)
  let code := fun v => let e := valExp fmt v; if e < base then 0 else e - base + 1
  blockBytes (base % 256 + (n - 1) * 2 ^ 18) (smPart fmt vs ++ (Bits.pack (vs.map (fun v => (code v, 3)))).bytes)

/-- Bytes of a full lossy block. -/
def lossyFull (fmt : Nat) : Nat := 8 + (fracBits fmt + 1) * 512 + 1536

/-! ## The stream header and the envelope (Tables 14-1, 14-2) -/

/-- The stream header of a checkpoint with its table section after it. -/
def streamHeader (fmt mode ntab nvalues payload tag : Nat) (tables : List Byte) : List Byte :=
  let h := leBytes 4 0x4B43475A ++ leBytes 1 1 ++ leBytes 1 fmt ++ leBytes 1 mode ++ leBytes 1 ntab ++ leBytes 4 nvalues ++
    leBytes 4 (ceilDiv nvalues 4096) ++ leBytes 8 payload ++ leBytes 4 tables.length ++ leBytes 4 tag ++ zeros 28
  h ++ leBytes 4 (crc32c (h ++ tables)) ++ tables

/-- The envelope of a body. -/
def envelope (enc : Bool) (keyStall nonce bodyLen : Nat) : List Byte :=
  withCrc (leBytes 4 0x4E45475A ++ leBytes 1 1 ++ leBytes 1 (b2n enc) ++ leBytes 1 (if enc then keyStall else 0) ++ zeros 1 ++
    leBytes 8 nonce ++ leBytes 8 bodyLen ++ zeros 4)

/-- Whether an envelope passes its check for an UNBALE of stall `n` (Table 14-5 KIND 1). -/
def envelopeOk (n : Nat) (e : List Byte) : Bool :=
  leAt e 0 4 == 0x4E45475A && leAt e 4 1 == 1 && decide (leAt e 5 1 < 2) && leAt e 7 1 == 0 && leAt e 24 4 == 0 &&
    leAt e 28 4 == crc32c (e.take 28) && (leAt e 5 1 == 0 || leAt e 6 1 == n) && leAt e 16 8 % 16 == 0

/-- Whether a body's header passes its check (Table 14-5 KIND 2): `values`, `tag` and `start` are the UNBALE's. -/
def headerGood (b : List Byte) (values tag start : Nat) : Bool :=
  let mode := leAt b 6 1
  let ntab := leAt b 7 1
  let nv := leAt b 8 4
  let tl := leAt b 24 4
  leAt b 0 4 == 0x4B43475A && leAt b 4 1 == 1 && decide (leAt b 5 1 < 2) && decide (mode < 2) &&
    decide (ntab ≤ if mode = 0 then 8 else 0) && decide (0 < nv ∧ nv ≤ 2 ^ 31) && leAt b 12 4 == ceilDiv nv 4096 &&
    (slice b 32 28).all (· == 0) && leAt b 60 4 == crc32c (b.take 60 ++ slice b 64 tl) && decide (64 + tl ≤ b.length) &&
    tablesOk (leAt b 5 1) ntab (slice b 64 tl) && (values == 0 || values == nv) && (tag == 0 || tag == leAt b 28 4) &&
    (start == 0 || (mode == 1 && decide (start < ceilDiv nv 4096)))

/-! ## Decoding a block (R263, R265, R270) -/

/-- Kinds of check failure (Table 14-5). -/
abbrev chkEnvelope : Nat := 1
abbrev chkHeader : Nat := 2
abbrev chkCode : Nat := 3
abbrev chkLength : Nat := 4
abbrev chkCrc : Nat := 5

/-- A block read: its values and how many bytes it takes, or the kind of check it fails. -/
abbrev BlockRead := Except Nat (List Nat × Nat)

/-- One code from bit `k` of a bitstream: its symbol and its length, at most `fuel` lengths from `l` on. -/
def oneCode (cs : List (Nat × Nat × Nat)) (b : Bits) (k : Nat) : Nat → Nat → Option (Nat × Nat)
  | 0, _ => none
  | fuel + 1, l =>
    if b.len < k + l then none
    else match cs.find? (fun c => c.1 == l && c.2.1 == b.at k l) with
    | some c => some (c.2.2, l)
    | none => oneCode cs b k fuel (l + 1)

/-- `n` codes from bit `k` of a bitstream: the symbols and the bit after them. -/
def manyCodes (cs : List (Nat × Nat × Nat)) (b : Bits) : Nat → Nat → Option (List Nat × Nat)
  | 0, k => some ([], k)
  | n + 1, k =>
    match oneCode cs b k 15 1 with
    | none => none
    | some (s, l) => match manyCodes cs b n (k + l) with
      | none => none
      | some (ss, e) => some (s :: ss, e)

/-- The `n` fields of `w` bits of a bitstream, and whether the padding to the next byte is zero. -/
def fixedFields (b : Bits) (n w : Nat) : List Nat := (List.range n).map (fun i => b.at (i * w) w)
def padZero (b : Bits) (k : Nat) : Bool := b.at k (b.len - k) == 0

/-- A lossless block at the start of `bs`, expected to hold `n` values: its CRC, then its code with the padding of both parts,
then its length (Table 14-5). -/
def decodeLossless (fmt : Nat) (ts : List CodeTable) (n : Nat) (bs : List Byte) : BlockRead :=
  let w := leAt bs 0 4
  let len := bits w 0 14
  let m := bits w 18 13 + 1
  let raw := w.testBit 14
  let body := slice bs 8 len
  let size := ceilDiv (8 + len) 4 * 4
  let smLen := ceilDiv ((fracBits fmt + 1) * m) 8
  let padOk := (slice bs (8 + len) (size - 8 - len)).all (· == 0)
  if bs.length < 8 + len ∨ leAt bs 4 4 ≠ crc32c (bs.take 4 ++ body) then .error chkCrc
  else if w.testBit 31 ∨ !padOk then .error chkCode
  else if raw then
    if m ≠ n ∨ len ≠ 2 * n then .error chkLength
    else .ok ((List.range n).map (fun i => leAt body (2 * i) 2), size)
  else if ts.length ≤ bits w 15 3 then .error chkCode
  else
    let sm := Bits.ofBytes (body.take smLen)
    let cb := Bits.ofBytes (body.drop smLen)
    match manyCodes (ts.getD (bits w 15 3) ⟨[], []⟩).codes cb m 0 with
    | none => .error chkCode
    | some (es, k) =>
      if !padZero sm ((fracBits fmt + 1) * m) ∨ cb.at k (ceilDiv k 8 * 8 - k) ≠ 0 then .error chkCode
      else if m ≠ n ∨ smLen + ceilDiv k 8 ≠ len then .error chkLength
      else .ok (((fixedFields sm m (fracBits fmt + 1)).zip es).map (fun p => valOf fmt p.1 p.2), size)

/-- A lossy block at the start of `bs`, expected to hold `n` values. An exponent above the format's largest is taken as a
code that does not exist (DESIGN CHOICE). -/
def decodeLossy (fmt n : Nat) (bs : List Byte) : BlockRead :=
  let w := leAt bs 0 4
  let base := bits w 0 8
  let m := bits w 18 13 + 1
  let smLen := ceilDiv ((fracBits fmt + 1) * m) 8
  let len := smLen + ceilDiv (3 * m) 8
  let body := slice bs 8 len
  let size := ceilDiv (8 + len) 4 * 4
  let sm := Bits.ofBytes (body.take smLen)
  let cb := Bits.ofBytes (body.drop smLen)
  let codes := fixedFields cb m 3
  if bs.length < 8 + len ∨ leAt bs 4 4 ≠ crc32c (bs.take 4 ++ body) then .error chkCrc
  else if bits w 8 10 ≠ 0 ∨ w.testBit 31 ∨ !(slice bs (8 + len) (size - 8 - len)).all (· == 0) ∨
      !padZero sm ((fracBits fmt + 1) * m) ∨ !padZero cb (3 * m) ∨
      codes.any (fun c => c != 0 && decide (2 ^ expBits fmt ≤ base + c - 1)) then .error chkCode
  else if m ≠ n then .error chkLength
  else .ok (((fixedFields sm m (fracBits fmt + 1)).zip codes).map (fun p =>
    if p.2 = 0 then valOf fmt (p.1 / 2 ^ fracBits fmt * 2 ^ fracBits fmt) 0 else valOf fmt p.1 (base + p.2 - 1)), size)

/-- Values of block `b` of a checkpoint of `nv` values. -/
def blockCount (nv b : Nat) : Nat := min 4096 (nv - 4096 * b)

/-- Block `b` of a body at offset `off` (Table 14-5); with the last block come the length of the payload and the padding
after it. -/
def readBlock (body : List Byte) (b off : Nat) : BlockRead :=
  let fmt := leAt body 5 1
  let nv := leAt body 8 4
  let n := blockCount nv b
  let bs := body.drop off
  let r := if leAt body 6 1 = 0 then
      decodeLossless fmt ((tablesOf (leAt body 7 1) (body.drop 64)).map (·.1)) n bs
    else decodeLossy fmt n bs
  match r with
  | .ok (vs, size) =>
    if b + 1 = ceilDiv nv 4096 ∧ (off + size ≠ leAt body 16 8 ∨ !(body.drop (off + size)).all (· == 0)) then .error chkLength
    else .ok (vs, size)
  | .error k => .error k

end Sys2Proof.Machine
end

