-- ==== Sys2Proof/Machine/Baler.lean ====
section
/-! DEFINITION. The Baler: BALE, UNBALE and the Granary slots (spec/14 R266-R278, spec/18 R383). -/
namespace Sys2Proof.Machine

/-! ## Bodies (Tables 14-6 and 14-7) -/

/-- A BALE body. -/
structure Bale where
  format : Nat
  mode : Nat
  enc : Bool
  dest : Nat
  slot : Nat
  ntab : Nat
  peer : Nat
  values : Nat
  src : Nat
  tables : Nat
  tableLen : Nat
  tag : Nat
  dst : Nat
  nonce : Nat
  deriving DecidableEq, Repr

/-- The BALE body of a descriptor. -/
def Bale.of (b : DescWord) : Bale :=
  let f := fun k w => bits b.toNat (8 * k) w
  ⟨f 16 1, bits b.toNat 129 1, b.toNat.testBit 130, bits b.toNat 131 2, f 17 4, bits b.toNat 140 4, f 18 16, f 20 32, f 24 64,
    f 32 64, f 40 32, f 44 32, f 48 64, f 56 64⟩

/-- An UNBALE body. -/
structure Unbale where
  src : Nat
  slot : Nat
  peer : Nat
  values : Nat
  srcAddr : Nat
  dst : Nat
  start : Nat
  tag : Nat
  deriving DecidableEq, Repr

/-- The UNBALE body of a descriptor. -/
def Unbale.of (b : DescWord) : Unbale :=
  let f := fun k w => bits b.toNat (8 * k) w
  ⟨f 16 2, f 17 4, f 18 16, f 20 32, f 24 64, f 32 64, f 40 32, f 44 32⟩

/-- Whether the body is encrypted: ENC, or a Granary slot (R271). -/
def Bale.sealed (x : Bale) : Bool := x.enc || x.dest == 1

/-- Whether slot `i` is enabled and owned by stall `n`. -/
def Dev.slotOf (d : Dev) (i n : Nat) : Bool := d.rd (R.BAL_SLOT_A_COUNT i) != 0 && d.rd (R.BAL_SLOT_B_OWNER i) == n

/-- Whether stall `n` may restore from slot `i`: a valid slot of another stall is not its own (DEDUCED from R272); a slot that
is not valid fails its check instead (R275). -/
def Dev.slotMay (d : Dev) (i n : Nat) : Bool := !d.on (R.BAL_SLOT_B_VALID i) || d.rd (R.BAL_SLOT_B_OWNER i) == n

/-- Whether stall `n`'s job declared node `p` as a peer. -/
def Dev.isPeer (d : Dev) (n p : Nat) : Bool := (d.job n).decl.peers.contains p

/-- Whether a BALE body obeys R272, its table section apart; `n` is the stall. -/
def Dev.baleOk (d : Dev) (n : Nat) (b : DescWord) : Bool :=
  let x := Bale.of b
  bits b.toNat 133 3 == 0 && decide (x.dest < 3) && decide (x.ntab ≤ 8) && decide (0 < x.values ∧ x.values ≤ 2 ^ 31) &&
    x.src % 2 == 0 && x.tables % 4 == 0 && (x.mode == 0 || x.ntab == 0) && (!x.sealed || x.nonce != 0) &&
    (match x.dest with
      | 0 => x.dst % 16 == 0 && (decide (x.dst < hostBase) || n == 0 || d.egress n 0)
      | 1 => d.egress n 2 && d.slotOf x.slot n
      | _ => d.egress n 1 && d.isPeer n x.peer)

/-- The bytes of a BALE's stream: all of a lossy one's, and of a lossless one's at least these, each block being its header and
one byte or more. -/
def Bale.leastBytes (x : Bale) : Nat :=
  let blocks := ceilDiv x.values 4096
  let full := 8 + (fracBits x.format + 1) * 512 + 1536
  let rest := x.values - (blocks - 1) * 4096
  let last := ceilDiv (8 + ceilDiv ((fracBits x.format + 1) * rest) 8 + ceilDiv (3 * rest) 8) 4 * 4
  32 + ceilDiv (64 + x.tableLen + (if x.mode = 1 then (blocks - 1) * full + last else 12 * blocks)) 16 * 16

/-- Whether a BALE's source and tables, and its destination on the data path as far as the stream's length is known, lie where
its trough may go (R80). -/
def Dev.baleSpans (d : Dev) (t : TroughId) (x : Bale) : Bool :=
  d.mayUse t x.src (2 * x.values) && d.mayUse t x.tables x.tableLen && (x.dest != 0 || d.mayUse t x.dst x.leastBytes)

/-- Whether an UNBALE body obeys R276. -/
def Unbale.wellFormed (b : DescWord) : Bool :=
  let x := Unbale.of b
  decide (x.src < 3) && bits b.toNat 130 6 == 0 && bits b.toNat 140 4 == 0 && bits b.toNat 384 128 == 0 &&
    x.dst % 2 == 0 && (x.src != 0 || x.srcAddr % 16 == 0)

/-- Whether an UNBALE's addresses obey R276: DST in Silo or Cellar, and for SRC 0 a host source of the stall's function. -/
def Dev.unbaleSpans (d : Dev) (t : TroughId) (x : Unbale) : Bool :=
  (decide (x.dst < siloBytes) || decide (cellarBase ≤ x.dst ∧ x.dst < cellarEnd)) && d.mayUse t x.dst 2 &&
    (x.src != 0 || (decide (hostBase ≤ x.srcAddr) && d.mayUse t x.srcAddr 32))

/-! ## Keys (R268, spec/18 R383) -/

/-- A body encrypted or decrypted under the key pair of stall `n`. -/
def Dev.crypt (d : Dev) (enc : Bool) (n nonce : Nat) (bs : List Byte) : List Byte :=
  let k := stallKeys Config.fuseRootKey n (d.rd (R.KEY_GEN n))
  xtsBody enc k.1 k.2 nonce bs

/-- Decrypted data units from unit `u` on. -/
def Dev.decryptFrom (d : Dev) (n nonce u : Nat) (bs : List Byte) : List Byte :=
  let k := stallKeys Config.fuseRootKey n (d.rd (R.KEY_GEN n))
  (xtsUnits (aesDec (aesKeys k.1)) (aesKeys k.2) nonce (ceilDiv bs.length 4096) u (bs.map BitVec.toNat)).map (BitVec.ofNat 8)

/-! ## Granary slots (R274, R275) -/

/-- The bytes of a slot's words `k` to `k + n - 1` of its first sector; none where one is uncorrectable. -/
def Dev.commitBytes (d : Dev) (i : Nat) : Option (List Byte) :=
  let ws := [0, 1, 2, 3].map (fun k => d.gword (d.rd (R.BAL_SLOT_A_FIRST i) * 512 + k))
  if ws.any GWord.isBad then none else some (ws.flatMap (fun w => leBytes 8 w.value))

/-- The Steward sets VALID and COMMITS of slot `i` where its commit record reads correctly and its CRC matches (R275). -/
def Dev.checkSlot (d : Dev) (i : Nat) : Dev :=
  match d.commitBytes i with
  | some b =>
    if d.rd (R.BAL_SLOT_A_COUNT i) ≠ 0 ∧ leAt b 24 4 = crc32c (b.take 24) then
      (d.wr (R.BAL_SLOT_B_VALID i) 1).wr (R.BAL_SLOT_B_COMMITS i) (leAt b 16 8)
    else d.wr (R.BAL_SLOT_B_VALID i) 0
  | none => d.wr (R.BAL_SLOT_B_VALID i) 0

/-- Whether a BALE that writes slot `i` runs, or has started and not ended; the same of an UNBALE that reads it. -/
def Dev.slotWriting (d : Dev) (i : Nat) : Bool :=
  d.tn.live.any (fun y => y.opcode == 4 && (Bale.of y.bits).dest == 1 && (Bale.of y.bits).slot == i && decide (y.phase = .working))
def Dev.slotReading (d : Dev) (i : Nat) : Bool :=
  d.tn.live.any (fun y => y.opcode == 5 && (Unbale.of y.bits).src == 1 && (Unbale.of y.bits).slot == i && decide (y.phase = .working))

/-- Whether a BALE or UNBALE names slot `i`. -/
def Dev.slotNamed (d : Dev) (i : Nat) : Bool :=
  d.tn.live.any (fun y => decide (y.phase ≠ .held) &&
    ((y.opcode == 4 && (Bale.of y.bits).dest == 1 && (Bale.of y.bits).slot == i) ||
      (y.opcode == 5 && (Unbale.of y.bits).src == 1 && (Unbale.of y.bits).slot == i)))

/-- The sixteen slots. -/
def slotNums : List Nat := List.range 16

/-- Whether `count` sectors from `first` are free of other slots, windows, execute-only regions and the reserved sectors. -/
def Dev.slotFits (d : Dev) (i first count : Nat) : Bool :=
  count == 0 || (decide (2 ≤ count ∧ first + count ≤ gReserved) &&
    slotNums.all (fun j => j == i || d.rd (R.BAL_SLOT_A_COUNT j) == 0 ||
      decide (first + count ≤ d.rd (R.BAL_SLOT_A_FIRST j) ∨
        d.rd (R.BAL_SLOT_A_FIRST j) + d.rd (R.BAL_SLOT_A_COUNT j) ≤ first)) &&
    gWindows.all (fun w => !d.winMeets w first count) && xoRegions.all (fun x => !d.xoMeets x first count))

/-- The effect of a write of slot `i`'s place (`owner` false) or owner (R275, Table 14-8). -/
def Dev.slotWrite (d : Dev) (q : Req) (i : Nat) (owner : Bool) (v : Nat) : Dev :=
  if owner then
    if 8 < bits v 0 4 ∨ d.slotNamed i then d.perr (A.BAL_SLOT_B i) q causeValue else d.storeWord (A.BAL_SLOT_B i) v
  else if d.slotFits i (bits v 0 15) (bits v 16 15) && !d.slotNamed i then (d.storeWord (A.BAL_SLOT_A i) v).checkSlot i
  else d.perr (A.BAL_SLOT_A i) q causeValue

/-- Program a list of bytes from word `w` on, a word at a time. -/
def Dev.programBytes (d : Dev) (w : Nat) : List (List Byte) → Dev
  | [] => d
  | b :: bs =>
    let v := leNat b
    (if v = 2 ^ 64 - 1 then d else d.setGword w (.prog (BitVec.ofNat 64 v) 0)).programBytes (w + 1) bs

/-- The commit count of slot `i`'s record, or of the last valid one where it does not read. -/
def Dev.commitCount (d : Dev) (i : Nat) : Nat :=
  match d.commitBytes i with
  | some b => if leAt b 24 4 = crc32c (b.take 24) then leAt b 16 8 else d.rd (R.BAL_SLOT_B_COMMITS i)
  | none => d.rd (R.BAL_SLOT_B_COMMITS i)

/-- Program the `j`-th sector of a stream (R274 step 3), every PROGRAM with success (DESIGN CHOICE). -/
def Dev.programSector (d : Dev) (i j : Nat) (stream : List Byte) : Dev :=
  let s := d.rd (R.BAL_SLOT_A_FIRST i) + 1 + j
  let bs := slice stream (4096 * j) 4096
  (d.gInvalidate s).programBytes (s * 512) (cutUp 8 bs.length bs)

/-- Program the commit record of slot `i`, with `commits` counted so far, and judge it (R274 steps 4 and 5, R275). -/
def Dev.commitSlot (d : Dev) (i commits : Nat) (stream : List Byte) : Dev :=
  let first := d.rd (R.BAL_SLOT_A_FIRST i)
  let rec3 := leBytes 8 stream.length ++ slice stream 28 4 ++ zeros 4 ++ leBytes 8 (commits + 1)
  let d := (d.gInvalidate first).programBytes (first * 512) (cutUp 8 4 (rec3 ++ leBytes 4 (crc32c rec3) ++ zeros 4))
  (d.checkSlot i).irq .bal 0 1

/-- What the Steward does next to fill a slot (R274 steps 2-5): for each sector it starts an erase, and, once that has ended,
looks whether the sector is erased, and starts again where it is not (DESIGN CHOICE); then it programs the stream sector by
sector, and the commit record. The next step and the device after it; none while the Steward or the Granary cannot act. -/
def Dev.fillStep (d : Dev) (i n fill commits : Nat) (stream : List Byte) : Option (Option Nat × Dev) :=
  let first := d.rd (R.BAL_SLOT_A_FIRST i)
  let count := d.rd (R.BAL_SLOT_A_COUNT i)
  let k := fill - 1
  if d.sy.mode ≠ .image ∨ !d.gOn ∨ !d.gr.ready ∨ d.erasing then none
  else if k < 2 * count then
    if k % 2 = 0 then
      match d.gsrErase ((first + k / 2) * 4096) n with
      | (0, _, d) => some (some (fill + 1), d)
      | _ => none
    else
      let (_, _, d) := d.gsrPoll
      some (some (if (d.gsrVerify ((first + k / 2) * 4096)).2.1 = 0 then fill + 1 else fill - 1), d)
  else if k - 2 * count < ceilDiv stream.length 4096 then some (some (fill + 1), d.programSector i (k - 2 * count) stream)
  else some (none, d.commitSlot i commits stream)

/-! ## BALE (R271-R274) -/

/-- The values of block `b` of a BALE. -/
def Dev.baleValues (d : Dev) (t : TroughId) (x : Bale) (b : Nat) : Work (List Nat) :=
  let n := blockCount x.values b
  (d.getBytes t (x.src + 8192 * b) (2 * n)).bind fun bs d => .ok ((List.range n).map (fun i => leAt bs (2 * i) 2)) d

/-- The finished stream of a BALE by stall `n`: header, tables and blocks, padded, encrypted, with its envelope (R269). -/
def Dev.baleStream (d : Dev) (n : Nat) (x : Bale) (tables blocks : List Byte) : List Byte :=
  let payload := 64 + tables.length + blocks.length
  let body := streamHeader x.format x.mode x.ntab x.values payload x.tag tables ++ blocks
  let body := padTo (ceilDiv body.length 16 * 16) body
  envelope x.sealed n x.nonce body.length ++ (if x.sealed then d.crypt true n x.nonce body else body)

/-- The checkpoint packets of a stream (R298). -/
def Dev.ckptPackets (d : Dev) (n peer : Nat) (stream : List Byte) : List Packet :=
  let cs := cutUp 3584 stream.length stream
  (List.range cs.length).map (fun i =>
    d.packet pkCkpt peer 0 n (leBytes 1 (b2n (i == 0) + 2 * b2n (i + 1 == cs.length))) (cs.getD i []))

/-- The stream of a BALE leaves: to the data path, to its slot, or to its peer. True once it has wholly gone. -/
def Dev.baleOut (d : Dev) (y : Desc) (n : Nat) (r : BaleRun) : Work Bool :=
  let x := Bale.of y.bits
  if r.sent then .ok (!d.flitsLeft y.trough y.pos) d
  else
    (d.getBytes y.trough x.tables x.tableLen).bind fun tables d =>
    let stream := d.baleStream n x tables r.body
    match x.dest with
    | 0 => (d.putBytes y.trough x.dst stream).bind fun _ d => .ok true d
    | 1 =>
      if r.fill = 0 then
        let c := d.commitCount x.slot
        let d := d.wr (R.BAL_SLOT_B_VALID x.slot) 0
        if (d.rd (R.BAL_SLOT_A_COUNT x.slot) - 1) * 4096 < stream.length then .fail stQuota d
        else .ok false (d.setBale (some { r with fill := 1, commits := c }))
      else match d.fillStep x.slot n r.fill r.commits stream with
      | none => .wait
      | some (some k, d) => .ok false ((d.setBale (some { r with fill := k })).progress n)
      | some (none, d) => .ok true (d.progress n)
    | _ =>
      if (d.route x.peer).isNone ∧ x.peer ≠ d.node then .fail stLink d
      else
        let d := (d.ckptPackets n x.peer stream).foldl (fun d p => d.sendPacket 5 p (some (y.trough, y.pos))) d
        .ok false (d.setBale (some { r with sent := true }))

/-- One block of the BALE that runs, or a step of the departure of its stream; true while more may follow. -/
def baleStep (t : TroughId) (pos : Nat) (d : Dev) : Work Bool :=
  match d.findDesc t pos, d.ba.bale with
  | some y, some r =>
    let x := Bale.of y.bits
    let n := d.stallOf t
    if d.paused ∨ !d.coreOn ∨ !d.domOn 50 then .wait
    else if r.block < ceilDiv x.values 4096 then
      (d.baleValues t x r.block).bind fun vs d =>
      (d.getBytes t x.tables x.tableLen).bind fun tb d =>
      if x.mode = 1 ∧ vs.any (valInf x.format) then .fail stDesc d
      else
        let (b, raw) := if x.mode = 1 then (encodeLossy x.format vs, false)
          else encodeLossless x.format ((tablesOf x.ntab tb).map (·.1)) vs
        let d := (d.addTo R.BAL_BLOCKS_OUT 1).progress n
        let d := if raw then d.bump R.BAL_RAW_COUNT else d
        .ok true (d.setBale (some { r with block := r.block + 1, body := r.body ++ b, held := false }))
    else
      (d.baleOut y n r).bind fun gone d =>
        if gone then .ok false ((d.setBale none).updDesc { y with phase := .done }) else .ok (x.dest == 1) d
  | _, _ => .wait

/-- Whether a started BALE may begin: the Baler is free, none that started earlier waits, batch work is not paused, and no
UNBALE reads its slot (R273, R275). -/
def Dev.baleMayBegin (d : Dev) (y : Desc) : Bool :=
  let x := Bale.of y.bits
  d.ba.bale.isNone && !d.paused && d.coreOn && d.domOn 50 && (x.dest != 1 || !d.slotReading x.slot) &&
    !d.tn.live.any (fun z => z.opcode == 4 && decide (z.phase = .started) && decide (z.order < y.order))

/-- BALE: a started BALE checks its tables and begins, or the one that runs makes up to `fuel` further steps: its blocks, then its
stream (R269-R274). -/
def bale (t : TroughId) (pos fuel : Nat) (d : Dev) : Dev :=
  match d.findDesc t pos with
  | none => d
  | some y =>
    let x := Bale.of y.bits
    if y.opcode ≠ 4 then d
    else if y.phase = .started then
      if !d.baleMayBegin y then d
      else
        ((d.getBytes t x.tables x.tableLen).bind fun tb d =>
          (Work.check (tablesOk x.format x.ntab tb) stDesc d).bind fun _ d =>
          let d := (d.setBale (some ⟨t, pos, 0, [], false, 0, 0, false⟩)).wr R.BAL_STAT_STALL (d.stallOf t)
          .ok () (d.updDesc { y with phase := .working })).close d t pos
    else if (d.ba.bale.map (fun r => (r.trough, r.pos))) = some (t, pos) then
      (Dev.steps (baleStep t pos) fuel d).close d t pos
    else d

/-! ## UNBALE (R266-R270, R276, R277) -/

/-- The receive path of an UNBALE by stall `n` (R276); none where no Furrow port leads to its peer. -/
def Dev.pathOf (d : Dev) (n : Nat) (x : Unbale) : Option Nat :=
  match x.src with
  | 0 => (d.funcOf n).map (· / 4)
  | 1 => some 6
  | _ => (d.route x.peer).map (2 + ·)

/-- The domain of a receive path. -/
def pathDomain (k : Nat) : Nat := if k < 2 then 44 + k else if k < 6 then 46 + (k - 2) else 52

/-- Read `n` lines of the loop port from G-address `a`. -/
def Dev.loopLines (d : Dev) (a : Nat) : Nat → List Byte × Bool × Dev
  | 0 => ([], false, d)
  | n + 1 =>
    let (g, d) := d.gLine .loop a
    let (bs, bad, d) := d.loopLines (a + 32) n
    (g.bytes ++ bs, g.bad || bad, d)

/-- `len` bytes of an UNBALE's stream from offset `off`, a multiple of 32 (R276). -/
def Dev.streamBytes (d : Dev) (t : TroughId) (x : Unbale) (r : PathRun) (off len : Nat) : Work (List Byte) :=
  match x.src with
  | 0 => d.getBytes t (x.srcAddr + off) len
  | 1 =>
    if !d.gOn then .fail stEcc d
    else if !d.gr.ready then .wait
    else
      let (bs, bad, d) := d.loopLines ((d.rd (R.BAL_SLOT_A_FIRST x.slot) + 1) * 4096 + off) (ceilDiv len 32)
      if bad then .fail stEcc d else .ok (bs.take len) d
  | _ => if r.last then .ok (slice r.raw off len) d else .wait

/-- A check of `kind` fails on path `k` at `block` (R270): it is recorded, and the UNBALE fails with BALECHK. -/
def Dev.chkFail (d : Dev) (k n kind block : Nat) : Dev :=
  let d := (d.bump R.BAL_CHK_COUNT).wr R.BAL_LAST_CHK_KIND kind
  (((d.wr R.BAL_LAST_CHK_PATH k).wr R.BAL_LAST_CHK_STALL n).wr R.BAL_LAST_CHK_BLOCK block).irq .bal 0 0

/-- The body of an UNBALE's stream, and whether it was encrypted, once its envelope and header have passed: data units that are not needed to reach block
START_BLOCK are not read (R277) and stand as zeros. -/
def Dev.openStream (d : Dev) (t : TroughId) (x : Unbale) (k n : Nat) (r : PathRun) : Work (List Byte × Bool) :=
  (d.streamBytes t x r 0 32).bind fun env d =>
  if !envelopeOk n (padTo 32 env) then .fail stBalechk (d.chkFail k n chkEnvelope maxWord)
  else
    let len := leAt env 16 8
    let plain := fun (d : Dev) u (bs : List Byte) =>
      if (leAt env 5 1).testBit 0 then d.decryptFrom n (leAt env 8 8) u bs else bs
    let whole := x.start == 0
    (d.streamBytes t x r 32 (if whole then len else min len 4096)).bind fun bs d =>
    let head := padTo (if whole then len else min len 4096) (plain d 0 bs)
    let full := lossyFull (leAt head 5 1)
    let u := (64 + x.start * full) / 4096
    let lo := if whole then len else max head.length (min len (u * 4096))
    (d.streamBytes t x r (32 + lo) (len - lo)).bind fun rest d =>
    let body := head ++ zeros (lo - head.length) ++ padTo (len - lo) (plain d (lo / 4096) rest)
    if !headerGood body x.values x.tag x.start then .fail stBalechk (d.chkFail k n chkHeader maxWord)
    else .ok (body, (leAt env 5 1).testBit 0) d

/-- The expanders of the UNBALE on path `k` write one of their blocks: which one is a free value (R266). The blocks that are
left, or the end of the restore once all are dispatched. -/
def Dev.writeBlock (d : Dev) (y : Desc) (k pick : Nat) (r : PathRun) (body : List Byte) : Work Bool :=
  let t := y.trough
  let x := Unbale.of y.bits
  match r.ready[pick % max 1 r.ready.length]? with
  | none => .wait
  | some (b, bs) =>
    (d.putBytes t (x.dst + 8192 * (b - x.start)) bs).bind fun _ d =>
    let d := (d.addTo R.BAL_BLOCKS_IN 1).progress (d.stallOf t)
    let left := r.ready.filter (fun q => q.1 != b)
    if left.isEmpty ∧ r.block = ceilDiv (leAt body 8 4) 4096 then .ok false ((d.setPath k none).updDesc { y with phase := .done })
    else .ok true (d.setPath k (some { r with ready := left, held := false }))

/-- The expander of block `r.block` is free, and there is such a block. -/
def PathRun.mayDispatch (r : PathRun) (body : List Byte) : Bool :=
  decide (r.block < ceilDiv (leAt body 8 4) 4096) && r.ready.all (fun q => q.1 % 16 != r.block % 16)

/-- One step of the UNBALE on path `k`: its stream is opened; or the next block, if its expander is free, is checked and
decoded, and, as a free value has it or where none was dispatched, an expander writes a block (R266, R270). While batch work is
paused the expanders write what they hold and no block follows (R273). True while more may follow. -/
def unbaleStep (t : TroughId) (pos k : Nat) (d : Dev) : Work Bool :=
  match d.findDesc t pos, d.path k with
  | some y, some r =>
    let x := Unbale.of y.bits
    let n := d.stallOf t
    if (d.paused ∧ r.ready.isEmpty) ∨ !d.coreOn ∨ (!d.domOn (pathDomain k) ∧ k ≠ 6) then .wait
    else match r.body with
    | none =>
      (d.openStream t x k n r).bind fun (body, sealed) d =>
        let off := if leAt body 6 1 = 0 then 64 + leAt body 24 4 else 64 + x.start * lossyFull (leAt body 5 1)
        .ok true (d.setPath k (some { r with body := some body, raw := [], block := x.start, off := off, held := false, sealed := sealed }))
    | some body =>
      let (v, d) := d.freeNext
      if d.paused ∨ !r.mayDispatch body then d.writeBlock y k (v / 2) r body
      else match readBlock body r.block r.off with
      | .error kind => .fail stBalechk (d.chkFail k n kind r.block)
      | .ok (vs, size) =>
        let r := { r with block := r.block + 1, off := r.off + size, ready := r.ready ++ [(r.block, vs.flatMap (leBytes 2))], held := false }
        let d := d.setPath k (some r)
        if v % 2 = 0 then .ok true d else d.writeBlock y k (v / 2) r body
  | _, _ => .wait

/-- Whether a started UNBALE may claim path `k`: it is free, batch work is not paused, none that started earlier waits for it,
and no BALE writes its slot (R267, R275). -/
def Dev.unbaleMayBegin (d : Dev) (y : Desc) (k : Nat) : Bool :=
  let x := Unbale.of y.bits
  (d.path k).isNone && !d.paused && d.coreOn && (x.src != 1 || !d.slotWriting x.slot) &&
    !d.tn.live.any (fun z => z.opcode == 5 && decide (z.phase = .started) && decide (z.order < y.order) &&
      d.pathOf (d.stallOf z.trough) (Unbale.of z.bits) == some k)

/-- UNBALE: a started UNBALE claims its path, or the one that has it makes up to `fuel` further steps of its restore. A stream from a
peer is claimed when its first packet comes (R266-R270, R276, R298). -/
def unbale (t : TroughId) (pos fuel : Nat) (d : Dev) : Dev :=
  match d.findDesc t pos with
  | none => d
  | some y =>
    let x := Unbale.of y.bits
    let n := d.stallOf t
    if y.opcode ≠ 5 then d
    else match d.pathOf n x with
    | none => d
    | some k =>
      if y.phase = .started then
        if x.src = 2 ∨ !d.unbaleMayBegin y k then d
        else if x.src = 1 ∧ !d.on (R.BAL_SLOT_B_VALID x.slot) then
          (d.chkFail k n chkEnvelope maxWord).failDesc t pos stBalechk
        else (d.setPath k (some ⟨t, pos, [], false, none, 0, 0, [], false, false⟩)).updDesc { y with phase := .working }
      else if (d.path k).map (fun r => (r.trough, r.pos)) = some (t, pos) then
        (Dev.steps (unbaleStep t pos k) fuel d).close d t pos
      else d

/-- BALER_PAUSE: while batch work is paused, the BALE and the UNBALEs that run stand at a block boundary (R273). -/
def balerPause (d : Dev) : Dev :=
  if d.paused then
    let d := d.setBale (d.ba.bale.map (fun r => { r with held := true }))
    rxPaths.foldl (fun d k => d.setPath k ((d.path k).map (fun r => { r with held := true }))) d
  else d

end Sys2Proof.Machine
end

