-- ==== Sys2Proof/Machine/Furrow.lean ====
section
/-! DEFINITION. The Furrow link layer: training, flits, credits, retry, loss, knocks (spec/15 R279-R288, R302-R304). -/
namespace Sys2Proof.Machine

/-! ## Training (R283, Table 15-3) -/

/-- Types of control block (Table 15-2). -/
abbrev typeTs1 : Nat := 0x1E
abbrev typeTs2 : Nat := 0x2D
abbrev typeAlign : Nat := 0x4B

/-- The payload bytes of a control block on lanes 0-3, in the order of a flit: each lane carries its own 16. -/
def laneBytes (f : Nat → List Byte) : List Byte := (List.range 64).map (fun k => (f (k % 4)).getD (k / 4) 0)

/-- What port `p` sends as a training block of a type: the lane's number, the device's node ID, version 1, LOCKED, and its own
eight receive depths (Table 15-2). -/
def Dev.tsBytes (d : Dev) (p type : Nat) (locked : Bool) : List Byte :=
  let depths := ((List.range 8).map (fun v => d.rd (R.FUR_VC_DEPTH p v) * 2 ^ (10 * v))).foldl (· + ·) 0
  laneBytes fun n => leBytes 1 type ++ leBytes 1 n ++ leBytes 2 d.node ++ leBytes 1 1 ++ leBytes 1 (b2n locked) ++ leBytes 10 depths

/-- Port `p` sends training blocks of a type. -/
def Dev.sendTs (d : Dev) (p type : Nat) (locked : Bool) : Dev := d.emitBlock p hdrControl (d.tsBytes p type locked)

/-- Whether a node ID is one the rule of R283 lets a port train with. -/
def nodeValid (n : Nat) : Bool := n != 0 && n != 0xFFFF

/-- Whether port `p` may train: EN is 1, its domain is on, NODE is valid, and no knock is in progress (R283, R304). -/
def Dev.furMayTrain (d : Dev) (p : Nat) : Bool :=
  d.on (R.FUR_CTL_EN p) && d.domOn (46 + p) && nodeValid d.node && !(d.link p).knocking

/-- No valid header in a row, or no framing error, on any lane. -/
def noErrors : List Nat := [0, 0, 0, 0]

/-- Whether port `p` trains. -/
def Dev.furTraining (d : Dev) (p : Nat) : Bool :=
  let st := d.rd (R.FUR_STAT_STATE p)
  st == furDetect || st == furTrain1 || st == furTrain2

/-- Port `p` enters DETECT. -/
def Dev.furToDetect (d : Dev) (p : Nat) : Dev :=
  let l := d.link p
  ((d.wr (R.FUR_STAT_STATE p) furDetect).setLink p { l with lock := noErrors, framing := noErrors, ts1 := 0, ts2 := 0 }).sendTs p
    typeTs1 false

/-- Port `p` starts to train if it may, and is down otherwise; a knock or the idle time after a loss comes first. -/
def Dev.furStart (d : Dev) (p : Nat) : Dev :=
  if (d.link p).knocking ∨ (d.link p).idleHold then d
  else if d.furMayTrain p then d.furToDetect p else d.wr (R.FUR_STAT_STATE p) furDown

/-- Whether the lane numbers of a training block are 0-3 in order. -/
def tsInOrder (x : Ts) : Bool := x.lanes == 0x03020100

/-- The eight depths of a training block. -/
def tsDepths (x : Ts) : List Nat := (List.range 8).map (fun v => bits x.depths.toNat (10 * v) 10)

/-- Send again on its VC a remote signal that has not been acknowledged (R293). -/
def Dev.resendRsig (d : Dev) (r : RSig) : Dev :=
  d.sendPacket r.vc (d.packet pkRsig r.node r.dstall r.stall (leBytes 2 r.ctr ++ leBytes 2 r.seq ++ leBytes 4 r.amount) [])

/-- Port `p` enters ACTIVE: it takes the partner's depths as credits, starts its sequence numbers at 0, and resends the
remote signals that leave by it (R283, R293). -/
def Dev.furActivate (d : Dev) (p : Nat) (x : Ts) : Dev :=
  let d := d.setLink p { Link.down with txq := (d.link p).txq, gone := (d.link p).gone, heard := tsDepths x,
                                         heardNode := x.node.toNat }
  let d := (List.range 8).foldl (fun d v =>
    (d.wr (R.FUR_PVC_PDEPTH p v) ((tsDepths x).getD v 0)).wr (R.FUR_VC_AVAIL p v) ((tsDepths x).getD v 0)) d
  let d := (((d.dropLevel 0 p).wr (R.FUR_STAT_STATE p) furActive).wr (R.FUR_STAT_PARTNER p) x.node.toNat).irq .fur p 1
  let d := d.tn.rsigs.foldl (fun d r => if d.route r.node = some p then d.resendRsig r else d) d
  d.pumpAll p

/-- The port leaves every state but a knock in progress: what it had received and not had acknowledged is gone. -/
def Dev.furStop (d : Dev) (p : Nat) : Dev :=
  if (d.link p).knocking then d
  else (d.setLink p (d.link p).cut).wr (R.FUR_STAT_STATE p) furDown

/-- TRAIN_TIMEOUT: a training state of port `p` has lasted 2 ms (R283). -/
def trainTimeout (p : Nat) (d : Dev) : Dev :=
  if d.furTraining p then (d.bump (R.FUR_TRAIN_FAIL_COUNT p)).furStart p else d

/-- The effect of a write of FUR.CTL (R283, Table 15-9): EN starts training; a write of EN = 1 with NODE invalid, or of
DEEMPH 7, is ignored and counted. -/
def Dev.furCtl (d : Dev) (q : Req) (p v : Nat) : Dev :=
  let en := v.testBit 0
  let was := d.on (R.FUR_CTL_EN p)
  if bits v 1 3 = 7 ∨ (en ∧ !nodeValid d.node) then d.perr (A.FUR_CTL p) q causeValue
  else
    let d := d.storeWord (A.FUR_CTL p) v
    if en && !was then d.furStart p else if !en && was then d.furStop p else d

/-- The effect of a write of FUR[0].NODE (R283): the enabled ports start to train once it is valid, and stop training once it is
not; an ACTIVE port stays so. -/
def Dev.furNode (d : Dev) (v : Nat) : Dev :=
  let was := nodeValid d.node
  let d := d.storeWord (A.FUR_NODE) v
  if nodeValid d.node = was then d
  else furPorts.foldl (fun d p =>
    if was then if d.furTraining p then d.furStop p else d
    else if d.furUp p then d else d.furStart p) d

/-! ## Loss (R287, R288) -/

/-- The flits a packet takes (R289). -/
def Packet.size (x : Packet) : Nat := 1 + ceilDiv x.data.length 56

/-- Flits received and still buffered on port `p`. -/
def Link.buffered (l : Link) : Nat :=
  (l.rxq.map (fun x => x.2.size)).foldl (· + ·) 0 +
    ((List.range 8).map (fun v => match l.partly.get (fun _ => none) v with
      | some (x, _) => x.size
      | none => 0)).foldl (· + ·) 0 - l.staged.foldl (· + ·) 0

/-- Whether stall `n` depends on port `p`: its job declares a peer routed by it, or it is bound to a node so routed (R288). -/
def Dev.dependsOn (d : Dev) (n p : Nat) : Bool :=
  (d.job n).decl.peers.any (fun x => d.route x == some p) || (match d.nodeOf n with
    | some x => d.route x == some p
    | none => false)

/-- Port `p` is lost (R287, R288): counted and reported, its replay and receive buffers discarded, its transmitter idle; the
jobs that depend on it and the UNBALE that streams over it fault with LINK. -/
def Dev.furLose (d : Dev) (p : Nat) : Dev :=
  let l := d.link p
  let d := ((d.wr (R.FUR_STAT_LOST p) 1).bump (R.FUR_LOST_COUNT p)).bump (R.FUR_DROP_COUNT p) (l.replay.length + l.buffered)
  let d := ((d.setLink p { l.cut with idleHold := true }).wr (R.FUR_STAT_STATE p) furDown).irq .fur p 0
  let run := d.path (2 + p)
  let d := (0 :: hostStalls).foldl (fun d n =>
    if d.dependsOn n p && d.jobState n == jobOpen then d.faultJob n stLink kindJob 0 0 else d) d
  match run with
  | some r => d.failDesc r.trough r.pos stLink
  | none => d

/-- LINK_SILENCE_TIMEOUT: nothing good has arrived on ACTIVE port `p` for 8,192 FCLK cycles (R287). -/
def linkSilence (p : Nat) (d : Dev) : Dev := if d.furUp p then d.furLose p else d

/-- BLOCK_LOCK_LOSS: a lane of port `p` has seen 4 framing errors within 64 blocks (R282): an ACTIVE port is lost; one in
training must find its lock, or its run of TS1, again. -/
def blockLockLoss (p : Nat) (d : Dev) : Dev :=
  if d.furUp p then d.furLose p else d.setLink p { d.link p with lock := noErrors, framing := noErrors, ts1 := 0 }

/-- IDLE_HOLD_END: 16 µs after its loss, the port returns to DETECT (R287). -/
def idleHoldEnd (p : Nat) (d : Dev) : Dev :=
  if (d.link p).idleHold then (d.setLink p { d.link p with idleHold := false }).furStart p else d

/-! ## Blocks received (R279-R283) -/

/-- The sync header of lane `n`. -/
def headerOf (headers n : Nat) : Nat := bits headers (4 * n) 4

/-- The lanes on which a control block has no valid header: an inverted lane's reads as the other kind's. -/
def badHeaders (headers : Nat) : List Bool :=
  (List.range 4).map (fun n => headerOf headers n != hdrData && headerOf headers n != hdrControl)

/-- Whether port `p` has found lane `n` inverted (R279). -/
def Dev.inverted (d : Dev) (p n : Nat) : Bool := (d.rd (R.FUR_STAT_POL p)).testBit n

/-- The payload bytes of a block time as port `p` takes them: each inverted lane corrected. -/
def Dev.corrected (d : Dev) (p : Nat) (bs : List Byte) : List Byte :=
  (List.range bs.length).map (fun k => if d.inverted p (k % 4) then ~~~bs.getD k 0 else bs.getD k 0)

/-- The framing errors of a block time in which a flit is due (R280, R281): a lane without the header of a data block errs,
unless it carries a control block of a known type. -/
def Dev.badLanes (d : Dev) (p headers : Nat) (bs : List Byte) : List Bool :=
  (List.range 4).map fun n =>
    let h := if d.inverted p n then 15 - headerOf headers n else headerOf headers n
    let type := ((d.corrected p bs).getD n 0).toNat
    !(h == hdrData || (h == hdrControl && [typeTs1, typeTs2, typeAlign].contains type))

/-- The number of framing errors in a record of 64 blocks. -/
def errorsIn (r : Nat) : Nat := ((List.range 64).filter r.testBit).length

/-- A link after a block time with framing errors on some lanes. -/
def Link.heardBlock (l : Link) (bad : List Bool) : Link :=
  let err := fun n => bad.getD n false
  { l with framing := [0, 1, 2, 3].map (fun n => (2 * l.framing.getD n 0 + b2n (err n)) % 2 ^ 64)
           lock := [0, 1, 2, 3].map (fun n => if err n then 0 else min 8 (l.lock.getD n 0 + 1)) }

/-- Whether a lane has seen four framing errors within its last 64 blocks. -/
def Link.locksLost (l : Link) : Bool := l.framing.any (fun r => decide (4 ≤ errorsIn r))

/-- Port `p`, training or ACTIVE, hears a block time with framing errors on some lanes: the fourth on one lane within 64 of its
blocks loses its lock (R282); in DETECT, the eighth valid header in a row on every lane ends the state (R283). -/
def Dev.hear (d : Dev) (p : Nat) (bad : List Bool) : Dev :=
  let l := d.link p
  if !d.domOn (46 + p) ∨ l.idleHold ∨ !(d.furUp p || d.furTraining p) then d
  else
    let l := l.heardBlock bad
    let d := d.setLink p l
    if l.locksLost then blockLockLoss p d
    else if d.rd (R.FUR_STAT_STATE p) = furDetect ∧ l.lock.all (· == 8) then
      ((d.wr (R.FUR_STAT_STATE p) furTrain1).setLink p { d.link p with ts1 := 0 }).sendTs p typeTs1 true
    else d

/-- TS1_RECEIVE: in DETECT the inverted lanes are recorded, and in TRAIN1 the sixteenth consecutive TS1 with LOCKED, right lane
numbers and version 1 ends the state (R283). -/
def ts1Receive (p : Nat) (x : Ts) (d : Dev) : Dev :=
  let st := d.rd (R.FUR_STAT_STATE p)
  let bad := badHeaders x.headers.toNat
  if !d.domOn (46 + p) ∨ (d.link p).idleHold then d
  else
    let d := (if st = furDetect then d.wr (R.FUR_STAT_POL p) x.inv.toNat else d).hear p bad
    let l := d.link p
    if st ≠ furTrain1 then d
    else if x.locked ∧ tsInOrder x ∧ x.version = 1 ∧ !bad.any id then
      if l.ts1 + 1 < 16 then d.setLink p { l with ts1 := l.ts1 + 1 }
      else ((d.wr (R.FUR_STAT_STATE p) furTrain2).setLink p { l with ts1 := 16, ts2 := 0 }).sendTs p typeTs2 true
    else d.setLink p { l with ts1 := 0 }

/-- TS2_RECEIVE: in TRAIN2, with `sent` TS2 sent so far, the port becomes ACTIVE once 16 are sent and 8 received (R283). -/
def ts2Receive (p : Nat) (x : Ts) (sent : Nat) (d : Dev) : Dev :=
  let st := d.rd (R.FUR_STAT_STATE p)
  let bad := badHeaders x.headers.toNat
  let d := d.hear p bad
  let l := d.link p
  if st ≠ furTrain2 ∨ !d.domOn (46 + p) ∨ bad.any id then d
  else if 8 ≤ l.ts2 + 1 ∧ 16 ≤ sent then d.furActivate p x
  else d.setLink p { l with ts2 := l.ts2 + 1 }

/-- ALIGN_RECEIVE: the lanes deskew and the receive scramblers restart (R280, R282). -/
def alignReceive (p : Nat) (headers : BitVec 16) (d : Dev) : Dev :=
  let bad := badHeaders headers.toNat
  let d := d.hear p bad
  if d.furUp p ∧ !bad.any id then d.setLink p { d.link p with scrRx := scrSeeds } else d

/-- ALIGN_SEND: an ACTIVE transmitter sends its ALIGN block and its scramblers restart (R280, R282). -/
def alignSend (p : Nat) (d : Dev) : Dev :=
  if d.furUp p then (d.setLink p { d.link p with scrTx := scrSeeds }).emitBlock p hdrControl (laneBytes fun _ => leBytes 16 typeAlign)
  else d

/-! ## Retry (R286) -/

/-- Send again every flit of a replay list. -/
def Dev.replayAll (d : Dev) (p : Nat) : List (Nat × Flit × Nat) → Dev
  | [] => d
  | (seq, f, _) :: rs =>
    (d.emitFlit p (flitBytes (d.link p) (if f.head then ftHead else ftData) seq f.vc f.payload)).replayAll p rs

/-- Replay from ACK + 1: a flit already replayed fifteen times exhausts retry (R286). -/
def Dev.replay (d : Dev) (p : Nat) : Dev :=
  let l := d.link p
  if l.replay.isEmpty then d
  else if l.replay.any (fun r => decide (15 ≤ r.2.2)) then d.furLose p
  else
    let d := d.setLink p { l with replay := l.replay.map (fun r => (r.1, r.2.1, r.2.2 + 1)) }
    (d.bump (R.FUR_REPLAY_COUNT p)).replayAll p l.replay

/-- The replay list after every flit up to `ack` has been acknowledged. -/
def acked (ack : Nat) (rs : List (Nat × Flit × Nat)) : List (Nat × Flit × Nat) :=
  rs.filter (fun r => decide (2048 ≤ (ack + 4096 - r.1) % 4096))

/-- The ACK and NAK of a received flit: acknowledged flits leave the replay buffer, a NAK replays the rest (R286). -/
def Dev.takeAck (d : Dev) (p ack : Nat) (nak : Bool) : Dev :=
  let l := d.link p
  let d := d.setLink p { l with replay := acked ack l.replay }
  let d := if nak then d.replay p else d
  d.pumpAll p

/-- REPLAY_TIMEOUT: 4,096 FCLK cycles without an advance of ACK start a replay (R286). -/
def replayTimeout (p : Nat) (d : Dev) : Dev := if d.furUp p then d.replay p else d

/-! ## The receive buffers (R285, R290, R298) -/

/-- The UNBALE run that a stream from node `src` feeds on port `p`, by its path. -/
def Dev.ckptRun (d : Dev) (p src : Nat) : Option (Nat × PathRun) :=
  [2, 3, 4, 5].findSome? (fun k =>
    match d.path k with
    | some r =>
      match d.findDesc r.trough r.pos with
      | some y =>
        let x := Unbale.of y.bits
        if x.src = 2 ∧ x.peer = src ∧ (p = 4 ∨ k = 2 + p) ∧ !r.last then some (k, r) else none
      | none => none
    | none => none)

/-- The oldest started UNBALE that takes a stream from node `src` on port `p`, with its path (R298). -/
def Dev.ckptTaker (d : Dev) (p src : Nat) : Option (Nat × Desc) :=
  let fits := fun (y : Desc) =>
    let x := Unbale.of y.bits
    let n := d.stallOf y.trough
    if y.opcode = 5 ∧ y.phase = .started ∧ x.src = 2 ∧ x.peer = src ∧ d.isPeer n src then
      match d.pathOf n x with
      | some k => if (p = 4 ∨ k = 2 + p) ∧ (d.path k).isNone then some (k, y) else none
      | none => none
    else none
  (d.tn.live.filterMap fits).foldl (fun best e => match best with
    | none => some e
    | some b => if e.2.order < b.2.order then some e else some b) none

/-- Whether the packet at the head of its VC, of which more flits are due, may leave the receive buffer of port `p` flit by
flit: a checkpoint stream leaves it only for an UNBALE that takes it (R298). -/
def Dev.mayStage (d : Dev) (p : Nat) (x : Packet) : Bool :=
  if x.cls = pkCkpt ∧ x.dst = d.node then
    if (x.fld 16 1).testBit 0 then !d.paused && (d.ckptRun p x.src).isNone && (d.ckptTaker p x.src).isSome
    else !(d.paused && (d.ckptRun p x.src).isSome)
  else true

/-- Flits of VC `v` of port `p` have left its receive buffer: their credits return (R285). -/
def Dev.freeFlits (d : Dev) (p v k : Nat) : Dev :=
  if k = 0 then d
  else
    let l := d.link p
    d.setLink p { l with freedOut := addAt l.freedOut v k, returnDue := true }

/-- The packet on VC `v` of port `p` of which more flits are due leaves the buffer as far as it has come, once no whole packet
stands before it (R285, Case 15-1). -/
def Dev.stage (d : Dev) (p v : Nat) : Dev :=
  let l := d.link p
  match l.partly.get (fun _ => none) v with
  | none => d
  | some (x, _) =>
    if l.rxq.any (fun e => e.1 == v) || !d.mayStage p x then d
    else (d.setLink p { l with staged := l.staged.set v x.size }).freeFlits p v (x.size - l.staged.getD v 0)

/-- A whole packet leaves VC `v` of port `p`: the flits of it that still stand in the buffer free it. -/
def Dev.freePacket (d : Dev) (p v : Nat) (x : Packet) : Dev :=
  let l := d.link p
  (d.setLink p { l with staged := l.staged.set v 0 }).freeFlits p v (x.size - l.staged.getD v 0)

/-- A whole packet has arrived on VC `v` of port `p`: one of an unknown class, on a wrong VC or on VC 7 is dropped and
counted (R290); a reply or a notice to this device itself has no taker and is consumed. -/
def Dev.gotPacket (d : Dev) (p v : Nat) (x : Packet) : Dev :=
  if v = 7 ∨ !vcOk x.cls v then (d.bump (R.FUR_DROP_COUNT p)).freePacket p v x
  else if x.dst = d.node ∧ (x.cls = pkRegRsp ∨ x.cls = pkNotify) then d.freePacket p v x
  else d.setLink p { d.link p with rxq := (d.link p).rxq ++ [(v, x)] }

/-- A HEAD or DATA flit in order: it joins its packet. -/
def Dev.acceptFlit (d : Dev) (p v : Nat) (head : Bool) (payload : List Byte) : Dev :=
  let l := d.link p
  let put := fun (d : Dev) (x : Option (Packet × Nat)) =>
    d.setLink p { d.link p with partly := (d.link p).partly.set (fun _ => none) v x }
  if head then
    let (x, len) := Packet.ofHead payload
    if len = 0 then d.gotPacket p v x else (put d (some (x, len))).stage p v
  else match l.partly.get (fun _ => none) v with
  | none => (d.bump (R.FUR_DROP_COUNT p)).freeFlits p v 1
  | some (x, left) =>
    let x := { x with data := x.data ++ payload.take (min 56 left) }
    if left ≤ 56 then (put d none).gotPacket p v x else (put d (some (x, left - 56))).stage p v

/-! ## Receiving flits (R284-R286) -/

/-- The bytes of a flit as they arrive on the lanes of port `p`, corrected and descrambled. -/
def Dev.unscramble (d : Dev) (p : Nat) (bs : List Byte) : List Byte × Dev :=
  let l := d.link p
  let (xs, st) := scramble l.scrRx (d.corrected p bs)
  (xs, d.setLink p { l with scrRx := st })

/-- Whether a flit is intact: its CRC matches and its FTYPE is known. -/
def flitGood (bs : List Byte) : Bool := leAt bs 60 4 == crc32c (bs.take 60) && decide (leAt bs 0 2 % 16 < 3)

/-- A damaged flit: counted, and a NAK is due (R286). -/
def Dev.badFlit (d : Dev) (p : Nat) : Dev :=
  (d.bump (R.FUR_CRC_ERR_COUNT p)).setLink p { d.link p with nak := true, returnDue := true }

/-- The 64 bytes of a flit arrive on the lanes of port `p`: a damaged one is discarded with a NAK, as is one with a framing error
on a lane (DESIGN CHOICE); an intact one is `take`n, where its type is one of those meant. -/
def Dev.flitIn (d : Dev) (p headers : Nat) (raw : List Byte) (null : Bool) (take : List Byte → Dev → Dev) : Dev :=
  let bad := d.badLanes p headers raw
  let d1 := d.hear p bad
  if !d.furUp p ∨ !d1.furUp p then d1
  else
    let (bs, d1) := d1.unscramble p raw
    if bad.any id ∨ !flitGood bs then d1.badFlit p
    else if (leAt bs 0 2 % 16 == ftNull) != null then d
    else take bs d1

/-- A good flit's ACK and NAK. -/
def Dev.flitAck (d : Dev) (p : Nat) (bs : List Byte) : Dev := d.takeAck p (leAt bs 2 2 / 16) ((leAt bs 2 2).testBit 3)

/-- SEQUENCED_FLIT_RECEIVE: a HEAD or DATA flit is taken in order, or discarded with a NAK (R286). -/
def sequencedFlit (p : Nat) (headers : BitVec 16) (raw : List Byte) (d : Dev) : Dev :=
  d.flitIn p headers.toNat raw false fun bs d =>
    let w := leAt bs 0 2
    let seq := w / 16
    let l := d.link p
    let d := if seq = (l.rxSeq + 1) % 4096 then
        ((d.setLink p { l with rxSeq := seq, nak := false, returnDue := true }).addTo (R.FUR_RX_FLITS p) 1).acceptFlit p
          (leAt bs 2 2 % 8) (w % 16 == ftHead) (slice bs 4 56)
      else d.setLink p { l with nak := true, returnDue := true }
    d.flitAck p bs

/-- NULL_FLIT_RECEIVE: a NULL flit returns credits and ACK or NAK (R285). -/
def nullFlit (p : Nat) (headers : BitVec 16) (raw : List Byte) (d : Dev) : Dev :=
  d.flitIn p headers.toNat raw true fun bs d =>
    let d := d.setLink p { d.link p with freedIn := (List.range 8).map (fun v => leAt bs (4 + 2 * v) 2) }
    ((List.range 8).foldl (fun d v => d.showAvail p v) d).flitAck p bs

/-- CREDIT_RETURN: a change in FREED or ACK leaves in a NULL flit (R285). -/
def creditReturn (p : Nat) (d : Dev) : Dev :=
  let l := d.link p
  if d.furUp p ∧ l.returnDue then
    let d := d.setLink p { l with returnDue := false }
    d.emitFlit p (flitBytes l ftNull 0 0 (l.freedOut.flatMap (leBytes 2)))
  else d

/-! ## Knocks (R302-R304) -/

/-- The bits of a 64-bit word, bit 0 first. -/
def wordBits (v : Nat) : List Bool := (List.range 64).map v.testBit

/-- The 320 cells of a knock: the pattern four times, then the domain mask (R302). -/
def knockCells (pat mask : Nat) : List Bool := (List.replicate 4 (wordBits pat)).flatten ++ wordBits mask

/-- Port `p` sends a knock on its lane 0. -/
def Dev.sendKnock (d : Dev) (p : Nat) : Dev :=
  d.emit (.knock p (knockCells (d.rd R.FUR_KNOCK_PAT) (d.rd (R.FUR_KNOCK_MASK p))))

/-- A burst of so many active samples as a cell: none for lane activity (R303). -/
def burstCell (n : Nat) : Option Bool := if 16 ≤ n then none else some (decide (3 ≤ n))

/-- The word that the next 64 cells spell, bit 0 first. -/
def cellWord (cs : List (Option Bool)) : Option Nat :=
  if cs.length < 64 ∨ (cs.take 64).any Option.isNone then none
  else some ((cs.take 64).foldr (fun c v => 2 * v + b2n (c.getD false)) 0)

/-- The first word after the pattern's repetitions; `k` bounds them. -/
def afterPattern (pat : Nat) : Nat → List (Option Bool) → Option Nat
  | 0, _ => none
  | k + 1, cs => (cellWord cs).bind fun w => if w = pat then afterPattern pat k (cs.drop 64) else some w

/-- The mask the detector decodes: the pattern at least twice in a row, then a word that differs from it (R303). -/
def knockMask (pat : Nat) : List (Option Bool) → Option Nat
  | [] => none
  | c :: cs =>
    let all := c :: cs
    if cellWord all = some pat ∧ cellWord (all.drop 64) = some pat then
      match afterPattern pat all.length (all.drop 128) with
      | some w => some w
      | none => knockMask pat cs
    else knockMask pat cs

/-- The pattern the detectors compare with: FUR[0].KNOCK_PAT, and without its supply what it held last (DEDUCED). -/
def Dev.knockPat (d : Dev) : Nat := if d.domOn 46 then d.rd R.FUR_KNOCK_PAT else d.fu.knockPat

/-- The mask of the knock in a train of bursts, given by their active samples, if the detector accepts one (R303). -/
def Dev.heardKnock (d : Dev) (bursts : List Nat) : Option Nat := knockMask d.knockPat ((bursts.filter (· != 0)).map burstCell)

/-- A knock ends: the port trains again if it may. -/
def Dev.knockEnd (d : Dev) (p : Nat) : Dev :=
  (((d.wr (R.FUR_KNOCK_STAT_BUSY p) 0).wr (R.FUR_STAT_STATE p) furDown).setLink p { d.link p with knocking := false }).furStart p

/-- The effect of a write of KNOCK_CTL (R304): SEND is ignored and counted while the port is ACTIVE or knocks. -/
def Dev.knockCtl (d : Dev) (q : Req) (p v : Nat) : Dev :=
  if !v.testBit 0 then d
  else if d.furUp p ∨ (d.link p).knocking then d.perr (A.FUR_KNOCK_CTL p) q causeValue
  else
    let d := ((d.setLink p { d.link p with knocking := true }).wr (R.FUR_STAT_STATE p) furKnocking).wr (R.FUR_KNOCK_STAT_BUSY p) 1
    (d.wr (R.FUR_KNOCK_STAT_TRIES p) 1).sendKnock p

/-- KNOCK_ECHO_TIMEOUT: no echo began within 10 µs: the knock is sent again, or has failed (R304). -/
def knockTimeout (p : Nat) (d : Dev) : Dev :=
  if !(d.link p).knocking then d
  else if d.rd (R.FUR_KNOCK_STAT_TRIES p) < d.rd (R.FUR_KNOCK_RETRY_COUNT p) then
    (d.wr (R.FUR_KNOCK_STAT_TRIES p) (d.rd (R.FUR_KNOCK_STAT_TRIES p) + 1)).sendKnock p
  else (((d.wr (R.FUR_KNOCK_STAT_FAIL p) 1).irq .fur p 3).knockEnd p)

/-- KNOCK_ECHO_RECEIVE: the partner's echo ends the knock (R304). -/
def knockEcho (p : Nat) (d : Dev) : Dev :=
  if (d.link p).knocking then ((d.wr (R.FUR_KNOCK_STAT_ECHO p) 1).irq .fur p 2).knockEnd p else d

/-! ## Other registers (Table 15-9) -/

/-- The effect of a write of FUR.VC[v]: DEPTH is kept to a sum of 1,024, and fixed while EN is 1. -/
def Dev.furDepth (d : Dev) (q : Req) (p v w : Nat) : Dev :=
  let sum := ((List.range 8).map (fun u => if u = v then bits w 0 10 else d.rd (R.FUR_VC_DEPTH p u))).foldl (· + ·) 0
  if d.on (R.FUR_CTL_EN p) ∨ 1024 < sum then d.perr (A.FUR_VC p v) q causeValue else d.storeWord (A.FUR_VC p v) w

end Sys2Proof.Machine
end

