-- ==== Sys2Proof/Machine/Links.lean ====
section
/-! DEFINITION. The packet layer of Furrow, remote signals, aborts and barriers, and the LINK, FENCE and SYNC descriptors
(spec/15 R291-R301, spec/05 R92, R96-R100). -/
namespace Sys2Proof.Machine

/-! ## Taking a packet from a receive buffer -/

/-- The receive buffer of port `p`, in order of arrival; 4 is the device's own packets. -/
def Dev.rxList (d : Dev) (p : Nat) : List (Nat × Packet) := if p = 4 then d.fu.loop else (d.link p).rxq

/-- The first packet that satisfies `ok` and stands behind no other of its VC, and the rest. -/
def firstRx (ok : Packet → Bool) : List Nat → List (Nat × Packet) → List (Nat × Packet) →
    Option (Nat × Packet × List (Nat × Packet))
  | _, _, [] => none
  | seen, pre, (v, x) :: xs =>
    if ok x && !seen.contains v then some (v, x, pre ++ xs) else firstRx ok (v :: seen) (pre ++ [(v, x)]) xs

/-- `d` with the receive buffer of port `p` reduced to `rest`: the packet taken frees its flits (R285). -/
def Dev.popRx (d : Dev) (p v : Nat) (x : Packet) (rest : List (Nat × Packet)) : Dev :=
  if p = 4 then { d with fu := { d.fu with loop := rest } }
  else ((d.setLink p { d.link p with rxq := rest }).freePacket p v x).stage p v

/-- Take the next packet of a class addressed to this device from port `p`, and give it to `f`; a packet `f` answers none
for stays where it is. -/
def Dev.receive (d : Dev) (p : Nat) (cls : Nat) (f : Packet → Dev → Option Dev) : Dev :=
  if !d.coreOn then d
  else match firstRx (fun x => x.dst == d.node && x.cls == cls) [] [] (d.rxList p) with
  | none => d
  | some (v, x, rest) =>
    match f x (d.popRx p v x rest) with
    | some d' => d'
    | none => d

/-- Count on a Furrow port's page; the device's own packets have no port to count on. -/
def Dev.bumpPort (d : Dev) (p : Nat) (f : Nat → Fld) : Dev := if p = 4 then d else d.bump (f p)

/-! ## Remote signals (R98-R100) -/

/-- The key of a pair: the sending or receiving stall first. -/
def pairKey (own other node : Nat) : Nat := (own * 16 + other) * 65536 + node

/-- The last sequence number applied for a pair (R99). -/
def Dev.lastSeq (d : Dev) (own other node : Nat) : Option Nat := d.tn.rsigLast.get (fun _ => none) (pairKey own other node)

/-- `d` with it replaced. -/
def Dev.setLastSeq (d : Dev) (own other node seq : Nat) : Dev :=
  { d with tn := { d.tn with rsigLast := d.tn.rsigLast.set (fun _ => none) (pairKey own other node) (some seq) } }

/-- Whether `seq` is newer than the last one applied, modulo 65,536. -/
def seqNewer (last : Option Nat) (seq : Nat) : Bool :=
  match last with
  | none => true
  | some l => decide (0 < (seq + 65536 - l) % 65536 ∧ (seq + 65536 - l) % 65536 ≤ 32768)

/-- Send a RACK (Table 15-6). -/
def Dev.rack (d : Dev) (x : Packet) (seq status kind : Nat) : Dev :=
  d.sendPacket 0 (d.packet pkRack x.src x.sstall x.dstall (leBytes 2 seq ++ leBytes 2 status ++ leBytes 1 kind) [])

/-- Whether stall `n` has an open job that declares node `p` as a peer. -/
def Dev.openPeer (d : Dev) (n p : Nat) : Bool := d.jobState n == jobOpen && d.isPeer n p

/-- RSIG_RECEIVE: a remote signal is applied once, or refused and counted, and is acknowledged (R98, R99). -/
def rsigReceive (p : Nat) (d : Dev) : Dev :=
  d.receive p pkRsig fun x d =>
    let n := x.dstall
    let c := x.fld 16 2
    let seq := x.fld 18 2
    let v := x.fld 20 4
    if !seqNewer (d.lastSeq n x.sstall x.src) seq then some (d.rack x seq stOk 0)
    else if !(decide (n ≤ 8) && d.openPeer n x.src && (d.job n).decl.counters.any (fun e => e.1 == c)
        || (n == 0 && decide (c < standingEnd) && d.openPeer 0 x.src)) then
      some ((d.refuseSignal c x.sstall refuseRemote).rack x seq stDesc 0)
    else if d.wraps c v then some ((d.refuseSignal c x.sstall refuseWrap).rack x seq stWrap 0)
    else some (((d.applySignal c v).setLastSeq n x.sstall x.src seq).rack x seq stOk 0)

/-- Remove settled remote signals; RSIG_RESOLVED is raised when none is left (spec/05 Table 05-5). -/
def Dev.settle (d : Dev) (n : Nat) (gone : RSig → Bool) (acked : RSig → Bool) : Dev :=
  let hit := d.tn.rsigs.filter (fun r => r.stall == n && gone r)
  let d := { d with tn := { d.tn with rsigs := d.tn.rsigs.filter (fun r => !(r.stall == n && gone r)) } }
  let d := hit.foldl (fun d r =>
    if acked r then d.addTo (R.RCK_RSIG_ACKED n) r.amount else d.addTo (R.RCK_RSIG_RET n) r.amount) d
  let d : Dev := d.wr (R.RCK_RSIG_PEND_COUNT n) (d.rd (R.RCK_RSIG_PEND_COUNT n) - hit.length)
  if hit.length ≠ 0 ∧ d.rd (R.RCK_RSIG_PEND_COUNT n) = 0 then d.irq .rck 0 1 else d

/-- RACK_RECEIVE: a signal is acknowledged or returned; a refusal faults the sender's job (R98, R100, R292). -/
def rackReceive (p : Nat) (d : Dev) : Dev :=
  d.receive p pkRack fun x d =>
    let n := x.dstall
    let seq := x.fld 16 2
    let status := x.fld 18 2
    if x.fld 20 1 % 2 = 1 then some (d.faultJob n stDesc kindJob 0 0)
    else
      let mine := fun (r : RSig) => r.node == x.src && r.dstall == x.sstall && r.seq == seq
      match d.tn.rsigs.find? (fun r => r.stall == n && mine r) with
      | none => some d
      | some r =>
        let d := d.settle n mine (fun _ => status == stOk)
        if status = stOk then some d
        else match r.trough with
          | .batch _ q => some (d.faultJob n status kindTrough q r.pos)
          | .realtime _ _ => some (d.faultJob n status kindJob 0 0)

/-- RSIG_RESEND: RSIG_TIMEOUT has passed for stall `n`: its unacknowledged remote signals and its pending ABORTs go again
(R293). -/
def rsigResend (n : Nat) (d : Dev) : Dev :=
  if !d.coreOn then d else
  let d := (d.tn.rsigs.filter (fun r => r.stall == n)).foldl Dev.resendRsig d
  (d.job n).abortPeers.foldl (fun d p =>
    d.sendPacket 0 (d.packet pkAbort p 0 n (leBytes 2 (d.rd (R.STL_JOB_STAT_STATUS n))) [])) d

/-! ## Data from a peer (R292, R298) -/

/-- Whether stall `n` takes a data write of `len` bytes at `a` from node `src`. -/
def Dev.takesData (d : Dev) (n src a len : Nat) : Bool :=
  decide (n ≤ 8) && (d.openPeer n src || d.nodeOf n == some src) && d.inJob n a len &&
    (decide (a < siloBytes) || decide (cellarBase ≤ a ∧ a < cellarEnd))

/-- A packet of data for a stall's map: written, or refused, counted and answered (R292). -/
def dataReceive (p cls : Nat) (d : Dev) : Dev :=
  d.receive p cls fun x d =>
    let a := x.fld 16 8
    let refuse := fun (d : Dev) => some ((d.bumpPort p R.FUR_RX_REFUSE_COUNT).rack x 0 stDesc 1)
    if !d.takesData x.dstall x.src a x.data.length then refuse d
    else match d.pathWrite x.dstall none a x.data with
    | .done ue d => some (if ue && x.dstall != 0 then d.faultJob x.dstall stEcc kindJob 0 0 else d)
    | .wait => none
    | .quota => refuse d

/-- CKPT_RECEIVE: a checkpoint packet feeds its UNBALE, or stays on VC5 until one waits (R298). -/
def ckptReceive (p : Nat) (d : Dev) : Dev :=
  (if d.coreOn then d.stage p 5 else d).receive p pkCkpt fun x d =>
    let first := (x.fld 16 1).testBit 0
    let last := (x.fld 16 1).testBit 1
    if first then
      if d.paused ∨ (d.ckptRun p x.src).isSome then none
      else match d.ckptTaker p x.src with
      | none => none
      | some (k, y) => some ((d.setPath k (some ⟨y.trough, y.pos, x.data, last, none, 0, 0, [], false, false⟩)).updDesc { y with phase := .working })
    else match d.ckptRun p x.src with
    | some (k, r) => if d.paused then none else some (d.setPath k (some { r with raw := r.raw ++ x.data, last := last }))
    | none => some (d.bumpPort p R.FUR_DROP_COUNT)

/-! ## Aborts (R294, R100) -/

/-- The nine stalls. -/
def allStalls : List Nat := [0, 1, 2, 3, 4, 5, 6, 7, 8]

/-- Answer an ABORT for one of the device's own stalls. -/
def Dev.abortAck (d : Dev) (x : Packet) (m : Nat) (seq : Option Nat) : Dev :=
  d.sendPacket 0 (d.packet pkAbortAck x.src x.sstall m (leBytes 2 (seq.getD 0) ++ leBytes 1 (b2n seq.isSome)) [])

/-- ABORT_RECEIVE: every open job that declares the node faults, and the sequence state of each pair is answered (R294). -/
def abortReceive (p : Nat) (d : Dev) : Dev :=
  d.receive p pkAbort fun x d =>
    let d := allStalls.foldl (fun d n => if d.openPeer n x.src then d.faultJob n stAborted kindJob 0 0 else d) d
    let held := allStalls.filter (fun m => (d.lastSeq m x.sstall x.src).isSome)
    some (if held.isEmpty then d.abortAck x x.dstall none
      else held.foldl (fun d m => d.abortAck x m (d.lastSeq m x.sstall x.src)) d)

/-- ABORT_ACK_RECEIVE: the signals the peer reports as applied are acknowledged, the others returned, and the peer is
answered for (R100, R294, R394). -/
def abortAckReceive (p : Nat) (d : Dev) : Dev :=
  d.receive p pkAbortAck fun x d =>
    let n := x.dstall
    let last := x.fld 16 2
    let valid := (x.fld 18 1).testBit 0
    let d := d.settle n (fun r => r.node == x.src && (!valid || r.dstall == x.sstall))
      (fun r => valid && !seqNewer (some last) r.seq)
    let left := (d.job n).abortPeers.filter (· != x.src)
    if left.length < (d.job n).abortPeers.length then
      some (((d.setJob n { d.job n with abortPeers := left }).wr (R.STL_FAULT_STAT_ABORT_PEND n) left.length).okRecord n)
    else some d

/-! ## FENCE and barriers (R96, R97) -/

/-- A FENCE body (Table 05-3). -/
structure Fence where
  troughs : Nat
  units : Nat
  host : Bool
  barrier : Bool
  barId : Nat
  deriving DecidableEq, Repr

/-- The FENCE in a descriptor's bits. -/
def Fence.of (b : DescWord) : Fence :=
  let f := Machine.bits b.toNat
  ⟨f 128 4, f 136 7, f 144 1 == 1, f 145 1 == 1, f 160 16⟩

/-- Its reserved bits are zero. -/
def Fence.wellFormed (b : DescWord) : Bool :=
  let f := Machine.bits b.toNat
  f 132 4 + f 143 1 + f 146 6 + f 152 8 + f 176 336 == 0

/-- The unit bit of an opcode in byte 17; none for a descriptor that uses no unit of Table 05-3. A FENCE whose byte 17 is
zero does not cover such a one: a NOP, a SYNC, a FENCE, a MARK, and a SWAP, whose unit is the stream sequencer (DESIGN
CHOICE). -/
def fenceUnit : Nat → Option Nat
  | 1 => some 0 | 2 => some 1 | 3 => some 2 | 10 => some 3 | 9 => some 4 | 4 => some 5 | 5 => some 5 | 6 => some 6
  | _ => none

/-- Whether the FENCE `y` of trough `q` of stall `n` covers the live descriptor `z`. -/
def Desc.covers (y : Desc) (n q : Nat) (z : Desc) : Bool :=
  let f := Fence.of y.bits
  match z.trough with
  | .batch m r =>
    m == n && (r == q || f.troughs.testBit r) && decide (z.phase ≠ .held) && decide (z.order < y.order) &&
      (match fenceUnit z.opcode with
        | some u => f.units == 0 || f.units.testBit u
        | none => false)
  | .realtime _ _ => false

/-- Whether stall `n`'s host memory can be read back, so that every write to it has completed; a stall without host memory
has nothing to read back. -/
def Dev.hostBack (d : Dev) (n : Nat) : Bool := (d.funcOf n).all d.hostUp

/-- Whether the descriptors a FENCE covers have all retired, and its read back from host memory can be made (HOST); it covers
no realtime work. -/
def Dev.fenceMet (d : Dev) (y : Desc) : Bool :=
  match y.trough with
  | .batch n q => d.tn.live.all (fun z => !y.covers n q z) && (!(Fence.of y.bits).host || d.hostBack n)
  | .realtime _ _ => true

/-- FENCE: a started FENCE waits for what it covers. -/
def fence (t : TroughId) (pos : Nat) (d : Dev) : Dev :=
  match d.findDesc t pos with
  | none => d
  | some y => if y.opcode = 8 ∧ y.phase = .started ∧ d.coreOn then d.updDesc { y with phase := .working, aux := 0 } else d

/-- The barrier packets held for stall `n`. -/
def Dev.setBarriers (d : Dev) (bs : List (Nat × Nat × Nat)) : Dev := { d with tn := { d.tn with barriers := bs } }

/-- Whether a FENCE has sent its barrier packets and waits for its peers'. -/
def Desc.atBarrier (y : Desc) (n id : Nat) : Bool :=
  y.opcode == 8 && decide (y.phase = .working) && y.aux == 1 && y.batchOf n && (Fence.of y.bits).barId == id

/-- A FENCE at its barrier is done once every declared peer's packet is in, which it uses up. -/
def Dev.barrierDone (d : Dev) (y : Desc) (n : Nat) : Dev :=
  let id := (Fence.of y.bits).barId
  let peers := (d.job n).decl.peers
  if peers.all (fun p => d.tn.barriers.contains (n, p, id)) then
    (peers.foldl (fun d p => d.setBarriers (d.tn.barriers.erase (n, p, id))) d).updDesc { y with phase := .done }
  else d

/-- FENCE_CONDITION_MET: what the FENCE covers has retired: it is done, or with BARRIER it sends its packets (R96, R97). -/
def fenceConditionMet (t : TroughId) (pos : Nat) (d : Dev) : Dev :=
  match d.findDesc t pos with
  | none => d
  | some y =>
    if y.opcode = 8 ∧ y.phase = .working ∧ y.aux = 0 ∧ d.coreOn ∧ d.fenceMet y then
      let f := Fence.of y.bits
      let n := d.stallOf t
      if f.barrier then
        let y := { y with aux := 1 }
        let d := (d.job n).decl.peers.foldl (fun d p =>
          d.sendPacket 0 (d.packet pkBarrier p 0 n (leBytes 2 f.barId) [])) (d.updDesc y)
        d.barrierDone y n
      else d.updDesc { y with phase := .done }
    else d

/-- The early barrier packets of stall `n`: those no FENCE at its barrier is waiting for. -/
def Dev.earlyBarriers (d : Dev) (n : Nat) : Nat :=
  let all := d.tn.barriers.filter (fun b => b.1 == n)
  let used := (dedup all).filter (fun b => d.tn.live.any (fun y => y.atBarrier n b.2.2))
  all.length - used.length

/-- One job takes a barrier packet: it counts toward its FENCE, or is held as early; a seventeenth faults it (R97). -/
def Dev.takeBarrier (d : Dev) (n src id : Nat) : Dev :=
  let d1 := d.setBarriers (d.tn.barriers ++ [(n, src, id)])
  if 16 < d1.earlyBarriers n then d.faultJob n stDesc kindJob 0 0
  else match d1.tn.live.find? (fun y => y.atBarrier n id) with
  | some y => d1.barrierDone y n
  | none => d1

/-- BARRIER_RECEIVE (R97, R295). -/
def barrierReceive (p : Nat) (d : Dev) : Dev :=
  d.receive p pkBarrier fun x d =>
    some (allStalls.foldl (fun d n => if d.openPeer n x.src then d.takeBarrier n x.src (x.fld 16 2) else d) d)

/-! ## Forwarding (R291) -/

/-- PACKET_FORWARD: a packet for another node goes on by its route, or is dropped and counted. -/
def packetForward (p : Nat) (d : Dev) : Dev :=
  if !d.coreOn then d
  else match firstRx (fun x => x.dst != d.node) [] [] (d.link p).rxq with
  | none => d
  | some (v, x, rest) =>
    let d1 := d.popRx p v x rest
    let drop := d1.bump (R.FUR_DROP_COUNT p)
    match d.route x.dst with
    | none => drop
    | some q =>
      if x.ttl ≤ 1 ∨ q = p then drop
      else (d1.setLink q { d1.link q with txq := (d1.link q).txq ++ { x with ttl := x.ttl - 1 }.flits v none }).pumpAll q

/-! ## LINK (R299-R301) -/

/-- A LINK body (Table 15-7). -/
structure LinkB where
  kind : Nat
  rsigEn : Bool
  dstall : Nat
  dst : Nat
  len : Nat
  src : Nat
  dstAddr : Nat
  rctr : Nat
  ramt : Nat
  deriving DecidableEq, Repr

/-- The LINK in a descriptor's bits. -/
def LinkB.of (b : DescWord) : LinkB :=
  let f := Machine.bits b.toNat
  ⟨f 128 3, f 131 1 == 1, f 136 4, f 144 16, f 160 32, f 192 64, f 256 64, f 320 16, f 352 32⟩

/-- The checks of R300 that need no state. -/
def LinkB.wellFormed (b : DescWord) : Bool :=
  let x := LinkB.of b
  let f := Machine.bits b.toNat
  f 132 4 + f 140 4 + f 336 16 + f 384 128 == 0 && decide (x.kind ≤ 2) &&
    (if x.kind = 2 then x.len == 0 && x.rsigEn else decide (1 ≤ x.len ∧ x.len ≤ 2 ^ 28))

/-- The pairs whose sequence state Rick holds (spec/17 R344). -/
def Dev.pairs (d : Dev) : Nat := d.tn.rsigNext.cells.length + d.tn.rsigLast.cells.length

/-- Next sequence number of a pair; none where the pair has none yet. -/
def Dev.nextSeq (d : Dev) (own other node : Nat) : Option Nat := d.tn.rsigNext.get (fun _ => none) (pairKey own other node)

/-- `d` with it replaced. -/
def Dev.setNextSeq (d : Dev) (own other node seq : Nat) : Dev :=
  { d with tn := { d.tn with rsigNext := d.tn.rsigNext.set (fun _ => none) (pairKey own other node) (some seq) } }

/-- The checks of R300 that fault with DESC, and the limit of 256 pairs (spec/17 R344). -/
def Dev.linkOk (d : Dev) (n : Nat) (b : DescWord) : Bool :=
  let x := LinkB.of b
  LinkB.wellFormed b && d.isPeer n x.dst && d.egress n 1 &&
    (!x.rsigEn || (d.nextSeq n x.dstall x.dst).isSome || decide (d.pairs < 256))

/-- A LINK with a remote signal creates its pair when it starts. -/
def Dev.makePair (d : Dev) (n : Nat) (b : DescWord) : Dev :=
  let x := LinkB.of b
  if x.rsigEn ∧ (d.nextSeq n x.dstall x.dst).isNone then d.setNextSeq n x.dstall x.dst 0 else d

/-- The VC of a LINK. -/
def LinkB.vc (x : LinkB) : Nat := match x.kind with | 0 => 3 | 1 => 4 | _ => 6

/-- The data packets of a LINK. -/
def LinkB.packets (x : LinkB) : Nat := ceilDiv x.len 3584

/-- Where a LINK to a node leaves: by a port, or to the device itself. -/
def Dev.linkUnit (d : Dev) (x : LinkB) : Nat := if x.dst = d.node then 4 else (d.route x.dst).getD 4

/-- Remote signals of stall `n` to a pair that are not acknowledged. -/
def Dev.unacked (d : Dev) (n dstall node : Nat) : Nat :=
  (d.tn.rsigs.filter (fun r => r.stall == n && r.dstall == dstall && r.node == node)).length

/-- Send the remote signal of a LINK on the VC of its data (R98, R99). -/
def Dev.sendRsig (d : Dev) (n : Nat) (y : Desc) (x : LinkB) : Dev :=
  let seq := (d.nextSeq n x.dstall x.dst).getD 0
  let r : RSig := ⟨n, x.dst, x.dstall, x.vc, seq, x.rctr, x.ramt, y.trough, y.pos⟩
  let d := { d with tn := { d.tn with rsigs := d.tn.rsigs ++ [r] } }.setNextSeq n x.dstall x.dst ((seq + 1) % 65536)
  let d := (d.addTo (R.RCK_RSIG_SENT n) x.ramt).bump (R.RCK_RSIG_PEND_COUNT n)
  d.sendPacket x.vc (d.packet pkRsig x.dst x.dstall n (leBytes 2 x.rctr ++ leBytes 2 seq ++ leBytes 4 x.ramt) [])
    (some (y.trough, y.pos))

/-- One packet of a LINK, its remote signal, or its end; true while more may follow (R299, R301). -/
def linkStep (t : TroughId) (pos : Nat) (d : Dev) : Work Bool :=
  match d.findDesc t pos with
  | none => .wait
  | some y =>
    let x := LinkB.of y.bits
    let n := d.stallOf t
    if d.paused ∨ !d.coreOn then .wait
    else if y.prog < x.packets then
      let off := 3584 * y.prog
      (d.getBytes t (x.src + off) (min 3584 (x.len - off))).bind fun bs d =>
        let d := d.sendPacket x.vc (d.packet (if x.kind = 0 then pkAct else pkGrad) x.dst x.dstall n (leBytes 8 (x.dstAddr + off)) bs)
          (some (t, pos))
        .ok true ((d.updDesc { y with prog := y.prog + 1, aux := 0 }).progress n)
    else if x.rsigEn ∧ y.prog = x.packets then
      if 32768 ≤ d.unacked n x.dstall x.dst then .wait
      else .ok true (((d.sendRsig n y x).updDesc { y with prog := y.prog + 1, aux := 0 }).progress n)
    else if d.flitsLeft t pos then .wait
    else .ok false (d.updDesc { y with phase := .done })

/-- Whether a started LINK may begin: none that started earlier is under way to the same port. -/
def Dev.linkMayBegin (d : Dev) (y : Desc) : Bool :=
  let u := d.linkUnit (LinkB.of y.bits)
  !d.paused && d.coreOn && !d.tn.live.any (fun z => z.opcode == 9 && decide (z.order < y.order) &&
    decide (z.phase = .started ∨ z.phase = .working) && d.linkUnit (LinkB.of z.bits) == u)

/-- LINK: a started LINK begins, or the one that runs sends up to `fuel` further packets (R299-R301). -/
def link (t : TroughId) (pos fuel : Nat) (d : Dev) : Dev :=
  match d.findDesc t pos with
  | none => d
  | some y =>
    if y.opcode ≠ 9 then d
    else if y.phase = .started then if d.linkMayBegin y then d.updDesc { y with phase := .working } else d
    else if y.phase = .working then (Dev.steps (linkStep t pos) fuel d).close d t pos
    else d

/-- LINK_PAUSE: while batch work is paused, the LINKs that run stand at a packet boundary (R301): AUX of each reads 1 until
its next packet. -/
def linkPause (d : Dev) : Dev :=
  if d.paused then
    d.setLive (d.tn.live.map (fun y => if y.opcode = 9 ∧ y.phase = .working then { y with aux := 1 } else y))
  else d

/-! ## SYNC (R92) -/

/-- Slot `s` of a SYNC: counter, kind, value. -/
def syncSlot (b : DescWord) (s : Nat) : Nat × Nat × Nat :=
  (Machine.bits b.toNat (128 + 64 * s) 16, Machine.bits b.toNat (144 + 64 * s) 2, Machine.bits b.toNat (160 + 64 * s) 32)

/-- The four slots. -/
def syncSlots (b : DescWord) : List (Nat × Nat × Nat) := (List.range 4).map (syncSlot b)

/-- The reserved bits of a SYNC are zero. -/
def syncWellFormed (b : DescWord) : Bool :=
  Machine.bits b.toNat 384 128 == 0 && (List.range 4).all (fun s => Machine.bits b.toNat (146 + 64 * s) 14 == 0)

/-- Every slot that acts names a declared counter. -/
def Dev.syncDeclared (d : Dev) (n : Nat) (b : DescWord) : Bool :=
  (syncSlots b).all (fun s => s.2.1 == 0 || d.declares n s.1)

/-- Go through the wait and consume slots in order as far as they are met; `fuel` slots are left. -/
def Dev.syncRun (d : Dev) (t : TroughId) (pos : Nat) : Nat → Dev
  | 0 => d
  | k + 1 =>
    match d.findDesc t pos with
    | none => d
    | some y =>
      if 4 ≤ y.prog then d.updDesc { y with phase := .done }
      else
        let (c, kind, v) := syncSlot y.bits y.prog
        if kind < 2 then (d.updDesc { y with prog := y.prog + 1 }).syncRun t pos k
        else
          let w : Waiter := ⟨c, v, kind == 3, t, pos⟩
          let d := d.enqueue w
          if d.waitMet w then ((d.takeWait w).updDesc { y with prog := y.prog + 1 }).syncRun t pos k else d

/-- SYNC: the wait and consume slots run in slot order, each met before the next is evaluated (R92). -/
def sync (t : TroughId) (pos : Nat) (d : Dev) : Dev :=
  match d.findDesc t pos with
  | none => d
  | some y =>
    if y.opcode ≠ 7 ∨ !d.coreOn then d
    else if y.phase = .started ∨ y.phase = .working then (d.updDesc { y with phase := .working }).syncRun t pos 5
    else d

/-- NOP: no work of its own (R80). -/
def nop (t : TroughId) (pos : Nat) (d : Dev) : Dev :=
  match d.findDesc t pos with
  | none => d
  | some y => if y.opcode = 0 ∧ y.phase = .started ∧ d.coreOn then d.updDesc { y with phase := .done } else d

end Sys2Proof.Machine
end

