-- ==== Sys2Proof/Machine/Tally.lean ====
section
/-! DEFINITION. Tally: samples and their owners, settlement, the record, and the sleep estimate (spec/16). -/
namespace Sys2Proof.Machine

/-! ## Owners (R313, R314, Table 16-1) -/

/-- The bins beside the stalls. -/
abbrev binShared : Nat := 9
abbrev binUnattr : Nat := 10

/-- The rail of sensor `x` (R313). -/
def sensorRail (x : Nat) : Nat :=
  if x ≤ 23 ∨ x = 51 then 0 else if x ≤ 39 then 2 else if x = 52 then 4 else if x = 64 then 3 else 1

/-- The stalls that hold enabled streams that satisfy `p`. -/
def Dev.streamStalls (d : Dev) (p : Nat → Bool) : List Nat :=
  (List.range 32).filterMap (fun s => if d.on (R.SEQ_STRM_CFG_EN s) && p s then d.stallOfStream s else none)

/-- The stalls whose key is in use: a sealed BALE's, that of an UNBALE whose stream is encrypted (R269), or is read from a slot
(DEDUCED: streams kept in slots are always sealed). -/
def Dev.keyStalls (d : Dev) : List Nat :=
  (match d.ba.bale with
    | some r => match d.findDesc r.trough r.pos with
      | some y => if (Bale.of y.bits).sealed then [d.stallOf r.trough] else []
      | none => []
    | none => []) ++
  rxPaths.filterMap (fun k => (d.path k).bind fun r => if k = 6 ∨ r.sealed then some (d.stallOf r.trough) else none)

/-- The stall that owns bay `b`'s reading. -/
def Dev.bayOwner (d : Dev) (b : Nat) : List Nat :=
  match d.runOn b with
  | some r => [r.stall]
  | none =>
    match (if d.on (R.THR_GANG_PINNED b) then d.stallOfStream (d.rd (R.THR_GANG_STREAM b)) else none) with
    | some n => [n]
    | none => (allStalls.filter (fun n => d.jobState n == jobOpen && (d.job n).decl.bays.testBit b)).take 1

/-- The stalls that qualify for sensor `x`; `grant` is the stall served by the memory or link of domains 24-49 (Table 16-1). -/
def Dev.ownersOf (d : Dev) (grant : Option Nat) (x : Nat) : List Nat :=
  let strips := fun (h : Hopper) => (h.rt ++ h.batch).map (·.stall)
  if x < 16 then d.bayOwner x
  else if x < 20 then
    let s := d.sifter (x - 16)
    (s.cur.toList ++ s.saved.toList ++ s.parked).map (·.stall)
  else if x < 24 then strips (d.hopper (x - 20))
  else if x < 50 then grant.toList
  else match x with
    | 50 => (d.ba.bale.map (fun r => d.stallOf r.trough)).toList
    | 51 => (d.wn.win.map (fun r => d.stallOf r.trough)).toList
    | 61 => channels.filterMap (fun c => (d.channel c).cur.map (fun m => d.stallOf m.1))
    | 52 => (d.path 6).toList.map (fun r => d.stallOf r.trough) ++ (if d.erasing then [d.gr.eraseStall] else [])
    | 53 | 54 | 55 | 56 => d.streamStalls (fun s => d.rd (R.SEQ_STRM_CFG_IN_PORT s) == x - 53 || d.rd (R.SEQ_STRM_CFG_OUT_PORT s) == x - 53)
    | 57 => d.streamStalls (fun _ => true)
    | 60 => d.keyStalls
    | _ => []

/-- The stall of a list that comes next after `last` in ascending order, round again from the lowest (R314). -/
def nextTurn (last : Option Nat) (ns : List Nat) : Option Nat :=
  let up := ns.filter (fun n => match last with | some l => decide (l < n) | none => true)
  (if up.isEmpty then ns else up).foldl (fun b n => match b with | none => some n | some m => some (min m n)) none

/-- Whether a sensor is billed to SHARED always. -/
def alwaysShared (x : Nat) : Bool := [58, 59, 62, 63, 64].contains x

/-! ## Samples (R312, R313) -/

/-- The voltage in force on rail `r`: before Tally has read any, its nominal value at reset. -/
def Dev.railMv (d : Dev) (r : Nat) : Nat :=
  if d.rd (R.TLY_RAIL_REG r) = 7 then d.rd (R.TLY_RAIL_VNOM r) else d.ta.volt.get railReset r

/-- One rail takes its voltage for the interval that begins: its nominal one, the one read, or, stale, the one it had. -/
def Dev.latchRail (d : Dev) (r : Nat) : Dev :=
  let put := fun (d : Dev) v => { d with ta := { d.ta with volt := d.ta.volt.set railReset r v } }
  if d.rd (R.TLY_RAIL_REG r) = 7 then put d (d.rd (R.TLY_RAIL_VNOM r))
  else match d.ta.voltNext.get (fun _ => none) (d.rd (R.TLY_RAIL_REG r)) with
    | some v => put d v
    | none => (d.bump R.TLY_VSTALE_COUNT).irq .tly 0 2

/-- The first sample of an interval: the ended one waits for its settlement, and the rails take their voltages. -/
def Dev.turnInterval (d : Dev) (k : Nat) : Dev :=
  if d.ta.interval = k then d
  else
    let d := [0, 1, 2, 3, 4].foldl Dev.latchRail d
    let lost := match d.ta.closed with | some (_, _, n) => n | none => 0
    let old := if d.ta.samples = 0 then none else some (d.ta.sums, d.ta.acts, d.ta.samples)
    ({ d with ta := { d.ta with closed := old, sums := .empty, acts := .empty, samples := 0, interval := k, voltNext := .empty } }).addTo
      R.TLY_MISSED lost

/-- `k` added to a key of a map of counts. -/
def NMap.add (m : NMap Nat) (i k : Nat) : NMap Nat := m.set (fun _ => 0) i (m.get (fun _ => 0) i + k)

/-- Bill sensor `x`'s reading of `ma` to its owner; while Tally does not settle, the reading only shows. -/
def Dev.billSensor (d : Dev) (ma : Nat) (grant : Option Nat) (x : Nat) : Dev :=
  let ma := min ma 65535
  let pick := if alwaysShared x then none else nextTurn (d.ta.turn.get (fun _ => none) x) (d.ownersOf grant x)
  let bin := match pick with
    | some n => n
    | none => if alwaysShared x || (d.rd R.TLY_SHARE_MASK).testBit x then binShared else binUnattr
  let d := match pick with
    | some n => { d with ta := { d.ta with turn := d.ta.turn.set (fun _ => none) x (some n) } }
    | none => d
  let d := (d.wr (R.TLY_SENSOR_OWNER x) bin).wr (R.TLY_SENSOR_MA x) ma
  if d.on R.TLY_STAT_RUN then
    let acts := if bin ≤ 8 then d.ta.acts.add bin 1 else d.ta.acts
    { d with ta := { d.ta with sums := d.ta.sums.add bin (ma * d.railMv (sensorRail x)), acts := acts } }
  else d

/-- The numbers 0-64 of the sensors. -/
def sensors : List Nat := List.range 65

/-- TALLY_SAMPLE: all 65 sensors are read at an STC that is a multiple of 20 (R312). `ma` are the readings, `grants` the stall
each of domains 24-49 serves at that instant, `vout` a READ_VOUT that has completed since the last sample (R313). While the
reference does not match there is no sampling (R26). -/
def tallySample (ma : List Nat) (grants : List (Option Nat)) (vout : Option (Nat × Nat)) (d : Dev) : Dev :=
  if d.stc % 20 ≠ 0 ∨ d.ta.last = some d.stc ∨ !d.domOn 59 ∨ !d.on R.CLK_REF_STAT_PRESENT ∨ d.on R.CLK_REF_STAT_MISMATCH then d
  else
    let d := match vout with
      | some (r, mv) =>
        if (d.ta.voltNext.get (fun _ => none) r).isSome then d
        else { d with ta := { d.ta with voltNext := d.ta.voltNext.set (fun _ => none) r (some mv) } }
      | none => d
    let d := d.turnInterval (d.stc / 24576)
    let d := sensors.foldl (fun d x => d.billSensor (ma.getD x 0) (if x < 24 then none else grants.getD (x - 24) none) x) d
    let d := { d with ta := { d.ta with last := some d.stc } }
    if d.on R.TLY_STAT_RUN then { d with ta := { d.ta with samples := d.ta.samples + 1 } } else d.addTo R.TLY_MISSED 1

/-! ## Settlement (R315-R321) -/

/-- NUM and DEN of the clock family (R316). -/
def Dev.tallyRate (d : Dev) : Nat × Nat := if d.on R.CLK_REF_STAT_FAMILY then (390625, 441) else (78125, 96)

/-- The eleven bins. -/
def bins : List Nat := List.range 11

/-- The energy of a bin's sum and the remainder it leaves (R316). -/
def Dev.convert (d : Dev) (sums : NMap Nat) (a : Nat) : Nat × Nat :=
  let s := sums.get (fun _ => 0) a * d.tallyRate.1 + d.ta.rem.get (fun _ => 0) a
  (s / d.tallyRate.2, s % d.tallyRate.2)

/-- C_n: the activity of stalls 1 to `n` (R317). -/
def activity (acts : NMap Nat) : Nat → Nat
  | 0 => 0
  | n + 1 => activity acts n + acts.get (fun _ => 0) (n + 1)

/-- The share of stall `n` in a pool `p` (R317). -/
def shareOf (acts : NMap Nat) (p n : Nat) : Nat :=
  let a := activity acts 8
  if n = 0 ∨ a = 0 then 0 else p * activity acts n / a - p * activity acts (n - 1) / a

/-- The sleep estimate: energy and the remainder it leaves (R321). -/
def Dev.sleepEnergy (d : Dev) : Nat × Nat :=
  let s := (d.ta.sleepD * d.rd R.TLY_SLEEP_RATE_D_UW + d.ta.sleepF * d.rd R.TLY_SLEEP_RATE_F_UW) * 15625 + d.ta.remSleep
  (s / 48, s % 48)

/-- The registers of the accounts: ENERGY[0-8], SHARED 9, UNATTR 10, TOTAL 11. -/
abbrev accTotal : Nat := 11

/-- Add the counts handed over since the last settlement (R319). -/
def Dev.settleCounts (d : Dev) : Dev :=
  let get := fun n k => d.ta.pend.get (fun _ => 0) (n * 4 + k)
  let d1 := allStalls.foldl (fun d n =>
    (((d.addTo (R.TLY_MAC n) (get n cntMac)).addTo (R.TLY_ELEM n) (get n cntElem)).addTo (R.TLY_WINB n) (get n cntWinb)).addTo
      (R.TLY_ERASE n) (get n cntErase)) d
  { d1 with ta := { d1.ta with pend := .empty } }

/-- What each of ENERGY[0-8], SHARED and UNATTR gains in a settlement (R317, R318, R321). -/
def Dev.gainOf (d : Dev) (sums acts : NMap Nat) (a : Nat) : Nat :=
  let e := (d.convert sums a).1
  let pool := (d.convert sums binShared).1
  if a ≤ 8 then e + shareOf acts pool a
  else if a = binShared then if activity acts 8 = 0 then pool else 0
  else e + d.sleepEnergy.1

/-- Settle an interval's sums: every account and SETTLE_SEQ change in one step (R315-R318). -/
def Dev.tallySettle (d : Dev) (sums acts : NMap Nat) : Dev :=
  let gains := bins.map (d.gainOf sums acts)
  let total := gains.foldl (· + ·) 0
  let pool := (d.convert sums binShared).1
  let d1 := bins.foldl (fun e a => e.addTo (R.TLY_ENERGY a) (gains.getD a 0)) d
  let d1 := allStalls.foldl (fun e n => e.addTo (R.TLY_SHARE n) (shareOf acts pool n)) d1
  let d1 := ((d1.addTo (R.TLY_ENERGY accTotal) total).addTo R.TLY_SLEEP_FJ d.sleepEnergy.1).addTo R.TLY_SETTLE_SEQ 1
  let rem := bins.foldl (fun m a => m.set (fun _ => 0) a (d.convert sums a).2) d.ta.rem
  ({ d1 with ta := { d1.ta with rem := rem, remSleep := d.sleepEnergy.2, sleepD := 0, sleepF := 0, peak := max d1.ta.peak total } }).settleCounts

/-! ## The record (R323-R325, Table 16-2) -/

/-- The record's fields from byte 24 to 683: accounts, their widths in bytes, in order. -/
def recordFields : List (Fld × Nat) :=
  (List.range 12).map (fun i => (R.TLY_ENERGY i, 12)) ++
    allStalls.flatMap (fun n => [(R.TLY_MAC n, 12), (R.TLY_ELEM n, 12), (R.TLY_WINB n, 12)]) ++
    allStalls.map (fun n => (R.TLY_SHARE n, 12)) ++ allStalls.map (fun n => (R.TLY_ERASE n, 8)) ++ [(R.TLY_SLEEP_FJ, 12)]

abbrev recordMagic : Nat := 0x59544C54

/-- The record of the accounts as they stand. -/
def Dev.record (d : Dev) (final : Bool) : List Byte :=
  let b := leBytes 4 recordMagic ++ [1, BitVec.ofNat 8 (b2n final), 0, 0] ++ leBytes 8 (d.rd R.TLY_SETTLE_SEQ) ++ leBytes 8 d.stc ++
    recordFields.flatMap (fun f => leBytes f.2 (d.rd f.1)) ++ leBytes 8 d.ta.peak
  withCrc b ++ zeros 8

/-- Write a record at Silo address `a`; none while its granule or bank is not ready (R323, spec/12 R223). -/
def Dev.putRecord (d : Dev) (a : Nat) (bs : List Byte) : Option Dev :=
  if !d.siloReadyRun a bs.length then none
  else
    let d := if d.on R.TLY_STAT_PEND then d.bump R.TLY_PERSIST_MISS_COUNT else d
    some ((((d.siloWrite a bs).2).wr R.TLY_STAT_PEND 1).irq .tly 0 0)

/-- Whether a Tally record waits for its place. -/
def Dev.recordOwed (d : Dev) : Bool := d.tn.owed.any (fun o => match o with | .record _ _ => true | _ => false)

/-- Write a record to Silo at PERSIST_ADDR, or owe it (R323). -/
def Dev.writeRecord (d : Dev) (final : Bool) : Dev :=
  let a := d.rd R.TLY_PERSIST_ADDR
  let bs := d.record final
  let d : Dev := { d with ta := { d.ta with peak := 0 } }
  if d.recordOwed then d.owe (.record a bs) else (d.putRecord a bs).getD (d.owe (.record a bs))

/-- Write the record that is due: SETTLE_SEQ is a multiple of PERSIST_PERIOD. -/
def Dev.recordIfDue (d : Dev) : Dev :=
  if d.rd R.TLY_PERSIST_PERIOD_N ≠ 0 ∧ d.rd R.TLY_SETTLE_SEQ % d.rd R.TLY_PERSIST_PERIOD_N = 0 then d.writeRecord false else d

/-- Settle the ended interval that waits, if one does. -/
def Dev.settleClosed (d : Dev) : Dev :=
  match d.ta.closed with
  | none => d
  | some (sums, acts, _) => ({ d with ta := { d.ta with closed := none } }.tallySettle sums acts).recordIfDue

/-- Settle the interval in progress as far as it has come. -/
def Dev.settlePartial (d : Dev) : Dev :=
  let (sums, acts) := (d.ta.sums, d.ta.acts)
  { d with ta := { d.ta with sums := .empty, acts := .empty, samples := 0 } }.tallySettle sums acts

/-- SETTLEMENT: an interval has ended, and Tally settles it (R315-R319); its logic runs on FCLK (R29). -/
def settlement (d : Dev) : Dev :=
  if !d.on R.TLY_STAT_RUN ∨ !d.domOn 59 ∨ !d.coreOn then d
  else if d.ta.closed.isSome then d.settleClosed
  else if d.ta.interval < d.stc / 24576 ∧ d.ta.samples ≠ 0 then d.settlePartial.recordIfDue
  else d

/-- PD59 is about to be switched off for a sleep: the partial interval is settled (R321). -/
def Dev.tallyPark (d : Dev) : Dev :=
  if d.on R.TLY_STAT_RUN then d.settleClosed.settlePartial.recordIfDue else d

/-! ## CTL (R323, R325) -/

/-- START: settling begins, with every account at zero. -/
def Dev.tallyStart (d : Dev) : Dev :=
  let d := recordFields.foldl (fun d f => d.wr f.1 0) d
  let d := { d with ta := { d.ta with pend := .empty, sums := .empty, acts := .empty, samples := 0, closed := none, rem := .empty,
                                      remSleep := 0, peak := 0 } }
  (d.wr R.TLY_STAT_RUN 1).wr R.TLY_STAT_BLANK 1

/-- Load a list of fields from a record's bytes. -/
def Dev.loadFields (d : Dev) : List (Fld × Nat) → List Byte → Dev
  | [], _ => d
  | f :: fs, bs => (d.wr f.1 (leNat (bs.take f.2))).loadFields fs (bs.drop f.2)

/-- RESTORE: the record at PERSIST_ADDR is checked and loaded, and settling begins; one that fails is ignored and counted. -/
def Dev.tallyRestore (d : Dev) (q : Req) : Dev :=
  let r := d.siloRead (d.rd R.TLY_PERSIST_ADDR) 704
  let bs := r.1
  let d := r.2.2
  if r.2.1 ∨ leAt bs 0 4 ≠ recordMagic ∨ leAt bs 4 1 ≠ 1 ∨ leAt bs 692 4 ≠ crc32c (bs.take 692) then d.perr A.TLY_CTL q causeValue
  else
    let d := ((d.loadFields recordFields (bs.drop 24)).wr R.TLY_SETTLE_SEQ (leAt bs 8 8)).wr R.TLY_STAT_RUN 1
    if (leAt bs 5 1).testBit 0 then d
    else ((d.wr R.TLY_STAT_LOSS_FLAG 1).wr R.TLY_LOSS_BOUND (leAt bs 684 8 * (d.rd R.TLY_PERSIST_PERIOD_N + 5))).irq .tly 0 1

/-- FINAL: the partial interval is settled, a FINAL record written, and settling stops. -/
def Dev.tallyFinal (d : Dev) : Dev := (d.settleClosed.settlePartial.writeRecord true).wr R.TLY_STAT_RUN 0

/-- The effect of a write of TLY.CTL (R325): a command that does not apply, or more than one at once (DESIGN CHOICE), is
ignored and counted. A RESTORE waits while its record's granule or bank is not ready (spec/12 R223). -/
def Dev.tlyCtl (d : Dev) (q : Req) (v : Nat) : Dev :=
  let run := d.on R.TLY_STAT_RUN
  match bits v 0 3 with
  | 0 => d
  | 1 => if run then d.perr A.TLY_CTL q causeValue else d.tallyStart
  | 2 => if run then d.perr A.TLY_CTL q causeValue
    else if !d.siloReadyRun (d.rd R.TLY_PERSIST_ADDR) 704 then d.owe (.access true .bar0 A.TLY_CTL 4 2)
    else d.tallyRestore q
  | 4 => if run then d.tallyFinal else d.perr A.TLY_CTL q causeValue
  | _ => d.perr A.TLY_CTL q causeValue

/-- The effect of a write of PERSIST_ACK (R324): a 1 sets ACK, a W1S bit (R13), and clears PEND. -/
def Dev.persistAck (d : Dev) (v : Nat) : Dev :=
  if v.testBit 0 then (d.wr R.TLY_PERSIST_ACK 1).wr R.TLY_STAT_PEND 0 else d

/-- The effect of a write of one of the TLY registers with a range of their own (Table 16-4). -/
def Dev.tlyWrite (d : Dev) (q : Req) (addr v : Nat) : Dev :=
  let bad := d.perr addr q causeValue
  if addr = A.TLY_PERSIST_PERIOD then
    if 1000 ≤ bits v 0 17 ∧ bits v 0 17 ≤ 60000 then d.storeWord addr v else bad
  else if addr = A.TLY_PERSIST_ADDR then if v % 64 = 0 then d.storeWord addr v else bad
  else if addr = A.TLY_SHARE_MASK + 4 then d.storeWord addr (v ||| 0xCC000000)
  else if 4 ≤ bits v 16 3 ∧ bits v 16 3 ≤ 6 then bad else d.storeWord addr v

end Sys2Proof.Machine
end

