-- ==== Sys2Proof/Machine/Clocks.lean ====
section
/-! DEFINITION. The reference, the root PLL, the core clocks and the TCLK divider (spec/02). -/
namespace Sys2Proof.Machine

/-- The PIRQ bits of the CLK page. -/
abbrev clkLol : Nat := 0
abbrev clkRefLost : Nat := 1
abbrev clkLocked : Nat := 2
abbrev clkDivDone : Nat := 3

/-- TCLK and FCLK stop with every unit's state held, and SCLK goes to the FRC (R39, R40). -/
def Dev.coreStop (d : Dev) : Dev := d.wr R.CLK_SRC_SEL_CORE_SRC 0

/-- The PLL stops: not a loss of lock (R26, R40). -/
def Dev.pllStop (d : Dev) : Dev := ((d.coreStop.wr R.CLK_PLL_STAT_LOCK 0).wr R.CLK_SRC_SEL_ACLK_SRC 0).wr R.CLK_PLL_CTL_EN 0

/-- Whether a count lies in the window of the latched family (R26). -/
def Dev.inWindow (d : Dev) (count : Nat) : Bool :=
  if d.on R.CLK_REF_STAT_FAMILY then decide (21918 ≤ count ∧ count ≤ 23281) else decide (23856 ≤ count ∧ count ≤ 25340)

/-- REF_MEASURE_DONE: `count` edges over 96,000 FRC cycles; a mismatch stops an enabled PLL (R26). A count that the 16 bits of
MEAS cannot hold shows as 65,535 (DESIGN CHOICE: the spec does not say what MEAS then holds). -/
def refMeasureDone (count : Nat) (d : Dev) : Dev :=
  if d.ck.measuring = 0 then d
  else
    let d := ({ d with ck := { d.ck with measuring := 0 } }).wr R.CLK_REF_STAT_MEAS (min count 65535)
    if d.inWindow count then d.wr R.CLK_REF_STAT_MISMATCH 0
    else
      let d := d.wr R.CLK_REF_STAT_MISMATCH 1
      if d.on R.CLK_PLL_CTL_EN then d.pllStop else d

/-- PLL_LOCK: an enabled PLL with a present, matching reference locks; ACLK moves to the root (R28, R36, R40). -/
def pllLock (d : Dev) : Dev :=
  if d.on R.CLK_PLL_CTL_EN ∧ !d.on R.CLK_PLL_STAT_LOCK ∧ d.on R.CLK_REF_STAT_PRESENT ∧ !d.on R.CLK_REF_STAT_MISMATCH
      ∧ d.ck.measuring ≠ 2 then
    ((d.wr R.CLK_PLL_STAT_LOCK 1).wr R.CLK_SRC_SEL_ACLK_SRC 1).irq .clk 0 clkLocked
  else d

/-- LOSS_OF_LOCK (R40). -/
def lossOfLock (d : Dev) : Dev :=
  if d.on R.CLK_PLL_STAT_LOCK then
    let d := (((d.wr R.CLK_PLL_STAT_LOCK 0).wr R.CLK_PLL_STAT_LOL 1).bump R.CLK_LOL_COUNT).irq .clk 0 clkLol
    (d.wr R.CLK_SRC_SEL_ACLK_SRC 0).coreStop
  else d

/-- REF_LOST: no reference edge for 64 FRC cycles; a locked PLL loses lock with it (R27, R37, R40). -/
def refLost (d : Dev) : Dev :=
  if d.on R.CLK_REF_STAT_PRESENT then
    let d := (d.wr R.CLK_REF_STAT_PRESENT 0).irq .clk 0 clkRefLost
    lossOfLock { d with ck := { d.ck with gap := some 0 } }
  else d

/-- REF_EDGE_RETURN: the first edge after a gap, which the STC counts (R27, R37). -/
def refEdgeReturn (d : Dev) : Dev :=
  if d.on R.CLK_REF_STAT_PRESENT then d
  else
    let d := (d.wr R.CLK_REF_STAT_PRESENT 1).addTo R.CLK_STC 1
    let d := match d.ck.gap with
      | some g => (d.wr R.CLK_STC_GAP g).bump R.CLK_STC_GAP_COUNT
      | none => d
    { d with ck := { d.ck with measuring := 2, gap := none } }

/-- The effect of a write of PLL_CTL (R26, Table 02-5). -/
def Dev.pllCtl (d : Dev) (q : Req) (v : Nat) : Dev :=
  let en := v.testBit 0
  if (en ∧ d.on R.CLK_REF_STAT_MISMATCH) ∨ (!en ∧ d.on R.CLK_SRC_SEL_CORE_SRC) then d.perr A.CLK_PLL_CTL q causeValue
  else if en then d.storeWord A.CLK_PLL_CTL v
  else d.pllStop

/-- The effect of a write of SRC_SEL (R39). -/
def Dev.srcSel (d : Dev) (q : Req) (v : Nat) : Dev :=
  if !v.testBit 0 then d.coreStop
  else if d.on R.CLK_PLL_STAT_LOCK then d.wr R.CLK_SRC_SEL_CORE_SRC 1
  else d.perr A.CLK_SRC_SEL q causeValue

/-! ## The TCLK divider (R32-R34) -/

/-- Minimum VDD_CORE of a step, in mV (Table 02-3). -/
def stepMin (step : Nat) : Nat := [850, 780, 720, 650].getD step 850

/-- The divider of a step. -/
def stepDiv (step : Nat) : Nat := [4, 5, 6, 8].getD step 8

/-- The enabled regulators of VDD_CORE, one that is BAD left unused, and the recorded voltage (R32, R348, R350). -/
def Dev.coreRegs (d : Dev) : List Nat :=
  [0, 1, 2, 3].filter (fun r => d.on (R.PWR_REG_CFG_EN r) && d.rd (R.PWR_REG_ACK_STAT r) != 2 && d.rd (R.PWR_REG_CFG_RAIL r) == 0)
def Dev.coreMv (d : Dev) : Nat :=
  match (d.coreRegs.map (fun r => d.rd (R.PWR_REG_ACK_VOUT_ACK r))) with
  | [] => 860
  | v :: vs => vs.foldl min v

/-- Whether R34 lets REQ take a code. -/
def Dev.divOk (d : Dev) (code : Nat) : Bool :=
  decide (code ≤ 3) && (decide (d.rd R.CLK_TCLK_DIV_CUR ≤ code) || decide (stepMin code ≤ d.coreMv))

/-- The effect of a write of TCLK_DIV (R33, R34). -/
def Dev.tclkDiv (d : Dev) (q : Req) (v : Nat) : Dev :=
  let code := bits v 0 3
  if d.divOk code then
    let d := d.wr R.CLK_TCLK_DIV_REQ code
    { d with ck := { d.ck with divDue := true } }
  else d.perr A.CLK_TCLK_DIV q causeValue

/-- The step the request and CAP yield: the slower (R352). -/
def Dev.divTarget (d : Dev) : Nat := max (d.rd R.CLK_TCLK_DIV_REQ) (d.rd R.THM_CAP_STEP)

/-- Whether a divider change, or a DIV_DONE, is due and can be made: TCLK runs. -/
def Dev.divReady (d : Dev) : Bool := d.coreOn && (d.ck.divDue || d.rd R.CLK_TCLK_DIV_CUR != d.divTarget)

/-- The step in force becomes the one yielded, and DIV_DONE is raised (R33). -/
def Dev.divTake (d : Dev) : Dev :=
  ({ d with ck := { d.ck with divDue := false } }.wr R.CLK_TCLK_DIV_CUR d.divTarget).irq .clk 0 clkDivDone

end Sys2Proof.Machine
end

