-- ==== Sys2Proof/Machine/Audio.lean ====
section
/-! DEFINITION. TDM ports, the samples of streams, fallbacks, fades and MUTE_N, the zero-crossing detector and the PORT
descriptor (spec/03). -/
namespace Sys2Proof.Machine

/-- The PIRQ bits of an AUD page and of the SEQ page. -/
abbrev audSlip : Nat := 0
abbrev audLost : Nat := 1
abbrev audOk : Nat := 2
abbrev seqMiss : Nat := 0
abbrev seqSlip : Nat := 1
abbrev seqZc : Nat := 2

/-! ## Ports, rates and slots -/

/-- Port `p`. -/
def Dev.port (d : Dev) (p : Nat) : Port := d.au.ports.get (fun _ => Port.idle) p

/-- `d` with port `p` replaced. -/
def Dev.setPort (d : Dev) (p : Nat) (x : Port) : Dev :=
  { d with au := { d.au with ports := d.au.ports.set (fun _ => Port.idle) p x } }

/-- The ports, and the streams. -/
def audPorts : List Nat := [0, 1, 2, 3]
def streams : List Nat := List.range 32

/-- T of a rate code: ACLK ticks in a sample (Table 02-2). -/
def rateTicks (rate : Nat) : Nat := if rate < 2 then 512 else if rate < 4 then 256 else 128

/-- T of port `p`, and of a stream's input port. -/
def Dev.smpTicks (d : Dev) (p : Nat) : Nat := rateTicks (d.rd (R.AUD_PORT_CTL_RATE p))
def Dev.inPort (d : Dev) (s : Nat) : Nat := d.rd (R.SEQ_STRM_CFG_IN_PORT s)
def Dev.outPort (d : Dev) (s : Nat) : Nat := d.rd (R.SEQ_STRM_CFG_OUT_PORT s)
def Dev.strmTicks (d : Dev) (s : Nat) : Nat := d.smpTicks (d.inPort s)

/-- Slots of port `p`. -/
def Dev.portSlots (d : Dev) (p : Nat) : Nat := d.rd (R.AUD_PORT_CTL_SLOTS p) + 1

/-- F: the slot positions of a frame that port `p` drives as a controller, the smallest power of two that holds its slots
(R44). -/
def Dev.positions (d : Dev) (p : Nat) : Nat := ((List.range 4).map (2 ^ ·)).find? (fun f => decide (d.portSlots p ≤ f)) |>.getD 8

/-- The divider of ACLK that gives a controller's BCLK, T ÷ (32 × F) (Table 03-2); a target drives none. -/
def Dev.bclkDiv (d : Dev) (p : Nat) : Nat :=
  if d.on (R.AUD_PORT_CTL_ROLE p) then d.smpTicks p / (32 * d.positions p) else 0

/-- Whether port `p` runs; audio is not available while the reference does not match (R26). -/
def Dev.portOn (d : Dev) (p : Nat) : Bool :=
  d.on (R.AUD_PORT_CTL_EN p) && d.domOn (53 + p) && !d.on R.CLK_REF_STAT_MISMATCH

/-- Streams still taking input from port `p`; streams whose output may still play on it. -/
def Dev.takersOf (d : Dev) (p : Nat) : List Nat :=
  streams.filter (fun s => d.inPort s == p && (d.on (R.SEQ_STRM_CFG_EN s) || (d.stream s).stopping == 1))
def Dev.playersOf (d : Dev) (p : Nat) : List Nat :=
  streams.filter (fun s => d.outPort s == p && (d.on (R.SEQ_STRM_CFG_EN s) || (d.stream s).stopping != 0))

/-- A stream's slots still play: it is enabled, or stops and has not ended. -/
def Dev.streamLives (d : Dev) (s : Nat) : Bool := d.on (R.SEQ_STRM_CFG_EN s) || (d.stream s).stopping != 0

/-- Streams play from the bypass RAM or zeros: from step 3 of an entry into DORMANT until RUN (R333, R342). -/
def Dev.bypassing (d : Dev) : Bool :=
  let s := d.rd R.PWR_STAT_STATE
  s == 3 || s == 5 || (s == 2 && (d.pw.entry.map (·.acked)).getD false)

/-! ## PORT_CTL (R42-R44) -/

/-- Whether a PORT_CTL word keeps R43 and Table 03-1. -/
def Dev.portCtlOk (d : Dev) (p v : Nat) : Bool :=
  let fmt := bits v 2 2
  let rate := bits v 4 3
  let slots := bits v 8 3
  let old := d.word (A.AUD_PORT_CTL p)
  decide (fmt ≠ 3) && decide (rate ≤ 5) && (d.on R.CLK_REF_STAT_FAMILY == (rate % 2 == 0)) &&
    (decide (2 ≤ fmt) || slots == 1) && (decide (rate < 4) || decide (slots ≤ 3)) &&
    (!old.testBit 0 || clrBit old 0 == clrBit (v % 2 ^ 32) 0)

/-- The effect of a write of PORT_CTL: a port that starts has no grid yet, a port that stops has none. -/
def Dev.portCtl (d : Dev) (q : Req) (p v : Nat) : Dev :=
  if d.portCtlOk p v then
    let was := d.on (R.AUD_PORT_CTL_EN p)
    let d := d.storeWord (A.AUD_PORT_CTL p) v
    if was == v.testBit 0 then d else (d.setPort p Port.idle).wr (R.AUD_PORT_STAT_FRAME_OK p) 0
  else d.perr (A.AUD_PORT_CTL p) q causeValue

/-! ## MUTE_N (R59, R61, R400) -/

/-- MUTE_N follows its causes, unless its pad group PG2 is held (R347): low until released, and while MUTE_FORCE is 1. -/
def Dev.showMute (d : Dev) : Dev :=
  let low := !d.on R.SEQ_MUTE_CTL_MUTE_RELEASE || d.on R.SEQ_MUTE_CTL_MUTE_FORCE
  if low = d.au.muteLow ∨ (d.rd R.BARN_PAD_STAT_HELD).testBit 2 then d else ({ d with au := { d.au with muteLow := low } }).emit (.muteN low)

/-- MUTE_N goes low, held pad or not, until it is released again, and output words stop flowing (R59, R400). -/
def Dev.muteUntilReleased (d : Dev) : Dev :=
  let d := (d.wr R.SEQ_MUTE_CTL_OUT_RELEASE 0).wr R.SEQ_MUTE_CTL_MUTE_RELEASE 0
  if d.au.muteLow then d else ({ d with au := { d.au with muteLow := true } }).emit (.muteN true)

/-- The effect of a write of MUTE_CTL.OUT_RELEASE. -/
def Dev.outRelease (d : Dev) (v : Nat) : Dev := if v.testBit 0 then d.wr R.SEQ_MUTE_CTL_OUT_RELEASE 1 else d

/-- The effect of a write of MUTE_CTL.MUTE_RELEASE (R59, R61). -/
def Dev.muteRelease (d : Dev) (q : Req) (v : Nat) : Dev :=
  if !v.testBit 1 || d.on R.SEQ_MUTE_CTL_MUTE_RELEASE then d
  else if !d.on R.SEQ_MUTE_CTL_OUT_RELEASE then d.perr A.SEQ_MUTE_CTL q causeValue
  else if d.on R.SEQ_MUTE_CTL_MUTE_FORCE then d
  else (d.wr R.SEQ_MUTE_CTL_MUTE_RELEASE 1).showMute

/-- The effect of a write of MUTE_CTL.MUTE_FORCE (R61). -/
def Dev.muteForce (d : Dev) (v : Nat) : Dev := (d.wr R.SEQ_MUTE_CTL_MUTE_FORCE (bits v 2 1)).showMute

/-- A write of MUTE_CTL: a release of MUTE_N is judged by OUT_RELEASE as it stood before the write, and by MUTE_FORCE as
it stands after. -/
def Dev.muteCtl (d : Dev) (q : Req) (v : Nat) : Dev := ((d.muteForce v).muteRelease q v).outRelease v

/-! ## Fades (R59, R60) -/

/-- Slots `ks` of port `p` begin to fade from the word each last played. -/
def Dev.startFade (d : Dev) (p : Nat) (ks : List Nat) : Dev :=
  let x := d.port p
  d.setPort p { x with fades := x.fades.filter (fun f => !ks.contains f.1) ++ ks.map (fun k => (k, x.last.get (fun _ => 0) k |>.toNat, 0)) }

/-- Step `m` of the fade of word `w`: `w × (64 − m) ÷ 64`, truncated toward zero. -/
def fadeWord (w m : Nat) : Nat := ofSigned 32 (Int.tdiv (toSigned 32 w * ((64 - m : Nat) : Int)) 64)

/-! ## Reading ring entries, and the fallback (R54, R333) -/

/-- Cut a list of bytes into samples of `m` little-endian words. -/
def samplesOf (m : Nat) : Nat → List Byte → List (List Nat)
  | 0, _ => []
  | n + 1, bs => ((List.range m).map (fun i => leAt bs (4 * i) 4)) :: samplesOf m n (bs.drop (4 * m))

/-- The words of an input entry and of an output entry, sample by sample. -/
def Dev.inWords (d : Dev) (s k : Nat) : List (List Nat) × Dev :=
  let (bs, _, d) := d.siloReadNow (d.inEntry s k) (d.inBytes s)
  (samplesOf (d.inSlots s).length (d.blkLen s) bs, d)
def Dev.outWords (d : Dev) (s base k : Nat) : List (List Nat) × Dev :=
  let (bs, _, d) := d.siloReadNow (d.outEntry s base k) (d.outBytes s)
  (samplesOf (d.outSlots s).length (d.blkLen s) bs, d)

/-- `a ÷ 2^k` to the nearest, ties to even. -/
def rneShift (a : Int) (k : Nat) : Int :=
  let q := a / ((2 ^ k : Nat) : Int)
  let r := (a % ((2 ^ k : Nat) : Int)).toNat
  if 2 * r < 2 ^ k then q else if 2 ^ k < 2 * r then q + 1 else if q % 2 = 0 then q else q + 1

/-- An input word times DRY_GAIN (R54). -/
def dryWord (gain w : Nat) : Nat := ofSigned 32 (clampSigned 32 (rneShift (toSigned 32 w * (gain : Int)) 14))

/-- A DRY sample: output slot `i` carries input slot `i mod n`; with no input slot, zero (DEDUCED). -/
def Dev.drySample (d : Dev) (s : Nat) (ws : List Nat) : List Nat :=
  (List.range (d.outSlots s).length).map (fun i =>
    if ws.isEmpty then 0 else dryWord (d.rd (R.SEQ_STRM_DRY_GAIN s)) (ws.getD (i % ws.length) 0))

/-- A block of zeros. -/
def Dev.silence (d : Dev) (s : Nat) : List (List Nat) :=
  List.replicate (d.blkLen s) (List.replicate (d.outSlots s).length 0)

/-- The fallback of block `k` (R54). -/
def Dev.fallback (d : Dev) (s k : Nat) : List (List Nat) × Dev :=
  if d.on (R.SEQ_STRM_CFG_FB s) then (d.silence s, d)
  else
    let (ws, d) := d.inWords s k
    (ws.map (d.drySample s), d)

/-- What a stream plays while the device sleeps, for the block before the one just filled: DRY from the bypass RAM, or
zeros (R333). -/
def Dev.sleepWords (d : Dev) (s : Nat) : List (List Nat) :=
  if d.on (R.SEQ_STRM_CFG_DORMANT_DRY s) then
    let ram := (d.port (d.inPort s)).bypass
    let b := d.blkLen s
    let newer := (d.stream s).early.length
    (List.range b).map (fun n =>
      let f := ram.getD (2 * b - 1 - n + newer) []
      d.drySample s ((d.inSlots s).map (fun k => f.getD k 0)))
  else d.silence s

/-! ## The PORT descriptor: samples it captures and plays (R56-R58) -/

/-- A PORT body. -/
structure PortB where
  kind : Nat
  stream : Nat
  slots : Nat
  nsamp : Nat
  buf : Nat
  atBlock : Nat
  result : Nat
  deriving DecidableEq, Repr

/-- The PORT body of a descriptor (Table 03-4a). -/
def PortB.of (b : DescWord) : PortB :=
  let f := fun k w => bits b.toNat (8 * k) w
  ⟨bits b.toNat 128 2, bits b.toNat 130 5, f 17 8, f 20 32, f 24 64, f 32 64, f 40 64⟩

/-- Check 2 of R57. -/
def PortB.wellFormed (b : DescWord) : Bool :=
  let x := PortB.of b
  bits b.toNat 135 1 == 0 && bits b.toNat 144 16 == 0 && bits b.toNat 384 128 == 0 && decide (x.kind < 3) &&
    decide (1 ≤ x.nsamp ∧ x.nsamp ≤ 2 ^ 28) && x.buf % 4 == 0 && x.result % 8 == 0

/-- Bytes of a PORT's sample and the address of sample `n`. -/
def PortB.width (x : PortB) : Nat := 4 * (slotList x.slots).length
def PortB.addr (x : PortB) (n : Nat) : Nat := x.buf + n * x.width

/-- The checks of R57, in order: the status of the first that fails. -/
def Dev.portCheck (d : Dev) (t : TroughId) (b : DescWord) : Option Nat :=
  let x := PortB.of b
  let mask := if x.kind = 0 then d.rd (R.SEQ_STRM_SLOTS_IN_MASK x.stream) else d.rd (R.SEQ_STRM_SLOTS_OUT_MASK x.stream)
  if !(d.rd (R.STL_Q_STREAMS_MASK (d.stallOf t))).testBit x.stream then some stQuota
  else if !PortB.wellFormed b then some stDesc
  else if !d.on (R.SEQ_STRM_CFG_EN x.stream) || x.slots == 0 || (x.slots &&& mask) != x.slots then some stDesc
  else if !d.mayUse t x.buf (x.nsamp * x.width) || (x.result != 0 && !d.mayUse t x.result 8) then some stQuota
  else none

/-- The mark in a PORT's progress word that its stream has stopped; below it stands the number of its first block. -/
abbrev portEnded : Nat := 2 ^ 64

/-- The PORTs of a kind that run on stream `s`, and the first block of one. -/
def Dev.portsOn (d : Dev) (s kind : Nat) : List Desc :=
  d.tn.live.filter (fun y => y.opcode == 10 && decide (y.phase = .working) && (PortB.of y.bits).stream == s &&
    (PortB.of y.bits).kind == kind)
def Desc.firstBlock (y : Desc) : Nat := y.aux % portEnded

/-- `d` with the samples that PORTs carry replaced. -/
def Dev.setCaps (d : Dev) (cs : List Cap) : Dev := { d with au := { d.au with caps := cs } }

/-- The samples of one PORT. -/
def Cap.of (c : Cap) (y : Desc) : Bool := c.trough == y.trough && c.pos == y.pos
def Dev.capsOf (d : Dev) (y : Desc) : List Cap := d.au.caps.filter (fun c => c.of y)

/-- Sample `n` of block `k`, whose slots carry `word`, ends `T` after grid point `g`: the PORTs of a capture kind that cover
it take it. -/
def Dev.captureSample (d : Dev) (s kind k n g : Nat) (word : Nat → Nat) : Dev :=
  (d.portsOn s kind).foldl (fun d y =>
    let x := PortB.of y.bits
    let i := (k - y.firstBlock) * d.blkLen s + n
    if y.firstBlock ≤ k ∧ i < x.nsamp ∧ y.aux < portEnded then
      d.setCaps (d.au.caps ++ [⟨y.trough, y.pos, i, (slotList x.slots).map word, g + d.strmTicks s * (2 * d.blkLen s + 1)⟩])
    else d) d

/-- The words of block `k` with those of a PLAY in their place; a word that has not come plays as zero and is counted late
(R58). -/
def Dev.playOver (d : Dev) (y : Desc) (s k : Nat) (ws : List (List Nat)) : List (List Nat) × Dev :=
  let x := PortB.of y.bits
  let base := (k - y.firstBlock) * d.blkLen s
  let cs := d.capsOf y
  let late := (List.range ws.length).filter (fun n => decide (base + n < x.nsamp) && !cs.any (fun c => c.n == base + n))
  let ws' := (List.range ws.length).map (fun n =>
    if base + n < x.nsamp then
      let play := ((cs.find? (fun c => c.n == base + n)).map (·.words)).getD []
      (d.outSlots s).zipIdx.map (fun (k, i) =>
        if x.slots.testBit k then play.getD ((slotList x.slots).idxOf k) 0 else (ws.getD n []).getD i 0)
    else ws.getD n [])
  let d := d.setCaps (d.au.caps.filter (fun c => !(c.of y && decide (c.n < base + ws.length))))
  (ws', (d.bump (R.SEQ_STRM_PORT_LATE_COUNT s) late.length).updDesc { y with prog := max y.prog (min x.nsamp (base + ws.length)) })

/-- The words block `k` plays once a running PLAY that covers it has had its say. -/
def Dev.withPlay (d : Dev) (s k : Nat) (ws : List (List Nat)) : List (List Nat) × Dev :=
  match (d.portsOn s 2).find? (fun y => decide (y.firstBlock ≤ k) &&
      decide ((k - y.firstBlock) * d.blkLen s < (PortB.of y.bits).nsamp)) with
  | some y => d.playOver y s k ws
  | none => (ws, d)

/-- Sample `n` of block `k` has had its output frame: a PLAY whose last sample it was is done. -/
def Dev.playedSample (d : Dev) (s k n : Nat) : Dev :=
  (d.portsOn s 2).foldl (fun d y =>
    if y.firstBlock ≤ k ∧ (k - y.firstBlock) * d.blkLen s + n + 1 = (PortB.of y.bits).nsamp then
      d.updDesc { y with phase := .done }
    else d) d

/-- Stream `s` stops: its PORTs end, and the samples not covered are counted late (R58). -/
def Dev.endPorts (d : Dev) (s : Nat) : Dev :=
  let captures := (d.portsOn s 0 ++ d.portsOn s 1).filter (fun y => decide (y.aux < portEnded))
  let d := captures.foldl (fun d y =>
    (d.bump (R.SEQ_STRM_PORT_LATE_COUNT s) ((PortB.of y.bits).nsamp - y.prog - (d.capsOf y).length)).updDesc
      { y with aux := y.aux + portEnded }) d
  (d.portsOn s 2).foldl (fun d y =>
    ((d.bump (R.SEQ_STRM_PORT_LATE_COUNT s) ((PortB.of y.bits).nsamp - y.prog + (d.capsOf y).length)).setCaps
      (d.au.caps.filter (fun c => !c.of y))).updDesc { y with phase := .done }) d

/-- The first block that a PORT of a kind starting now can cover from its first frame: on the output side the first selected
block that has not begun to play, else the one in compute, or the stream's first where none was launched. -/
def Dev.nextBlock (d : Dev) (s kind : Nat) : Nat :=
  let st := d.stream s
  if kind = 0 then if st.filling then st.block + 1 else st.block
  else
    match st.plays.filter (fun p => decide (d.stc < p.start)) with
    | p :: ps => ps.foldl (fun k q => min k q.block) p.block
    | [] => max st.first (d.rd (R.SEQ_STRM_BLOCK s))

/-- Whether a PORT of the same kind and stream of the same stall, started earlier, still runs. -/
def Dev.portBehind (d : Dev) (y : Desc) : Bool :=
  let x := PortB.of y.bits
  d.tn.live.any (fun z => z.opcode == 10 && (z.phase == .started || z.phase == .working) && decide (z.order < y.order) &&
    d.stallOf z.trough == d.stallOf y.trough && (PortB.of z.bits).kind == x.kind && (PortB.of z.bits).stream == x.stream)

/-- A PORT begins: it chooses its first block and writes its number to RESULT (R56). A PLAY covers blocks already selected
whose first frame is still to come, and its words for them come too late. -/
def portBegin (y : Desc) (d : Dev) : Work Unit :=
  let x := PortB.of y.bits
  let s := x.stream
  let next := d.nextBlock s x.kind
  let first := if x.atBlock ≠ 0 ∧ next ≤ x.atBlock then x.atBlock else next
  (if x.result = 0 then Work.ok () d else d.putBytes y.trough x.result (leBytes 8 first)).bind fun _ d =>
    let y := { y with phase := .working, aux := first }
    let d := d.updDesc y
    if !d.on (R.SEQ_STRM_CFG_EN s) then .ok () (d.endPorts s)
    else if x.kind ≠ 2 then .ok () d
    else
      let blocks := ((d.stream s).plays.filter (fun p => decide (first ≤ p.block))).map (·.block)
      .ok () (blocks.foldl (fun d k =>
        match (d.stream s).plays.find? (fun p => p.block == k), d.findDesc y.trough y.pos with
        | some p, some y =>
          if (k - y.firstBlock) * d.blkLen s < x.nsamp then
            let (ws, d) := d.playOver y s k p.words
            let st := d.stream s
            d.setStream s { st with plays := st.plays.map (fun q => if q.block = k then { q with words := ws } else q) }
          else d
        | _, _ => d) d)

/-- One sample of a capture reaches its buffer: in time, or as zero once it is late or its stream has stopped (R58). -/
def captureStep (t : TroughId) (pos : Nat) (d : Dev) : Work Bool :=
  match d.findDesc t pos with
  | none => .wait
  | some y =>
    let x := PortB.of y.bits
    let after := fun (late : Nat) (d : Dev) =>
      let d := d.setCaps (d.au.caps.filter (fun c => !(c.of y && c.n == y.prog)))
      let done := decide (y.prog + 1 = x.nsamp)
      Work.ok (!done) ((d.bump (R.SEQ_STRM_PORT_LATE_COUNT x.stream) late).updDesc
        { y with prog := y.prog + 1, phase := if done then .done else .working })
    let zero := List.replicate x.width (0 : Byte)
    match (d.capsOf y).find? (fun c => c.n == y.prog) with
    | some c =>
      if d.stc ≤ c.due then (d.putBytes t (x.addr y.prog) (c.words.flatMap (leBytes 4))).bind fun _ d => after 0 d
      else (d.putBytes t (x.addr y.prog) zero).bind fun _ d => after 1 d
    | none => if portEnded ≤ y.aux then (d.putBytes t (x.addr y.prog) zero).bind fun _ d => after 0 d else .wait

/-- One sample of a PLAY is fetched. -/
def playStep (t : TroughId) (pos : Nat) (d : Dev) : Work Bool :=
  match d.findDesc t pos with
  | none => .wait
  | some y =>
    let x := PortB.of y.bits
    if x.nsamp ≤ y.prog then .wait
    else (d.getBytes t (x.addr y.prog) x.width).bind fun bs d =>
      let ws := (List.range (slotList x.slots).length).map (fun i => leAt bs (4 * i) 4)
      .ok true ((d.setCaps (d.au.caps ++ [⟨t, pos, y.prog, ws, 0⟩])).updDesc { y with prog := y.prog + 1 })

/-- At a boundary of stream `s` the PORTs that a job fault or a reset took from their troughs stop (R58): what they have
captured by then is written, and they write and play nothing more. -/
def Dev.dropLeft (d : Dev) (s : Nat) : Dev :=
  (d.tn.live.filter (fun y => y.trough == leftTrough (d.stallOf y.trough) && (PortB.of y.bits).stream == s)).foldl (fun d y =>
    let d := match Dev.steps (captureStep y.trough y.pos) (if (PortB.of y.bits).kind = 2 then 0 else (d.capsOf y).length) d with
      | .ok () d' => d'
      | _ => d
    (d.setCaps (d.au.caps.filter (fun c => !c.of y))).dropDesc y.trough y.pos) d

/-- PORT: it begins when no PORT of its kind is before it, or moves up to `fuel` samples between its buffer and the port
(R56-R58). -/
def port (t : TroughId) (pos fuel : Nat) (d : Dev) : Dev :=
  match d.findDesc t pos with
  | none => d
  | some y =>
    if y.opcode ≠ 10 then d
    else if y.phase = .started then if d.portBehind y then d else (portBegin y d).close d t pos
    else if y.phase = .working then
      (Dev.steps (if (PortB.of y.bits).kind = 2 then playStep t pos else captureStep t pos) fuel d).close d t pos
    else d

/-! ## The zero-crossing detector (R62, R63, R209) -/

/-- Samples until the detector of stream `s` times out (R63). -/
def Dev.zcLimit (d : Dev) (s : Nat) : Nat :=
  match d.rd (R.SEQ_STRM_ZC_TIMEOUT s) with
  | 0 => [882, 960, 1764, 1920, 3528, 3840].getD (d.rd (R.AUD_PORT_CTL_RATE (d.inPort s))) 960
  | n => n

/-- `d` with the detector of stream `s` replaced; ZC_ARMED follows it. -/
def Dev.setDet (d : Dev) (s : Nat) (x : Option Detector) : Dev :=
  (d.setStream s { d.stream s with det := x }).wr (R.SEQ_STRM_STAT_ZC_ARMED s) (b2n x.isSome)

/-- Arm the detector of stream `s`. -/
def Dev.armZc (d : Dev) (s : Nat) : Dev := d.setDet s (some ⟨none, none, 0⟩)

/-- The region of a sample: POS, NEG or MID. -/
def region (h x : Int) : Option Bool := if h ≤ x then some true else if x ≤ -h then some false else none

/-- The detector after one sample, and the crossing it reports. -/
def Detector.sample (z : Detector) (h x : Int) (here : Nat × Nat × Nat) : Detector × Option (Nat × Nat × Nat) :=
  let reg := region h x
  match z.side with
  | none => (⟨reg, none, z.age + 1⟩, none)
  | some sd =>
    let cand := if decide (0 ≤ x) != sd then z.cand.or (some here) else none
    (⟨some sd, cand, z.age + 1⟩, if reg.isSome && reg != some sd then cand else none)

/-- Whether a promotion of stream `s` watches for a crossing. -/
def Dev.watching (d : Dev) (s : Nat) : Bool := d.rd (R.SEQ_PROMO_STAT_STATE s) == 3

/-- The detector reports a crossing (R62); while a promotion watches, one whose block is selected or slipped is stale
(R209, R212). -/
def Dev.zcHit (d : Dev) (s : Nat) (c : Nat × Nat × Nat) : Dev :=
  let d := ((d.setDet s none).wr (R.SEQ_STRM_ZC_STC s) c.2.2).wr (R.SEQ_STRM_STAT_ZC_HIT s) 1
  let st := d.stream s
  let d := if d.watching s then d.setStream s { st with promo := st.promo.map (fun p => { p with hit := some c }) } else d
  d.irq .seq 0 seqZc

/-- Give a sample's word to the detector of stream `s`. -/
def Dev.detect (d : Dev) (s w n g : Nat) : Dev :=
  let st := d.stream s
  match st.det with
  | none => d
  | some z =>
    if d.zcLimit s ≤ z.age then d
    else
      let x := toSigned 24 (w / 256)
      let h : Int := d.rd (R.SEQ_STRM_ZC_HYST s)
      match z.sample h x (st.block, n, g) with
      | (z', none) => d.setDet s (some z')
      | (z', some c) =>
        if d.watching s ∧ (c.1 + 2 ≤ st.block ∨ st.slips.contains c.1) then d.setDet s (some ⟨region h x, none, z'.age⟩)
        else d.zcHit s c

/-- ZC_TIMEOUT: no hit within the limit sets ZC_TO and disarms; a promotion that watched goes on to its crossfade (R63,
R210). -/
def zcTimeout (s : Nat) (d : Dev) : Dev :=
  match (d.stream s).det with
  | some z =>
    if d.zcLimit s ≤ z.age then
      let d := if d.watching s then d.wr (R.SEQ_PROMO_STAT_STATE s) 4 else d
      ((d.setDet s none).wr (R.SEQ_STRM_STAT_ZC_TO s) 1).irq .seq 0 seqZc
    else d
  | none => d

/-! ## Samples in (R45, R46, R64) -/

/-- Write the words of sample `n` to the input entry of the block being filled; a slot the port does not carry brings no
word, and a word whose place cannot be served now is not written (DESIGN CHOICE: its granule or bank is zeroed). -/
def Dev.storeSample (d : Dev) (s n : Nat) (ws : List Nat) : Dev :=
  let ks := d.inSlots s
  let at0 := d.inEntry s (d.stream s).block + n * ks.length * 4
  ks.zipIdx.foldl (fun (d : Dev) (k, i) =>
    if k < ws.length ∧ d.siloReady (at0 + 4 * i) then (d.siloWrite (at0 + 4 * i) (leBytes 4 (ws.getD k 0))).2
    else d) d

/-- One sample reaches stream `s` at grid point `g`. The first begins a block; one that comes while a full block's boundary
has not been served is kept for the block after it. -/
def Dev.takeSample (d : Dev) (s g : Nat) (ws : List Nat) : Dev :=
  let st := d.stream s
  let st := if st.filling then st else { st with filling := true, blkStart := g, filled := 0, energy := 0 }
  if d.blkLen s ≤ st.filled then d.setStream s { st with early := st.early ++ [(g, ws)] }
  else
    let n := st.filled
    let sq := ((d.inSlots s).map (fun k => (toSigned 24 (ws.getD k 0 / 256)).natAbs ^ 2)).foldl (· + ·) 0
    let d := d.setStream s { st with filled := n + 1, energy := st.energy + sq }
    let d := d.storeSample s n ws
    let d := d.captureSample s 0 st.block n g (fun k => ws.getD k 0)
    d.detect s (ws.getD (d.rd (R.SEQ_STRM_SLOTS_ZC_SLOT s)) 0) n g

/-! ## Samples out (R50, R59, R60) -/

/-- The block of stream `s` whose words play at grid point `g`, and the sample. -/
def Dev.playAt (d : Dev) (s g : Nat) : Option (PlayBlock × Nat) :=
  let tk := d.smpTicks (d.outPort s)
  ((d.stream s).plays.find? (fun p => decide (p.start ≤ g ∧ g < p.start + d.blkLen s * tk))).map
    (fun p => (p, (g - p.start) / tk))

/-- The word that the stream bound to slot `k` of port `p` plays at `g`. -/
def Dev.boundWord (d : Dev) (p g k : Nat) : Option Nat :=
  (d.playersOf p).findSome? (fun s =>
    if (d.outSlots s).contains k then
      (d.playAt s g).map (fun (b, n) => (b.words.getD n []).getD ((d.outSlots s).idxOf k) 0)
    else none)

/-- What slot `k` of port `p` carries at `g`: its stream's word, else the next step of its fade, else zero; until
OUT_RELEASE no stream's word flows. -/
def Dev.slotWord (d : Dev) (p g k : Nat) : Nat :=
  match d.boundWord p g k with
  | some w => if d.on R.SEQ_MUTE_CTL_OUT_RELEASE then w else 0
  | none =>
    match (d.port p).fades.find? (fun f => f.1 == k) with
    | some f => fadeWord f.2.1 (f.2.2 + 1)
    | none => 0

/-- The bays of stream `s` become its pinned and standby bays (R20, R47). -/
def Dev.pinBays (d : Dev) (s : Nat) : Dev :=
  let live := d.rd (R.SEQ_STRM_BAYS_PINNED s)
  let spare := d.rd (R.SEQ_STRM_BAYS_STANDBY s)
  (List.range 16).foldl (fun d b =>
    if live.testBit b || spare.testBit b then
      ((d.wr (R.THR_GANG_PINNED b) 1).wr (R.THR_GANG_STREAM b) s).wr (R.THR_GANG_STANDBY b) (b2n (!live.testBit b))
    else d) d

/-- Stream `s` has played its last block: its slots fade, and the stream is gone (R60). -/
def Dev.endStream (d : Dev) (s : Nat) : Dev :=
  let d := d.startFade (d.outPort s) (d.outSlots s)
  ((d.setDet s none).setStream s Stream.idle).wr (R.SEQ_STRM_STAT_RUN s) 0

/-- After the frame at `g`: PORTs take or have played their samples, blocks that are over go, and a stopping stream whose
last block is over ends. -/
def Dev.afterFrame (d : Dev) (s g : Nat) (word : Nat → Nat) : Dev :=
  let tk := d.smpTicks (d.outPort s)
  let d := match d.playAt s g with
    | some (b, n) => (d.captureSample s 1 b.block n g word).playedSample s b.block n
    | none => d
  let st := d.stream s
  let plays := st.plays.filter (fun p => decide (g + tk < p.start + d.blkLen s * tk))
  let d := d.setStream s { st with plays := plays }
  if st.stopping = 2 ∧ plays.isEmpty then d.endStream s else d

/-- The frame that port `p` sends: none from a target whose SDO pads are held or float, or a controller whose BCLK and FSYNC
pads are; a controller whose SDO alone is not driven sends its clocks and no words (R346, R347). -/
def Dev.sendFrame (d : Dev) (p : Nat) (ws : List Nat) : Dev :=
  if d.on (R.AUD_PORT_CTL_ROLE p) then
    if d.padsOff 1 p then d else d.emit (.frame p (d.bclkDiv p) (if d.padsOff 0 p then [] else ws))
  else if d.padsOff 0 p then d
  else d.emit (.frame p 0 ws)

/-- Grid point `g` of port `p` on the output side; `sent` tells whether there is a frame to carry the words. A controller's
positions after its slots carry zero (R44). -/
def Dev.framesOut (d : Dev) (p g : Nat) (sent : Bool) : Dev :=
  let ks := List.range (d.portSlots p)
  let ws := ks.map (d.slotWord p g)
  let x := d.port p
  let fades := (x.fades.filter (fun f => (d.boundWord p g f.1).isNone && decide (f.2.2 + 1 < 64))).map
    (fun f => (f.1, f.2.1, f.2.2 + 1))
  let last := ks.foldl (fun m k => m.set (fun _ => 0) k (BitVec.ofNat 32 (ws.getD k 0))) x.last
  let d := d.setPort p { x with fades := fades, last := last }
  let rest := if d.on (R.AUD_PORT_CTL_ROLE p) then List.replicate (d.positions p - d.portSlots p) 0 else []
  let d := if sent then d.sendFrame p (ws ++ rest) else d
  (d.playersOf p).foldl (fun d s => d.afterFrame s g (fun k => ws.getD k 0)) d

/-- Serve grid point `g` of port `p`: with a frame's words, or without a frame, when its input is zeros (R45). -/
def Dev.servePoint (d : Dev) (p g : Nat) (ws : Option (List Nat)) : Dev :=
  let words := ws.getD (List.replicate (d.portSlots p) 0)
  let x := d.port p
  let d := d.setPort p { x with framed := true, grid := g, bypass := (words :: x.bypass).take 516 }
  let d := (d.takersOf p).foldl (fun d s => d.takeSample s g words) d
  d.framesOut p g ws.isSome

/-- Serve the grid points of port `p` before `lim` that had no frame. -/
def Dev.catchUp (d : Dev) (p lim : Nat) : Nat → Dev
  | 0 => d
  | k + 1 =>
    let g := (d.port p).grid + d.smpTicks p
    if g < lim then (d.servePoint p g none).catchUp p lim k else d

/-- The grid points of port `p` up to `lim`. -/
def Dev.fillTo (d : Dev) (p lim : Nat) : Dev := d.catchUp p lim ((lim - (d.port p).grid) / d.smpTicks p + 1)

/-! ## Slips and lost frames (R45) -/

/-- A slip of a port falls in block `k` of stream `s`: once per block it is counted, recorded and told to the stall. -/
def Dev.slipBlock (d : Dev) (s k : Nat) : Dev :=
  let st := d.stream s
  if st.slips.contains k then d
  else
    let d := d.setStream s { st with slips := k :: st.slips.filter (fun j => decide (k < j + 8)) }
    let d := (d.bump (R.SEQ_STRM_SLIP_COUNT s)).irq .seq 0 seqSlip
    match d.stallOfStream s with
    | some n => (d.event n stDeadline kindStream s k).raise n 6
    | none => d

/-- The streams bound to port `p` on either side that still take input. -/
def Dev.boundTo (d : Dev) (p : Nat) : List Nat :=
  streams.filter (fun s => (d.inPort s == p || d.outPort s == p) &&
    (d.on (R.SEQ_STRM_CFG_EN s) || (d.stream s).stopping == 1))

/-- A slip of port `p`: every stream bound to it plays its fallback for the block that contains the slip, the one it fills
then; so the change falls on a block edge (R45, R54). -/
def Dev.slipStreams (d : Dev) (p : Nat) : Dev := (d.boundTo p).foldl (fun d s => d.slipBlock s (d.stream s).block) d

/-- Measure the phase of port `p` anew from an edge at `now` (R45). -/
def Dev.latchPhase (d : Dev) (p now : Nat) : Dev := d.wr (R.AUD_PORT_STAT_PHASE p) (now % d.smpTicks p)

/-- Frames of port `p` are on its grid. -/
def Dev.frameOk (d : Dev) (p : Nat) : Dev :=
  if d.on (R.AUD_PORT_STAT_FRAME_OK p) then d else (d.wr (R.AUD_PORT_STAT_FRAME_OK p) 1).irq .aud p audOk

/-- The grid point of a target port nearest to `now`. -/
def nearest (grid tk now : Nat) : Nat :=
  let r := (now + tk - grid % tk) % tk
  if 2 * r < tk then now - r else now + (tk - r)

/-- A frame of a target port at `now` (R45). -/
def Dev.targetFrame (d : Dev) (p now : Nat) (ws : List Nat) : Dev :=
  let x := d.port p
  let g := nearest x.grid (d.smpTicks p) now
  if !x.framed then ((d.latchPhase p now).frameOk p).servePoint p now (some ws)
  else if x.lost then
    let d := (d.fillTo p g).latchPhase p now
    ((d.setPort p { d.port p with lost := false }).frameOk p).servePoint p now (some ws)
  else if g ≤ now + 4 ∧ now ≤ g + 4 then
    if x.grid < g then (d.fillTo p g).servePoint p g (some ws) else d
  else
    let d := (((d.fillTo p g).wr (R.AUD_PORT_STAT_SLIP p) 1).bump (R.AUD_SLIP_COUNT p)).irq .aud p audSlip
    ((d.slipStreams p).latchPhase p now).servePoint p now (some ws)

/-- A frame of a controller port, which starts on its grid: the multiples of T (R44, DEDUCED: the first at or after the
enable). PORT_STAT.PHASE, which the rules measure on a target port alone, keeps here what it last held (DESIGN CHOICE). -/
def Dev.controllerFrame (d : Dev) (p now : Nat) (ws : List Nat) : Dev :=
  let x := d.port p
  if now % d.smpTicks p ≠ 0 ∨ (x.framed ∧ now ≤ x.grid) then d
  else ((if x.framed then d.fillTo p now else d).frameOk p).servePoint p now (some ws)

/-- INPUT_FRAME: a frame starts on port `p`, bringing the words of its slots (R45, R46). -/
def inputFrame (p : Nat) (words : List Nat) (d : Dev) : Dev :=
  if !d.portOn p then d
  else
    let ws := words.take (d.portSlots p)
    if d.on (R.AUD_PORT_CTL_ROLE p) then d.controllerFrame p d.stc ws else d.targetFrame p d.stc ws

/-- FRAME_LOST: no frame start for 2 grid samples of a target port, and every grid sample without a frame after that
(R45). -/
def frameLost (p : Nat) (d : Dev) : Dev :=
  let x := d.port p
  let tk := d.smpTicks p
  if !d.portOn p || d.on (R.AUD_PORT_CTL_ROLE p) || !x.framed then d
  else if x.lost then d.fillTo p (d.stc - 4)
  else if x.grid + 2 * tk + 4 < d.stc then
    let d := (d.setPort p { x with lost := true }).wr (R.AUD_PORT_STAT_FRAME_OK p) 0
    let d := ((d.wr (R.AUD_PORT_STAT_FRAME_LOST p) 1).bump (R.AUD_LOST_COUNT p)).irq .aud p audLost
    d.fillTo p (d.stc - 4)
  else d

end Sys2Proof.Machine
end

