-- ==== Sys2Proof/Machine/Chaff.lean ====
section
/-! DEFINITION. Chaffmix, the counter-based generator of dropout masks (spec/10 R189-R191). -/
namespace Sys2Proof.Machine

/-- The low 32 bits. -/
def low32 (v : Nat) : Nat := v % 2 ^ 32

/-- A 32-bit rotation to the left. -/
def rotl32 (v k : Nat) : Nat := low32 (v <<< k) ||| (low32 v >>> (32 - k))

/-- The four words of a Chaffmix state. -/
structure Chaff where
  x0 : Nat
  x1 : Nat
  x2 : Nat
  x3 : Nat
  deriving DecidableEq, Repr

/-- Round `r` under key words k0, k1. -/
def Chaff.round (k0 k1 : Nat) (c : Chaff) (r : Nat) : Chaff :=
  let odd := r % 2 = 1
  let x0 := low32 (c.x0 + c.x1 + (if odd then k1 else k0) + r)
  let x3 := rotl32 (c.x3 ^^^ x0) (if odd then 8 else 16)
  let x2 := low32 (c.x2 + x3)
  let x1 := rotl32 (c.x1 ^^^ x2) (if odd then 7 else 12)
  ⟨x0, x1, x2, x3⟩

/-- Ten rounds on an element group (R189). -/
def chaffmix (key layer site mb group : Nat) : Chaff :=
  (List.range 10).foldl (Chaff.round (low32 key) (low32 (key >>> 32)))
    ⟨low32 group, layer + site * 65536, low32 mb, 0x43684D78⟩

/-- Whether element `e` is kept under a dropout record (R190). -/
def kept (rec : List Byte) (e : Nat) : Bool :=
  let c := chaffmix (leAt rec 0 8) (leAt rec 8 2) (leAt rec 10 2) (leAt rec 12 4) (e / 4)
  decide ((match e % 4 with | 0 => c.x0 | 1 => c.x1 | 2 => c.x2 | _ => c.x3) < leAt rec 16 4)

/-- The element index of strip element (row, col) of the whole result (R191). -/
def maskIndex (rec : List Byte) (row col : Nat) : Nat := low32 (leAt rec 20 4 + row * leAt rec 24 4 + col)

end Sys2Proof.Machine
end

