-- ==== Sys2Proof/Machine/Float.lean ====
section
/-! DEFINITION. The number formats and the floating-point arithmetic of the sifters, exact and rounded once, in fast and
in strict mode (spec/09 R172-R184). A pattern is a natural number; a result comes with the flags it raises. -/
namespace Sys2Proof.Machine

/-! ## Formats and values -/

/-- A floating-point format: exponent bits, fraction bits (Table 09-1). -/
structure Fmt where
  ebits : Nat
  fbits : Nat
  deriving DecidableEq, Repr

def fp32 : Fmt := ⟨8, 23⟩
def fp16 : Fmt := ⟨5, 10⟩
def bf16 : Fmt := ⟨8, 7⟩

/-- The exponent bias. -/
def Fmt.bias (f : Fmt) : Nat := 2 ^ (f.ebits - 1) - 1

/-- The exponent of the smallest normal. -/
def Fmt.emin (f : Fmt) : Int := 1 - (f.bias : Int)

/-- A floating-point datum: a NaN with its fraction in FP32 position, an infinity, or ±m × 2^e. -/
inductive FVal where
  | nan (neg : Bool) (frac : Nat)
  | inf (neg : Bool)
  | fin (neg : Bool) (m : Nat) (e : Int)
  deriving DecidableEq, Repr

/-- The canonical NaN in FP32 (R177). -/
def canonNan : FVal := .nan false 0x400000

/-- Whether a datum is a signaling NaN: its quiet bit is clear. -/
def FVal.signaling : FVal → Bool
  | .nan _ f => !f.testBit 22
  | _ => false

/-- Whether a datum is a NaN. -/
def FVal.isNan : FVal → Bool
  | .nan _ _ => true
  | _ => false

/-- A NaN with its quiet bit set. -/
def FVal.quiet : FVal → FVal
  | .nan s f => .nan s (setBit f 22)
  | x => x

/-- Read a bit pattern of a format (R172). -/
def decodeF (f : Fmt) (p : Nat) : FVal :=
  let neg := p.testBit (f.ebits + f.fbits)
  let ex := bits p f.fbits f.ebits
  let fr := bits p 0 f.fbits
  if ex = 2 ^ f.ebits - 1 then
    if fr = 0 then .inf neg else .nan neg (fr <<< (23 - f.fbits))
  else if ex = 0 then .fin neg fr (f.emin - f.fbits)
  else .fin neg (fr + 2 ^ f.fbits) ((ex : Int) - f.bias - f.fbits)

/-- The sign bit of a format's pattern. -/
def Fmt.sign (f : Fmt) (neg : Bool) : Nat := if neg then 2 ^ (f.ebits + f.fbits) else 0

/-- The infinity and the largest finite pattern of a format. -/
def Fmt.infPat (f : Fmt) (neg : Bool) : Nat := f.sign neg + (2 ^ f.ebits - 1) <<< f.fbits
def Fmt.maxPat (f : Fmt) (neg : Bool) : Nat := f.infPat neg - 1

/-- The pattern of a NaN in a format: the most significant fraction bits are kept (R178), and a NaN that would lose every
fraction bit keeps its quiet bit. -/
def Fmt.nanPat (f : Fmt) (neg : Bool) (frac : Nat) : Nat :=
  let fr := frac >>> (23 - f.fbits)
  f.sign neg + (2 ^ f.ebits - 1) <<< f.fbits + (if fr = 0 then 2 ^ (f.fbits - 1) else fr)

/-! ## Flags (Table in R179) -/

abbrev flagNV : Nat := 1
abbrev flagDZ : Nat := 2
abbrev flagOF : Nat := 4
abbrev flagUF : Nat := 8
abbrev flagNX : Nat := 16

/-- A result pattern and the flags raised. -/
structure FRes where
  val : Nat
  flags : Nat
  deriving DecidableEq, Repr

/-! ## Rounding (R174) -/

/-- Whether rounding attribute `rnd` moves a magnitude with lowest kept bit `odd` and discarded part compared with one
half as `c` (-1 below, 0 tie, 1 above; the part is not zero) away from zero. -/
def roundsUp (rnd : Nat) (neg odd : Bool) (c : Int) : Bool :=
  match rnd with
  | 0 => decide (0 < c) || (decide (c = 0) && odd)
  | 1 => decide (0 ≤ c)
  | 2 => false
  | 3 => !neg
  | _ => neg

/-- `m × 2^(-s)` rounded to an integer, and whether it was inexact; a negative `s` shifts left. -/
def roundShift (rnd : Nat) (neg : Bool) (m : Nat) (s : Int) : Nat × Bool :=
  if s ≤ 0 then (m <<< (-s).toNat, false)
  else
    let k := s.toNat
    let q := m >>> k
    let rem := m % 2 ^ k
    if rem = 0 then (q, false)
    else
      let half := 2 ^ (k - 1)
      let c : Int := if rem < half then -1 else if rem = half then 0 else 1
      (if roundsUp rnd neg (q.testBit 0) c then q + 1 else q, true)

/-- Round ±m × 2^e, exact or with its lowest bit sticky, once into a format (R174-R176, R179). -/
def roundF (f : Fmt) (strict : Bool) (rnd : Nat) (neg : Bool) (m : Nat) (e : Int) : FRes :=
  if m = 0 then ⟨f.sign neg, 0⟩
  else
    let top : Int := (Nat.log2 m : Int) + e
    -- with an unbounded exponent
    let (r, inexact) := roundShift rnd neg m (top - f.fbits - e)
    let top' : Int := if r = 2 ^ (f.fbits + 1) then top + 1 else top
    if top' < f.emin then
      if strict then
        let (q, nx) := roundShift rnd neg m (f.emin - f.fbits - e)
        ⟨f.sign neg + q, if nx then flagUF + flagNX else 0⟩
      else ⟨f.sign neg, 0⟩
    else if top' > (f.bias : Int) then
      let toMax := match rnd with
        | 2 => true
        | 3 => neg
        | 4 => !neg
        | _ => false
      ⟨if toMax then f.maxPat neg else f.infPat neg, flagOF + flagNX⟩
    else
      let frac := if r = 2 ^ (f.fbits + 1) then 0 else r - 2 ^ f.fbits
      ⟨f.sign neg + (top' + f.bias).toNat <<< f.fbits + frac, if inexact then flagNX else 0⟩

/-- Deliver a datum in a format: a finite one rounded once, a NaN quieted (canonical in fast mode). -/
def deliver (f : Fmt) (strict : Bool) (rnd : Nat) : FVal → FRes
  | .nan s fr => if strict then ⟨f.nanPat s (setBit fr 22), 0⟩ else ⟨f.nanPat false 0x400000, 0⟩
  | .inf s => ⟨f.infPat s, 0⟩
  | .fin s m e => roundF f strict rnd s m e

/-! ## Operands -/

/-- An FP32 operand: in fast mode a subnormal is flushed and a signaling NaN treated as quiet (R176). -/
def operand (strict : Bool) (p : Nat) : FVal :=
  match decodeF fp32 p with
  | .fin s m e => if !strict ∧ bits p 23 8 = 0 then .fin s 0 e else .fin s m e
  | x => if strict then x else x.quiet

/-- NV if any of the operands is a signaling NaN. -/
def sigFlags (xs : List FVal) : Nat := if xs.any FVal.signaling then flagNV else 0

/-- The NaN a result takes from its operands, in the order given (R177, R178). -/
def nanOf (strict : Bool) (xs : List FVal) : FVal :=
  if strict then
    match xs.find? FVal.signaling with
    | some x => x.quiet
    | none => (xs.find? FVal.isNan).getD canonNan
  else canonNan

/-- Whether any operand is a NaN. -/
def anyNan (xs : List FVal) : Bool := xs.any FVal.isNan

/-- Give up the flags in fast mode (Table 09-2). -/
def FRes.mode (strict : Bool) (r : FRes) : FRes := if strict then r else ⟨r.val, 0⟩

/-- A NaN result with its flags. -/
def nanRes (strict : Bool) (xs : List FVal) : FRes := ⟨(deliver fp32 strict 0 (nanOf strict xs)).val, sigFlags xs⟩

/-- The result of an invalid operation without NaN operands. -/
def invalidRes : FRes := ⟨0x7FC00000, flagNV⟩

/-- The signed integer of ±m. -/
def sgn (neg : Bool) (m : Nat) : Int := if neg then -(m : Int) else m

/-- The sign of an exact zero sum of two data with signs `a` and `b` (IEEE 754: −0 only when both are, or rounding toward
−∞). -/
def zeroSign (rnd : Nat) (a b : Bool) : Bool := if a = b then a else rnd == 4

/-- The exact sum of two finite data, rounded once. -/
def sumRes (strict : Bool) (rnd : Nat) (s1 : Bool) (m1 : Nat) (e1 : Int) (s2 : Bool) (m2 : Nat) (e2 : Int) : FRes :=
  let e := min e1 e2
  let t := sgn s1 (m1 <<< (e1 - e).toNat) + sgn s2 (m2 <<< (e2 - e).toNat)
  if t = 0 then ⟨fp32.sign (zeroSign rnd s1 s2), 0⟩
  else roundF fp32 strict rnd (decide (t < 0)) t.natAbs e

/-- a + b of two data. -/
def addVals (strict : Bool) (rnd : Nat) (a b : FVal) : FRes :=
  match a, b with
  | .inf s, .inf t => if s = t then ⟨fp32.infPat s, 0⟩ else invalidRes
  | .inf s, _ => ⟨fp32.infPat s, 0⟩
  | _, .inf t => ⟨fp32.infPat t, 0⟩
  | .fin s1 m1 e1, .fin s2 m2 e2 => sumRes strict rnd s1 m1 e1 s2 m2 e2
  | _, _ => nanRes strict [a, b]

/-- A datum with its sign flipped. -/
def FVal.neg : FVal → FVal
  | .nan s f => .nan (!s) f
  | .inf s => .inf (!s)
  | .fin s m e => .fin (!s) m e

/-! ## Instructions of Table 08-6 -/

/-- FADD. -/
def fAdd (strict : Bool) (rnd a b : Nat) : FRes :=
  let x := operand strict a
  let y := operand strict b
  FRes.mode strict <| if anyNan [x, y] then nanRes strict [x, y] else addVals strict rnd x y

/-- FSUB. -/
def fSub (strict : Bool) (rnd a b : Nat) : FRes :=
  let x := operand strict a
  let y := operand strict b
  FRes.mode strict <| if anyNan [x, y] then nanRes strict [x, y] else addVals strict rnd x y.neg

/-- FMUL. -/
def fMul (strict : Bool) (rnd a b : Nat) : FRes :=
  let x := operand strict a
  let y := operand strict b
  FRes.mode strict <| match x, y with
  | .inf s, .inf t => ⟨fp32.infPat (s != t), 0⟩
  | .inf s, .fin t m _ => if m = 0 then invalidRes else ⟨fp32.infPat (s != t), 0⟩
  | .fin s m _, .inf t => if m = 0 then invalidRes else ⟨fp32.infPat (s != t), 0⟩
  | .fin s m e, .fin t n f => roundF fp32 strict rnd (s != t) (m * n) (e + f)
  | _, _ => nanRes strict [x, y]

/-- FMA: a × b + c with one rounding; 0 × ∞ + c with a quiet NaN c returns c and raises nothing (R178). -/
def fMa (strict : Bool) (rnd a b c : Nat) : FRes :=
  let x := operand strict a
  let y := operand strict b
  let z := operand strict c
  FRes.mode strict <| if anyNan [x, y, z] then nanRes strict [x, y, z]
  else match x, y with
  | .fin s m e, .fin t n f =>
    match z with
    | .fin u k g =>
      if m * n = 0 ∧ k = 0 then ⟨fp32.sign (zeroSign rnd (s != t) u), 0⟩
      else sumRes strict rnd (s != t) (m * n) (e + f) u k g
    | _ => addVals strict rnd (.fin (s != t) 0 0) z
  | .inf s, .inf t => addVals strict rnd (.inf (s != t)) z
  | .inf s, .fin t m _ => if m = 0 then invalidRes else addVals strict rnd (.inf (s != t)) z
  | .fin s m _, .inf t => if m = 0 then invalidRes else addVals strict rnd (.inf (s != t)) z
  | _, _ => nanRes strict [x, y, z]

/-- Compare two data that are not NaNs: less, equal or greater; −0 and +0 are equal. -/
def cmpVals (a b : FVal) : Ordering :=
  match a, b with
  | .inf s, .inf t => if s = t then .eq else if s then .lt else .gt
  | .inf s, _ => if s then .lt else .gt
  | _, .inf t => if t then .gt else .lt
  | .fin s1 m1 e1, .fin s2 m2 e2 =>
    let e := min e1 e2
    compare (sgn s1 (m1 <<< (e1 - e).toNat)) (sgn s2 (m2 <<< (e2 - e).toNat))
  | _, _ => .eq

/-- Whether a datum carries a minus sign. -/
def FVal.negative : FVal → Bool
  | .nan s _ => s
  | .inf s => s
  | .fin s _ _ => s

/-- FMIN and FMAX: minimumNumber and maximumNumber; −0 is less than +0 (R180). -/
def fMinMax (wantMax strict : Bool) (a b : Nat) : FRes :=
  let x := operand strict a
  let y := operand strict b
  let flags := sigFlags [x, y]
  FRes.mode strict <| match x.isNan, y.isNan with
  | true, true => nanRes strict [x, y]
  | true, false => ⟨(deliver fp32 strict 0 y).val, flags⟩
  | false, true => ⟨(deliver fp32 strict 0 x).val, flags⟩
  | false, false =>
    let less := match cmpVals x y with
      | .lt => true
      | .gt => false
      | .eq => x.negative
    ⟨(deliver fp32 strict 0 (if less != wantMax then x else y)).val, flags⟩

/-- FMIN. -/
def fMin (strict : Bool) (a b : Nat) : FRes := fMinMax false strict a b
/-- FMAX. -/
def fMax (strict : Bool) (a b : Nat) : FRes := fMinMax true strict a b

/-- FABS: in strict mode the sign bit alone is cleared (R178); in fast mode the input rules apply (R176). -/
def fAbs (strict : Bool) (a : Nat) : FRes :=
  if strict then ⟨a % 2 ^ 31, 0⟩
  else match operand false a with
    | .nan _ _ => ⟨0x7FC00000, 0⟩
    | x => ⟨(deliver fp32 false 0 x).val % 2 ^ 31, 0⟩

/-- FNEG. -/
def fNeg (strict : Bool) (a : Nat) : FRes :=
  if strict then ⟨(a + 2 ^ 31) % 2 ^ 32, 0⟩
  else match operand false a with
    | .nan _ _ => ⟨0x7FC00000, 0⟩
    | x => ⟨(deliver fp32 false 0 x.neg).val, 0⟩

/-- FDIV, correctly rounded. -/
def fDiv (strict : Bool) (rnd a b : Nat) : FRes :=
  let x := operand strict a
  let y := operand strict b
  FRes.mode strict <| match x, y with
  | .inf _, .inf _ => invalidRes
  | .inf s, .fin t _ _ => ⟨fp32.infPat (s != t), 0⟩
  | .fin s _ _, .inf t => ⟨fp32.sign (s != t), 0⟩
  | .fin s m e, .fin t n f =>
    if n = 0 then (if m = 0 then invalidRes else ⟨fp32.infPat (s != t), flagDZ⟩)
    else if m = 0 then ⟨fp32.sign (s != t), 0⟩
    else
      let q := (m <<< 64) / n
      let sticky := if (m <<< 64) % n = 0 then 0 else 1
      roundF fp32 strict rnd (s != t) (2 * q + sticky) (e - f - 65)
  | _, _ => nanRes strict [x, y]

/-- The integer square root of `n`, one binary digit at a time from digit `k - 1` down. -/
def isqrt (n : Nat) : Nat → Nat → Nat
  | 0, r => r
  | k + 1, r => let c := r + 2 ^ k; isqrt n k (if c * c ≤ n then c else r)

/-- FSQRT, correctly rounded. -/
def fSqrt (strict : Bool) (rnd a : Nat) : FRes :=
  let x := operand strict a
  FRes.mode strict <| match x with
  | .inf s => if s then invalidRes else ⟨fp32.infPat false, 0⟩
  | .fin s m e =>
    if m = 0 then ⟨fp32.sign s, 0⟩
    else if s then invalidRes
    else
      let odd := e % 2
      let k := if odd = 0 then 64 else 65
      let n := m <<< k
      let r := isqrt n 48 0
      let sticky := if r * r = n then 0 else 1
      roundF fp32 strict rnd false (2 * r + sticky) ((e - k) / 2 - 1)
  | _ => nanRes strict [x]

/-- FCMPLT: 1 if a < b, 0 on a NaN, which raises NV (R179, R180). -/
def fCmpLt (strict : Bool) (a b : Nat) : FRes :=
  let x := operand strict a
  let y := operand strict b
  FRes.mode strict <| if anyNan [x, y] then (⟨0, flagNV⟩ : FRes) else ⟨if cmpVals x y = .lt then 1 else 0, 0⟩

/-- FCMPEQ: 1 if a = b, 0 on a NaN; only a signaling one raises NV (R180). -/
def fCmpEq (strict : Bool) (a b : Nat) : FRes :=
  let x := operand strict a
  let y := operand strict b
  FRes.mode strict <| if anyNan [x, y] then (⟨0, sigFlags [x, y]⟩ : FRes) else ⟨if cmpVals x y = .eq then 1 else 0, 0⟩

/-- FFIN: 1 if a is finite. -/
def fFin (a : Nat) : Nat := if bits a 23 8 = 255 then 0 else 1

/-! ## Conversions (R183) and quantization (R181, R182) -/

/-- Type codes (Table 09-1). -/
abbrev tyI32 : Nat := 0
abbrev tyFP32 : Nat := 1
abbrev tyFP16 : Nat := 2
abbrev tyBF16 : Nat := 3
abbrev tyINT16 : Nat := 4
abbrev tyINT8 : Nat := 5
abbrev tyINT4 : Nat := 6

/-- Bits of a value of a type. -/
def tyBits (ty : Nat) : Nat :=
  match ty with
  | 0 | 1 => 32
  | 2 | 3 | 4 => 16
  | 5 => 8
  | _ => 4

/-- Whether a type is a floating-point format. -/
def tyFloat (ty : Nat) : Bool := ty == tyFP32 || ty == tyFP16 || ty == tyBF16

/-- The format of a floating-point type. -/
def tyFmt (ty : Nat) : Fmt := match ty with
  | 2 => fp16
  | 3 => bf16
  | _ => fp32

/-- Round ±m × 2^e to an integer of `w` bits and saturate it, with the flags of R179 and R181. -/
def toIntF (w rnd : Nat) : FVal → Int × Nat
  | .nan _ _ => (0, flagNV)
  | .inf s => (if s then -((2 ^ (w - 1) : Nat) : Int) else ((2 ^ (w - 1) : Nat) : Int) - 1, flagNV + flagNX)
  | .fin s m e =>
    let (q, nx) := roundShift rnd s m (-e)
    let v := sgn s q
    let c := clampSigned w v
    (c, if c ≠ v then flagNV + flagNX else if nx then flagNX else 0)

/-- A source value of type `ty` as a floating-point datum; in fast mode FP32 and BF16 subnormals are flushed (R176). -/
def sourceVal (strict : Bool) (ty p : Nat) : FVal :=
  if tyFloat ty then
    match decodeF (tyFmt ty) p with
    | .fin s m e => if !strict ∧ ty ≠ tyFP16 ∧ bits p (tyFmt ty).fbits 8 = 0 then .fin s 0 e else .fin s m e
    | x => if strict then x else x.quiet
  else
    let v := toSigned (tyBits ty) p
    .fin (decide (v < 0)) v.natAbs 0

/-- CVT of a value of type `src` to type `dst` (Table 09-3). -/
def cvt (strict : Bool) (rnd src dst p : Nat) : FRes :=
  let p := p % 2 ^ tyBits src
  if src = dst then
    if tyFloat src ∧ !strict then ⟨(deliver (tyFmt src) false 0 (sourceVal false src p)).val, 0⟩
    else if tyFloat src then ⟨p, 0⟩
    else ⟨ofSigned 32 (toSigned (tyBits src) p), 0⟩
  else
    let x := sourceVal strict src p
    FRes.mode strict <| if tyFloat dst then
      let r := deliver (tyFmt dst) strict rnd x
      ⟨r.val, r.flags ||| sigFlags [x]⟩
    else if tyFloat src then
      let r := toIntF (tyBits dst) rnd x
      ⟨ofSigned 32 r.1, r.2⟩
    else ⟨ofSigned 32 (clampSigned (tyBits dst) (toSigned (tyBits src) p)), 0⟩

/-- The exact product of two data that are not NaNs; an invalid one is a NaN. -/
def mulVals (a b : FVal) : FVal :=
  match a, b with
  | .inf s, .inf t => .inf (s != t)
  | .inf s, .fin t m _ => if m = 0 then canonNan else .inf (s != t)
  | .fin s m _, .inf t => if m = 0 then canonNan else .inf (s != t)
  | .fin s m e, .fin t n f => .fin (s != t) (m * n) (e + f)
  | .nan s f, _ => .nan s f
  | _, .nan s f => .nan s f

/-- QNT: a × b rounded once and saturated to integer type `ty` (R181). -/
def qnt (strict : Bool) (rnd ty a b : Nat) : FRes :=
  let r := toIntF (tyBits ty) rnd (mulVals (operand strict a) (operand strict b))
  (⟨ofSigned 32 r.1, r.2⟩ : FRes).mode strict

/-- DQNT: the FP32 of a, an integer of type `ty`, times b, rounded once (R182). -/
def dqnt (strict : Bool) (rnd ty a b : Nat) : FRes :=
  let v := toSigned (tyBits ty) a
  let y := operand strict b
  FRes.mode strict <| match y with
  | .nan _ _ => nanRes strict [y]
  | .inf s => if v = 0 then invalidRes else ⟨fp32.infPat (s != decide (v < 0)), 0⟩
  | .fin s m e => roundF fp32 strict rnd (s != decide (v < 0)) (m * v.natAbs) e

/-! ## Exact sums (R164, R184) -/

/-- A finite FP32 pattern in units of 2⁻¹⁴⁹; zero for an infinity or a NaN. -/
def fpUnits (strict : Bool) (p : Nat) : Int :=
  match operand strict p with
  | .fin s m e => sgn s (m <<< (e + 149).toNat)
  | _ => 0

/-- Whether an FP32 pattern is finite. -/
def fpFinite (p : Nat) : Bool := fFin p == 1

/-- An exact sum in units of 2^(-u), rounded once to FP32, ties to even. -/
def exactRes (strict : Bool) (u : Nat) (t : Int) : FRes :=
  if t = 0 then ⟨0, 0⟩ else roundF fp32 strict 0 (decide (t < 0)) t.natAbs (-(u : Int))

/-- The pattern of such a sum. -/
def sumToF (strict : Bool) (u : Nat) (t : Int) : Nat := (exactRes strict u t).val

end Sys2Proof.Machine
end

