-- ==== Sys2Proof/Machine/SiftOps.lean ====
section
/-! DEFINITION. The SIFT body, program and chain blocks and their checks, the arithmetic instructions, the chain stages
and the summaries (spec/08 R152-R165). -/
namespace Sys2Proof.Machine

/-! ## The SIFT body (Table 08-3) -/

structure Sift where
  kind : Nat
  sifter : Nat
  strict : Bool
  hopper : Bool
  skind0 : Nat
  skind1 : Nat
  nstrip : Nat
  nelem : Nat
  srcTag : Nat
  sumId : Nat
  block : Nat
  dst : Nat
  pitch : Nat
  thresh : Nat
  reserved : Nat
  deriving DecidableEq, Repr

/-- The SIFT body in a descriptor's bits. -/
def Sift.of (b : DescWord) : Sift :=
  let f := Machine.bits b.toNat
  { kind := f 128 2, sifter := f 130 2, strict := f 132 1 == 1, hopper := f 133 1 == 1, skind0 := f 136 3
    skind1 := f 140 3, nstrip := f 144 16, nelem := f 160 32, srcTag := f 192 16, sumId := f 208 16, block := f 224 64
    dst := f 288 64, pitch := f 352 32, thresh := f 384 32
    reserved := f 134 2 + f 139 1 + f 143 1 + f 416 96 }

/-- The checks of R153 that need only the body. -/
def Sift.wellFormed (x : Sift) : Bool :=
  x.reserved == 0 && decide (x.kind ≤ 2) && (x.kind != 1 || x.hopper) && (x.kind != 0 || !x.hopper) &&
    (x.hopper == (x.nstrip != 0)) &&
    (if x.kind = 2 ∧ !x.hopper then decide (1 ≤ x.nelem ∧ x.nelem ≤ 2 ^ 28) else x.nelem == 0) &&
    decide (x.skind0 ≤ 5 ∧ x.skind1 ≤ 5) && (x.kind != 0 || (x.skind0 == 0 && x.skind1 == 0)) && x.block % 64 == 0

/-! ## Element types (Table 08-4, R156) -/

/-- A narrow value in 32 bits: integers sign-extended, FP16 and BF16 patterns zero-extended. -/
def widen (ty v : Nat) : Nat :=
  if ty = tyINT16 ∨ ty = tyINT8 ∨ ty = tyINT4 then ofSigned 32 (toSigned (tyBits ty) v) else v % 2 ^ tyBits ty

/-- A tine input: widened, FP16 and BF16 converted exactly to FP32 (R161). -/
def tineIn (ty v : Nat) : Nat :=
  if ty = tyFP16 ∨ ty = tyBF16 then
    match decodeF (tyFmt ty) v with
    | .nan s f => fp32.nanPat s f
    | x => (deliver fp32 true 0 x).val
  else widen ty v

/-- A tine output narrowed to its type, ties to even (R161). -/
def tineOut (strict : Bool) (ty v : Nat) : FRes :=
  if tyFloat ty then cvt strict 0 tyFP32 ty v else cvt strict 0 tyI32 ty v

/-- Byte address and bit offset of element `k` of an array of type `ty` at `a`; INT4 packs two to a byte (R173). -/
def elemAt (ty a k : Nat) : Nat × Nat := if ty = tyINT4 then (a + k / 2, 4 * (k % 2)) else (a + k * (tyBits ty / 8), 0)

/-- Bytes that hold one element. -/
def elemBytes (ty : Nat) : Nat := max 1 (tyBits ty / 8)

/-! ## The instructions (Table 08-6) -/

/-- Opcodes. -/
abbrev opNop : Nat := 0x00
abbrev opLut : Nat := 0x33
abbrev opLoop : Nat := 0x4A
abbrev opEnd : Nat := 0x7F

/-- An integer result. -/
def intRes (x : Int) : FRes := ⟨ofSigned 32 x, 0⟩

/-- The result of an arithmetic instruction on 32-bit operands; `d` is what the destination held, `fb` and `fc` the B and C
fields (type codes of the conversions). -/
def alu (strict : Bool) (op rnd fb fc d a b c : Nat) : FRes :=
  let sa := toSigned 32 a
  let sb := toSigned 32 b
  match op with
  | 0x00 => ⟨d, 0⟩
  | 0x01 => ⟨a, 0⟩
  | 0x02 => intRes (sa + sb)
  | 0x03 => intRes (sa - sb)
  | 0x04 => intRes (sa * sb)
  | 0x05 => intRes (sa * sb / (2 ^ 32 : Nat))
  | 0x06 => ⟨a &&& b, 0⟩
  | 0x07 => ⟨a ||| b, 0⟩
  | 0x08 => ⟨a ^^^ b, 0⟩
  | 0x09 => ⟨low32 (a <<< (b % 32)), 0⟩
  | 0x0A => ⟨a >>> (b % 32), 0⟩
  | 0x0B => intRes (sa / ((2 ^ (b % 32) : Nat) : Int))
  | 0x0C => intRes (min sa sb)
  | 0x0D => intRes (max sa sb)
  | 0x0E => intRes (clampSigned 32 (sa.natAbs : Int))
  | 0x0F => intRes (clampSigned 32 (sa + sb))
  | 0x10 => ⟨b2n (a == b), 0⟩
  | 0x11 => ⟨b2n (decide (sa < sb)), 0⟩
  | 0x12 => ⟨if a ≠ 0 then b else c, 0⟩
  | 0x13 => intRes (clampSigned 32 (sa - sb))
  | 0x20 => fAdd strict rnd a b
  | 0x21 => fSub strict rnd a b
  | 0x22 => fMul strict rnd a b
  | 0x23 => fMa strict rnd a b c
  | 0x24 => fMin strict a b
  | 0x25 => fMax strict a b
  | 0x26 => fAbs strict a
  | 0x27 => fNeg strict a
  | 0x28 => fDiv strict rnd a b
  | 0x29 => fSqrt strict rnd a
  | 0x2A => fCmpLt strict a b
  | 0x2B => fCmpEq strict a b
  | 0x2C => ⟨fFin a, 0⟩
  | 0x30 => cvt strict rnd (fb % 8) (fc % 8) a
  | 0x31 => qnt strict rnd (fc % 8) a b
  | 0x32 => dqnt strict rnd (fc % 8) a b
  | _ => ⟨d, 0⟩

/-- Whether an opcode is in Table 08-6, LUT apart. -/
def isArith (op : Nat) : Bool := decide (op ≤ 0x13 ∨ (0x20 ≤ op ∧ op ≤ 0x2C) ∨ (0x30 ≤ op ∧ op ≤ 0x32))

/-- Whether an opcode is in Table 08-7. -/
def isLaneOnly (op : Nat) : Bool := decide ((0x40 ≤ op ∧ op ≤ 0x4B) ∨ op = opEnd)

/-- Whether an instruction rounds (R174). -/
def rounds (op : Nat) : Bool := [0x20, 0x21, 0x22, 0x23, 0x28, 0x29, 0x30, 0x31, 0x32].contains op

/-- An instruction's fields (Table 08-5). -/
structure Ins where
  op : Nat
  d : Nat
  a : Nat
  b : Nat
  c : Nat
  rnd : Nat
  space : Nat
  deriving DecidableEq, Repr

/-- The fields of an instruction word. -/
def Ins.of (w : Nat) : Ins := ⟨bits w 0 7, bits w 7 5, bits w 12 5, bits w 17 5, bits w 22 5, bits w 27 3, bits w 30 1⟩

/-- The word of an instruction's fields. -/
def Ins.word (i : Ins) : Nat :=
  i.op % 128 + i.d % 32 * 2 ^ 7 + i.a % 32 * 2 ^ 12 + i.b % 32 * 2 ^ 17 + i.c % 32 * 2 ^ 22 + i.rnd % 8 * 2 ^ 27 +
    i.space % 2 * 2 ^ 30

/-- The checks common to both programs: rounding (R155, R174) and type codes (R154, R181). -/
def Ins.aluOk (i : Ins) (strict : Bool) : Bool :=
  (!rounds i.op || decide (i.rnd ≤ 4 ∧ (strict ∨ i.rnd = 0))) &&
    (i.op != 0x30 || decide (i.b % 8 ≤ 6 ∧ i.c % 8 ≤ 6)) &&
    (!(i.op == 0x31 || i.op == 0x32) || decide (4 ≤ i.c % 8 ∧ i.c % 8 ≤ 6))

/-- The operand fields an arithmetic instruction reads: A, B, C. -/
def reads (op : Nat) : Bool × Bool × Bool :=
  if op = 0x00 then (false, false, false)
  else if op = 0x12 ∨ op = 0x23 ∨ op = opLut then (true, true, true)
  else if [0x01, 0x0E, 0x26, 0x27, 0x29, 0x2C, 0x30].contains op then (true, false, false)
  else (true, true, false)

/-- Whether a tine instruction is well formed (R154, R155). -/
def Ins.tineOk (i : Ins) (strict : Bool) : Bool :=
  (isArith i.op || i.op == opLut) && i.aluOk strict && decide (i.d ≤ 15) && i.space == 0 &&
    (let (ra, rb, rc) := reads i.op
     (!ra || decide (i.a ≤ 29)) && (!rb || decide (i.b ≤ 29)) && (!rc || decide (i.c ≤ 29)))

/-- Whether a lane instruction's opcode and rounding are allowed; the rest is checked when it runs (R153). -/
def Ins.laneOk (i : Ins) (strict : Bool) : Bool := (isArith i.op || isLaneOnly i.op) && i.aluOk strict

/-! ## Program blocks (Table 08-4) -/

/-- A field of a program block's header. -/
def progBase (blk : List Byte) (i : Nat) : Nat := leAt blk (8 * i) 8
def progConst (blk : List Byte) (i : Nat) : Nat := leAt blk (32 + 4 * i) 4
def progN (blk : List Byte) : Nat := leAt blk 48 2
def progNin (blk : List Byte) : Nat := leAt blk 50 1 % 4 + 1
def progNout (blk : List Byte) : Nat := leAt blk 50 1 / 4 % 2 + 1
def progInTy (blk : List Byte) (i : Nat) : Nat := bits (leAt blk 52 2) (4 * i) 3
def progOutTy (blk : List Byte) (j : Nat) : Nat := bits (leAt blk 54 1) (4 * j) 3
def progPitch (blk : List Byte) (i : Nat) : Nat := leAt blk (64 + 4 * i) 4
def progWord (blk : List Byte) (i : Nat) : Nat := leAt blk (128 + 4 * i) 4

/-- Whether a program header obeys R154. -/
def headerOk (x : Sift) (h : List Byte) : Bool :=
  let io := leAt h 50 1
  decide (1 ≤ progN h ∧ progN h ≤ (if x.kind = 2 then 64 else 4096)) &&
    (if x.kind = 2 then decide (io < 8 ∧ progNin h + progNout h ≤ 5) else io == 0) &&
    leAt h 51 1 == 0 && (slice h 55 9).all (· == 0) && (slice h 80 48).all (· == 0) &&
    leAt h 52 2 &&& 0x8888 == 0 && leAt h 54 1 &&& 0x88 == 0 &&
    (x.kind != 2 ||
      ((List.range (progNin h)).all (fun i => decide (progInTy h i ≠ 7)) &&
        (List.range (progNout h)).all (fun j => decide (progOutTy h j ≠ 7)) && (!x.hopper || progInTy h 0 == 0)))

/-- Whether every instruction of a program is well formed; LOOP and SADDI use the bits other instructions reserve. -/
def codeOk (x : Sift) (blk : List Byte) : Bool :=
  (List.range (progN blk)).all (fun k =>
    let w := progWord blk k
    let i := Ins.of w
    if x.kind = 2 then !w.testBit 31 && i.tineOk x.strict
    else (i.op == 0x4B || !w.testBit 31) && i.laneOk x.strict)

/-! ## Chain blocks (Table 08-8a) -/

/-- A stage word's fields. -/
structure Stage where
  kind : Nat
  sub : Nat
  param : Nat
  reserved : Nat
  deriving DecidableEq, Repr

/-- Stage word `i` of a chain block. -/
def stageOf (blk : List Byte) (i : Nat) : Stage :=
  let w := leAt blk (8 * i) 8
  ⟨bits w 0 4, bits w 4 4, bits w 32 32, bits w 8 24⟩

/-- The stages in force: those before the first KIND 0. -/
def stagesOf (blk : List Byte) : List Stage := ((List.range 8).map (stageOf blk)).takeWhile (fun s => s.kind != 0)

/-- The type after a stage whose input has type FP32 (true) or I32 (false); none where the stage is malformed. A PACK gives
`none` as well to any stage after it, through `packed`. -/
def Stage.typed (s : Stage) (fp : Bool) : Option Bool :=
  if s.reserved ≠ 0 then none
  else match s.kind with
  | 1 => if s.sub = 0 ∧ !fp then some true else if s.sub = 1 ∧ fp then some false else none
  | 2 => if s.sub ≤ 1 ∧ fp ∧ (s.sub = 0 ∨ s.param % 4 = 0) then some true else none
  | 3 => if s.sub ≤ 1 ∧ (s.sub = 0 ∨ s.param % 4 = 0) then some fp else none
  | 4 => if s.sub ≤ 3 ∧ fp ∧ (2 ≤ s.sub ∨ s.param % 4 = 0) then some true else none
  | 5 => if s.sub = 0 ∧ s.param % 4 = 0 then some fp else none
  | 6 => if s.sub % 4 ≤ 2 ∧ s.sub < 8 ∧ fp ∧ (s.sub < 4 ∨ s.param % 4 = 0) then some false else none
  | 7 => if s.sub ≤ 1 ∧ s.param % 4 = 0 then some fp else none
  | 8 => if s.sub ≤ 6 ∧ fp = decide (4 ≤ s.sub) then some fp else none
  | _ => none

/-- Whether a list of stages is well typed from an input type, with nothing after a PACK. -/
def chainOk : Bool → List Stage → Bool
  | _, [] => true
  | fp, s :: ss =>
    match s.typed fp with
    | some fp' => (s.kind != 8 || ss.isEmpty) && chainOk fp' ss
    | none => false

/-- The value type a chain ends with, before PACK. -/
def chainFp : Bool → List Stage → Bool
  | fp, [] => fp
  | fp, s :: ss => chainFp ((s.typed fp).getD fp) ss

/-- Bytes of the parameters a stage fetches once. -/
def Stage.once (s : Stage) : Nat :=
  match s.kind, s.sub with
  | 4, 0 => 8 + 257 * 4
  | 4, 1 => 32
  | 5, _ => 8
  | 7, 1 => 32
  | _, _ => 0

/-- The stored type of a chain's output. -/
def chainOutTy (ss : List Stage) : Nat :=
  match ss.find? (fun s => s.kind == 8) with
  | some s => match s.sub with | 0 => tyINT4 | 1 => tyINT8 | 2 => tyINT16 | 3 => tyI32 | 4 => tyFP16 | 5 => tyBF16 | _ => tyFP32
  | none => tyI32

/-- Whether a stage reads array entry n per output line. -/
def Stage.array (s : Stage) : Bool :=
  (s.kind == 2 && s.sub == 1) || (s.kind == 3 && s.sub == 1) || (s.kind == 6 && decide (4 ≤ s.sub))

/-- Flags of one result joined to a running set. -/
def FRes.with (r : FRes) (fl : Nat) : Nat × Nat := (r.val, fl ||| r.flags)

/-- The clamped index of an ACT table as an integer part: ⌊i⌋ of an FP32 pattern in [0, 256], at most 255. -/
def tableIndex (i : Nat) : Nat :=
  match decodeF fp32 i with
  | .fin false m e => min 255 (if 0 ≤ e then m <<< e.toNat else m >>> (-e).toNat)
  | _ => 0

/-- An activation stage on FP32 `x` (DEDUCED: each step rounds, as the sifter's own operations do). -/
def actStage (strict : Bool) (s : Stage) (p : List Byte) (x : Nat) : FRes :=
  let op := fun o a b => alu strict o 0 0 0 0 a b 0
  match s.sub with
  | 2 => op 0x25 x 0
  | 3 =>
    let c := op 0x2A x 0
    if c.val = 1 then let r := op 0x22 x s.param; ⟨r.val, r.flags ||| c.flags⟩ else ⟨x, c.flags⟩
  | 1 =>
    [6, 5, 4, 3, 2, 1, 0].foldl (fun (y : FRes) k =>
      let m := op 0x22 y.val x
      let a := op 0x20 m.val (leAt p (4 * k) 4)
      ⟨a.val, y.flags ||| m.flags ||| a.flags⟩) (⟨leAt p 28 4, 0⟩ : FRes)
  | _ =>
    let t := fun j => leAt p (8 + 4 * j) 4
    let r1 := op 0x21 x (leAt p 0 4)
    let r2 := op 0x22 r1.val (leAt p 4 4)
    let r3 := op 0x25 r2.val 0
    let r4 := op 0x24 r3.val 0x43800000
    let j := tableIndex r4.val
    let jf := (cvt true 0 tyI32 tyFP32 j).val
    let r5 := op 0x21 r4.val jf
    let r6 := op 0x21 (t (j + 1)) (t j)
    let r7 := op 0x22 r5.val r6.val
    let r8 := op 0x20 (t j) r7.val
    ⟨r8.val, r1.flags ||| r2.flags ||| r3.flags ||| r4.flags ||| r5.flags ||| r6.flags ||| r7.flags ||| r8.flags⟩

/-- One stage on a value of type FP32 (`fp`) or I32; `arr` is the array entry of the output line, `keep` the mask's bit. -/
def stageStep (strict fp : Bool) (s : Stage) (p : List Byte) (arr : Nat) (keep : Bool) (x : Nat) : FRes :=
  let op := fun o a b => alu strict o 0 0 0 0 a b 0
  let par := if s.array then arr else s.param
  match s.kind with
  | 1 => if s.sub = 0 then cvt strict 0 tyI32 tyFP32 x else cvt strict 0 tyFP32 tyI32 x
  | 2 => op 0x22 x par
  | 3 => if fp then op 0x20 x par else op 0x0F x par
  | 4 => actStage strict s p x
  | 5 =>
    let lo := leAt p 0 4
    let hi := leAt p 4 4
    let r := op (if fp then 0x25 else 0x0D) x lo
    let q := op (if fp then 0x24 else 0x0C) r.val hi
    ⟨q.val, r.flags ||| q.flags⟩
  | 6 => qnt strict 0 (match s.sub % 4 with | 0 => tyINT4 | 1 => tyINT8 | _ => tyINT16) x par
  | 7 => ⟨if keep then x else 0, 0⟩
  | _ => ⟨x, 0⟩

/-! ## Summaries (R164, R184) -/

/-- An empty summary of a kind. -/
def Summary.empty (kind : Nat) (float : Bool) : Summary := ⟨kind, 0, 0, float, 0, 0, 0, 0⟩

/-- The magnitude pattern of an FP32 value, a subnormal flushed in fast mode. -/
def magF (strict : Bool) (p : Nat) : Nat :=
  let m := p % 2 ^ 31
  if !strict ∧ m < 2 ^ 23 then 0 else m

/-- Whether |x| exceeds THRESH. -/
def overThresh (strict float : Bool) (thresh v : Nat) : Bool :=
  if float then
    match operand strict thresh with
    | .nan _ _ => false
    | t => cmpVals t (decodeF fp32 (magF strict v)) == .lt
  else decide (toSigned 32 thresh < ((toSigned 32 v).natAbs : Int))

/-- A value joins a summary; a non-finite one is only counted. -/
def Summary.add (strict : Bool) (thresh : Nat) (s : Summary) (v : Nat) : Summary :=
  if s.float then
    if fpFinite v then
      let u := fpUnits strict v
      { s with seen := s.seen + 1, finite := s.finite + 1, maxAbs := max s.maxAbs (magF strict v), sum := s.sum + u
               sumSq := s.sumSq + u.natAbs * u.natAbs, above := s.above + b2n (overThresh strict true thresh v) }
    else { s with seen := s.seen + 1 }
  else
    let x := toSigned 32 v
    { s with seen := s.seen + 1, finite := s.finite + 1, maxAbs := max s.maxAbs x.natAbs, sum := s.sum + x
             sumSq := s.sumSq + x.natAbs * x.natAbs, above := s.above + b2n (overThresh strict false thresh v) }

/-- The element count and the 64-bit VALUE a summary reports. -/
def Summary.entry (strict : Bool) (s : Summary) : Nat × Nat :=
  let n := min s.finite maxWord
  match s.kind with
  | 1 => (n, s.maxAbs)
  | 2 => (n, if s.float then sumToF strict 149 s.sum else ofSigned 64 s.sum)
  | 3 => (n, sumToF strict (if s.float then 298 else 0) (s.sumSq : Int))
  | 4 => (min s.seen maxWord, s.seen - s.finite)
  | _ => (n, s.above)

end Sys2Proof.Machine
end

