-- ==== Sys2Proof/Machine/Sifter.lean ====
section
/-! DEFINITION. The sifters at work: lane, tine and chain programs, the Loft, strips, parking, preemption (spec/08
R148-R170). -/
namespace Sys2Proof.Machine

/-! ## Registers of a SIFT -/

/-- The body of a SIFT. -/
def SiftRun.sift (r : SiftRun) : Sift := Sift.of r.bits

/-- Lane `l` of vector register `n`; scalar register `n mod 8`; temporary `n mod 16`. -/
def SiftRun.lane (r : SiftRun) (n l : Nat) : Nat := (r.v.get (fun _ => 0) (n % 32 * 64 + l)).toNat
def SiftRun.scal (r : SiftRun) (n : Nat) : Nat := (r.s.get (fun _ => 0) (n % 8)).toNat
def SiftRun.temp (r : SiftRun) (n : Nat) : Nat := (r.t.get (fun _ => 0) (n % 16)).toNat

/-- The 64 lane numbers. -/
def lanes : List Nat := List.range 64

/-- `r` with vector register `n` holding `f l` in each lane `l`. -/
def SiftRun.setVec (r : SiftRun) (n : Nat) (f : Nat → Nat) : SiftRun :=
  { r with v := lanes.foldl (fun v l => v.set (fun _ => 0) (n % 32 * 64 + l) (BitVec.ofNat 32 (f l))) r.v }

/-- `r` with a scalar register, or a temporary, replaced. -/
def SiftRun.setScal (r : SiftRun) (n x : Nat) : SiftRun := { r with s := r.s.set (fun _ => 0) (n % 8) (BitVec.ofNat 32 x) }
def SiftRun.setTemp (r : SiftRun) (n x : Nat) : SiftRun := { r with t := r.t.set (fun _ => 0) (n % 16) (BitVec.ofNat 32 x) }

/-! ## The Loft (R159, R160) -/

/-- The first byte of the save area: software may use the bytes below it. -/
abbrev loftEnd : Nat := 0x3C000

/-- Loft bytes of sifter `k`. -/
def Dev.loftRead (d : Dev) (k a n : Nat) : List Byte := (List.range n).map (fun i => d.peek (.loft k (a + i)))

/-- `d` with bytes written to the Loft of sifter `k`. -/
def Dev.loftWrite (d : Dev) (k a : Nat) (bs : List Byte) : Dev :=
  (List.range bs.length).foldl (fun d i => d.poke (.loft k (a + i)) (bs.getD i 0)) d

/-- Before the Loft serves stall `n`, what any other owner left is zeroed, also where a reset has cleared VALID; OWNER follows
(R160). -/
def Dev.claimLoft (d : Dev) (k n : Nat) : Dev :=
  let d :=
    if !d.on (R.SFT_LOFT_VALID k) ∨ d.rd (R.SFT_LOFT_OWNER k) ≠ n then
      { d with mem := { d.mem with loft := d.mem.loft.keep (fun a => !(a / 0x40000 == k && decide (a % 0x40000 < loftEnd))) } }
    else d
  (d.wr (R.SFT_LOFT_OWNER k) n).wr (R.SFT_LOFT_VALID k) 1

/-- The sticky flags of sifter `k` gain the flags of a strict operation (R179). -/
def Dev.fpFlags (d : Dev) (k fl : Nat) : Dev := d.wr (R.SFT_FP_FLAGS k) (d.rd (R.SFT_FP_FLAGS k) ||| fl)

/-! ## Lane instructions (R157, R158) -/

/-- The flags of a list of results. -/
def flagsOf (rs : List FRes) : Nat := rs.foldl (fun fl r => fl ||| r.flags) 0

/-- An arithmetic instruction across the lanes. -/
def laneArith (k : Nat) (i : Ins) (r : SiftRun) (d : Dev) : Work SiftRun :=
  let rs := lanes.map (fun l => alu r.sift.strict i.op i.rnd i.b i.c (r.lane i.d l) (r.lane i.a l) (r.lane i.b l) (r.lane i.c l))
  let vals := (rs.map (·.val)).toArray
  .ok (r.setVec i.d (fun l => vals.getD l 0)) ((d.fpFlags k (flagsOf rs)).count r.stall cntElem 64)

/-- Byte address and bit offset of lane `l`'s element of a VLD or VST, from the base of its space. -/
def SiftRun.laneElem (r : SiftRun) (i : Ins) (l : Nat) : Nat × Nat :=
  let base := if i.space = 1 then progBase r.block (i.a % 4) else 0
  elemAt i.rnd (base + r.scal i.b) (l * r.scal i.c)

/-- The byte addresses of a VLD or VST, lane by lane. -/
def SiftRun.laneBytes (r : SiftRun) (i : Ins) : List Nat :=
  lanes.flatMap (fun l => (List.range (elemBytes i.rnd)).map ((r.laneElem i l).1 + ·))

/-- Read the bytes of a lane memory access. -/
def laneRead (k : Nat) (i : Ins) (r : SiftRun) (as : List Nat) (d : Dev) : Work (List Byte) :=
  if i.space = 1 then d.gather r.trough as
  else if as.all (fun a => decide (a < loftEnd)) then
    let d := d.claimLoft k r.stall
    .ok (as.map (fun a => d.peek (.loft k a))) d
  else .fail stDesc d

/-- Write the bytes of a lane memory access. -/
def laneWrite (k : Nat) (i : Ins) (r : SiftRun) (as : List Nat) (bs : List Byte) (d : Dev) : Work Unit :=
  if i.space = 1 then d.scatter r.trough as bs
  else if as.all (fun a => decide (a < loftEnd)) then
    .ok () ((as.zip bs).foldl (fun d p => d.poke (.loft k p.1) p.2) (d.claimLoft k r.stall))
  else .fail stDesc d

/-- VLD: 64 elements of type RND, each widened (R156, R157). -/
def laneVld (k : Nat) (i : Ins) (r : SiftRun) (d : Dev) : Work SiftRun :=
  (Work.check (i.rnd != 7) stDesc d).bind fun _ d =>
  (laneRead k i r (r.laneBytes i) d).bind fun bs d =>
    let es := (cutUp (elemBytes i.rnd) 64 bs).toArray
    .ok (r.setVec i.d (fun l => widen i.rnd (leNat (es.getD l []) >>> (r.laneElem i l).2))) d

/-- Put a narrow value into a byte list: the nibble of an INT4, else the whole element. -/
def packElem (ty v off : Nat) (old : List Byte) : List Byte :=
  if ty = tyINT4 then leBytes 1 (setBits (leNat old) off 4 v) else leBytes (elemBytes ty) v

/-- VST: the low bits of each lane are stored; with stride 0 the last lane wins (R157). -/
def laneVst (k : Nat) (i : Ins) (r : SiftRun) (d : Dev) : Work SiftRun :=
  (Work.check (i.rnd != 7) stDesc d).bind fun _ d =>
    let as := r.laneBytes i
    if i.rnd = tyINT4 then
      (laneRead k i r as d).bind fun bs d =>
        let start := (as.zip bs).foldl (fun (m : NMap Byte) p => m.set zeroByte p.1 p.2) .empty
        let fin := lanes.foldl (fun (m : NMap Byte) l =>
          let e := r.laneElem i l
          m.set zeroByte e.1 (BitVec.ofNat 8 (setBits (m.get zeroByte e.1).toNat e.2 4 (r.lane i.d l)))) start
        (laneWrite k i r as (as.map (fin.get zeroByte)) d).bind fun _ d => .ok r d
    else
      (laneWrite k i r as (lanes.flatMap (fun l => leBytes (elemBytes i.rnd) (r.lane i.d l))) d).bind fun _ d => .ok r d

/-- LFILL and LSPILL move their bytes 256 at a time (R157, R166); the flag tells whether the last have moved. -/
def laneCopy (fill : Bool) (k : Nat) (i : Ins) (r : SiftRun) (d : Dev) : Work (SiftRun × Bool) :=
  let len := r.scal i.c
  let mem := progBase r.block (i.a % 4) + r.scal i.b
  let loft := r.scal i.d
  if len % 64 ≠ 0 ∨ mem % 64 ≠ 0 ∨ loft % 64 ≠ 0 ∨ loftEnd < loft + len then .fail stDesc d
  else
    let n := min 256 (len - r.copied)
    let r' := { r with copied := if r.copied + n < len then r.copied + n else 0 }
    let last := decide (len ≤ r.copied + n)
    let d := d.claimLoft k r.stall
    if fill then
      (d.getBytes r.trough (mem + r.copied) n).bind fun bs d => .ok (r', last) (d.loftWrite k (loft + r.copied) bs)
    else
      (d.putBytes r.trough (mem + r.copied) (d.loftRead k (loft + r.copied) n)).bind fun _ d => .ok (r', last) d

/-- VRED: a reduction of a vector into a scalar (R157, R180). An FP32 sum leaves non-finite lanes out, and in strict mode
raises the flags of its one rounding, and NV for a signaling NaN lane (R179). -/
def laneVred (k : Nat) (i : Ins) (r : SiftRun) (d : Dev) : Work SiftRun :=
  let strict := r.sift.strict
  let xs := lanes.map (r.lane i.a)
  let ints := xs.map (toSigned 32)
  let one := fun (op : Nat) => xs.tail.foldl (fun (y : FRes) x =>
    let z := alu strict op 0 0 0 0 y.val x 0
    ⟨z.val, y.flags ||| z.flags⟩) (⟨xs.headD 0, 0⟩ : FRes)
  let done := fun (x : FRes) => Work.ok (r.setScal i.d x.val) (d.fpFlags k x.flags)
  match i.c with
  | 0 => done (intRes (ints.foldl (· + ·) 0))
  | 1 => done (intRes (ints.tail.foldl max (ints.headD 0)))
  | 2 => done (intRes (ints.tail.foldl min (ints.headD 0)))
  | 3 =>
    let r := exactRes strict 149 ((xs.map (fun x => if fpFinite x then fpUnits strict x else 0)).foldl (· + ·) 0)
    done (FRes.mode strict ⟨r.val, r.flags ||| sigFlags (xs.map (operand strict))⟩)
  | 4 => done (one 0x25)
  | 5 => done (one 0x24)
  | _ => .fail stDesc d

/-- PERM: lane l takes lane (vB[l] mod 64) of vA. -/
def lanePerm (i : Ins) (r : SiftRun) (d : Dev) : Work SiftRun :=
  .ok (r.setVec i.d (fun l => r.lane i.a (r.lane i.b l % 64))) d

/-- SHUF: the patterns of Table 08-7. -/
def laneShuf (i : Ins) (r : SiftRun) (d : Dev) : Work SiftRun :=
  let a := r.lane i.a
  let b := r.lane i.b
  let out := fun f => Work.ok (r.setVec i.d f) d
  match i.c with
  | 0 => out (fun l => if l % 2 = 0 then a (l / 2) else b (l / 2))
  | 1 => out (fun l => if l % 2 = 0 then a (32 + l / 2) else b (32 + l / 2))
  | 2 => out (fun l => if l < 32 then a (2 * l) else b (2 * (l - 32)))
  | 3 => out (fun l => if l < 32 then a (2 * l + 1) else b (2 * (l - 32) + 1))
  | 4 => out (fun l => a (63 - l))
  | 5 => out (fun l => a ((l + i.b) % 64))
  | _ => .fail stDesc d

/-- The 32-bit words of a number, as lanes. -/
def wordLane (v l : Nat) : Nat := bits v (32 * l) 32

/-- PACK: vA then vB narrowed to type C and packed from the low end of vD. -/
def lanePack (i : Ins) (r : SiftRun) (d : Dev) : Work SiftRun :=
  if i.c % 8 = 7 then .fail stDesc d
  else
    let w := tyBits (i.c % 8)
    let xs := lanes.map (r.lane i.a) ++ lanes.map (r.lane i.b)
    let v := xs.foldr (fun x acc => x % 2 ^ w + 2 ^ w * acc) 0
    .ok (r.setVec i.d (wordLane v)) d

/-- UNPACK: 64 elements of type C from element 64 × B of vA, widened; elements past the register are free values. -/
def laneUnpack (i : Ins) (r : SiftRun) (d : Dev) : Work SiftRun :=
  if i.c % 8 = 7 then .fail stDesc d
  else
    let ty := i.c % 8
    let w := tyBits ty
    let v := (lanes.map (r.lane i.a)).foldr (fun x acc => x + 2 ^ 32 * acc) 0
    let past := decide (2048 < (64 * i.b + 64) * w)
    let d' := if past then { d with free := d.free + 64 } else d
    .ok (r.setVec i.d (fun l =>
      if (64 * i.b + l + 1) * w ≤ 2048 then widen ty (v >>> ((64 * i.b + l) * w))
      else low32 (Config.freeValue (d.free + l)).toNat)) d'

/-- SUMM: post summary kind C of vA; a full mailbox holds the instruction (R157, R165). -/
def laneSumm (k : Nat) (i : Ins) (r : SiftRun) (d : Dev) : Work SiftRun :=
  let x := r.sift
  if i.rnd > 1 ∨ i.c = 0 ∨ 5 < i.c then .fail stDesc d
  else if d.mboxFull then .wait
  else
    let s := (lanes.map (r.lane i.a)).foldl (Summary.add x.strict x.thresh) (Summary.empty i.c (i.rnd == 1))
    let e := s.entry x.strict
    .ok r (d.mboxPut (mboxWord i.c k r.stall i.rnd 0 x.sumId) e.1 (e.2 % 2 ^ 32) (e.2 / 2 ^ 32))

/-- The program position after an instruction: an open loop whose last instruction this was goes back while repeats
remain (R158). -/
def SiftRun.advance (r : SiftRun) : Nat → SiftRun
  | 0 => { r with pc := r.pc + 1 }
  | n + 1 =>
    match r.loops with
    | (first, last, left) :: rest =>
      if r.pc < last then { r with pc := r.pc + 1 }
      else if 0 < left then { r with pc := first, loops := (first, last, left - 1) :: rest }
      else SiftRun.advance { r with loops := rest } n
    | [] => { r with pc := r.pc + 1 }

/-- The SIFT has come to its end. -/
def SiftRun.finish (r : SiftRun) : SiftRun := { r with finished := true }

/-- LOOP: repeat the next D + 1 instructions; a third nested loop, or a body that runs past the end, faults (R158). -/
def laneLoop (w : Nat) (r : SiftRun) (d : Dev) : Work SiftRun :=
  let first := r.pc + 1
  let last := r.pc + bits w 7 8 + 1
  if 2 ≤ r.loops.length ∨ progN r.block ≤ last ∨
      (List.range (bits w 7 8 + 1)).any (fun k => (Ins.of (progWord r.block (first + k))).op == opEnd) then .fail stDesc d
  else .ok { r with loops := (first, last, bits w 15 16) :: r.loops, pc := first } d

/-- SADDI: a scalar plus a signed 15-bit value. -/
def laneSaddi (w : Nat) (r : SiftRun) (d : Dev) : Work SiftRun :=
  .ok (r.setScal (bits w 7 3) (ofSigned 32 (toSigned 32 (r.scal (bits w 12 3)) + toSigned 15 (bits w 17 15)))) d

/-- Run one lane instruction given by its word; an LFILL or LSPILL runs 256 bytes of it. -/
def laneRun (k w : Nat) (r : SiftRun) (d : Dev) : Work SiftRun :=
  let i := Ins.of w
  let next := fun (u : Work SiftRun) => u.bind (fun r d => .ok (r.advance 3) d)
  if !i.laneOk r.sift.strict then .fail stDesc d
  else if isArith i.op then next (laneArith k i r d)
  else match i.op with
  | 0x40 => next (laneVld k i r d)
  | 0x41 => next (laneVst k i r d)
  | 0x42 => (laneCopy true k i r d).bind (fun p d => .ok (if p.2 then p.1.advance 3 else p.1) d)
  | 0x43 => (laneCopy false k i r d).bind (fun p d => .ok (if p.2 then p.1.advance 3 else p.1) d)
  | 0x44 => next (laneVred k i r d)
  | 0x45 => next (lanePerm i r d)
  | 0x46 => next (laneShuf i r d)
  | 0x47 => next (lanePack i r d)
  | 0x48 => next (laneUnpack i r d)
  | 0x49 => next (laneSumm k i r d)
  | 0x4A => laneLoop w r d
  | 0x4B => next (laneSaddi w r d)
  | _ => .ok r.finish d

/-! ## Tine programs (R161, R446) -/

/-- An operand of a tine instruction. -/
def tineOperand (blk : List Byte) (ts : List Nat) (sc : Nat → Nat) (idx x : Nat) : Nat :=
  if x < 16 then ts.getD x 0 else if x < 24 then sc (x - 16) else if x < 28 then progConst blk (x - 24)
  else if x = 28 then low32 idx else 0

/-- The byte offset of a LUT; none outside the software part of the Loft (R446). -/
def lutOffset (a b c : Nat) : Option Nat :=
  let i := min (max (toSigned 32 a) 0) (max (toSigned 32 c) 0)
  let off := (toSigned 32 b + i) * 4
  if 0 ≤ off ∧ off ≤ 0x3BFFC then some off.toNat else none

/-- One tine instruction on the temporaries: their new values and the flags; none where a LUT leaves the Loft, which raises
none. -/
def tineIns (strict : Bool) (blk : List Byte) (sc loft : Nat → Nat) (idx : Nat) (i : Ins) (ts : List Nat) :
    Option (List Nat × Nat) :=
  let get := tineOperand blk ts sc idx
  if i.op = opLut then
    match lutOffset (get i.a) (get i.b) (get i.c) with
    | some o => some (ts.set i.d (loft o), 0)
    | none => none
  else
    let r := alu strict i.op i.rnd i.b i.c (get i.d) (get i.a) (get i.b) (get i.c)
    some (ts.set i.d r.val, r.flags)

/-- The whole program for one element: the temporaries after it and the flags; where a LUT leaves the Loft, the flags of
the instructions before it. -/
def tineProg (strict : Bool) (blk : List Byte) (sc loft : Nat → Nat) (idx : Nat) : List Ins → List Nat × Nat →
    Except Nat (List Nat × Nat)
  | [], st => .ok st
  | i :: is, (ts, fl) =>
    match tineIns strict blk sc loft idx i ts with
    | some (ts', f) => tineProg strict blk sc loft idx is (ts', fl ||| f)
    | none => .error fl

/-- How the elements of a granule end, up to the first that faults: the temporaries and flags of each, or the flags of all
that ran (R179). -/
def tineAll : List (Except Nat (List Nat × Nat)) → Except Nat (List (List Nat × Nat))
  | [] => .ok []
  | .error fl :: _ => .error fl
  | .ok st :: rs =>
    match tineAll rs with
    | .ok sts => .ok (st :: sts)
    | .error fl => .error (st.2 ||| fl)

/-- The instructions of a program. -/
def progIns (blk : List Byte) : List Ins := (List.range (progN blk)).map (fun k => Ins.of (progWord blk k))

/-! ## Elements in memory -/

/-- Where element `q` of a SIFT's current piece lies: row m and column n of the result, or the element itself. -/
def SiftRun.place (r : SiftRun) (q : Nat) : Option (Nat × Nat) :=
  match r.strip with
  | some s => if q / 128 < s.rows ∧ q % 128 < s.cols then some (s.rowBase + q / 128, s.colBase + q % 128) else none
  | none => some (0, q)

/-- Byte address and bit offset of element (m, n) at a base with a row pitch. -/
def elemOf (ty base pitch : Nat) (p : Nat × Nat) : Nat × Nat := elemAt ty (base + p.1 * pitch) p.2

/-- The bytes of a list of elements. -/
def elemAddrs (ty : Nat) (es : List (Nat × Nat)) : List Nat :=
  es.flatMap (fun e => (List.range (elemBytes ty)).map (e.1 + ·))

/-- Read a list of elements, each given by its address and bit offset. -/
def Dev.readElems (d : Dev) (t : TroughId) (ty : Nat) (es : List (Nat × Nat)) : Work (List Nat) :=
  (d.gather t (elemAddrs ty es)).bind fun bs d =>
    .ok ((es.zip (cutUp (elemBytes ty) es.length bs)).map (fun p => leNat p.2 >>> p.1.2 % 2 ^ tyBits ty)) d

/-- Write a list of elements; nibbles are merged into their bytes. -/
def Dev.writeElems (d : Dev) (t : TroughId) (ty : Nat) (es : List (Nat × Nat)) (vs : List Nat) : Work Unit :=
  if ty = tyINT4 then
    let as := dedup (es.map (·.1))
    (d.gather t as).bind fun bs d =>
      let start := (as.zip bs).foldl (fun (m : NMap Byte) p => m.set zeroByte p.1 p.2) .empty
      let fin := (es.zip vs).foldl (fun (m : NMap Byte) p =>
        m.set zeroByte p.1.1 (BitVec.ofNat 8 (setBits (m.get zeroByte p.1.1).toNat p.1.2 4 p.2))) start
      d.scatter t as (as.map (fin.get zeroByte))
  else d.scatter t (elemAddrs ty es) (vs.flatMap (leBytes (elemBytes ty)))

/-- The elements of the next granule (R161, R166): 64 in fast mode, 8 in strict. -/
def SiftRun.granule (r : SiftRun) : List Nat :=
  let total := if r.strip.isSome then 2048 else r.sift.nelem
  (List.range (min (if r.sift.strict then 8 else 64) (total - r.elem))).map (r.elem + ·)

/-- The values of one tine input over a granule: the strip's elements, or memory; zero outside the valid ones. -/
def tineInput (r : SiftRun) (qs : List Nat) (i : Nat) (d : Dev) : Work (List Nat) :=
  match r.strip, i with
  | some s, 0 => .ok (qs.map (fun q => ofSigned 32 (s.data.getD q 0))) d
  | _, _ =>
    let ty := progInTy r.block i
    let es := qs.filterMap (fun q => (r.place q).map (elemOf ty (progBase r.block i) (progPitch r.block i)))
    (d.readElems r.trough ty es).bind fun vs d =>
      let m := ((qs.filter (fun q => (r.place q).isSome)).zip vs).foldl (fun (m : NMap Nat) p => m.set (fun _ => 0) p.1 p.2) .empty
      .ok (qs.map (fun q => if (r.place q).isSome then tineIn ty (m.get (fun _ => 0) q) else 0)) d

/-- All the inputs of a granule, input by input. -/
def tineInputs (r : SiftRun) (qs : List Nat) : Nat → Dev → Work (List (List Nat))
  | 0, d => .ok [] d
  | n + 1, d =>
    (tineInputs r qs n d).bind fun xs d => (tineInput r qs n d).bind fun x d => .ok (xs ++ [x]) d

/-- The index of an element within its SIFT: its position, or strip × 2,048 + its position in the strip. -/
def SiftRun.index (r : SiftRun) (q : Nat) : Nat := if r.strip.isSome then (r.strips * 2048 + q) else q

/-- A granule of a tine: every element is run, the valid ones are written and summarised. -/
def tineGranule (k : Nat) (r : SiftRun) (d : Dev) : Work SiftRun :=
  let x := r.sift
  let blk := r.block
  let qs := r.granule
  let ins := progIns blk
  let d := if ins.any (fun i => i.op == opLut) then d.claimLoft k r.stall else d
  (tineInputs r qs (progNin blk) d).bind fun cols d =>
    let loft := fun o => leNat (d.loftRead k o 4)
    let run := fun (j q : Nat) =>
      tineProg x.strict blk r.scal loft (r.index q) ins ((List.range 16).map (fun n => (cols.getD n []).getD j 0), 0)
    match tineAll ((List.range qs.length).map (fun j => run j (qs.getD j 0))) with
    | .error fl => .fail stDesc (d.fpFlags k fl)
    | .ok fin =>
      let nout := progNout blk
      let valid := (List.range qs.length).filter (fun j => (r.place (qs.getD j 0)).isSome)
      let out := fun (n j : Nat) => ((fin.getD j ([], 0)).1.getD (16 - nout + n) 0)
      let narrow := fun (n j : Nat) => tineOut x.strict (progOutTy blk n) (out n j)
      let fl := flagsOf ((List.range nout).flatMap (fun n => (List.range qs.length).map (narrow n))) |||
        fin.foldl (fun fl p => fl ||| p.2) 0
      let put := fun (n base pitch : Nat) (d : Dev) =>
        let ty := progOutTy blk n
        d.writeElems r.trough ty (valid.map (fun j => elemOf ty base pitch ((r.place (qs.getD j 0)).getD (0, 0))))
          (valid.map (fun j => (narrow n j).val))
      (put 0 x.dst x.pitch d).bind fun _ d =>
      (if nout = 2 then put 1 (progBase blk 3) (progPitch blk 3) d else .ok () d).bind fun _ d =>
        let sums := r.sums.map (fun s => valid.foldl (fun (s : Summary) j => s.add x.strict x.thresh (out 0 j)) s)
        .ok { r with sums := sums, elem := r.elem + qs.length } (d.fpFlags k fl)

/-! ## Chains (R162) -/

/-- The entries a stage needs for a list of output lines: array words, or mask bits. -/
def chainArray (r : SiftRun) (s : Stage) (ns : List Nat) (d : Dev) : Work (List Nat) :=
  let base := r.sift.block + s.param
  if s.array then d.readElems r.trough tyI32 (ns.map (elemAt tyI32 base))
  else if s.kind = 7 ∧ s.sub = 0 then
    let as := dedup (ns.map (fun n => base + n / 8))
    (d.gather r.trough as).bind fun bs d =>
      let m := (as.zip bs).foldl (fun (m : NMap Byte) p => m.set zeroByte p.1 p.2) .empty
      .ok (ns.map (fun n => b2n ((m.get zeroByte (base + n / 8)).toNat.testBit (n % 8)))) d
  else .ok (ns.map (fun _ => 0)) d

/-- The chain buffer of the strip in hand: fetched once, with the strip's first granule, for the columns the strip holds
(R162, DEDUCED: the entries a strip needs are those of its COLS columns), and kept over a yield (R166). -/
def chainFetch (r : SiftRun) (ns : List Nat) : List Stage → Dev → Work (List (List Nat))
  | [], d => .ok [] d
  | s :: ss, d =>
    (chainArray r s ns d).bind fun a d => (chainFetch r ns ss d).bind fun as d => .ok (a :: as) d

/-- The stages of a chain on a granule's values, with their flags; each comes with its parameters and its buffered entries. -/
def chainRun (r : SiftRun) (qs : List Nat) : List (Stage × List Byte × List Nat) → Bool → List Nat × Nat → List Nat × Nat
  | [], _, st => st
  | (s, p, arr) :: ss, fp, (vs, fl) =>
    let strip := r.strip.getD ⟨0, none, 0, 0, 0, 0, 0, [], 0⟩
    let keep := fun q =>
      if s.sub = 0 then arr.getD (q % 128) 0 != 0
      else kept p (maskIndex p (strip.rowBase + q / 128) (strip.colBase + q % 128))
    let rs := (qs.zip vs).map (fun e => stageStep r.sift.strict fp s p (arr.getD (e.1 % 128) 0) (keep e.1) e.2)
    chainRun r qs ss ((s.typed fp).getD fp) (rs.map (·.val), fl ||| flagsOf rs)

/-- A granule of a chain. -/
def chainGranule (k : Nat) (r : SiftRun) (d : Dev) : Work SiftRun :=
  let x := r.sift
  let qs := r.granule
  let stages := stagesOf r.block
  let strip := r.strip.getD ⟨0, none, 0, 0, 0, 0, 0, [], 0⟩
  let ns := (List.range strip.cols).map (strip.colBase + ·)
  let vals := qs.map (fun q => ofSigned 32 (strip.data.getD q 0))
  (match r.chain with
    | some c => Work.ok c d
    | none => chainFetch r ns stages d).bind fun c d =>
    let st := chainRun r qs (stages.zip (r.params.zip c)) false (vals, 0)
    let ty := chainOutTy stages
    let packed := stages.any (fun s => s.kind == 8)
    let outs := st.1.map (fun v =>
      if packed then cvt x.strict 0 (if chainFp false stages then tyFP32 else tyI32) ty v else (⟨v, 0⟩ : FRes))
    let valid := (List.range qs.length).filter (fun j => (r.place (qs.getD j 0)).isSome)
    (d.writeElems r.trough ty (valid.map (fun j => elemOf ty x.dst x.pitch ((r.place (qs.getD j 0)).getD (0, 0))))
      (valid.map (fun j => (outs.getD j ⟨0, 0⟩).val))).bind fun _ d =>
      let sums := r.sums.map (fun s => valid.foldl (fun (s : Summary) j => s.add x.strict x.thresh (st.1.getD j 0)) s)
      .ok { r with sums := sums, elem := r.elem + qs.length, chain := some c } (d.fpFlags k (st.2 ||| flagsOf outs))

/-! ## Running a SIFT -/

/-- One step of the SIFT on a sifter: an instruction of a lane program, or a granule; true while more may follow. -/
def siftStep (k : Nat) (d : Dev) : Work Bool :=
  match (d.sifter k).cur with
  | none => .wait
  | some r =>
    let x := r.sift
    let keep := fun (r : SiftRun) (d : Dev) => d.setSifter k { d.sifter k with cur := some r }
    if r.finished then .wait
    else match x.kind with
    | 0 =>
      if progN r.block ≤ r.pc then .ok false (keep r.finish d)
      else (laneRun k (progWord r.block r.pc) r d).bind fun r' d => .ok (!r'.finished) ((keep r' d).progress r.stall)
    | _ =>
      if x.hopper ∧ r.strip.isNone then .wait
      else
        (if x.kind = 2 then tineGranule k r d else chainGranule k r d).bind fun r' d =>
          let d := if x.hopper then d else d.count r.stall cntElem (r'.elem - r.elem)
          let r' :=
            if x.hopper then
              if 2048 ≤ r'.elem then
                { r' with strip := none, chain := none, elem := 0, strips := r'.strips + 1
                          finished := decide (x.nstrip ≤ r'.strips + 1) }
              else r'
            else { r' with finished := decide (x.nelem ≤ r'.elem) }
          .ok (!r'.finished) ((keep r' d).progress r.stall)

/-- A finished SIFT leaves its sifter and waits to retire; its descriptor's work is done. -/
def Dev.siftEnd (d : Dev) (k : Nat) : Dev :=
  match (d.sifter k).cur with
  | some r =>
    if r.finished then
      let s := d.sifter k
      let d := d.setSifter k { s with cur := none, ended := s.ended ++ [r] }
      match d.findDesc r.trough r.pos with
      | some y => d.updDesc { y with phase := .done }
      | none => d
    else d
  | none => d

/-- Read and check the program or chain block of a SIFT (R153, R154, R162): the block and the parameters fetched once. -/
def loadBlock (t : TroughId) (x : Sift) (d : Dev) : Work (List Byte × List (List Byte)) :=
  if x.kind = 1 then
    (d.getBytes t x.block 64).bind fun blk d =>
    (Work.check (chainOk false (stagesOf blk)) stDesc d).bind fun _ d =>
      let rec fetch : List Stage → Dev → Work (List (List Byte))
        | [], d => .ok [] d
        | s :: ss, d =>
          (if s.once = 0 then .ok [] d else d.getBytes t (x.block + s.param) s.once).bind fun p d =>
          (Work.check (!(s.kind == 7 && s.sub == 1) || leAt p 28 4 == 0) stDesc d).bind fun _ d =>
          (fetch ss d).bind fun ps d => .ok (p :: ps) d
      (fetch (stagesOf blk) d).bind fun ps d => .ok (blk, ps) d
  else
    (d.getBytes t x.block 128).bind fun h d =>
    (Work.check (headerOk x h) stDesc d).bind fun _ d =>
    (d.getBytes t x.block (128 + 4 * progN h)).bind fun blk d =>
    (Work.check (codeOk x blk) stDesc d).bind fun _ d => .ok (blk, []) d

/-- Bytes of `n` packed elements of a type. -/
def spanBytes (ty n : Nat) : Nat := ceilDiv (n * tyBits ty) 8

/-- Whether a memory-fed tine's inputs and outputs lie where its trough may go (R153). -/
def Dev.tineSpans (d : Dev) (t : TroughId) (x : Sift) (blk : List Byte) : Bool :=
  (List.range (progNin blk)).all (fun i => d.mayUse t (progBase blk i) (spanBytes (progInTy blk i) x.nelem)) &&
    d.mayUse t x.dst (spanBytes (progOutTy blk 0) x.nelem) &&
    (progNout blk == 1 || d.mayUse t (progBase blk 3) (spanBytes (progOutTy blk 1) x.nelem))

/-- The summaries a SIFT gathers, in kind order. -/
def Sift.sums (x : Sift) (float : Bool) : List Summary :=
  let ks := (if x.skind0 ≤ x.skind1 then [x.skind0, x.skind1] else [x.skind1, x.skind0]).filter (· != 0)
  ks.map (fun k => Summary.empty k float)

/-- The run a SIFT begins as. -/
def Desc.siftRun (y : Desc) (stall : Nat) (blk : List Byte) (ps : List (List Byte)) : SiftRun :=
  let x := Sift.of y.bits
  let float := if x.kind = 1 then chainFp false (stagesOf blk) else tyFloat (progOutTy blk 0)
  { trough := y.trough, pos := y.pos, order := y.order, bits := y.bits, stall := stall, block := blk, params := ps
    v := .empty, s := .empty, t := .empty, pc := 0, loops := [], copied := 0, strips := 0, strip := none, elem := 0
    chain := none, sums := x.sums float, finished := false }

/-- Whether a strip is one that a SIFT of trough `t` with SRC_TAG `tag` takes (R148): its own stream's, or its own stall's. -/
def stripFor (t : TroughId) (tag : Nat) (s : Strip) : Bool :=
  s.tag == tag && (match t with
    | .realtime n _ => s.rt.map (·.1) == some n
    | .batch n _ => s.rt.isNone && s.stall == n)

/-- Where the first strip a Hopper-fed SIFT takes stands in its queue: past the end where there is none. -/
def Desc.arrival (y : Desc) (q : List Strip) : Nat :=
  (q.findIdx? (stripFor y.trough (Sift.of y.bits).srcTag)).getD q.length

/-- Whether the started SIFT `z` goes before `y`, of the same class of work, on the sifter with realtime queue `q`: batch
SIFTs go in start order (R151); realtime strips are served in order of arrival (R53), a SIFT without strips in start order
(DEDUCED). -/
def Desc.siftBefore (z y : Desc) (q : List Strip) : Bool :=
  let fed := fun (u : Desc) => (Sift.of u.bits).hopper
  if y.trough.rt.isSome && fed y && fed z then
    decide (z.arrival q < y.arrival q) || (z.arrival q == y.arrival q && decide (z.order < y.order))
  else decide (z.order < y.order)

/-- Whether a SIFT may begin on its sifter now: it is free, and no SIFT of its class goes before it; and for a batch SIFT, no
realtime work presses, batch work is not paused, nothing is saved or retiring, and no parked SIFT that is older can go on
or stands in the same trough (R93, R151, R163, R167). -/
def Dev.siftMayBegin (d : Dev) (y : Desc) (k : Nat) : Bool :=
  let s := d.sifter k
  let rt := y.trough.rt.isSome
  let earlier := d.tn.live.any (fun z => z.opcode == 2 && z.fld 130 2 == k && decide (z.phase = .started) &&
    z.trough.rt.isSome == rt && z.siftBefore y (d.hopper k).rt)
  let older := s.parked.any (fun r => decide (r.order < y.order) &&
    (r.trough == y.trough || (d.hopper k).batch.any (stripFor r.trough r.sift.srcTag)))
  d.coreOn && d.domOn (16 + k) && s.cur.isNone && !earlier &&
    (rt || (!d.rtPressing k && !d.paused && s.saved.isNone && s.ended.isEmpty && !older))

/-- Whether the SIFT on a sifter may advance now: a batch one neither while realtime work presses nor while batch work is
paused (R167). -/
def Dev.siftRuns (d : Dev) (k : Nat) (r : SiftRun) : Bool := d.coreOn && (r.rt || (!d.rtPressing k && !d.paused))

/-- SIFT: it loads its block and begins on its sifter, or runs up to `fuel` further steps (R153). -/
def sift (t : TroughId) (pos fuel : Nat) (d : Dev) : Dev :=
  match d.findDesc t pos with
  | none => d
  | some y =>
    let x := Sift.of y.bits
    let k := x.sifter
    if y.opcode ≠ 2 then d
    else if y.phase = .started then
      if !d.siftMayBegin y k then d
      else
        ((loadBlock t x d).bind fun p d =>
          (Work.check (x.kind != 2 || x.hopper || d.tineSpans t x p.1) stQuota d).bind fun _ d =>
            .ok () ((d.setSifter k { d.sifter k with cur := some (y.siftRun (d.stallOf t) p.1 p.2) }).updDesc
              { y with phase := .working })).close d t pos
    else
      match (d.sifter k).cur with
      | some r =>
        if r.trough = t ∧ r.pos = pos ∧ d.siftRuns k r then
          ((Dev.steps (siftStep k) fuel d).bind fun _ d => .ok () (d.siftEnd k)).close d t pos
        else d
      | none => d

/-- One instruction given to sifter `k` by its word: its current SIFT runs it as its next instruction, a lane SIFT on its
vectors, a tine on its temporaries (Tables 08-6 and 08-7). -/
def sifterIns (k w : Nat) (d : Dev) : Dev :=
  match (d.sifter k).cur with
  | none => d
  | some r =>
    let x := r.sift
    let keep := fun (r : SiftRun) (d : Dev) => (d.setSifter k { d.sifter k with cur := some r }).siftEnd k
    if r.finished ∨ !d.siftRuns k r then d
    else match x.kind with
    | 0 => ((laneRun k w r d).bind fun r' d => .ok () (keep r' d)).close d r.trough r.pos
    | 2 =>
      let i := Ins.of w
      let d1 := if i.op = opLut then d.claimLoft k r.stall else d
      if !i.tineOk x.strict then (Work.fail stDesc d).close d r.trough r.pos
      else match tineIns x.strict r.block r.scal (fun o => leNat (d1.loftRead k o 4)) r.elem i
          ((List.range 16).map r.temp) with
        | some (ts, fl) => keep ((List.range 16).foldl (fun r n => r.setTemp n (ts.getD n 0)) r) (d1.fpFlags k fl)
        | none => (Work.fail stDesc d1).close d r.trough r.pos
    | _ => d

/-! ## Strips, parking, preemption (R148, R163, R166, R167) -/

/-- Whether a strip is one a SIFT takes (R148). -/
def SiftRun.takes (r : SiftRun) (s : Strip) : Bool := stripFor r.trough r.sift.srcTag s

/-- The queue a SIFT takes its strips from. -/
def SiftRun.queue (r : SiftRun) (h : Hopper) : List Strip := if r.rt then h.rt else h.batch

/-- A list without its first element that satisfies `p`. -/
def dropFirst {α : Type} (p : α → Bool) : List α → List α
  | [] => []
  | a :: as => if p a then as else a :: dropFirst p as

/-- STRIP_TAKE: the SIFT on sifter `k` takes its oldest matching strip, whose slot and credit are freed; a batch SIFT that
finds none parks while a park context is free (R148, R163). -/
def stripTake (k : Nat) (d : Dev) : Dev :=
  match (d.sifter k).cur with
  | none => d
  | some r =>
    if !r.sift.hopper ∨ r.strip.isSome ∨ r.finished ∨ !d.siftRuns k r then d
    else
      let h := d.hopper k
      match (r.queue h).find? r.takes with
      | some s =>
        let h' := if r.rt then { h with rt := dropFirst r.takes h.rt } else { h with batch := dropFirst r.takes h.batch }
        let d := ((d.setHopper k h').giveCredits k 1).addTo (R.HOP_STRIPS_OUT k) 1
        let d := (d.count r.stall cntElem 2048).progress r.stall
        d.setSifter k { d.sifter k with cur := some { r with strip := some s, chain := none, elem := 0 } }
      | none =>
        let x := d.sifter k
        if r.rt ∨ 8 ≤ x.parked.length then d
        else d.setSifter k { x with cur := none, parked := x.parked ++ [r] }

/-- SIFT_UNPARK: the oldest parked SIFT whose strip is present continues once the sifter is free (R163). -/
def siftUnpark (k : Nat) (d : Dev) : Dev :=
  let x := d.sifter k
  if x.cur.isSome ∨ x.saved.isSome ∨ d.rtPressing k ∨ d.paused ∨ !d.coreOn then d
  else
    let ready := x.parked.filter (fun r => (d.hopper k).batch.any r.takes)
    match ready.find? (fun r => ready.all (fun q => decide (r.order ≤ q.order))) with
    | some r => d.setSifter k { x with cur := some r, parked := x.parked.filter (fun q => q != r) }
    | none => d

/-- SIFTER_YIELD: at a granule boundary the batch SIFT's state goes to the save area, because realtime work presses or batch
work is paused; `latency` is at most 256 advancing cycles (R166, R167). -/
def sifterYield (k latency : Nat) (d : Dev) : Dev :=
  let x := d.sifter k
  match x.cur with
  | some r =>
    if r.rt ∨ r.finished ∨ x.saved.isSome ∨ !(d.rtPressing k ∨ d.paused) ∨ 256 < latency ∨ !d.coreOn then d
    else (d.wr (R.SFT_YIELD_LAT_MAX_CYC k) (max latency (d.rd (R.SFT_YIELD_LAT_MAX_CYC k)))).setSifter k
      { x with cur := none, saved := some r }
  | none => d

/-- SIFTER_RESUME: with no realtime work left and no pause, the saved SIFT continues (R167). -/
def sifterResume (k : Nat) (d : Dev) : Dev :=
  let x := d.sifter k
  match x.saved with
  | some r =>
    if x.cur.isSome ∨ d.rtPressing k ∨ d.paused ∨ !d.coreOn then d
    else d.setSifter k { x with cur := some r, saved := none }
  | none => d

/-- Post the summaries of a finished SIFT (R165): a batch one waits for room for all of them; false while it waits. -/
def Dev.postSums (d : Dev) (r : SiftRun) : Option Dev :=
  let x := r.sift
  let put := fun (lose : Bool) (d : Dev) (s : Summary) =>
    let e := s.entry x.strict
    let w := mboxWord s.kind x.sifter r.stall (b2n s.float) (b2n r.rt) x.sumId
    if lose then d.mboxPostOrLose w e.1 (e.2 % 2 ^ 32) (e.2 / 2 ^ 32) else d.mboxPut w e.1 (e.2 % 2 ^ 32) (e.2 / 2 ^ 32)
  if r.rt then some (r.sums.foldl (put true) d)
  else if d.mboxUsed + r.sums.length ≤ 64 then some (r.sums.foldl (put false) d)
  else none

/-- The entries the Steward consumes from TAIL up to `v` are noted for step closes (R165, spec/10 R194). -/
def Dev.drainTo (d : Dev) (v : Nat) : Dev :=
  let tail := d.rd R.SFT_MBOX_TAIL
  let n := (v + 2 ^ 32 - tail) % 2 ^ 32
  let es := (List.range n).map (fun i =>
    let e := (tail + i) % 64 * 4
    ((tail + i) % 2 ^ 32, [d.rd (R.SFT_MBOX e), d.rd (R.SFT_MBOX (e + 1)), d.rd (R.SFT_MBOX (e + 2)), d.rd (R.SFT_MBOX (e + 3))]))
  ({ d with wn := { d.wn with drained := d.wn.drained ++ es } }).wr R.SFT_MBOX_TAIL v

/-- A write of MBOX_TAIL: entries up to `v` are consumed; a value outside TAIL to HEAD is ignored and counted (R171). -/
def Dev.mboxTail (d : Dev) (q : Req) (v : Nat) : Dev :=
  if (v + 2 ^ 32 - d.rd R.SFT_MBOX_TAIL) % 2 ^ 32 ≤ d.mboxUsed then d.drainTo v
  else d.perr A.SFT_MBOX_TAIL q causeValue

/-- A write of HOP.CFG: RT_RESERVE takes effect unless it exceeds 64 or falls below `need` (R150). -/
def Dev.hopCfg (d : Dev) (q : Req) (h v need : Nat) : Dev :=
  if 64 < bits v 0 7 ∨ bits v 0 7 < need then d.perr (A.HOP_CFG h) q causeValue else d.storeWord (A.HOP_CFG h) v

end Sys2Proof.Machine
end

