-- ==== Sys2Proof/Machine/Promote.lean ====
section
/-! DEFINITION. Binding a stream, its blocks from boundary to select, and promotions (spec/03 R47-R60, spec/11). -/
namespace Sys2Proof.Machine

/-! ## What a realtime trough may hold (R19, R81, R131, R168, R169) -/

/-- The descriptors of a trough of `len` at physical Silo address `base`, as the Steward reads them. -/
def Dev.troughDescs (d : Dev) (base : Nat) : Nat → List DescWord × Dev
  | 0 => ([], d)
  | k + 1 =>
    let (bs, _, d) := d.siloRead base 64
    let (xs, d) := d.troughDescs (base + 64) k
    (BitVec.ofNat 512 (leNat bs) :: xs, d)

/-- Whether an address can name neither Cellar nor Granary nor host memory. -/
def inSiloMap (a : Nat) : Bool := decide (a < aliasEnd)

/-- The trough's TILE whose strips carry a tag. -/
def tileOfTag (xs : List DescWord) (tag : Nat) : Option Tile :=
  (xs.find? (fun b => bits b.toNat 0 8 == 1 && bits b.toNat 16 16 == tag)).map Tile.of

/-- What becomes of a read of `len` bytes of a realtime block at `a` in stall `n`'s map: none where they lie outside Silo
(R19, R168) or cannot be read. -/
def Dev.blockRead (d : Dev) (n a len : Nat) : Option (List Byte) :=
  if siloBytes < a + len then none
  else match d.pathRead n none a len with
    | .data bs _ _ => some bs
    | _ => none

/-- Whether such a read has to wait for its granules. -/
def Dev.blockWaits (d : Dev) (n a len : Nat) : Bool :=
  decide (a + len ≤ siloBytes) && (match d.pathRead n none a len with | .wait => true | _ => false)

/-- Whether the parameters of a chain block at `a` lie in Silo, for result rows of `lines` output lines (R162). -/
def chainPlaced (a lines : Nat) (blk : List Byte) : Bool :=
  (stagesOf blk).all (fun s =>
    let len := if s.array then 4 * lines else if s.kind = 7 ∧ s.sub = 0 then ceilDiv lines 8 else s.once
    len == 0 || decide (a + s.param + len ≤ siloBytes))

/-- Whether a tine program of header `h` and code `blk` keeps R19 and R168: no LUT, no place outside the Silo map. -/
def tinePlaced (x : Sift) (h blk : List Byte) : Bool :=
  let ins := if x.hopper then (List.range (progNin h)).drop 1 else List.range (progNin h)
  (List.range (min 64 (progN h))).all (fun i => (Ins.of (progWord blk i)).op != opLut) &&
    ins.all (fun i => inSiloMap (progBase h i)) && (progNout h == 1 || inSiloMap (progBase h 3))

/-- Whether a realtime SIFT keeps R168 and R19; its block, code and parameters lie in Silo and are read in stall `n`'s map. -/
def Dev.rtSiftOk (d : Dev) (n : Nat) (xs : List DescWord) (b : DescWord) : Bool :=
  let x := Sift.of b
  let src := tileOfTag xs x.srcTag
  decide (x.kind ≠ 0) && inSiloMap x.dst && (!x.hopper || src.map (·.hop) == some x.sifter) &&
    (if x.kind = 1 then
      match d.blockRead n x.block 64 with
      | some blk => chainPlaced x.block ((src.map (·.n)).getD 0) blk
      | none => false
    else
      match d.blockRead n x.block 128 with
      | some h => match d.blockRead n x.block (128 + 4 * min 64 (progN h)) with
        | some blk => tinePlaced x h blk
        | none => false
      | none => false)

/-- Whether the check of a trough has to wait for a SIFT's block, whose granules are not ready (spec/12 R222, R223). -/
def Dev.siftWaits (d : Dev) (n : Nat) (b : DescWord) : Bool :=
  let x := Sift.of b
  bits b.toNat 0 8 == 2 && decide (x.kind ≠ 0) &&
    (if x.kind = 1 then d.blockWaits n x.block 64
    else d.blockWaits n x.block 128 || (match d.blockRead n x.block 128 with
      | some h => d.blockWaits n x.block (128 + 4 * min 64 (progN h))
      | none => false))

/-- Whether a descriptor may stand in a realtime trough whose bays are `bays`. -/
def Dev.rtDescOk (d : Dev) (n bays : Nat) (xs : List DescWord) (b : DescWord) : Bool :=
  let v := b.toNat
  !v.testBit 8 && !v.testBit 10 && !v.testBit 11 && !v.testBit 12 &&
    (match bits v 0 8 with
      | 0 => true
      | 1 =>
        let x := Tile.of b
        !x.any && (gangBays x.shape x.leader).all (fun k => bays.testBit k) && gangOk x.shape x.leader &&
          inSiloMap x.aBase && inSiloMap x.wBase && inSiloMap x.saveBase
      | 2 => d.rtSiftOk n xs b
      | 3 => let x := Move.of b; inSiloMap x.dst && (x.kind == 2 || inSiloMap x.src)
      | _ => false)

/-- Strips a TILE emits (R115, R136). -/
def Tile.stripCount (x : Tile) : Nat :=
  ((List.range x.mf).map (fun m => ceilDiv (x.rows m) 16)).foldl (· + ·) 0 * ceilDiv x.n 128

/-- The largest strip count of any one TILE of a trough that feeds Hopper `h`. -/
def largestTile (h : Nat) (xs : List DescWord) : Nat :=
  (xs.map (fun b => let x := Tile.of b; if bits b.toNat 0 8 = 1 ∧ x.hop = h then x.stripCount else 0)).foldl max 0

/-- Strips that the live trough of stream `s` may hold in Hopper `h` (R169). -/
def Dev.liveNeed (d : Dev) (s h : Nat) : Nat :=
  largestTile h (d.troughDescs (64 * d.rd (R.SEQ_STRM_TRG_BASE s)) (d.rd (R.SEQ_STRM_TRG_LEN s))).1

/-- Strips that the realtime troughs of stream `s` may hold in Hopper `h`: its live trough, and the standby trough of a
promotion in progress (R169, R205). -/
def Dev.stripNeed (d : Dev) (s h : Nat) : Nat :=
  d.liveNeed s h + (match (d.stream s).promo with
    | some p => largestTile h (d.troughDescs (64 * p.trgBase) p.trgLen).1
    | none => 0)

/-- Whether every Hopper's reserve covers the enabled streams and a trough `xs` of stream `s`: of `s` itself its live trough
alone counts beside `xs` (R169, R205 check 6). -/
def Dev.hoppersHold (d : Dev) (s : Nat) (xs : List DescWord) : Bool :=
  fourUnits.all (fun h =>
    decide (((streams.filter (fun m => d.on (R.SEQ_STRM_CFG_EN m))).map
      (fun m => if m = s then d.liveNeed m h else d.stripNeed m h)).foldl (· + ·) (largestTile h xs)
      ≤ d.rd (R.HOP_CFG_RT_RESERVE h)))

/-! ## Binding (R47, R48) -/

/-- Whether the ports, slots and rate of stream `s` may be bound (R47). The output slots of a stream that was disabled count as
bound until its last block has played (DESIGN CHOICE: the rule names enabled streams only). -/
def Dev.bindPorts (d : Dev) (s : Nat) : Bool :=
  let i := d.inPort s
  let o := d.outPort s
  let rate := d.rd (R.AUD_PORT_CTL_RATE i)
  let outs := d.rd (R.SEQ_STRM_SLOTS_OUT_MASK s)
  let fast := fun m => decide (4 ≤ d.rd (R.AUD_PORT_CTL_RATE (d.inPort m)))
  rate == d.rd (R.AUD_PORT_CTL_RATE o) &&
    (d.playersOf o).all (fun m => m == s || (d.rd (R.SEQ_STRM_SLOTS_OUT_MASK m) &&& outs) == 0) &&
    (decide (rate < 4) ||
      decide ((streams.filter (fun m => m != s && d.on (R.SEQ_STRM_CFG_EN m) && fast m)).length < 16))

/-- Whether the bays of stream `s` may be pinned: no other stream's, disjoint, and idle (R20, R47). -/
def Dev.bindBays (d : Dev) (s : Nat) : Bool :=
  let live := d.rd (R.SEQ_STRM_BAYS_PINNED s)
  let spare := d.rd (R.SEQ_STRM_BAYS_STANDBY s)
  (live &&& spare) == 0 &&
    (maskList 16 (live ||| spare)).all (fun b => !d.on (R.THR_GANG_PINNED b) && d.bayIdle b)

/-- Whether the trough and the rings of stream `s` lie in Silo. -/
def Dev.bindPlaces (d : Dev) (s : Nat) : Bool :=
  let len := d.rd (R.SEQ_STRM_TRG_LEN s)
  decide (1 ≤ len) && decide (64 * (d.rd (R.SEQ_STRM_TRG_BASE s) + len) ≤ siloBytes) &&
    decide (64 * d.rd (R.SEQ_STRM_IN_BASE s) + 4 * up64 (d.inBytes s) ≤ siloBytes) &&
    decide (64 * d.rd (R.SEQ_STRM_OUT_BASE s) + 3 * up64 (d.outBytes s) ≤ siloBytes) &&
    decide (64 * d.rd (R.SEQ_STRM_STATE_BASE s) + 2 * d.stateBytes s ≤ siloBytes)

/-- The Steward's check of a binding of stream `s` for stall `n`: it passes, it is refused with a status, or it waits for the
trough's granules (spec/12 R223). A stream that was disabled cannot be bound again until its last block has played
(DESIGN CHOICE). -/
def Dev.bindCheck (d : Dev) (n s : Nat) : Work Unit :=
  let base := 64 * d.rd (R.SEQ_STRM_TRG_BASE s)
  let len := d.rd (R.SEQ_STRM_TRG_LEN s)
  if d.limp || d.rd R.PWR_STAT_STATE == 2 then .fail stDisabled d
  else if n ≠ 0 ∧ !(d.rd (R.STL_Q_STREAMS_MASK n)).testBit s then .fail stQuota d
  else if d.streamLives s || !d.bindPorts s || !d.bindBays s || !d.bindPlaces s then .fail stDesc d
  else if !d.siloReadyRun base (64 * len) then .wait
  else
    let (xs, d) := d.troughDescs base len
    if xs.any (d.siftWaits n) then .wait
    else if !xs.all (d.rtDescOk n (d.rd (R.SEQ_STRM_BAYS_PINNED s)) xs) then .fail stDesc d
    else if !d.hoppersHold s xs then .fail stDesc d
    else .ok () d

/-- Stream `s` is enabled: its bays are pinned and its blocks number on from STRM_BLOCK. -/
def Dev.startStream (d : Dev) (s : Nat) : Dev :=
  let d := (d.wr (R.SEQ_STRM_CFG_EN s) 1).wr (R.SEQ_STRM_STAT_SILENT s) 0
  let k := d.rd (R.SEQ_STRM_BLOCK s) + 1
  (d.setStream s { Stream.idle with block := k, first := k, det := (d.stream s).det }).pinBays s

/-- STREAM_BIND: the Steward checks a binding that stall `n` asks for and sets EN, or refuses it and tells the stall; while
the check waits, nothing has happened. -/
def streamBind (n s : Nat) (d : Dev) : Dev :=
  if d.sy.mode = .inReset then d
  else match d.bindCheck n s with
  | .ok () d => d.startStream s
  | .fail st d => d.wr (R.STL_LAST_STATUS n) st
  | .wait => d

/-! ## Promotions: ending one (R211-R214) -/

/-- `d` with the promotion of stream `s` replaced. -/
def Dev.setPromo (d : Dev) (s : Nat) (p : Option Promo) : Dev := d.setStream s { d.stream s with promo := p }

/-- The event of a SWAP whose promotion has ended, and its descriptor is done (R213). -/
def Dev.swapDone (d : Dev) (t : TroughId) (pos s status block : Nat) : Dev :=
  let d := d.event (d.stallOf t) status kindStream s block
  match d.findDesc t pos with
  | some y => d.updDesc { y with phase := .done }
  | none => d

/-- Write the bytes of a SWAP's result record at `result`, then its event (R213): outside the job's areas they fault it
with QUOTA (R80, R225), and where the place is not ready they wait (none; spec/12 R223). -/
def Dev.swapWrite (d : Dev) (t : TroughId) (pos s result status block : Nat) (bs : List Byte) : Option Dev :=
  if result = 0 then some (d.swapDone t pos s status block)
  else if !d.mayUse t result bs.length then some (d.failDesc t pos stQuota)
  else match d.pathWrite (d.stallOf t) none result bs with
    | .done _ d => some (d.swapDone t pos s status block)
    | .wait => none
    | .quota => some (d.failDesc t pos stQuota)

/-- Write the result record and the event of a SWAP, or owe them (R213). -/
def Dev.swapRecord (d : Dev) (t : TroughId) (pos s result status outcome p block stc : Nat) : Dev :=
  let bs := leBytes 2 status ++ leBytes 1 outcome ++ leBytes 1 p ++ leBytes 4 block ++ leBytes 8 stc
  (d.swapWrite t pos s result status block bs).getD (d.owe (.swap t pos s result status block bs))

/-- The outcome of a promotion shows in its context and raises ZC_EVENT (R215). -/
def Dev.showOutcome (d : Dev) (s outcome : Nat) (good : Bool) : Dev :=
  let d := d.wr (R.SEQ_PROMO_STAT_OUTCOME s) outcome
  (d.bump (if good then R.SEQ_PROMO_COUNT_COMMITS s else R.SEQ_PROMO_COUNT_ABANDONS s)).irq .seq 0 seqZc

/-- The promotion of stream `s` is abandoned: the standby trough stops, a detector it armed is disarmed; `told` is whether
its records are written (R212, R214). -/
def Dev.abandon (d : Dev) (s outcome status : Nat) (told : Bool := true) : Dev :=
  match (d.stream s).promo with
  | none => d
  | some p =>
    let d := if d.watching s then d.setDet s none else d
    let d := if (d.stream s).standby.isSome then d.failRealtime s true else d
    let d := ((d.setPromo s none).wr (R.SEQ_PROMO_STAT_STATE s) 0).showOutcome s outcome false
    if told then d.swapRecord p.trough p.pos s p.result status outcome 0 p.fadeBlock p.fadeStc else d

/-- Commit the promotion of stream `s` (R211). -/
def Dev.commit (d : Dev) (s outcome pos block stc : Nat) : Dev :=
  match (d.stream s).promo with
  | none => d
  | some p =>
    let live := d.rd (R.SEQ_STRM_BAYS_PINNED s)
    let spare := d.rd (R.SEQ_STRM_BAYS_STANDBY s)
    let d := (d.wr (R.SEQ_STRM_TRG_BASE s) p.trgBase).wr (R.SEQ_STRM_TRG_LEN s) p.trgLen
    let d := (d.wr (R.SEQ_STRM_OUT_BASE s) p.outBase).wr (R.SEQ_STRM_STATE_BASE s) p.stateBase
    let d := d.wr (R.SEQ_STRM_STATE_LEN s) (p.stateLen / 64)
    let d := ((d.wr (R.SEQ_STRM_BAYS_PINNED s) spare).wr (R.SEQ_STRM_BAYS_STANDBY s) live).pinBays s
    let d := d.setStream s { d.stream s with met := p.met, promo := none, standbyMet := false }
    let d := (d.wr (R.SEQ_PROMO_STAT_STATE s) 0).showOutcome s outcome true
    d.swapRecord p.trough p.pos s p.result stOk outcome pos block stc

/-! ## The select (R51-R54, R208-R212) -/

/-- RC[x] = 65,536 × (1 − cos(πx ÷ 1,024)) ÷ 2 rounded to the nearest integer, for x up to 1,024: its entries for x up to
512; the upper half mirrors them (R210). -/
def rcHalf : List Nat :=
  [0, 0, 1, 1, 2, 4, 6, 8, 10, 12, 15, 19, 22, 26, 30, 35, 39, 45, 50, 56, 62, 68, 75, 82] ++
  [89, 96, 104, 112, 121, 130, 139, 148, 158, 168, 178, 189, 200, 211, 222, 234, 246, 259, 272, 285, 298, 312, 326, 340] ++
  [355, 370, 385, 400, 416, 432, 449, 465, 482, 500, 517, 535, 554, 572, 591, 610, 630, 649, 669, 690, 710, 731, 753, 774] ++
  [796, 818, 841, 864, 887, 910, 934, 958, 982, 1007, 1031, 1057, 1082, 1108, 1134, 1160, 1187, 1214, 1241, 1269, 1297, 1325, 1353, 1382] ++
  [1411, 1440, 1470, 1500, 1530, 1561, 1591, 1622, 1654, 1686, 1718, 1750, 1782, 1815, 1848, 1882, 1915, 1949, 1984, 2018, 2053, 2088, 2124, 2160] ++
  [2196, 2232, 2269, 2306, 2343, 2380, 2418, 2456, 2494, 2533, 2572, 2611, 2650, 2690, 2730, 2771, 2811, 2852, 2893, 2935, 2976, 3018, 3061, 3103] ++
  [3146, 3189, 3233, 3276, 3320, 3364, 3409, 3454, 3499, 3544, 3590, 3636, 3682, 3728, 3775, 3822, 3869, 3917, 3965, 4013, 4061, 4110, 4158, 4208] ++
  [4257, 4307, 4357, 4407, 4457, 4508, 4559, 4610, 4662, 4714, 4766, 4818, 4871, 4924, 4977, 5030, 5084, 5138, 5192, 5246, 5301, 5356, 5411, 5467] ++
  [5522, 5578, 5635, 5691, 5748, 5805, 5862, 5920, 5977, 6035, 6094, 6152, 6211, 6270, 6329, 6389, 6448, 6509, 6569, 6629, 6690, 6751, 6812, 6874] ++
  [6935, 6997, 7060, 7122, 7185, 7248, 7311, 7374, 7438, 7502, 7566, 7630, 7695, 7760, 7825, 7890, 7956, 8022, 8088, 8154, 8220, 8287, 8354, 8421] ++
  [8489, 8556, 8624, 8692, 8760, 8829, 8898, 8967, 9036, 9105, 9175, 9245, 9315, 9385, 9456, 9527, 9598, 9669, 9740, 9812, 9884, 9956, 10028, 10100] ++
  [10173, 10246, 10319, 10393, 10466, 10540, 10614, 10688, 10762, 10837, 10912, 10987, 11062, 11137, 11213, 11289, 11365, 11441, 11517, 11594, 11671, 11748, 11825, 11903] ++
  [11980, 12058, 12136, 12214, 12293, 12371, 12450, 12529, 12608, 12687, 12767, 12847, 12927, 13007, 13087, 13167, 13248, 13329, 13410, 13491, 13573, 13654, 13736, 13818] ++
  [13900, 13982, 14065, 14147, 14230, 14313, 14396, 14480, 14563, 14647, 14731, 14815, 14899, 14983, 15068, 15152, 15237, 15322, 15407, 15493, 15578, 15664, 15750, 15836] ++
  [15922, 16008, 16095, 16181, 16268, 16355, 16442, 16529, 16617, 16704, 16792, 16880, 16968, 17056, 17144, 17233, 17321, 17410, 17499, 17588, 17677, 17766, 17856, 17945] ++
  [18035, 18125, 18215, 18305, 18395, 18486, 18576, 18667, 18758, 18849, 18940, 19031, 19122, 19214, 19305, 19397, 19489, 19581, 19673, 19765, 19858, 19950, 20043, 20135] ++
  [20228, 20321, 20414, 20507, 20601, 20694, 20788, 20881, 20975, 21069, 21163, 21257, 21351, 21445, 21540, 21634, 21729, 21823, 21918, 22013, 22108, 22203, 22299, 22394] ++
  [22489, 22585, 22680, 22776, 22872, 22968, 23064, 23160, 23256, 23352, 23449, 23545, 23641, 23738, 23835, 23932, 24028, 24125, 24222, 24319, 24417, 24514, 24611, 24709] ++
  [24806, 24904, 25001, 25099, 25197, 25295, 25392, 25490, 25588, 25687, 25785, 25883, 25981, 26080, 26178, 26277, 26375, 26474, 26573, 26671, 26770, 26869, 26968, 27067] ++
  [27166, 27265, 27364, 27463, 27563, 27662, 27761, 27861, 27960, 28059, 28159, 28258, 28358, 28458, 28557, 28657, 28757, 28857, 28956, 29056, 29156, 29256, 29356, 29456] ++
  [29556, 29656, 29756, 29856, 29957, 30057, 30157, 30257, 30357, 30458, 30558, 30658, 30759, 30859, 30959, 31060, 31160, 31261, 31361, 31461, 31562, 31662, 31763, 31863] ++
  [31964, 32064, 32165, 32265, 32366, 32466, 32567, 32667, 32768]

/-- RC[x] (R210). -/
def rc (x : Nat) : Nat := if x ≤ 512 then rcHalf.getD x 0 else 65536 - rcHalf.getD (1024 - x) 0

/-- A crossfaded word at fade position `n` of `len` (R210). -/
def fadeMix (len n old new : Nat) : Nat :=
  let w : Int := rc ((n + 1) * 1024 / len)
  ofSigned 32 (rneShift (toSigned 32 old * (65536 - w) + toSigned 32 new * w) 16)

/-- A block of a crossfade whose first sample is at fade position `n0`; past the last position the new words play. -/
def fadeBlock (len n0 : Nat) (old new : List (List Nat)) : List (List Nat) :=
  (List.range old.length).map (fun i =>
    let o := old.getD i []
    let w := new.getD i []
    if n0 + i < len then (List.range o.length).map (fun k => fadeMix len (n0 + i) (o.getD k 0) (w.getD k 0)) else w)

/-- How block `k` of stream `s` ended. -/
structure Ended where
  /-- The block was launched; its trough met the deadline, which counts in j; and no slip fell in it, so its words play. -/
  launched : Bool
  met : Bool
  ok : Bool
  /-- The same of a promotion's standby trough. -/
  shadow : Bool
  shadowOk : Bool
  slip : Bool
  deriving DecidableEq, Repr

/-- How block `k` ended: a slip block that met its deadline counts as met (R45, R49), but while a promotion shadows the
stream a slip is a miss of both troughs (R212). -/
def Dev.ended (d : Dev) (s k : Nat) : Ended :=
  let st := d.stream s
  let slip := st.slips.contains k
  let shadows := decide (2 ≤ d.rd (R.SEQ_PROMO_STAT_STATE s))
  ⟨st.live.isSome || st.liveMet || st.delayed.isSome, st.liveMet && !(slip && shadows), st.liveMet && !slip,
    st.standby.isSome || st.standbyMet || (shadows && st.delayed.isSome), st.standbyMet && !slip, slip⟩

/-- The live words of block `k`, or its fallback. -/
def Dev.liveWords (d : Dev) (s k : Nat) (e : Ended) : List (List Nat) × Dev :=
  if e.ok then d.outWords s (d.rd (R.SEQ_STRM_OUT_BASE s)) k else d.fallback s k

/-- The words a crossfade gives block `k`, the fade's first block if none was before, and whether the block holds its last
position (R210, R212). -/
def Dev.selectFade (d : Dev) (s k : Nat) (p : Promo) (e : Ended) : List (List Nat) × Dev :=
  let p := if p.fadeBlock = 0 then { p with fadeBlock := k, fadeStc := d.stc } else p
  let n0 := (k - p.fadeBlock) * d.blkLen s
  let d := (d.setPromo s (some p)).wr (R.SEQ_PROMO_XPOS_POS s) (min (p.fadeLen - 1) (n0 + d.blkLen s - 1))
  let (ws, d) :=
    if e.ok ∧ e.shadowOk then
      let (old, d) := d.outWords s (d.rd (R.SEQ_STRM_OUT_BASE s)) k
      let (new, d) := d.outWords s p.outBase k
      (fadeBlock p.fadeLen n0 old new, d)
    else d.fallback s k
  let d := if p.fadeLen ≤ n0 + d.blkLen s then d.commit s (if p.requested then 3 else 2) 0 p.fadeBlock p.fadeStc else d
  (ws, d)

/-- The split block (R209): the live words, or the fallback, before the crossing and the standby words from it on. -/
def Dev.selectSplit (d : Dev) (s k pos stc : Nat) (p : Promo) (e : Ended) : List (List Nat) × Dev :=
  let (old, d) := d.liveWords s k e
  let (new, d) := d.outWords s p.outBase k
  (old.take pos ++ new.drop pos, (d.wr (R.SEQ_PROMO_SPLIT_P s) pos).commit s 1 pos k stc)

/-- WARM at a boundary: a met shadow block counts down; at zero the sequencer acts on the stream's silence or on MODE
(R208). -/
def Dev.selectWarm (d : Dev) (s k : Nat) (p : Promo) (e : Ended) : List (List Nat) × Dev :=
  let left := d.rd (R.SEQ_PROMO_STAT_WARM_LEFT s) - b2n e.shadowOk
  let d := d.wr (R.SEQ_PROMO_STAT_WARM_LEFT s) left
  if left ≠ 0 then d.liveWords s k e
  else if d.on (R.SEQ_STRM_STAT_SILENT s) then
    let (ws, d) := if e.shadowOk then d.outWords s p.outBase k else d.fallback s k
    (ws, d.commit s 4 0 k d.stc)
  else if p.mode = 1 then
    (d.wr (R.SEQ_PROMO_STAT_STATE s) 4).selectFade s k { p with requested := true } e
  else ((d.armZc s).wr (R.SEQ_PROMO_STAT_STATE s) 3).liveWords s k e

/-- WATCH at a boundary: the split block, or the live words. -/
def Dev.selectWatch (d : Dev) (s k : Nat) (p : Promo) (e : Ended) : List (List Nat) × Dev :=
  match p.hit with
  | some (j, pos, stc) => if j = k then d.selectSplit s k pos stc p e else d.liveWords s k e
  | none => d.liveWords s k e

/-- The words of block `k` while a promotion is in state 2 to 4. In XFADE both counts j and j′ advance whatever happened; in
WARM and WATCH a standby miss, and a slip, which is a miss of both troughs, abandons the promotion (R212). -/
def Dev.selectPromo (d : Dev) (s k : Nat) (p : Promo) (e : Ended) : List (List Nat) × Dev :=
  let st := d.rd (R.SEQ_PROMO_STAT_STATE s)
  let p := { p with met := p.met + b2n (e.shadowOk || st == 4) }
  let d := d.setPromo s (some p)
  let d := if st = 4 ∧ !e.met then d.setStream s { d.stream s with met := (d.stream s).met + 1 } else d
  if st = 4 then d.selectFade s k p e
  else if e.slip || (e.shadow && !e.shadowOk) then
    (d.abandon s 9 stDeadline).liveWords s k e
  else if st = 2 then d.selectWarm s k p e
  else d.selectWatch s k p e

/-- RT_LOAD's samples: the load of a block, Q0.16, newest first, 16 of them (spec/17 R356). -/
def Dev.addLoad (d : Dev) (s v : Nat) : Dev :=
  { d with pw := { d.pw with loads := d.pw.loads.set (fun _ => []) s ((min v 65535 :: d.pw.loads.get (fun _ => []) s).take 16) } }

/-- Block `k` missed its deadline: it is counted and told to the stall (R52). -/
def Dev.missBlock (d : Dev) (s k : Nat) : Dev :=
  let d := (((d.bump (R.SEQ_STRM_MISS_COUNT s)).wr R.SEQ_MISS_LAST_STREAM s).irq .seq 0 seqMiss).addLoad s 65535
  match d.stallOfStream s with
  | some n => (d.event n stDeadline kindStream s k).raise n 6
  | none => d

/-- A trough that has not retired at its deadline is aborted (R52): at once gone if its abort is complete already. -/
def Dev.abortLate (d : Dev) (s : Nat) (b : Bool) : Dev :=
  let run := if b then (d.stream s).standby else (d.stream s).live
  match run with
  | none => d
  | some r =>
    if r.dead then
      let st := d.stream s
      d.setStream s (if b then { st with standby := none } else { st with live := none })
    else d.failRealtime s b

/-- Settle block `k` of stream `s` at its deadline `due` and choose what it plays (R51 step 1): from step 3 of a sleep entry
on, whatever its trough did, the stream's dormant fallback (R55, spec/17 Table 17-3). -/
def Dev.settleBlock (d : Dev) (s k due : Nat) : Dev :=
  let e := d.ended s k
  let d := if e.met then d.setStream s { d.stream s with met := (d.stream s).met + 1 } else d
  let xfade := d.rd (R.SEQ_PROMO_STAT_STATE s) == 4
  let missed := e.launched && !e.ok && !e.slip
  let d := if missed || (xfade && e.shadow && !e.shadowOk && !e.slip) then d.missBlock s k else d
  let d := (d.abortLate s false).abortLate s true
  let (ws, d) :=
    if d.bypassing then (d.sleepWords s, d)
    else match (d.stream s).promo with
    | some p => if d.rd (R.SEQ_PROMO_STAT_STATE s) < 2 then d.liveWords s k e else d.selectPromo s k p e
    | none => d.liveWords s k e
  let (ws, d) := d.withPlay s k ws
  let tk := d.smpTicks (d.outPort s)
  let t0 := due + 4 * d.strmTicks s
  let start := t0 + ((d.port (d.outPort s)).grid % tk + tk - t0 % tk) % tk
  let st := d.stream s
  let d := d.setStream s { st with plays := st.plays ++ [⟨k, start, ws⟩], liveMet := false, standbyMet := false }
  d.wr (R.SEQ_STRM_STAT_LAST_FB s) (b2n (d.bypassing || !e.ok || (xfade && !e.shadowOk)))

/-! ## The boundary (R51, R52, R64, R207) -/

/-- Energy and silence of the block just filled (R64). -/
def Dev.monitor (d : Dev) (s : Nat) : Dev :=
  let st := d.stream s
  let n := d.blkLen s * (d.inSlots s).length
  let quiet := decide (st.energy < n * 2 ^ d.rd (R.SEQ_STRM_SIL_LOG2 s))
  let run := if quiet then st.silent + 1 else 0
  ((d.setStream s { st with silent := run }).wr (R.SEQ_STRM_ENERGY s) st.energy).wr (R.SEQ_STRM_STAT_SILENT s)
    (b2n (quiet && decide (d.rd (R.SEQ_STRM_SIL_BLOCKS s) ≤ run)))

/-- Whether a stream's troughs are launched: not in LIMP, asleep, or while its stall's job is faulted (R333, R372, R393). -/
def Dev.mayLaunch (d : Dev) (s : Nat) : Bool :=
  !d.limp && !d.bypassing && (match d.stallOfStream s with
    | some n => d.jobState n != jobFaulted
    | none => true)

/-- Launch block `k`: the live trough, and right after it the standby trough of a promotion, which attaches here (R51,
R207). -/
def Dev.launchBlock (d : Dev) (s k due : Nat) : Dev :=
  let st := d.stream s
  let d := d.ungate.setStream s { st with live := some ⟨k, 0, due, false, false⟩, liveMet := false, delayed := none }
  match st.promo with
  | none => d
  | some p =>
    let d := if d.rd (R.SEQ_PROMO_STAT_STATE s) = 1 then
        (d.wr (R.SEQ_PROMO_STAT_STATE s) 2).wr (R.SEQ_PROMO_STAT_WARM_LEFT s) p.warm
      else d
    d.setStream s { d.stream s with standby := some ⟨k, 0, due, false, false⟩, standbyMet := false }

/-- Block `k` reaches its launch: at once, or behind an abort, or not at all. -/
def Dev.tryLaunch (d : Dev) (s k due : Nat) : Dev :=
  let st := d.stream s
  let d := (d.wr (R.SEQ_STRM_BLOCK s) k).wr (R.SEQ_STRM_STAT_RUN s) (b2n (d.mayLaunch s))
  if !d.mayLaunch s then d.setStream s { st with delayed := none }
  else if st.live.isSome || st.standby.isSome then d.setStream s { st with delayed := some due }
  else d.launchBlock s k due

/-- The stream stops at this boundary: it takes no more input, its bays are free once they are idle, and what is selected
still plays (R20, R60). -/
def Dev.lastBoundary (d : Dev) (s : Nat) : Dev :=
  let d := d.endPorts s
  let st := d.stream s
  let d := ((d.setStream s { st with filling := false, stopping := 2, early := [] }).wr (R.SEQ_STRM_STAT_RUN s) 0).freePins
  if (d.stream s).plays.isEmpty then d.endStream s else d

/-- The tick of the boundary that the block being filled by stream `s` comes to, if one fills. -/
def Dev.boundary (d : Dev) (s : Nat) : Option Nat :=
  let st := d.stream s
  if st.filling && st.stopping != 2 then some (st.blkStart + d.blkLen s * d.strmTicks s) else none

/-- Whether a stream of a lower number has a boundary at tick `bnd` that is not served yet: it goes first (R51). -/
def Dev.lowerDue (d : Dev) (s bnd : Nat) : Bool := (List.range s).any (fun m => d.boundary m == some bnd)

/-- BLOCK_BOUNDARY of stream `s`, at the grid point at which the block being filled is complete. -/
def blockBoundary (s : Nat) (d : Dev) : Dev :=
  let st := d.stream s
  let bnd := st.blkStart + d.blkLen s * d.strmTicks s
  if !d.domOn 57 || d.on R.CLK_REF_STAT_MISMATCH || !st.filling || st.stopping == 2 || decide (d.stc < bnd) ||
      d.lowerDue s bnd then d
  else
    let k := st.block
    let d := zcTimeout s (d.fillTo (d.inPort s) bnd)
    let d := (d.dropLeft s).monitor s
    let d := if k ≤ st.first then d else d.settleBlock s (k - 1) bnd
    if (d.stream s).stopping = 1 then d.lastBoundary s
    else
      let d := d.tryLaunch s k (bnd + d.blkLen s * d.strmTicks s)
      let st := d.stream s
      let d := d.setStream s { st with filling := false, block := k + 1, early := [] }
      st.early.foldl (fun d f => d.takeSample s f.1 f.2) d

/-- REALTIME_ABORT_DONE: the abort of a stream's trough is complete, and the block that waited for it launches (R52). -/
def realtimeAbortDone (s : Nat) (d : Dev) : Dev :=
  let st := d.stream s
  let stopped := fun (r : Option RtRun) => match r with
    | some r => r.aborting
    | none => false
  if !stopped st.live && !stopped st.standby then d
  else
    let live := if stopped st.live then none else st.live
    let standby := if stopped st.standby then none else st.standby
    match st.delayed with
    | none =>
      d.setStream s { st with live := st.live.map (fun r => { r with dead := r.aborting })
                              standby := if st.promo.isNone then standby else st.standby.map (fun r => { r with dead := r.aborting }) }
    | some due =>
      let d := d.setStream s { st with live := live, standby := standby }
      if live.isSome || standby.isSome then d
      else if d.mayLaunch s then d.launchBlock s (d.rd (R.SEQ_STRM_BLOCK s)) due
      else d.setStream s { d.stream s with delayed := none }

/-! ## Writes of a stream's context (R47, R60, R62) -/

/-- EN of stream `s` is cleared (R60, R214): it stops at its next boundary; a stream that has launched nothing, or whose
input port has no grid, ends at once, its troughs stopped (DESIGN CHOICE: such a stream has no next boundary). -/
def Dev.stopStream (d : Dev) (s : Nat) : Dev :=
  let d := (d.wr (R.SEQ_STRM_CFG_EN s) 0).abandon s 11 stDisabled
  let st := d.stream s
  let i := d.inPort s
  if st.block = st.first ∨ !d.portOn i ∨ !(d.port i).framed then
    (((((d.failRealtime s false).failRealtime s true).endPorts s).dropLeft s).endStream s).freePins
  else d.setStream s { st with stopping := 1 }

/-- The effect of a write of STRM_CFG: on a live context only one that clears EN and changes nothing else; on another, EN
is set only by a binding that passes the checks (DEDUCED: else the write is ignored and counted). -/
def Dev.strmCfg (d : Dev) (q : Req) (s v : Nat) : Dev :=
  let a := A.SEQ_STRM_CFG s
  let old := d.word a
  if old.testBit 0 then
    if !v.testBit 0 && setBit v 0 == old then d.stopStream s else d.perr a q causeValue
  else if 6 ≤ bits v 1 3 then d.perr a q causeValue
  else
    let new := d.storeWord a (clrBit v 0)
    if !v.testBit 0 then new
    else match new.bindCheck ((d.stallOfStream s).getD 0) s with
    | .ok () e => e.startStream s
    | .fail _ _ => d.perr a q causeValue
    | .wait => d

/-- The effect of a write of STRM_ZC: on a live context only a write of 1 to ARM that changes nothing else (DEDUCED). -/
def Dev.strmZc (d : Dev) (q : Req) (s v : Nat) : Dev :=
  let a := A.SEQ_STRM_ZC s
  if d.on (R.SEQ_STRM_CFG_EN s) then
    if v.testBit 31 && clrBit v 31 == d.word a then d.armZc s else d.perr a q causeValue
  else
    let d := d.storeWord a v
    if v.testBit 31 then d.armZc s else d

/-- The effect of a write to the word of a stream context at BAR0 address `addr` (R47). -/
def Dev.contextWrite (d : Dev) (q : Req) (addr v : Nat) : Dev :=
  let off := addr % 4096 - 0x300
  let s := off / 0x60
  match off % 0x60 with
  | 0x00 => d.strmCfg q s v
  | 0x28 => d.strmZc q s v
  | 0x30 => d.storeWord addr v
  | _ => if d.on (R.SEQ_STRM_CFG_EN s) then d.perr addr q causeValue else d.storeWord addr v

/-! ## SWAP (R204-R207) -/

/-- A SWAP body; lengths and places in bytes and 64-byte units as the descriptor gives them. -/
structure SwapB where
  stream : Nat
  mode : Nat
  warm : Nat
  fade : Nat
  trgBase : Nat
  trgLen : Nat
  stateLen : Nat
  outBase : Nat
  stateBase : Nat
  result : Nat
  deriving DecidableEq, Repr

/-- The SWAP body of a descriptor (Table 11-1). -/
def SwapB.of (b : DescWord) : SwapB :=
  let f := fun k w => bits b.toNat (8 * k) w
  ⟨bits b.toNat 128 5, bits b.toNat 133 2, f 17 8, f 18 16, f 20 20, f 24 12, bits b.toNat 214 8 * 64, f 28 20, f 32 20,
    f 36 64⟩

/-- Check 2 of R205; a RESULT that is not 16-byte aligned fails it too (DEDUCED). -/
def SwapB.wellFormed (b : DescWord) : Bool :=
  let v := b.toNat
  let x := SwapB.of b
  bits v 135 1 == 0 && bits v 180 12 == 0 && bits v 204 4 == 0 && bits v 208 6 == 0 && bits v 222 2 == 0 &&
    bits v 244 12 == 0 && bits v 276 12 == 0 && bits v 352 160 == 0 && decide (x.mode < 2) &&
    decide (x.fade = 0 ∨ 16 ≤ x.fade ∧ x.fade ≤ 4096) && x.result % 16 == 0 && decide (1 ≤ x.trgLen)

/-- The physical address of `len` bytes at byte `a` of stall `n`'s Silo range, where they are one run in Silo (DEDUCED: a
place across extents that do not join counts as outside the range). -/
def Dev.physRun (d : Dev) (n a len : Nat) : Option Nat :=
  if n = 0 then if a + len ≤ siloBytes then some a else none
  else if d.rd (R.STL_Q_SILO_GRAN n) * siloGranule < a + len then none
  else
    match granuleAt (d.siloExtents n) (a / siloGranule) with
    | none => none
    | some g =>
      if allBelow (fun i => granuleAt (d.siloExtents n) (a / siloGranule + i) == some (g + i))
          ((a + max len 1 - 1) / siloGranule - a / siloGranule + 1) then
        some (g * siloGranule + a % siloGranule)
      else none

/-- The rings and the state pair of stream `s`: places and lengths. -/
def Dev.liveSpans (d : Dev) (s : Nat) : List (Nat × Nat) :=
  [(64 * d.rd (R.SEQ_STRM_IN_BASE s), 4 * up64 (d.inBytes s)), (64 * d.rd (R.SEQ_STRM_OUT_BASE s), 3 * up64 (d.outBytes s)),
    (64 * d.rd (R.SEQ_STRM_STATE_BASE s), 2 * d.stateBytes s)]

/-- Whether a span meets none of a list. -/
def spanApart (a len : Nat) (ss : List (Nat × Nat)) : Bool :=
  ss.all (fun p => len == 0 || p.2 == 0 || decide (a + len ≤ p.1 ∨ p.1 + p.2 ≤ a))

/-- Checks 1 to 6 of R205: the promotion a SWAP starts, the status that faults its job, or a wait for the trough's granules
(spec/12 R223). RESULT is checked with the places of check 5 (R80; DEDUCED: R205 does not place it). -/
def Dev.swapCheck (d : Dev) (t : TroughId) (pos : Nat) (b : DescWord) : Work Promo :=
  let x := SwapB.of b
  let s := x.stream
  let n := d.stallOf t
  let live := d.rd (R.SEQ_STRM_BAYS_PINNED s)
  let spare := d.rd (R.SEQ_STRM_BAYS_STANDBY s)
  if !(d.rd (R.STL_Q_STREAMS_MASK n)).testBit s then .fail stQuota d
  else if !SwapB.wellFormed b then .fail stDesc d
  else if !d.on (R.SEQ_STRM_CFG_EN s) || spare == 0 || (spare &&& live) != 0 then .fail stDesc d
  else match d.physRun n (64 * x.trgBase) (64 * x.trgLen) with
  | none => .fail stDesc d
  | some trg =>
    if !d.siloReadyRun trg (64 * x.trgLen) then .wait
    else
    let (xs, d) := d.troughDescs trg x.trgLen
    if xs.any (d.siftWaits n) then .wait
    else if !xs.all (d.rtDescOk n spare xs) then .fail stDesc d
    else
      let outLen := 3 * up64 (d.outBytes s)
      match d.physRun n (64 * x.outBase) outLen, d.physRun n (64 * x.stateBase) (2 * x.stateLen) with
      | some out, some state =>
        if !spanApart out outLen (d.liveSpans s) || !spanApart state (2 * x.stateLen) (d.liveSpans s) ||
            (x.result != 0 && !d.mayUse t x.result 16) then .fail stQuota d
        else if !d.hoppersHold s xs then .fail stDesc d
        else
          .ok { stall := n, trough := t, pos := pos, mode := x.mode, warm := x.warm
                fadeLen := if x.fade = 0 then 256 else x.fade, trgBase := trg / 64, trgLen := x.trgLen
                outBase := out / 64, stateBase := state / 64, stateLen := x.stateLen, result := x.result, met := 0
                hit := none, fadeBlock := 0, fadeStc := 0, requested := false } d
      | _, _ => .fail stQuota d

/-- `d` with the list of checked SWAPs replaced. -/
def Dev.setChecked (d : Dev) (ps : List Promo) : Dev := { d with au := { d.au with checked := ps } }

/-- The SWAPs of stream `s` that have passed their checks and wait, by the streams their descriptors name. -/
def Dev.checkedOf (d : Dev) (s : Nat) : List Promo :=
  d.au.checked.filter (fun p => (d.findDesc p.trough p.pos).any (fun y => (SwapB.of y.bits).stream == s))

/-- A SWAP that has passed its checks starts its promotion once none is in progress and none waits before it (R205, R207). -/
def Dev.swapStart (d : Dev) (y : Desc) : Dev :=
  let s := (SwapB.of y.bits).stream
  match d.checkedOf s with
  | p :: _ =>
    if d.rd (R.SEQ_PROMO_STAT_STATE s) ≠ 0 ∨ p.trough ≠ y.trough ∨ p.pos ≠ y.pos then d
    else
      let d := d.setChecked (d.au.checked.filter (fun q => q != p))
      (((d.setPromo s (some p)).wr (R.SEQ_PROMO_STAT_STATE s) 1).wr (R.SEQ_PROMO_STAT_TAG s) y.tag).updDesc
        { y with phase := .working }
  | [] => d

/-- SWAP: the Steward checks it once, unless it is down, and starts the promotion when the stream's promotion in progress
has ended (R205, R207). -/
def swap (t : TroughId) (pos : Nat) (d : Dev) : Dev :=
  match d.findDesc t pos with
  | none => d
  | some y =>
    if y.opcode ≠ 11 ∨ y.phase ≠ .started ∨ d.sy.mode = .inReset then d
    else if d.au.checked.any (fun p => p.trough == t && p.pos == pos) then d.swapStart y
    else
      match d.swapCheck t pos y.bits with
      | .wait => d
      | .fail st d => d.failDesc t pos st
      | .ok p d' =>
        if (maskList 16 (d.rd (R.SEQ_STRM_BAYS_STANDBY (SwapB.of y.bits).stream))).any (fun b => !d.domEn b) then
          match t with
          | .batch n q => d'.haltTrough n q y
          | .realtime _ _ => d
        else (d'.setChecked (d'.au.checked ++ [p])).swapStart y

/-- A Steward reset abandons the SWAPs that have not started their promotion (R214). -/
def Dev.dropSwaps (d : Dev) : Dev :=
  ((d.tn.live.filter (fun y => y.opcode == 11 && decide (y.phase = .started))).foldl (fun d y =>
    let x := SwapB.of y.bits
    (d.showOutcome x.stream 8 false).swapRecord y.trough y.pos x.stream x.result stDisabled 8 0 0 0) d).setChecked []

/-- A job fault or stall reset abandons the promotions of stall `n`'s streams (R214). -/
def Dev.abandonOf (d : Dev) (n status : Nat) : Dev :=
  streams.foldl (fun d s =>
    match (d.stream s).promo with
    | some p => if p.stall = n then d.abandon s 10 status else d
    | none => d) d

end Sys2Proof.Machine
end

