-- ==== Sys2Proof/Machine/Domains.lean ====
section
/-! DEFINITION. The switched power domains: the two views, drain then off, forced off, switching on and gating (spec/17
R329-R331, spec/18 R379-R381). -/
namespace Sys2Proof.Machine

/-- The mandatory set (R331). -/
def mandatory : List Nat := [52, 58, 59, 60, 62, 63]

/-- The 64 domains. -/
def domains : List Nat := List.range 64

/-! ## The data view (Table 18-6) -/

/-- Whether any of the first or the last 16 lines of a span of physical Silo lies in bank `b`. -/
def Dev.spanInBank (d : Dev) (b a len : Nat) : Bool :=
  let n := (a + len - 1) / 128 - a / 128 + 1
  len != 0 && (List.range (min n 16)).any (fun i => d.bankOf (a / 128 * 128 + 128 * i) == b ||
    d.bankOf ((a + len - 1) / 128 * 128 - 128 * i) == b)

/-- Whether a line of a stall extent or of an enabled stream's buffers maps to bank `b` (R221). -/
def Dev.bankMapped (d : Dev) (b : Nat) : Bool :=
  hostStalls.any (fun n => (d.siloExtents n).any (fun e =>
    (List.range e.2).any (fun g => d.spanInBank b ((e.1 + g) * siloGranule) siloGranule))) ||
  streams.any (fun s => d.streamLives s && (d.liveSpans s).any (fun p => d.spanInBank b p.1 p.2))

/-- Whether a live stream is bound to port `p`, or a slot of it still fades. -/
def Dev.portLive (d : Dev) (p : Nat) : Bool :=
  streams.any (fun s => d.streamLives s && (d.inPort s == p || d.outPort s == p)) || !(d.port p).fades.isEmpty

/-- DATA_VIEW of domain `x`: 0 IDLE, 1 BUSY, 2 HELD. -/
def Dev.dataView (d : Dev) (x : Nat) : Nat :=
  let code := fun (busy held : Bool) => if busy then 1 else if held then 2 else 0
  if x < 16 then code (d.runOn x).isSome (d.on (R.THR_GANG_PINNED x))
  else if x < 20 then
    let s := d.sifter (x - 16)
    code s.cur.isSome (s.saved.isSome || !s.parked.isEmpty || !s.ended.isEmpty)
  else if x < 24 then
    let h := d.hopper (x - 20)
    code (!h.inflight.isEmpty) (!h.rt.isEmpty || !h.batch.isEmpty)
  else if x < 40 then code false (d.bankMapped (x - 24))
  else if x < 44 then 0
  else if x < 46 then code (d.path (x - 44)).isSome false
  else if x < 50 then
    let p := x - 46
    let l := d.link p
    code (!l.txq.isEmpty || !l.replay.isEmpty || (d.path (2 + p)).isSome ||
      d.tn.live.any (fun y => y.opcode == 9 && decide (y.phase = .working) && d.linkUnit (LinkB.of y.bits) == x - 46)) false
  else if x = 50 then code d.ba.bale.isSome false
  else if x = 51 then code d.wn.win.isSome false
  else if x = 52 then code (d.erasing || (d.path 6).isSome) false
  else if x < 57 then code (d.portLive (x - 53)) false
  else if x = 57 then code (streams.any d.streamLives) false
  else if x = 60 then code d.sy.keyCmd.isSome false
  else if x = 61 then
    code (channels.any (fun c => (d.channel c).cur.isSome)) (channels.any (fun c => (d.channel c).held.isSome))
  else 0

/-- MGMT_VIEW of domain `x`: 0 ENABLED, 1 DRAINING, 2 DISABLED, 3 FORCED. -/
def Dev.mgmtView (d : Dev) (x : Nat) : Nat :=
  if d.pw.forcing.contains x then 3 else if d.pw.draining.contains x then 1 else if d.domEn x then 0 else 2

/-- DISAGREE of domain `x`. -/
def Dev.disagrees (d : Dev) (x : Nat) : Bool := d.mgmtView x != 0 && d.dataView x != 0

/-- A rise of DISAGREE sets its bit of MGMT_IRQ_STAT (Table 18-7). -/
def Dev.tellDisagree (d : Dev) (x : Nat) : Dev := if d.disagrees x then d.mgmtIrq irqDisagree else d

/-! ## Switching off and on (R331) -/

/-- The pages whose registers stand in domain `x` (Table 20-1). -/
def domainPages (x : Nat) : List Nat :=
  if x < 16 then [0x30 + x]
  else if x < 20 then [0x44 + (x - 16)]
  else if x < 24 then [0x40 + (x - 20)]
  else if x < 40 then [0x60 + (x - 24)]
  else if x < 44 then []
  else if x < 46 then [0x4C + (x - 44)]
  else if x < 50 then [0x48 + (x - 46)]
  else if x = 50 then [10] else if x = 51 then [6] else if x = 52 then [9]
  else if x < 57 then [0x50 + (x - 53)]
  else if x = 57 then [11] else if x = 59 then [12] else if x = 60 then [13] else if x = 61 then [7]
  else []

/-- The counts that run from cold reset and have no clear: BUSY_CYC and HELD_CYC (R128), BLOCKS of Winnow (R203), CORR_BITS
(R259), the Baler's blocks (R278), the slips and lost frames of the ports (Table 03-5). -/
def coldCounts (a : Nat) : Bool :=
  let p := a / 4096
  let o := a % 4096
  (decide (0x30 ≤ p ∧ p < 0x40) && decide (0x58 ≤ o ∧ o < 0x68)) || (p == 6 && decide (0x44 ≤ o ∧ o < 0x4C)) ||
    (p == 9 && decide (0x54 ≤ o ∧ o < 0x5C)) || (p == 10 && decide (0x44 ≤ o ∧ o < 0x54)) ||
    (decide (0x50 ≤ p ∧ p < 0x54) && (o == 0x48 || o == 0x4C))

/-- Registers that stand elsewhere and survive their page's domain: the pins of a bay and the PROG registers in the fabric
(R145), the granules that wait to be zeroed, the totals and credits of a Hopper, the execute-only regions and windows of the Granary, the Tally accounts, and the counts that run from cold reset (DEDUCED). -/
def survives (a : Nat) : Bool :=
  let p := a / 4096
  let o := a % 4096
  (decide (0x30 ≤ p ∧ p < 0x40) && (o == 0x44 || decide (0x100 ≤ o ∧ o < 0xF00))) ||
    (decide (0x40 ≤ p ∧ p < 0x44) && decide (0x44 ≤ o ∧ o < 0x80)) ||
    (p == 9 && decide (0x80 ≤ o ∧ o < 0x200)) || a == A.SIL_ZERO_PEND || a == A.CEL_ZERO_PEND || coldCounts a ||
    (p == 12 && (decide (0x48 ≤ o ∧ o < 0x50) || decide (0xAC ≤ o ∧ o < 0xB8) || decide (0x100 ≤ o ∧ o < 0x600)))

/-- `d` with the registers of some pages at their reset values, but for those that satisfy `keep`. -/
def Dev.resetPages (d : Dev) (ps : List Nat) (keep : Nat → Bool) : Dev :=
  { d with regs := d.regs.keep (fun a => !ps.contains (a / 4096) || keep a) }

/-- Vector 7: a power or thermal change affects a bay of the stall (R84). -/
def Dev.tellBays (d : Dev) (bs : List Nat) : Dev :=
  hostStalls.foldl (fun d n => if bs.any (fun b => (d.rd (R.STL_Q_BAYS_MASK n)).testBit b) then d.raise n 7 else d) d

/-- The stalls bound to functions of PCIe port `p`. -/
def Dev.stallsOfPort (d : Dev) (p : Nat) : List Nat :=
  hostStalls.filter (fun n => d.rd (R.STL_BIND_KIND n) == 1 && d.rd (R.STL_BIND_PORT n) == p)

/-- PCIE_LINK_DOWN of port `p`. -/
def pcieDown (p : Nat) (d : Dev) : Dev :=
  if !d.on (R.PCI_LINK_STAT_UP p) then d
  else
    let d := (((d.wr (R.PCI_LINK_STAT_UP p) 0).wr (R.PCI_LINK_STAT_SPEED p) 0).wr (R.PCI_LINK_STAT_WIDTH p) 0).wr (R.PCI_LINK_STAT_PM p) 0
    let d := (d.bump (R.PCI_DOWN_COUNT p)).irq .pci p 0
    (d.stallsOfPort p).foldl (fun d n => d.faultJob n stLink kindJob 0 0) d

/-- What a unit held is gone once its domain is off. -/
def Dev.loseUnit (d : Dev) (x : Nat) : Dev :=
  if x < 16 then d
  else if x < 20 then
    let k := x - 16
    { d.setSifter k Sifter.idle with mem := { d.mem with loft := d.mem.loft.keep (fun a => a / 0x40000 != k) } }
  else if x < 24 then d.discardStrips (x - 20) (fun _ => true)
  else if x < 40 then d.zeroBank (x - 24)
  else if x < 44 then if d.pairOn || d.on R.CEL_STAT_SR then d else d.wr R.CEL_STAT_TRAINED 0
  else if x < 46 then
    let d := pcieDown (x - 44) d
    { d.setPath (x - 44) none with bus := { d.bus with bar4 := d.bus.bar4.keep (fun k => k / 0x8000 != x - 44) } }
  else if x < 50 then
    let d : Dev := if x = 46 then { d with fu := { d.fu with knockPat := d.rd R.FUR_KNOCK_PAT } } else d
    let l := d.link (x - 46)
    (d.setLink (x - 46) { Link.down with gone := lostOwners l l.txq }).setPath (2 + (x - 46)) none
  else if x = 50 then d.setBale none
  else if x = 51 then d.setWin none
  else if x = 52 then { d with gr := { d.gr with prefetch := [], bcache := [], ready := false } }
  else if x < 57 then d.setPort (x - 53) Port.idle
  else if x = 57 then { d with au := { d.au with streams := .empty, caps := [] } }
  else if x = 60 then { d with sy := { d.sy with keyCmd := none } }
  else if x = 61 then d.stopMoves (fun _ => true)
  else d

/-- Pads that float if PAD_CFG says so for their group, and else hold low. -/
def Dev.padRest (d : Dev) (g : Nat) : PadState := if (d.rd R.BARN_PAD_CFG_FLOAT).testBit g then .float else .low

/-- The pads at the edge of domain `x`, which goes off, are latched or let float (Table 17-7). -/
def Dev.latchPads (d : Dev) (x : Nat) : Dev :=
  if 53 ≤ x ∧ x < 57 then
    let d := d.latchPad 0 (x - 53) (d.padRest 0)
    if d.on (R.AUD_PORT_CTL_ROLE (x - 53)) then d.latchPad 1 (x - 53) (d.padRest 1) else d
  else if x = 57 then d.latchPad 2 0 (if d.au.muteLow then .low else .high)
  else if x = 58 then d.latchPad 3 0 .low
  else if 40 ≤ x ∧ x < 44 then d.latchPad 4 (x - 40) .refresh
  else d

/-- The domain whose pads an entry of `pads` are. -/
def padDomain (x : Nat × Nat × PadState) : Nat :=
  match x.1 with
  | 0 | 1 => 53 + x.2.1
  | 2 => 57
  | 3 => 58
  | _ => 40 + x.2.1

/-- Domain `x` loses its supply: its pads are latched, its contents are lost and its registers take their reset values. -/
def Dev.loseDomain (d : Dev) (x : Nat) : Dev :=
  let d := d.latchPads x
  let d := (d.wr R.PWR_DOM_ON (clrBit (d.rd R.PWR_DOM_ON) x)).wr R.PWR_DOM_GATED (clrBit (d.rd R.PWR_DOM_GATED) x)
  let d := d.setPw { d.pw with rising := d.pw.rising.filter (· != x) }
  (d.loseUnit x).resetPages (domainPages x) survives

/-- Domain `x` goes off; a bay's stalls are told, and the devices of a Cellar pair have entered self-refresh (R233, Table
12-5). -/
def Dev.domOff (d : Dev) (x : Nat) : Dev :=
  if x < 16 then ((d.loseDomain x).tellBays [x]).freePins
  else if 40 ≤ x ∧ x < 44 then (d.setBitOf R.CEL_STAT_SR (x - 40)).loseDomain x
  else d.loseDomain x

/-- Domain `x` is switched on; it is ON 32 Barn cycles later. -/
def Dev.switchOn (d : Dev) (x : Nat) : Dev :=
  if d.domOn x || d.pw.rising.contains x then d else d.setPw { d.pw with rising := d.pw.rising ++ [x] }

/-- What begins when domain `x` comes on: a Silo bank zeroes itself, unless it was in retention, and its sweep starts
anew; a Furrow port that is enabled trains; the devices of a Cellar pair leave self-refresh. -/
def Dev.startUnit (d : Dev) (x : Nat) : Dev :=
  if x < 16 then d.tellBays [x]
  else if 24 ≤ x ∧ x < 40 then
    let b := x - 24
    let pend := if d.pw.ret.contains x ∨ d.mem.bankPend.contains b then d.mem.bankPend else d.mem.bankPend ++ [b]
    { d with mem := { d.mem with bankPend := pend, scrubLine := d.mem.scrubLine.set (fun _ => 0) b 0 } }
  else if 40 ≤ x ∧ x < 44 then
    d.clrBitOf R.CEL_STAT_SR (x - 40)
  else if 46 ≤ x ∧ x < 50 then if d.on (R.FUR_CTL_EN (x - 46)) then d.furStart (x - 46) else d
  else if 53 ≤ x ∧ x < 57 then d.dropLevel 3 (x - 53)
  else d

/-- The restored words of some pages, whose domain has come on, take their places (R331, R344). -/
def Dev.applySave (d : Dev) (ps : List Nat) : Dev :=
  let mine := d.pw.restored.cells.filter (fun c => ps.contains (c.1 / 4096))
  ({ d with regs := mine.foldl (fun (m : NMap Word) (c : Nat × Word) => m.set resetWord c.1 c.2) d.regs }).setPw
    { d.pw with restored := d.pw.restored.keep (fun a => !ps.contains (a / 4096)) }

/-- DOMAIN_ON: the domain switched first of those still rising comes on (R331). -/
def domainOn (x : Nat) (d : Dev) : Dev :=
  if d.pw.rising.head? = some x then
    let d := d.setPw { d.pw with rising := d.pw.rising.tail }
    let d := if d.pw.ret.contains x then d else (d.resetPages (domainPages x) survives).applySave (domainPages x)
    let d := (d.wr R.PWR_DOM_ON (setBit (d.rd R.PWR_DOM_ON) x)).startUnit x
    let d := d.drivePads (fun y => padDomain y == x && y.2.2 == .float)
    d.setPw { d.pw with ret := d.pw.ret.filter (· != x) }
  else d

/-! ## DOM_EN (R380) -/

/-- Bit `x` of MGMT_DIS. -/
def Dev.mgmtDis (d : Dev) (x : Nat) : Bool := (d.rd R.SYS_MGMT_DIS).testBit x

/-- Domain `x`, whose DOM_EN bit has just been cleared, drains or goes off at once. A draining bay's batch TILE yields
(R140). -/
def Dev.startDrain (d : Dev) (x : Nat) : Dev :=
  if !d.domOn x then d.setPw { d.pw with rising := d.pw.rising.filter (· != x) }
  else if d.dataView x = 0 then d.domOff x
  else
    let d := d.setPw { d.pw with draining := d.pw.draining ++ [x] }
    let d := match d.runOn x with
      | some r => if x < 16 then d.askYield r else d
      | none => if x < 16 then d.settleGangs else d
    d.tellDisagree x

/-- A write of 0 to the bit of domain `x`: whether it is refused, and the device after. -/
def Dev.clearDom (d : Dev) (q : Req) (x : Nat) : Option Nat × Dev :=
  if mandatory.contains x then (some causeValue, d)
  else
    let d := match q with
      | .mgmt => d.wr R.SYS_MGMT_DIS (setBit (d.rd R.SYS_MGMT_DIS) x)
      | _ => d
    if d.domEn x then (none, (d.wr R.PWR_DOM_EN (clrBit (d.rd R.PWR_DOM_EN) x)).startDrain x) else (none, d)

/-- A write of 1 to the bit of domain `x`. -/
def Dev.setDom (d : Dev) (q : Req) (x : Nat) : Option Nat × Dev :=
  if d.domEn x then (none, d)
  else if d.mgmtDis x && q != .mgmt then (some causeAccess, d)
  else
    let d := (d.wr R.SYS_MGMT_DIS (clrBit (d.rd R.SYS_MGMT_DIS) x)).wr R.PWR_DOM_EN (setBit (d.rd R.PWR_DOM_EN) x)
    let d := d.setPw { d.pw with draining := d.pw.draining.filter (· != x) }
    (none, if d.pw.forcing.contains x then d else d.switchOn x)

/-- The effect of a write of `v` to the DOM_EN word at `addr`: bit by bit, in ascending order; one refused bit or more is
counted once, a right before a value. -/
def Dev.domEnWrite (d : Dev) (q : Req) (addr v : Nat) : Dev :=
  let base := if addr = A.PWR_DOM_EN then 0 else 32
  let (bad, d) := (List.range 32).foldl (fun (p : Option Nat × Dev) i =>
    let (c, d) := if v.testBit i then p.2.setDom q (base + i) else p.2.clearDom q (base + i)
    (match p.1, c with
      | some a, some b => some (max a b)
      | some a, none => some a
      | none, c => c, d)) (none, d)
  match bad with
  | some c => d.perr addr q c
  | none => d

/-- DRAIN_DONE: a draining domain whose DATA_VIEW is IDLE goes off (R380). -/
def drainDone (x : Nat) (d : Dev) : Dev :=
  if d.pw.draining.contains x ∧ d.dataView x = 0 then
    (d.setPw { d.pw with draining := d.pw.draining.filter (· != x) }).domOff x
  else d

/-! ## Forced off (R381) -/

/-- The troughs that have work in flight in domain `x`, or hold state there. -/
def Dev.troughsIn (d : Dev) (x : Nat) : List TroughId :=
  let desc := fun (p : Desc → Bool) => (d.tn.live.filter p).map (·.trough)
  if x < 16 then (d.cp.thr.runs.filter (fun r => r.bays.contains x)).map (·.trough)
  else if x < 20 then
    let s := d.sifter (x - 16)
    (s.cur.toList ++ s.saved.toList ++ s.parked ++ s.ended).map (·.trough)
  else if 44 ≤ x ∧ x < 46 then (d.path (x - 44)).toList.map (·.trough)
  else if 46 ≤ x ∧ x < 50 then
    (d.path (2 + (x - 46))).toList.map (·.trough) ++
      desc (fun y => y.opcode == 9 && decide (y.phase = .working) && d.linkUnit (LinkB.of y.bits) == x - 46)
  else if x = 50 then d.ba.bale.toList.map (·.trough)
  else if x = 51 then d.wn.win.toList.map (·.trough)
  else if 53 ≤ x ∧ x < 57 then
    desc (fun y => y.opcode == 10 && decide (y.phase = .working) &&
      (d.inPort (PortB.of y.bits).stream == x - 53 || d.outPort (PortB.of y.bits).stream == x - 53))
  else if x = 57 then desc (fun y => (y.opcode == 10 || y.opcode == 11) && decide (y.phase = .working))
  else if x = 61 then
    channels.flatMap (fun c => ((d.channel c).cur.toList ++ (d.channel c).held.toList).map (·.1))
  else []

/-- The stalls whose memory or strips lie in domain `x`, or to whose streams its bays are pinned. -/
def Dev.holdersIn (d : Dev) (x : Nat) : List Nat :=
  if x < 16 then
    if d.on (R.THR_GANG_PINNED x) then (d.stallOfStream (d.rd (R.THR_GANG_STREAM x))).toList else []
  else if 20 ≤ x ∧ x < 24 then
    let h := d.hopper (x - 20)
    (h.inflight ++ h.rt ++ h.batch).map (·.stall)
  else if 24 ≤ x ∧ x < 40 then
    hostStalls.filter (fun n => (d.siloExtents n).any (fun e =>
      (List.range e.2).any (fun g => d.spanInBank (x - 24) ((e.1 + g) * siloGranule) siloGranule)))
  else if 40 ≤ x ∧ x < 44 then hostStalls.filter (fun n => (d.celExtents n).any (fun e => e.2 != 0))
  else []

/-- Step 3 of R381: the jobs with work or state in domain `x` fault with FORCED_OFF; realtime work there is aborted. -/
def Dev.faultIn (d : Dev) (x : Nat) : Dev :=
  let ts := d.troughsIn x
  let ns := dedup (ts.map d.stallOf ++ d.holdersIn x)
  let d := ns.foldl (fun d n => d.faultJob n stForcedOff kindJob 0 0) d
  let d := ts.foldl (fun d t => match t with
    | .realtime s b => d.failRealtime s b
    | .batch _ _ => d) d
  if 20 ≤ x ∧ x < 24 then d.discardStrips (x - 20) (fun _ => true) else d

/-- The streams bound to an audio port or to the sequencer. -/
def Dev.streamsIn (d : Dev) (x : Nat) : List Nat :=
  streams.filter (fun s => d.streamLives s && (x == 57 || d.inPort s + 53 == x || d.outPort s + 53 == x))

/-- A force of domain `x` by management. -/
def Dev.forceDom (d : Dev) (x : Nat) : Dev :=
  let d := (d.wr R.PWR_DOM_EN (clrBit (d.rd R.PWR_DOM_EN) x)).wr R.SYS_MGMT_DIS (setBit (d.rd R.SYS_MGMT_DIS) x)
  if !d.domOn x then d.setPw { d.pw with rising := d.pw.rising.filter (· != x) }
  else
    let d := d.setPw { d.pw with draining := d.pw.draining.filter (· != x)
                                 forcing := if d.pw.forcing.contains x then d.pw.forcing else d.pw.forcing ++ [x] }
    let d := d.tellDisagree x
    if 53 ≤ x ∧ x ≤ 57 then
      (d.streamsIn x).foldl (fun d s => if d.on (R.SEQ_STRM_CFG_EN s) then d.stopStream s else d) d
    else d.faultIn x

/-- The effect of a write of `v` to the DOM_FORCE word at `addr`. -/
def Dev.domForce (d : Dev) (q : Req) (addr v : Nat) : Dev :=
  let base := if addr = A.SYS_DOM_FORCE then 0 else 32
  let xs := (maskList 32 v).map (base + ·)
  let d := (xs.filter (fun x => !mandatory.contains x)).foldl Dev.forceDom d
  if xs.any (fun x => mandatory.contains x) then d.perr addr q causeValue else d

/-- FORCED_OFF_DONE: the units of the faulted jobs have stopped, and what had to fade has faded; the domain goes off. A
domain that was enabled again meanwhile is switched on (R380, R381). -/
def forcedOffDone (x : Nat) (d : Dev) : Dev :=
  let audio := decide (53 ≤ x ∧ x ≤ 57)
  if !d.pw.forcing.contains x then d
  else if audio && (!(d.streamsIn x).isEmpty || (x != 57 && d.portLive (x - 53))) then d
  else
    let d := if audio then d.faultIn x else d
    let d := (d.setPw { d.pw with forcing := d.pw.forcing.filter (· != x) }).domOff x
    if d.domEn x then d.switchOn x else d

/-! ## Gating (R330) -/

/-- Whether gating applies to domain `x`: it has no work in flight, and an audio domain no enabled stream (R330). -/
def Dev.mayGate (d : Dev) (x : Nat) : Bool :=
  d.dataView x != 1 && !(decide (53 ≤ x ∧ x ≤ 57) && streams.any (fun s => d.on (R.SEQ_STRM_CFG_EN s)))

/-- Whether domain `x` stands gated: no work has come since. -/
def Dev.gated (d : Dev) (x : Nat) : Bool := (d.rd R.PWR_DOM_GATED).testBit x && d.mayGate x

/-- DOMAIN_GATE: domain `x` has had no request and no work for IDLE_TIMER cycles; with every domain gated the device is
IDLE. -/
def domainGate (x : Nat) (d : Dev) : Dev :=
  if !d.coreOn || !d.domOn x || !d.mayGate x || decide (pwIdle < d.pwState) then d
  else
    let d := d.wr R.PWR_DOM_GATED (setBit (d.rd R.PWR_DOM_GATED) x)
    if domains.all (fun y => !d.domOn y || d.gated y) then d.wr R.PWR_STAT_STATE pwIdle else d

end Sys2Proof.Machine
end

