-- ==== Sys2Proof/Machine/Steward.lean ====
section
/-! DEFINITION. The Steward: LIMP, images and boot, image update, the key store's commands, the watchdogs and ALIVE, the timer
interrupt and the common commands of the management bus (spec/18 R362-R387, spec/19 R398-R402). -/
namespace Sys2Proof.Machine

/-- `d` with the Steward's state replaced. -/
def Dev.setSy (d : Dev) (x : Steward) : Dev := { d with sy := x }

/-! ## LIMP (R371, Table 18-4) -/

abbrev limpNone : Nat := 0
abbrev limpBooting : Nat := 1
abbrev limpTsmSig : Nat := 4
abbrev limpNoImage : Nat := 5
abbrev limpRecovery : Nat := 6

/-- Take a LIMP cause; a cause from 2 on is an entry that management is told of. -/
def Dev.setLimp (d : Dev) (cause : Nat) : Dev :=
  let d := d.wr R.SYS_LIMP_CAUSE cause
  if 2 ≤ cause then d.mgmtIrq irqLimp else d

/-- READY: BOOTING ends, and RESET_CAUSE.REPEAT with it (R371, Table 19-5). -/
def Dev.limpReady (d : Dev) (q : Req) : Dev :=
  if d.rd R.SYS_LIMP_CAUSE = limpBooting then (d.setLimp limpNone).wr R.SYS_RESET_CAUSE_REPEAT 0
  else d.perr A.SYS_LIMP_CTL q causeValue

/-- ENTER with a cause. -/
def Dev.limpEnter (d : Dev) (q : Req) (cause : Nat) : Dev :=
  if cause = 1 ∨ limpBooting < d.rd R.SYS_LIMP_CAUSE then d.perr A.SYS_LIMP_CTL q causeValue else d.setLimp cause

/-- The effect of a write of LIMP_CTL; ENTER and READY in one write are ignored and counted (DESIGN CHOICE). -/
def Dev.limpCtl (d : Dev) (q : Req) (v : Nat) : Dev :=
  let enter := bits v 0 3
  if v.testBit 8 then (if enter = 0 then d.limpReady q else d.perr A.SYS_LIMP_CTL q causeValue)
  else if enter = 0 then d else d.limpEnter q enter

/-! ## Images (R365, R366, Table 18-2) -/

/-- First sector and bytes of slot A, slot B and the TSM (R365). -/
def slotSector : Nat → Nat
  | 0 => 0
  | 1 => 256
  | _ => 512
def slotSize (target : Nat) : Nat := if target < 2 then 0x100000 else 0x40000

/-- The KIND an image of a target carries. -/
def slotKind (target : Nat) : Nat := if target < 2 then 1 else 2

/-- `len` bytes of the Granary from G-address `a`, as the Steward loads them, and whether a word was uncorrectable. -/
def Dev.gBytes (d : Dev) (a len : Nat) : List Byte × Bool × Dev :=
  let n := if len = 0 then 0 else (a + len - 1) / 32 - a / 32 + 1
  let (bs, bad, d) := (List.range n).foldl (fun (p : List (List Byte) × Bool × Dev) i =>
    let (g, d) := p.2.2.gLine .load (a / 32 * 32 + 32 * i)
    (g.bytes :: p.1, p.2.1 || g.bad, d)) ([], false, d)
  ((bs.reverse.flatten.drop (a % 32)).take len, bad, d)

/-- What came of an image check (the codes of KEY.RESULT). -/
abbrev imgOk : Nat := 0
abbrev imgBadSig : Nat := 1
abbrev imgBadKey : Nat := 2
abbrev imgBadArg : Nat := 3

/-- Whether a header obeys Table 18-2, for an image of KIND `kind` in a slot of `size` bytes. -/
def imageHeaderOk (h : List Byte) (kind size : Nat) : Bool :=
  let zero := fun (a n : Nat) => ((h.drop a).take n).all (· == 0)
  leAt h 0 4 == 0x474D495A && leAt h 4 1 == kind && decide (leAt h 5 1 ≤ 3 ∧ leAt h 8 4 + 256 ≤ size) && zero 90 38 &&
    (if kind = 1 then decide (leAt h 88 2 ≤ leAt h 6 2) && xoRegions.all (fun x => zero (16 + 8 * x + 5) 3)
     else zero 12 4 && zero 16 74)

/-- The check of R366 of a header and a body. -/
def imageCheck (h body : List Byte) (kind size : Nat) : Nat :=
  let key := leAt h 5 1
  if !imageHeaderOk h kind size then imgBadArg
  else if beNat (sha256 ((h.drop 192).take 64)) ≠ (Config.fusePkh key).toNat ∨ Config.fuseRevoked.toNat.testBit key then imgBadKey
  else if ecdsaOk (beNat (sha256 (h.take 128 ++ body))) (leAt h 128 32) (leAt h 160 32) (leAt h 192 32) (leAt h 224 32) then imgOk
  else imgBadSig

/-- Check the image of `target` as it stands in the array: whether it is valid, its header and body. -/
def Dev.slotCheck (d : Dev) (target : Nat) : Bool × List Byte × List Byte × Dev :=
  let a := slotSector target * 4096
  let (h, bad, d) := d.gBytes a 256
  if bad || !imageHeaderOk h (slotKind target) (slotSize target) then (false, h, [], d)
  else
    let (body, bad, d) := d.gBytes (a + 256) (leAt h 8 4)
    (!bad && imageCheck h body (slotKind target) (slotSize target) == imgOk, h, body, d)

/-! ## Boot (R367, R368, R370, Table 18-3) -/

/-- A kick of the Steward watchdog: the count restarts and ALIVE runs (R399, R401). -/
def Dev.kick (d : Dev) : Dev :=
  (d.setSy { d.sy with wdog := 0, healthy := true, aliveCount := if d.sy.healthy then d.sy.aliveCount else 0 }).wr
    R.SYS_ALIVE_STAT_TOGGLING 1

/-- The core begins at `pc`: its registers take the values of its reset. -/
def Dev.startCore (d : Dev) (mode : CoreMode) (pc : Nat) : Dev :=
  d.setSy { d.sy with mode := mode, pc := pc, x := .empty, csrs := .empty, priv := 3, reservation := none, wfi := false }

/-- Step 2 of Table 18-3: with a present, matching reference the PLL locks and CORE_SRC is set. -/
def Dev.bootClocks (d : Dev) : Dev :=
  if !d.on R.CLK_REF_STAT_PRESENT || d.on R.CLK_REF_STAT_MISMATCH then d
  else
    let d := pllLock (d.wr R.CLK_PLL_CTL_EN 1)
    if d.on R.CLK_PLL_STAT_LOCK then d.wr R.CLK_SRC_SEL_CORE_SRC 1 else d

/-- Steps 4 and 5: the slot that boots, with its header. -/
def Dev.bootSlots (d : Dev) : Option (Nat × List Byte) × Dev :=
  let fromB := fun (d : Dev) =>
    let (ok, h, _, d) := d.slotCheck 1
    if ok then (some (1, h), d) else (none, d.wr R.SYS_BOOT_STAT_B_BAD 1)
  if d.sy.bootB then fromB (d.setSy { d.sy with bootB := false })
  else
    let (ok, h, _, d) := d.slotCheck 0
    if ok then (some (0, h), d) else fromB (d.wr R.SYS_BOOT_STAT_A_BAD 1)

/-- Step 6: a valid TSM is loaded into the control store. -/
def Dev.bootTsm (d : Dev) (imaged : Bool) : Dev :=
  let (ok, h, body, d) := d.slotCheck 2
  if ok then ((d.wr R.SYS_BOOT_STAT_TSM_OK 1).wr R.SYS_TSM_EPOCH (leAt h 6 2)).setSy { d.sy with tsm := body }
  else if imaged then d.setLimp limpTsmSig else d

/-- Step 7: the execute-only regions, the epochs and the boot window; the ROM jumps to ENTRY. -/
def Dev.bootImage (d : Dev) (slot : Nat) (h : List Byte) : Dev :=
  let d := xoRegions.foldl (fun (d : Dev) x =>
    let b := 16 + 8 * x
    (d.gsrXo x (slotSector slot + leAt h b 2) (leAt h (b + 2) 2) (leAt h (b + 4) 1 % 8)).2.2) d
  let d := ((d.wr R.SYS_BOOT_STAT_SLOT slot).wr R.SYS_IF_EPOCH (leAt h 6 2)).wr R.SYS_IF_EPOCH_MIN_EPOCH (leAt h 88 2)
  let d := d.setSy { d.sy with bootSlot := slotSector slot * 4096, entry := leAt h 12 4 }
  d.startCore .image (0x38000000 + leAt h 12 4)

/-- The ROM service loop, with a LIMP cause (step 8). -/
def Dev.serviceLoop (d : Dev) (cause : Nat) : Dev := (d.setLimp cause).startCore .serviceLoop 0

/-- BOOT: the ROM's sequence, once a measurement of a present reference is done. `src` and `addr` are the straps BOOT_SRC and
I3C_ADDR, latched at the release of a warm reset (R367). -/
def boot (src : Bool) (addr : BitVec 2) (d : Dev) : Dev :=
  if d.sy.mode ≠ .rom ∨ (d.ck.measuring ≠ 0 ∧ d.on R.CLK_REF_STAT_PRESENT) then d
  else
    let d := if d.rd R.SYS_BOOT_STAT_KIND = 1 then d.setSy { d.sy with bootSrc := src, i3cStrap := addr.toNat } else d
    let d := (d.bootClocks.kick.wr R.SYS_BOOT_STAT_GSR_EPOCH Config.gsrEpoch.toNat).wr R.SYS_BOOT_STAT_RECOVERY (b2n d.sy.bootSrc)
    if d.sy.bootSrc ∨ 3 ≤ d.rd R.SYS_RESET_CAUSE_REPEAT then d.serviceLoop limpRecovery
    else
      let (slot, d) := d.bootSlots
      let d := d.bootTsm slot.isSome
      match slot with
      | some (s, h) => d.bootImage s h
      | none => d.serviceLoop limpNoImage

/-! ## Image update (R374) -/

/-- UPD_STAT.RESULT codes. -/
abbrev updOk : Nat := 0
abbrev updBadArg : Nat := 1
abbrev updOrder : Nat := 2
abbrev updTarget : Nat := 3
abbrev updSig : Nat := 4
abbrev updFlash : Nat := 5
abbrev updAborted : Nat := 6

/-- Whether the update service runs: an image or the ROM service loop. -/
def Dev.serves (d : Dev) : Bool := d.sy.mode == .image || d.sy.mode == .serviceLoop

/-- An update ends with a result, and UPD is raised. -/
def Dev.endUpdate (d : Dev) (result : Nat) : Dev :=
  (((d.setSy { d.sy with update := none }).wr R.SYS_UPD_STAT_STATE 0).wr R.SYS_UPD_STAT_RESULT result).mgmtIrq irqUpd

/-- Erase `n` sectors from sector `s`, billed to stall 0; the erase numbered `fail` fails. -/
def Dev.eraseRun (d : Dev) (s : Nat) (fail : Option Nat) : Nat → Bool × Dev
  | 0 => (true, d)
  | n + 1 =>
    let (code, _, d) := d.gsrErase (s * 4096) 0
    let bad := fail == some 0
    let d := if code = gOk then (eraseEnd (!bad) d).wr R.GRN_ERASE_STAT_STATE 0 else d
    if code ≠ gOk ∨ bad then (false, d) else d.eraseRun (s + 1) (fail.map (· - 1)) n

/-- Program bytes from G-address `a`, word by word; the word numbered `fail` reads back wrong. -/
def Dev.programRun (d : Dev) (a : Nat) (bs : List Byte) (fail : Option Nat) : Bool × Dev :=
  (List.range (ceilDiv bs.length 8)).foldl (fun (p : Bool × Dev) i =>
    if !p.1 then p
    else
      let w := (bs.drop (8 * i)).take 8
      let (code, _, d) := p.2.gsrProgram (a + 8 * i) (BitVec.ofNat 64 (leNat (w ++ List.replicate (8 - w.length) 0xFF)))
        (fail == some i) 0 (some 0)
      (decide (code = gOk ∨ code = gWarnPair), d)) (true, d)

/-- Program the chunk at offset 0, whose partners are programmed already: the service writes it although PROGRAM alone would
answer PAIR_ORDER (R374 over R245, DEDUCED). -/
def Dev.programHeader (d : Dev) (a : Nat) (bs : List Byte) (fail : Option Nat) : Bool × Dev :=
  if !d.gOn || d.erasing then (false, d)
  else
    let d := d.gInvalidate (a / 4096)
    (List.range (ceilDiv bs.length 8)).foldl (fun (p : Bool × Dev) i =>
      let w := (bs.drop (8 * i)).take 8
      let v := BitVec.ofNat 64 (leNat (w ++ List.replicate (8 - w.length) 0xFF))
      if !p.1 then p
      else if fail = some i then (false, p.2.gBadWrite (a / 8 + i) v)
      else if v.toNat = 2 ^ 64 - 1 then p
      else (true, p.2.setGword (a / 8 + i) (.prog v 0))) (true, d)

/-- The slot that is booted, while an image runs. -/
def Dev.booted (d : Dev) : Option Nat := if d.sy.mode = .image then some (d.rd R.SYS_BOOT_STAT_SLOT) else none

/-- BEGIN of an update of `target`. A BEGIN while an update is open is ignored and counted (DESIGN CHOICE). -/
def Dev.updBegin (d : Dev) (q : Req) (target : Nat) (fail : Option Nat) : Dev :=
  let len := d.rd R.SYS_UPD_LEN_BYTES
  if d.sy.update.isSome then d.perr A.SYS_UPD_CTL q causeValue
  else if d.booted = some target then d.wr R.SYS_UPD_STAT_RESULT updTarget
  else
    let (okB, d) := if target = 0 then (let r := d.slotCheck 1; (r.1, r.2.2.2)) else (true, d)
    if !okB then d.wr R.SYS_UPD_STAT_RESULT updTarget
    else if slotSize target < len then d.wr R.SYS_UPD_STAT_RESULT updBadArg
    else
      let d := (d.setSy { d.sy with update := some ⟨target, len, 0, []⟩ }).wr R.SYS_UPD_STAT_STATE 1
      let (ok, d) := ((d.wr R.SYS_UPD_STAT_CHUNKS 0).wr R.SYS_UPD_STAT_RESULT updOk).eraseRun (slotSector target) fail (ceilDiv len 4096)
      if ok then d else d.endUpdate updFlash

/-- COMMIT of the open update; before the last chunk it has no effect. -/
def Dev.updCommit (d : Dev) (fail : Option Nat) : Dev :=
  match d.sy.update with
  | none => d
  | some u =>
    if u.next < u.len then d
    else
      let a := slotSector u.target * 4096
      let (rest, bad, d) := d.gBytes (a + u.header.length) (u.len - u.header.length)
      let img := u.header ++ rest
      let h := img.take 256
      if bad ∨ imageCheck h (img.drop 256) (slotKind u.target) (slotSize u.target) ≠ imgOk ∨ leAt h 8 4 + 256 ≠ u.len then
        d.endUpdate updSig
      else
        let (ok, d) := d.programHeader a u.header fail
        d.endUpdate (if ok then updOk else updFlash)

/-- The effect of a write of UPD_CTL: HOST_OK, then the operation; `fail` is the erase or the word that fails. -/
def Dev.updCtl (d : Dev) (q : Req) (fail : Option Nat) (v : Nat) : Dev :=
  let target := bits v 2 2
  if target = 3 then d.perr A.SYS_UPD_CTL q causeValue
  else
    let d := d.storeWord A.SYS_UPD_CTL v
    if !d.serves then d
    else match bits v 0 2 with
      | 1 => d.updBegin q target fail
      | 2 => d.updCommit fail
      | 3 => if d.sy.update.isSome then d.endUpdate updAborted else d
      | _ => d

/-- The staging window's first `n` bytes. -/
def Dev.updWindow (d : Dev) (n : Nat) : List Byte :=
  ((List.range 512).flatMap (fun i => leBytes 4 (d.word (A.SYS_UPD_WIN i)))).take n

/-- The effect of a write of UPD_CHUNK. -/
def Dev.updChunk (d : Dev) (fail : Option Nat) (v : Nat) : Dev :=
  match d.sy.update with
  | none => d
  | some u =>
    let off := bits v 0 21
    if !d.serves then d
    else if off ≠ u.next ∨ u.len ≤ off then d.endUpdate updOrder
    else
      let bs := d.updWindow (min 2048 (u.len - off))
      let d := d.bump R.SYS_UPD_STAT_CHUNKS
      let u' := { u with next := off + 2048, header := if off = 0 then bs else u.header }
      let d := d.setSy { d.sy with update := some u' }
      if off = 0 then d
      else
        let (ok, d) := d.programRun (slotSector u.target * 4096 + off) bs fail
        if ok then d else d.endUpdate updFlash

/-! ## Keys (R384, R385) -/

/-- The effect of a write of KEY.GEN[n]. -/
def Dev.keyGen (d : Dev) (q : Req) (n v : Nat) : Dev :=
  if d.jobState n = jobClosed then d.wr (R.KEY_GEN n) v else d.perr (A.KEY_GEN n) q causeValue

/-- The effect of a write of KEY.CMD. -/
def Dev.keyCmdWrite (d : Dev) (q : Req) (v : Nat) : Dev :=
  let op := bits v 0 2
  if op = 0 then d
  else if op = 3 ∨ d.on R.KEY_RESULT_BUSY then d.perr A.KEY_CMD q causeValue
  else (d.wr R.KEY_RESULT_BUSY 1).setSy { d.sy with keyCmd := some (op, d.rd R.KEY_SRC, d.rd R.KEY_LEN_BYTES) }

/-- `len` bytes from a Steward address in the Granary or the Silo region. -/
def Dev.stwBytes (d : Dev) (src len : Nat) : Option (List Byte × Bool × Dev) :=
  if 0x20000000 ≤ src ∧ src + len ≤ 0x38000000 then some (d.gBytes (src - 0x20000000) len)
  else if 0x80000000 ≤ src ∧ src + len ≤ 0x84000000 then some (d.siloRead (src - 0x80000000) len)
  else none

/-- The check of R366 on the image at `src`. -/
def Dev.keyVerify (d : Dev) (src : Nat) : Nat × Dev :=
  match d.stwBytes src 256 with
  | none => (imgBadArg, d)
  | some (h, bad, d) =>
    let kind := leAt h 4 1
    let size := if kind = 1 then 0x100000 else 0x40000
    if bad ∨ (kind ≠ 1 ∧ kind ≠ 2) ∨ !imageHeaderOk h kind size then (imgBadArg, d)
    else match d.stwBytes (src + 256) (leAt h 8 4) with
      | none => (imgBadArg, d)
      | some (body, bad, d) => (if bad then imgBadSig else imageCheck h body kind size, d)

/-- KEY_CMD_DONE: the command in progress ends. DIGEST holds the digest's bytes in order. -/
def keyDone (d : Dev) : Dev :=
  match d.sy.keyCmd with
  | none => d
  | some (op, src, len) =>
    let fin := fun (code : Nat) (d : Dev) =>
      (((d.wr R.KEY_RESULT_CODE code).wr R.KEY_RESULT_BUSY 0).setSy { d.sy with keyCmd := none }).irq .key 0 0
    if op = 1 then
      match d.stwBytes src len with
      | none => fin imgBadArg d
      | some (bs, _, d) => fin imgOk (d.wr R.KEY_DIGEST (leNat (sha256 bs)))
    else
      let (code, d) := d.keyVerify src
      fin code d

/-! ## Watchdogs, ALIVE, the timer (R362, R398, R399, R401) -/

/-- Barn cycles of a millisecond. -/
abbrev barnMs : Nat := 3072

/-- ALIVE is held low. -/
def Dev.stopAlive (d : Dev) : Dev :=
  let d := if d.sy.alive && !d.padsOff 3 0 then d.emit (.alive false) else d
  (d.setSy { d.sy with alive := false, healthy := false, aliveCount := 0 }).wr R.SYS_ALIVE_STAT_TOGGLING 0

/-- The effect of a write of WDOG_KICK. -/
def Dev.wdogKick (d : Dev) (q : Req) (v : Nat) : Dev :=
  if bits v 0 16 = 0x4B1C then d.kick else d.perr A.SYS_WDOG_KICK q causeValue

/-- A Steward reset is requested with a cause (R399, Table 19-5). -/
def Dev.askSteward (d : Dev) (cause : Nat) : Dev := (d.wr R.SYS_RESET_CAUSE cause).setSy { d.sy with resetReq := true }

/-- STEWARD_WATCHDOG_EXPIRY. -/
def stwExpiry (d : Dev) : Dev :=
  if d.on R.SYS_WDOG_CTL_EN ∧ d.serves ∧ !d.sy.resetReq ∧ d.rd R.SYS_WDOG_CTL_PERIOD * barnMs ≤ d.sy.wdog then
    (d.stopAlive.bump R.SYS_WDOG_COUNT).askSteward 6
  else d

/-- JOB_WATCHDOG_EXPIRY of stall `n`. -/
def jobExpiry (n : Nat) (d : Dev) : Dev :=
  let ms := d.rd (R.STL_JOB_WDOG_MS n)
  if d.jobState n = jobOpen ∧ ms ≠ 0 ∧ ms * barnMs ≤ (d.job n).wdog then d.faultJob n stWatchdog kindJob 0 0 else d

/-- ALIVE_TOGGLE: 1,536 Barn cycles have passed, and the Steward is healthy. -/
def aliveToggle (d : Dev) : Dev :=
  if d.sy.healthy ∧ 1536 ≤ d.sy.aliveCount then
    let d' := d.setSy { d.sy with alive := !d.sy.alive, aliveCount := d.sy.aliveCount - 1536 }
    if d.padsOff 3 0 then d' else d'.emit (.alive !d.sy.alive)
  else d

/-- MTIME_INTERRUPT: the STC has reached MTIMECMP; mip.MTIP is set, WFI ends, and an enabled interrupt is taken as the
RISC-V privileged specification says. -/
def mtimeInterrupt (d : Dev) : Dev :=
  if d.stc < d.rd R.SYS_MTIMECMP then d
  else
    let d := d.setCsr 0x344 (setBit (d.csr 0x344) 7)
    let d := if (d.csr 0x304).testBit 7 then d.setSy { d.sy with wfi := false } else d
    let on := (d.csr 0x304).testBit 7 && ((d.csr 0x300).testBit 3 || d.sy.priv != 3)
    if on ∧ d.sy.mode = .image then d.stwTrap (2 ^ 63 + 7) 0 else d

/-- A write of MTIMECMP ends the timer interrupt when it lies above the STC. -/
def Dev.mtimecmp (d : Dev) (addr v : Nat) : Dev :=
  let d := d.setWord addr v
  if d.stc < d.rd R.SYS_MTIMECMP then d.setCsr 0x344 (clrBit (d.csr 0x344) 7) else d

/-! ## The common commands of the management bus (R375, R378) -/

/-- Whether the device sleeps. -/
def Dev.asleep (d : Dev) : Bool := d.pwState == pwDormant || d.pwState == pwFallow

/-- Whether the target takes a message that names it: not while an address header only wakes it (R378). -/
def Dev.i3cTakes (d : Dev) : Bool := !d.asleep || !(d.rd R.BARN_WAKE_EN_I3C != 0)

/-- The static address (R375). -/
def Dev.i3cStatic (d : Dev) : Nat := 0x58 + d.sy.i3cStrap

/-- A command directed to address `a`, or broadcast; another address is not the device's business. -/
def Dev.ccc (d : Dev) (a : Option (BitVec 7)) (f : Dev → Dev) : Dev :=
  match a with
  | none => f d
  | some x => if d.sy.i3cDyn = some x.toNat then (if d.i3cTakes then f d else d.emit .i3cNack) else d

/-- Answer a common command. -/
def Dev.i3cAnswer (d : Dev) (bs : List Nat) : Dev := d.emit (.i3c bs)

/-- The bytes of a number, the most significant first. -/
def natBe (k v : Nat) : List Nat := (beBytes k v).map BitVec.toNat

/-- ENEC and DISEC: event bit 0 is in-band interrupts. -/
def i3cEvents (on : Bool) (a : Option (BitVec 7)) (ev : BitVec 8) (d : Dev) : Dev :=
  d.ccc a (fun d => if ev.toNat.testBit 0 then d.setSy { d.sy with ibi := on } else d)

/-- RSTDAA clears the dynamic address. -/
def i3cRstdaa (d : Dev) : Dev := d.setSy { d.sy with i3cDyn := none }

/-- ENTDAA: a target without a dynamic address sends its provisional ID, BCR and DCR, and takes the address. -/
def i3cEntdaa (dyn : BitVec 7) (d : Dev) : Dev :=
  if d.sy.i3cDyn.isSome ∨ !d.i3cTakes then d
  else (d.i3cAnswer (natBe 6 Config.i3cPid.toNat ++ [0x02, 0x00])).setSy { d.sy with i3cDyn := some dyn.toNat }

/-- SETDASA: the target that answers to the static address takes a dynamic one. -/
def i3cSetdasa (static dyn : BitVec 7) (d : Dev) : Dev :=
  if d.sy.i3cDyn.isSome ∨ static.toNat ≠ d.i3cStatic then d
  else if d.i3cTakes then d.setSy { d.sy with i3cDyn := some dyn.toNat } else d.emit .i3cNack

/-- SETNEWDA. -/
def i3cSetnewda (old new : BitVec 7) (d : Dev) : Dev :=
  d.ccc (some old) (fun d => d.setSy { d.sy with i3cDyn := some new.toNat })

/-- GETPID, GETBCR, GETDCR, GETSTATUS, GETMWL and GETMRL. The status word is an open value: the spec states none. -/
def i3cGetpid (a : BitVec 7) (d : Dev) : Dev := d.ccc (some a) (·.i3cAnswer (natBe 6 Config.i3cPid.toNat))
def i3cGetbcr (a : BitVec 7) (d : Dev) : Dev := d.ccc (some a) (·.i3cAnswer [0x02])
def i3cGetdcr (a : BitVec 7) (d : Dev) : Dev := d.ccc (some a) (·.i3cAnswer [0x00])
def i3cGetstatus (a : BitVec 7) (d : Dev) : Dev :=
  d.ccc (some a) (fun d => let (v, d) := d.freeNext; d.i3cAnswer (natBe 2 v))
def i3cGetmwl (a : BitVec 7) (d : Dev) : Dev := d.ccc (some a) (fun d => d.i3cAnswer (natBe 2 d.sy.mwl))
def i3cGetmrl (a : BitVec 7) (d : Dev) : Dev := d.ccc (some a) (fun d => d.i3cAnswer (natBe 2 d.sy.mrl))

/-- SETMWL and SETMRL. -/
def i3cSetmwl (a : Option (BitVec 7)) (len : BitVec 16) (d : Dev) : Dev := d.ccc a (fun d => d.setSy { d.sy with mwl := len.toNat })
def i3cSetmrl (a : Option (BitVec 7)) (len : BitVec 16) (d : Dev) : Dev := d.ccc a (fun d => d.setSy { d.sy with mrl := len.toNat })

end Sys2Proof.Machine
end

