-- ==== Sys2Proof/Machine/Resets.lean ====
section
/-! DEFINITION. The resets: cold, warm, Steward and stall; the supply and reset pins; the loss of the Granary's supply
(spec/19 R396-R400, spec/21 R424, R425, R434, spec/13 R257, R258). -/
namespace Sys2Proof.Machine

/-! ## The return, and the stall reset (R392 step 5, R396) -/

/-- The return of stall `n`'s faulted job: its counters, RET_SEQ and RETURNED. -/
def Dev.returnJob (d : Dev) (n : Nat) : Dev :=
  if d.jobState n = jobFaulted ∧ !d.on (R.STL_FAULT_STAT_RETURNED n) then
    let d := (d.job n).decl.counters.foldl (fun d c => d.returnCtr n c.1 c.2) d
    ((d.bump (R.RCK_RET_SEQ_COUNT n)).offLossScale n).wr (R.STL_FAULT_STAT_RETURNED n) 1
  else d

/-- JOB_RETURN: the units of a faulted job have stopped; its counters return, the promotions of its streams are abandoned,
and the restart record is written once no ABORT is pending (Table 19-3 step 5, R394). -/
def jobReturn (n : Nat) (d : Dev) : Dev :=
  if d.jobState n = jobFaulted ∧ !d.on (R.STL_FAULT_STAT_RETURNED n) then
    let d := (d.returnJob n).abandonOf n (d.rd (R.STL_JOB_STAT_STATUS n))
    (d.setJob n { d.job n with okRecordDue := true }).okRecord n
  else d

/-- Close every trough of stall `n`; what it held is discarded and counted. -/
def Dev.closeTroughs (d : Dev) (n : Nat) : Dev :=
  troughNums.foldl (fun d t => if d.troughState n t = trgClosed then d else d.discardTrough n t trgClosed none) d

/-- STL and TRG fields that a stall reset keeps: PCTL, BIND, the grants and EGRESS. -/
def stallKeeps (a : Nat) : Bool :=
  let o := a % 4096
  o == 0x0C || (decide (a / 4096 < 0x20) && ((decide (0x40 ≤ o ∧ o ≤ 0x54)) || o == 0x5C))

/-- A stall reset of stall `n` (R396); a promotion of stall 0's, which has no job fault, is abandoned too (R214). -/
def Dev.stallReset (d : Dev) (n : Nat) : Dev :=
  if n = 0 then (((d.stopUnits 0).dropWaits 0).closeTroughs 0).abandonOf 0 stForcedOff
  else
    let d := if d.jobState n = jobOpen then d.faultJob n stForcedOff kindJob 0 0 else d
    let d := (jobReturn n d).closeTroughs n
    let d := if d.jobState n = jobClosed then d else d.closeJob n
    let d := (d.resetPages [0x10 + n, 0x20 + n] stallKeeps).setJob n { Job.none with epoch := (d.job n).epoch }
    let d := d.dropOwed n
    (troughNums.foldl (fun d t => d.setTrough n t TroughSt.reset) d).clearShadows n

/-! ## What a larger reset shares -/

/-- The words a target port plays while it fades, for m = 1 to 64 (R59): its frames carry each slot's last word faded. -/
def Dev.fadeFrames (d : Dev) (p : Nat) : Dev :=
  let x := d.port p
  if d.portOn p && x.framed && !x.lost && !d.on (R.AUD_PORT_CTL_ROLE p) then
    (List.range 64).foldl (fun (d : Dev) m =>
      d.sendFrame p ((List.range (d.portSlots p)).map (fun k => fadeWord ((x.last.get (fun _ => 0) k).toNat) (m + 1)))) d
  else d

/-- The device with everything at its reset values but what both larger resets leave: the Granary's array and its windows,
which the service routine rebuilds, Cellar, host memory, the Lofts and the Steward's SRAM, and what has left the device. -/
def Dev.restart (d : Dev) : Dev :=
  let r := Dev.reset
  { r with
    regs := d.regs.keep (fun a => decide (0x9180 ≤ a ∧ a < 0x91C0))
    mem := { r.mem with cellar := d.mem.cellar, host := d.mem.host, loft := d.mem.loft, tcsram := d.mem.tcsram }
    gr := { r.gr with words := d.gr.words }
    au := { r.au with muteLow := d.au.muteLow }
    sy := { r.sy with refSel := d.sy.refSel, bootSrc := d.sy.bootSrc, i3cStrap := d.sy.i3cStrap, alive := d.sy.alive }
    bus := { r.bus with rdata := d.bus.rdata }
    outs := d.outs
    free := d.free
    ticks := d.ticks }

/-! ## The warm reset (R396, Table 19-4) -/

/-- Whether a cause is device-fatal (Table 19-5). -/
def fatalCause (c : Nat) : Bool := decide (3 ≤ c ∧ c ≤ 5)

/-- RESET_CAUSE, REPEAT and FATAL_COUNT at a warm reset (R391, Table 19-5): REPEAT counts consecutive warm resets of one
device-fatal cause. -/
def Dev.warmCause (d : Dev) (c : Nat) : Dev :=
  let rep := d.rd R.SYS_RESET_CAUSE_REPEAT
  let same := rep != 0 && d.rd R.SYS_RESET_CAUSE == c
  let d := if fatalCause c then
      (d.bump R.SYS_FATAL_COUNT).wr R.SYS_RESET_CAUSE_REPEAT (if same then min 15 (rep + 1) else 1)
    else d.wr R.SYS_RESET_CAUSE_REPEAT 0
  d.wr R.SYS_RESET_CAUSE c

/-- A job at a warm reset: the fault procedure without ABORT or any report, then the close (R102, R396, R397). -/
def Dev.warmJob (d : Dev) (n : Nat) : Dev :=
  if d.jobState n = jobClosed then d
  else
    let d := (d.stopUnits n).dropWaits n
    (((d.wr (R.STL_JOB_STAT_STATE n) jobFaulted).returnJob n).closeTroughs n).closeJob n

/-- The registers a warm reset keeps (Table 19-4): the RCK totals, the Tally accounts and what counts them, the PROG
registers, the Hopper totals, the counts that run from cold reset, RESET_CAUSE and FATAL_COUNT, the CLK fields held in
the Barn, SAVE_STAT, of which R345 clears VALID only at a cold reset, and the Granary's windows. -/
def warmKeeps (a : Nat) : Bool :=
  let p := a / 4096
  let o := a % 4096
  (p == 0 && (o == 0xDC || o == 0xE0)) ||
  (p == 1 && o == 0x70) ||
  (p == 4 && (o == 0x54 || decide (0x60 ≤ o ∧ o < 0x78))) ||
  (p == 5 && decide (0x100 ≤ o ∧ o < 0x580)) ||
  (p == 9 && decide (0x180 ≤ o ∧ o < 0x1C0)) ||
  coldCounts a ||
  (p == 12 && (decide (0x44 ≤ o ∧ o < 0x50) || decide (0x60 ≤ o ∧ o < 0x68) || decide (0xA0 ≤ o ∧ o < 0xB8) ||
    decide (0x100 ≤ o ∧ o < 0x600))) ||
  (decide (0x30 ≤ p ∧ p < 0x40) && decide (0x100 ≤ o ∧ o < 0xF00)) ||
  (decide (0x40 ≤ p ∧ p < 0x44) && decide (0x44 ≤ o ∧ o < 0x80))

/-- Tally at a warm reset: the samples of an interval that is not settled are counted in MISSED (R321). -/
def Dev.tallyLose (d : Dev) : Dev :=
  let lost := d.ta.samples + (match d.ta.closed with
    | some (_, _, k) => k
    | none => 0)
  let d := if d.on R.TLY_STAT_RUN then d.addTo R.TLY_MISSED lost else d
  { d with ta := { d.ta with sums := .empty, acts := .empty, samples := 0, closed := none, volt := .empty, voltNext := .empty } }

/-- What stops before a warm reset: the promotions, of which nothing is told any more (R214, R397), jobs, stall 0's work, every strip, the Granary's erase, the interval, and the outputs,
which fade behind MUTE_N. -/
def Dev.warmStop (d : Dev) : Dev :=
  let d := d.muteUntilReleased
  let d := audPorts.foldl Dev.fadeFrames d
  let d := streams.foldl (fun (d : Dev) s => d.abandon s 11 stDisabled false) d
  let d := allStalls.foldl Dev.warmJob d
  let d := d.stopWork (fun _ => true) (fun _ => true)
  let d := fourUnits.foldl (fun (d : Dev) h => d.discardStrips h (fun _ => true)) d
  d.stopErase.tallyLose.stopAlive

/-- The bits of the register word at `a` that the save list holds (Table 17-6). -/
def saveMask (a : Nat) : Nat :=
  let p := a / 4096
  let o := a % 4096
  let all := fun (b : Bool) => if b then 0xFFFFFFFF else 0
  let within := fun (x y : Nat) => decide (x ≤ o ∧ o < y)
  if 0x10 ≤ p ∧ p ≤ 0x18 then if o = 0x0C then 1 else all (within 0x40 0x6C || within 0x74 0x94)
  else if 0x20 ≤ p ∧ p ≤ 0x28 then all (within 0x100 0x200 && o % 0x40 == 0x24)
  else if 0x30 ≤ p ∧ p ≤ 0x3F then all ([0x48, 0x54, 0x58, 0x5C, 0x60, 0x64, 0x124, 0x128].contains o)
  else if 0x40 ≤ p ∧ p ≤ 0x43 then all (o == 0x40 || within 0x48 0x60)
  else if 0x44 ≤ p ∧ p ≤ 0x47 then all (within 0x48 0x54 || within 0x60 0x6C || within 0x800 0xC00)
  else if 0x48 ≤ p ∧ p ≤ 0x4B then
    if within 0x80 0xA0 then 0x3FF
    else all (o == 0x40 || within 0x48 0x70 || within 0xC4 0xCC || o == 0xD0 || within 0x100 0x114 || within 0x200 0x300)
  else if 0x4C ≤ p ∧ p ≤ 0x4D then all (within 0x44 0x54)
  else if 0x50 ≤ p ∧ p ≤ 0x53 then all (o == 0x40 || o == 0x48 || o == 0x4C)
  else if 0x60 ≤ p ∧ p ≤ 0x6F then all (within 0x40 0x54 || o == 0x60 || within 0x120 0x220)
  else match p with
    | 5 => all (within 0x40 0x48 || within 0x100 0x580)
    | 6 => all (within 0x44 0x54 || within 0x140 0x340)
    | 7 => all (o == 0x40 || (within 0x100 0x180 && o % 0x20 == 0x18))
    | 8 => all (o == 0x40 || within 0x120 0x220)
    | 9 => if o = 0x48 then 0x80000 else all (within 0x40 0x48 || o == 0x4C || within 0x54 0x74 || within 0x100 0x140)
    | 10 => all (within 0x44 0x64 || within 0x100 0x180)
    | 11 => if o = 0x40 then 4 else all (within 0x100 0xF00)
    | 12 => if o = 0x44 then 5 else all (o == 0x50 || within 0x58 0x60 || within 0x6C 0x7C || within 0x80 0x94)
    | 13 => if o = 0x0C then 1 else all (within 0x50 0x74)
    | _ => 0

/-- The register words of a save area, at the addresses of its list. -/
def Save.words (x : Save) : List (Nat × Word) := x.regs.cells.filter (fun (c : Nat × Word) => saveMask c.1 != 0)

/-- A warm reset of a device that sleeps finds the registers and counters that the save list holds in the Barn: they count on
from there (R102, R444, spec/17 R344). -/
def Dev.unsave (d : Dev) : Dev :=
  match d.pw.save with
  | some x =>
    if d.pw.committed && !d.on R.BARN_SAVE_STAT_RESTORED then
      let d := { d with regs := x.words.foldl (fun (m : NMap Word) (c : Nat × Word) => m.set resetWord c.1 c.2) d.regs }
      (List.range 256).foldl (fun (d : Dev) i => d.setCtr i (x.ctrs.getD i 0)) d
    else d
  | none => d

/-- A warm reset with a cause: the ROM boots next. The straps BOOT_SRC and I3C_ADDR are latched at its release, in BOOT. -/
def Dev.warmReset (d : Dev) (cause : Nat) : Dev :=
  let d := (d.warmCause cause).unsave.warmStop
  let present := d.on R.CLK_REF_STAT_PRESENT
  let aborted := d.on R.GRN_ERASE_STAT_ABORTED
  let sector := d.rd R.GRN_ABORT_SECTOR
  let r := d.restart
  let r := { r with
    regs := d.regs.keep warmKeeps
    tn := { r.tn with rick := d.tn.rick, rsigs := d.tn.rsigs, rsigNext := d.tn.rsigNext, rsigLast := d.tn.rsigLast }
    ck := { r.ck with gap := d.ck.gap }
    ta := d.ta
    pw := { r.pw with temps := d.pw.temps, save := d.pw.save, levels := d.pw.levels }
    sy := { r.sy with bootB := d.sy.bootB, i3cDyn := d.sy.i3cDyn, ibi := d.sy.ibi, mwl := d.sy.mwl, mrl := d.sy.mrl } }
  let r := (r.wr R.CLK_REF_STAT_PRESENT (b2n present)).wr R.CLK_REF_STAT_FAMILY (b2n r.sy.refSel)
  let r := (r.wr R.GRN_ERASE_STAT_ABORTED (b2n aborted)).wr R.GRN_ABORT_SECTOR sector
  (r.wr R.THR_BATCH_CTL_CAUSE_THERMAL 0).setPause.wr R.SYS_BOOT_STAT_KIND 1

/-! ## GSR integrity (R391) -/

/-- A GSR integrity failure is device-fatal: a warm reset with cause 4 (R388, R391, Table 19-5). -/
def Dev.gsrFailure (d : Dev) : Dev := d.warmReset 4

/-- BOOT with step 1's check of the ROM: `intact` says that its CRC-32C is right. With REPEAT at 3 no failure resets the
device again: the ROM service loop runs (R391, DEDUCED). -/
def romBoot (intact src : Bool) (addr : BitVec 2) (d : Dev) : Dev :=
  if d.sy.mode = .rom ∧ intact = false ∧ d.rd R.SYS_RESET_CAUSE_REPEAT < 3 then d.gsrFailure else boot src addr d

/-- A GSR call with its check of the registry: `intact` says that the registry is consistent. -/
def gsrService (intact : Bool) (f : Dev → Nat × Nat × Dev) (d : Dev) : Dev :=
  if d.gsrRuns ∧ intact = false then d.gsrFailure else gsrCall f d

/-! ## The pins (R424, R425, R434) -/

/-- Cold reset: everything cleared, MUTE_N low. -/
def Dev.coldReset (d : Dev) : Dev :=
  let d := d.muteUntilReleased.stopAlive
  let r := d.restart
  { r with tn := Dev.reset.tn }.wr R.CLK_REF_STAT_FAMILY (b2n r.sy.refSel)

/-- PWR_OK_AON_FALL: the whole device is held in cold reset (R425). -/
def pwrOkFall (d : Dev) : Dev :=
  let d := d.coldReset
  d.setSy { d.sy with coldHold := true, pwrOk := false, mode := .inReset }

/-- PWR_OK_AON_RISE: the straps are latched and the cold reset hold begins (R24, R367, R424). -/
def pwrOkRise (refSel bootSrc : Bool) (addr : BitVec 2) (d : Dev) : Dev :=
  if d.sy.pwrOk then d
  else
    let d := d.setSy { d.sy with refSel := refSel, bootSrc := bootSrc, i3cStrap := addr.toNat, pwrOk := true }
    d.wr R.CLK_REF_STAT_FAMILY (b2n refSel)

/-- COLD_RESET_RELEASE: the rails have held for 1 ms; the Barn releases the reset and the ROM starts (R424). -/
def coldRelease (d : Dev) : Dev :=
  if d.sy.coldHold ∧ d.sy.pwrOk then
    let d := d.coldReset
    d.setSy { d.sy with coldHold := false, mode := .rom }
  else d

/-- AON_UNDERVOLTAGE: MUTE_N goes low, until it is released again (R400, R425). -/
def aonUndervoltage (d : Dev) : Dev := d.muteUntilReleased

/-- POWER_LOSS: VDD_GRN or VDD_SOC is lost while the Granary does `op`, beside an erase that runs (R258, Table 13-7). -/
def powerLoss (op : GOp) (d : Dev) : Dev :=
  let d := d.granaryLoss op
  let d := (d.wr R.GRN_ERASE_STAT_STATE 0).wr R.GRN_ERASE_STAT_SUSPENDED 0
  { d with gr := { d.gr with eraseWin := none } }

/-- RESET_N_ASSERT: RESET_N is low at `samples` consecutive Barn samples; two are a warm reset (R434). -/
def resetN (samples : Nat) (d : Dev) : Dev := if 2 ≤ samples then d.warmReset 1 else d

/-! ## RESET_CMD (R396, Table 18-7) -/

/-- Stall resets by command. -/
def Dev.resetStalls (d : Dev) (mask : Nat) : Dev :=
  if mask = 0 then d else (maskList 9 mask).foldl Dev.stallReset (d.wr R.SYS_RESET_CAUSE 8)

/-- The effect of a write of RESET_CMD: BOOT_B is held, and the larger reset takes in the smaller ones. -/
def Dev.resetCmd (d : Dev) (v : Nat) : Dev :=
  let d := if v.testBit 2 then d.setSy { d.sy with bootB := true } else d
  if v.testBit 1 then d.warmReset 2
  else (if v.testBit 0 then d.askSteward 7 else d).resetStalls (bits v 8 9)

/-! ## The Steward reset (R370, R396) -/

/-- STEWARD_RESET: a request is taken once a GSR call has returned. Batch work pauses, the image starts again at ENTRY, and
an open update is aborted; while the ROM runs, it simply goes on. One that is taken after a GSR call stops a running erase
(R257); else an erase continues (Table 19-4; DEDUCED from the two). -/
def stewardReset (d : Dev) : Dev :=
  if !d.sy.resetReq then d
  else
    let d := if d.sy.afterCall then d.stopErase else d
    let d := d.setSy { d.sy with resetReq := false, afterCall := false, wdog := 0 }
    if d.sy.mode ≠ .image then d
    else
      let d := (d.stopAlive.wr R.SYS_WDOG_CTL_EN 1).wr R.SYS_BOOT_STAT_KIND 2
      let d := ((d.wr R.THR_BATCH_CTL_CAUSE_STEWARD 1).setPause.yieldAll.dropSwaps).clearShadows 10
      let d := if d.sy.update.isSome then d.endUpdate updAborted else d
      d.startCore .image (0x38000000 + d.sy.entry)

/-! ## PCIe resets and link state (R68, R308, R311) -/

/-- FLR of function `f` = 4 × port + function, which only a live link brings. -/
def flr (f : Nat) (d : Dev) : Dev :=
  if !d.hostUp f then d
  else
    let d := d.bump (R.PCI_FLR_COUNT (f / 4))
    match d.stallOfFunc f with
    | some n => d.stallReset n
    | none => d

/-- A stall reset of every stall bound to port `p` (R308). -/
def Dev.resetPort (d : Dev) (p : Nat) : Dev := (d.stallsOfPort p).foldl Dev.stallReset d

/-- HOT_RESET of port `p`, which only a live link brings. -/
def hotReset (p : Nat) (d : Dev) : Dev := if d.on (R.PCI_LINK_STAT_UP p) then d.resetPort p else d

/-- PCIE_LINK_UP of port `p` at a speed and width; a port whose domain is off does not train. -/
def pcieUp (p : Nat) (speed width : Nat) (d : Dev) : Dev :=
  if !d.domOn (44 + p) || d.on (R.PCI_LINK_STAT_UP p) then d
  else (((d.dropLevel 2 p).wr (R.PCI_LINK_STAT_UP p) 1).wr (R.PCI_LINK_STAT_SPEED p) speed).wr (R.PCI_LINK_STAT_WIDTH p) width

/-- SRIOV_VF_ENABLE: the host sets the number of VFs of port `p`, over a live link. -/
def sriov (p vfs : Nat) (d : Dev) : Dev := if d.on (R.PCI_LINK_STAT_UP p) then d.wr (R.PCI_LINK_STAT_NUM_VFS p) vfs else d

end Sys2Proof.Machine
end

