-- ==== Sys2Proof/Machine/Power.lean ====
section
/-! DEFINITION. The device states: commands, entry into DORMANT and FALLOW, the save list, wake sources, the wake, pads,
regulators and DVFS, and thermal control (spec/17). -/
namespace Sys2Proof.Machine

/-- The PIRQ bits of the PWR, BARN and THM pages. -/
abbrev irqEntering : Nat := 0
abbrev irqRefused : Nat := 1
abbrev irqAckFail : Nat := 2
abbrev irqDvfsDone : Nat := 3
abbrev irqWoken : Nat := 0
abbrev irqKnockRun : Nat := 1
abbrev irqWinLost : Nat := 2

/-- The four regulators. -/
def regulators : List Nat := [0, 1, 2, 3]

/-! ## Regulators (R348-R351) -/

/-- A voltage in mV as VOUT_COMMAND sends it: round(V × 2^−e), e the signed exponent in VOUT_MODE (R348). -/
def Dev.voutWord (d : Dev) (r mv : Nat) : Nat :=
  let e := toSigned 5 (d.rd (R.PWR_REG_CFG_VOUT_MODE r))
  if e ≤ 0 then (2 * mv * 2 ^ e.natAbs + 1000) / 2000 else (2 * mv + 1000 * 2 ^ e.natAbs) / (2000 * 2 ^ e.natAbs)

/-- A raw READ_VOUT in mV, rounded down (R348). -/
def voutMv (mode raw : Nat) : Nat :=
  let e := toSigned 5 mode
  if e ≤ 0 then raw * 1000 / 2 ^ e.natAbs else raw * 1000 * 2 ^ e.natAbs

/-- PMBus command codes: OPERATION and VOUT_COMMAND. -/
abbrev pmbOperation : Nat := 0x01
abbrev pmbVout : Nat := 0x21

/-- Send a PMBus command: a FALLOW action to 0 mV is OPERATION off; a RUN action turns a regulator that is off on first. A
lowering takes its record with it at once (R349-R351). -/
def Dev.sendVout (d : Dev) (v : Vout) : Dev :=
  let old := d.rd (R.PWR_REG_ACK_VOUT_ACK v.reg)
  let off := decide (v.use = .fallow) && v.mv == 0
  let d := if off then d.emit (.pmbus v.reg pmbOperation 0)
    else
      let d := if v.use = .run ∧ d.rd (R.PWR_REG_MV_FALLOW_MV v.reg) = 0 then d.emit (.pmbus v.reg pmbOperation 0x80) else d
      d.emit (.pmbus v.reg pmbVout (d.voutWord v.reg v.mv))
  let d := d.wr (R.PWR_REG_ACK_VOUT_ACK v.reg) (min old v.mv)
  let slept := if v.use = .fallow ∧ !d.pw.slept.contains v.reg then d.pw.slept ++ [v.reg] else d.pw.slept
  (d.setPw { d.pw with vout := some v, slept := slept }).wr (R.PWR_REG_ACK_STAT v.reg) 1

/-- Send the next command that waits, if none is in flight. -/
def Dev.nextVout (d : Dev) : Dev :=
  match d.pw.vout, d.pw.queue with
  | none, v :: vs => (d.setPw { d.pw with queue := vs }).sendVout v
  | _, _ => d

/-- Queue commands. -/
def Dev.queueVouts (d : Dev) (vs : List Vout) : Dev := (d.setPw { d.pw with queue := d.pw.queue ++ vs }).nextVout

/-- The regulators in use: enabled, and not BAD. -/
def Dev.liveRegs (d : Dev) : List Nat :=
  regulators.filter (fun r => d.on (R.PWR_REG_CFG_EN r) && d.rd (R.PWR_REG_ACK_STAT r) != 2)

/-- The FALLOW and RUN actions of a regulator. -/
def Dev.fallowAction (d : Dev) (r : Nat) : Vout := ⟨r, d.rd (R.PWR_REG_MV_FALLOW_MV r), .fallow⟩
def Dev.runAction (d : Dev) (r : Nat) : Vout := ⟨r, d.rd (R.PWR_REG_MV_RUN_MV r), .run⟩

/-- The effect of a write of REG[r]: enabling reads VOUT_MODE, which is `mode`, and READ_VOUT, which is `raw` or fails
(R348). -/
def Dev.regCfg (d : Dev) (q : Req) (r v mode : Nat) (raw : Option Nat) : Dev :=
  if 3 ≤ bits v 8 3 then d.perr (A.PWR_REG_CFG r) q causeValue
  else
    let was := d.on (R.PWR_REG_CFG_EN r)
    let d := d.storeWord (A.PWR_REG_CFG r) v
    if was || !v.testBit 7 then d
    else
      let d := d.wr (R.PWR_REG_CFG_VOUT_MODE r) (mode % 32)
      if mode / 32 % 8 ≠ 0 then d.wr (R.PWR_REG_ACK_STAT r) 2
      else match raw with
        | some x => (d.wr (R.PWR_REG_ACK_STAT r) 0).wr (R.PWR_REG_ACK_VOUT_ACK r) (min (voutMv mode x) 65535)
        | none => (d.wr (R.PWR_REG_ACK_STAT r) 0).wr (R.PWR_REG_ACK_VOUT_ACK r) 0

/-! ## The save list (R344, Table 17-6) -/

/-- The part of the register bank that the save list takes from some pages, beside the restored words of pages whose domain
has stayed off since the wake. -/
def Dev.saved (d : Dev) (ps : List Nat) : NMap Word :=
  d.regs.cells.foldl (fun m c =>
    let k := BitVec.ofNat 32 (saveMask c.1)
    if ps.contains (c.1 / 4096) ∧ k ≠ 0 then m.set resetWord c.1 ((c.2 &&& k) ||| (resetWord c.1 &&& ~~~k)) else m) d.pw.restored

/-- The save area of an entry (R344): MAGIC, the length of Table 17-6, the STC and what the list holds. -/
def Dev.saveArea (d : Dev) (ps : List Nat) : Save :=
  ⟨0x45564153, 14368, d.stc, d.saved ps, (List.range 256).map d.ctr, d.mem.training⟩

/-- The layout of WAKE_EN: the first bit of each source's group. -/
def wakeBit (cause port : Nat) : Nat := [0, 4, 8, 10, 14, 15].getD cause 0 + port

/-! ## Entering (R334-R336, Table 17-3) -/

/-- Refuse a PWR_CMD. -/
def Dev.refusePwr (d : Dev) (cause : Nat) : Dev :=
  ((d.wr R.PWR_STAT_REFUSE cause).bump R.PWR_REFUSE_COUNT).irq .pwr 0 irqRefused

/-- The domains that stay ON through an entry, and those that go to retention (R332). -/
def Dev.sleepOn (d : Dev) (fallow : Bool) (x : Nat) : Bool :=
  !fallow && d.domOn x && (streams.any (fun s => d.on (R.SEQ_STRM_CFG_EN s) &&
    (x == 57 || d.inPort s + 53 == x || d.outPort s + 53 == x)))
def Dev.sleepRet (d : Dev) (fallow : Bool) (x : Nat) : Bool :=
  d.domOn x && (if 24 ≤ x ∧ x < 40 then !fallow && (d.rd R.PWR_DORM_RET_BANKS).testBit (x - 24)
    else decide (40 ≤ x ∧ x < 44) && (!fallow || d.on R.PWR_CTL_CELLAR_SR))

/-- Step 3: in FALLOW, MUTE_N goes low and every stream stops. -/
def Dev.entryStreams (d : Dev) (fallow : Bool) : Dev :=
  if fallow then
    streams.foldl (fun (d : Dev) s => if d.on (R.SEQ_STRM_CFG_EN s) then d.stopStream s else d) d.muteUntilReleased
  else d

/-- What holds the entry: a running erase, and in FALLOW a stream or a fade that has not ended on a port with frames. -/
def Dev.entryHeld (d : Dev) (fallow : Bool) : Bool :=
  d.erasing || (fallow && audPorts.any (fun p => d.portOn p && (d.port p).framed && !(d.port p).lost && d.portLive p))

/-- Step 4: Tally settles; step 5: the Cellar refreshes itself, the lanes go idle, and stall 0's counters from 256 on are
released; what still runs for a stream ends. -/
def Dev.entryQuiet (d : Dev) (fallow : Bool) : Dev :=
  let d := if d.domOn 59 then d.tallyPark else d
  let d := (([40, 41, 42, 43].filter (d.sleepRet fallow)).foldl (fun (d : Dev) x => d.setBitOf R.CEL_STAT_SR (x - 40)) d)
  let d := furPorts.foldl (fun (d : Dev) p => d.setLink p Link.down) (pcieDown 1 (pcieDown 0 d))
  let d := ((d.stopWork (fun _ => true) (fun _ => true)).setLive []).setWaiters []
  let d := streams.foldl (fun (d : Dev) s => d.setStream s { d.stream s with live := none, standby := none, delayed := none }) d
  let total := (d.tn.rick.cells.filter (fun c => decide (256 ≤ c.1 ∧ c.1 < standingEnd))).foldl (fun v c => v + c.2.toNat) 0
  d.addTo (R.RCK_REL_TOTAL 0) total

/-- The pages whose registers go: those of the domains that go off, the fabric's (STL, TRG and RCK), and the Cellar's when no
pair is in self-refresh. -/
def sleepPages (off : Nat → Bool) (pairs : Bool) : List Nat :=
  (domains.filter off).flatMap domainPages ++ (List.range 9).map (0x10 + ·) ++ (List.range 9).map (0x20 + ·) ++ [5] ++
    (if pairs then [] else [8])

/-- A DVFS change ends. -/
def Dev.endDvfs (d : Dev) (ok : Bool) : Dev :=
  let d := (d.setPw { d.pw with dvfs := none }).wr R.PWR_DVFS_STAT_BUSY 0
  if ok then (d.wr R.PWR_DVFS_STAT_DONE 1).irq .pwr 0 irqDvfsDone else d.wr R.PWR_DVFS_STAT_FAIL 1

/-- What ends before an entry commits: a job that still lives, which is stall 0's under FORCE (R334), closes; a DVFS change in
progress fails (DESIGN CHOICE); accesses that wait for their place are given up. -/
def Dev.entryEnds (d : Dev) : Dev :=
  let d := (allStalls.filter (fun n => d.jobState n != jobClosed)).foldl Dev.warmJob d
  (if d.pw.dvfs.isSome then d.endDvfs false else d).setOwed []

/-- Step 7: the clocks stop, and the pads of the Cellar pairs in self-refresh are latched; those of the domains that go off
are latched as these lose their supply. -/
def Dev.entryClocks (d : Dev) (ret : List Nat) : Dev :=
  (ret.filter (fun x => decide (40 ≤ x))).foldl Dev.latchPads d.stopAlive.pllStop

/-- Steps 4 to 9: the device is committed to sleep. -/
def Dev.commitEntry (d : Dev) (e : Entry) : Dev :=
  let fallow := e.fallow
  let d := d.entryEnds.entryQuiet fallow
  let ret := domains.filter (d.sleepRet fallow)
  let on := domains.filter (d.sleepOn fallow)
  let off := fun (x : Nat) => !ret.contains x && !on.contains x
  let ps := sleepPages off (d.on R.CEL_STAT_SR)
  let save := d.saveArea ps
  let d := (d.wr R.BARN_SAVE_STAT_VALID 1).wr R.BARN_SAVE_STAT_RESTORED 0
  let d := (domains.filter off).reverse.foldl Dev.loseDomain (d.entryClocks ret)
  let keep := fun (a : Nat) => decide (0x9180 ≤ a ∧ a < 0x91C0) || a == A.SIL_ZERO_PEND || a == A.CEL_ZERO_PEND ||
    (a / 4096 == 12 && survives a)
  let d := (ret.foldl (fun (d : Dev) x => d.wr R.PWR_DOM_ON (clrBit (d.rd R.PWR_DOM_ON) x)) d).resetPages ps keep
  let d := if d.sy.update.isSome then d.endUpdate updAborted else d
  let d := d.setSy { d.sy with resume := d.sy.mode, mode := .inReset, wdog := 0, resetReq := false }
  let d := { d with mem := { d.mem with tcsram := .empty, training := [] }
                    tn := { d.tn with troughs := .empty, rick := .empty, barriers := [] } }
  d.setPw { d.pw with committed := true, armed := false, save := some save, restored := .empty, ret := ret, draining := [],
                      forcing := [], rising := [], toSwitch := [], slept := [] }

/-- Go on with an entry that has been acknowledged and that nothing holds. -/
def Dev.settleEntry (d : Dev) : Dev :=
  match d.pw.entry with
  | some e => if e.acked && !d.pw.committed && d.pwState == pwEntering && !d.entryHeld e.fallow then d.commitEntry e else d
  | none => d

/-- The acknowledgment, or its timeout, has come. -/
def Dev.ackEntry (d : Dev) : Dev :=
  match d.pw.entry with
  | some e =>
    if d.pwState ≠ pwEntering ∨ e.acked then d
    else ((d.setPw { d.pw with entry := some { e with acked := true } }).entryStreams e.fallow).settleEntry
  | none => d

/-- Latch a wake event in PENDING. -/
def Dev.latchWake (d : Dev) (cause port : Nat) : Dev := d.setBitOf R.BARN_PENDING_EVENTS (wakeBit cause port)

/-- The level-type sources that are asserted and enabled are pending (R337). -/
def Dev.latchLevels (d : Dev) : Dev :=
  (d.pw.levels.filter (fun x => (d.word A.BARN_WAKE_EN).testBit (wakeBit x.1 x.2))).foldl (fun (d : Dev) x => d.latchWake x.1 x.2) d

/-- Begin an entry: step 1. -/
def Dev.beginEntry (d : Dev) (fallow crit : Bool) : Dev :=
  (((d.ungate.wr R.PWR_STAT_STATE pwEntering).irq .pwr 0 irqEntering).setPw
    { d.pw with entry := some ⟨fallow, crit, false⟩, committed := false, armed := false, wake := none, tries := 0 }).latchLevels

/-- Whether a stall's job is open or faulted. -/
def Dev.jobLives (d : Dev) (n : Nat) : Bool := d.jobState n != jobClosed

/-- The effect of an accepted write of PWR_CMD with CMD 1, 2 or 3 (R334, R342). -/
def Dev.pwrRun (d : Dev) : Dev :=
  if d.pwState ≠ pwWaking then d.refusePwr 2
  else if !d.coreOn then d.refusePwr 4
  else (d.wr R.PWR_STAT_STATE pwRun).setPw { d.pw with entry := none, committed := false, armed := false, wake := none, slept := [] }
def Dev.pwrSleep (d : Dev) (fallow force : Bool) : Dev :=
  if d.pwState ≠ pwRun ∧ d.pwState ≠ pwIdle then d.refusePwr 2
  else if allStalls.any d.jobLives ∧ !force then d.refusePwr 3
  else ((allStalls.filter d.jobLives).foldl Dev.stallReset d).beginEntry fallow false

/-- The effect of a write of PWR_CMD: a stall without the right is refused, and its FORCE is ignored. -/
def Dev.pwrCmd (d : Dev) (q : Req) (v : Nat) : Dev :=
  let right := match q with
    | .stall n => (d.rd R.PWR_HOST_PWR_STALLS).testBit (n.val - 1) && n.val != 0
    | _ => true
  let force := v.testBit 8 && (match q with
    | .stall _ => false
    | _ => true)
  let cmd := bits v 0 3
  if cmd = 0 ∨ 3 < cmd then d.perr A.SYS_PWR_CMD q causeValue
  else if !right then d.refusePwr 1
  else if cmd = 1 then d.pwrRun
  else d.pwrSleep (cmd == 3) force

/-- The effect of a write of PWR.CTL: its RW fields, and ENTRY_ACK. -/
def Dev.pwrCtl (d : Dev) (v : Nat) : Dev :=
  let d := d.storeWord A.PWR_CTL v
  if v.testBit 0 then d.ackEntry else d

/-- ENTRY_ACK_TIMEOUT. -/
def entryTimeout (d : Dev) : Dev :=
  match d.pw.entry with
  | some e => if d.pwState = pwEntering ∧ !e.acked then (d.bump R.PWR_ACK_LATE_COUNT).ackEntry else d
  | none => d

/-- DEVICE_IDLE_TIMEOUT: the device has been idle for DEV_IDLE ms (R335). -/
def idleTimeout (d : Dev) : Dev :=
  if d.on R.PWR_CTL_AUTO_DORMANT && decide (d.pwState ≤ pwIdle) && allStalls.all (fun n => d.jobState n != jobOpen) &&
      streams.all (fun s => !d.on (R.SEQ_STRM_CFG_EN s)) && d.tn.live.isEmpty && !d.erasing then d.pwrCmd .mgmt 2
  else d

/-! ## Wake events (R337-R340) -/

/-- A wake begins: step 1, and step 2 when regulators received a FALLOW action (R339, R341, R343). -/
def Dev.startWake (d : Dev) (cause port : Nat) : Dev :=
  let doms := if cause = 1 then d.rd R.BARN_KNOCK_MASK else d.rd R.BARN_WAKE_MASK
  let d := ((d.wr R.PWR_STAT_STATE pwWaking).wr R.BARN_WAKE_STAT_CAUSE cause).wr R.BARN_WAKE_STAT_PORT port
  let d := (((d.bump R.BARN_WAKE_COUNT).irq .barn 0 irqWoken).mgmtIrq irqWake).wr R.BARN_PENDING_EVENTS 0
  let d := d.setPw { d.pw with wake := some (cause, port, doms), queue := [] }
  d.queueVouts ((regulators.filter (d.pw.slept.contains ·)).map d.runAction)

/-- Step 3: the mandatory set is switched on, once no RUN action is owed. -/
def Dev.switchMandatory (d : Dev) : Dev :=
  if d.pwState = pwWaking ∧ d.pw.vout.isNone ∧ d.pw.queue.isEmpty then [62, 63, 60, 52, 59, 58].foldl Dev.switchOn d else d

/-- A wake event acts now. -/
def Dev.wakeNow (d : Dev) (cause port : Nat) : Dev := ((d.setPw { d.pw with tries := 0 }).startWake cause port).switchMandatory

/-- The latched event with the lowest bit whose source is enabled, as its source and port. -/
def Dev.pendingWake (d : Dev) : Option (Nat × Nat) :=
  let m := d.rd R.BARN_PENDING_EVENTS &&& d.word A.BARN_WAKE_EN
  ([0, 1, 2, 3, 4, 5].flatMap (fun c => (List.range ([4, 4, 2, 4, 1, 1].getD c 0)).map (fun p => (c, p)))).find?
    (fun x => m.testBit (wakeBit x.1 x.2))

/-- What becomes of a wake event of a source on a port (R337, R338, R358): whether it was taken, and the device after. The
cause of a level-type event persists, whatever the state (R337), until the port comes up or its domain on (DESIGN CHOICE); the
Barn timer's is latched alone. -/
def Dev.wakeEvent (d : Dev) (cause port : Nat) (level : Bool) : Bool × Dev :=
  let d := if level && cause != 5 then d.holdLevel cause port else d
  if !(d.word A.BARN_WAKE_EN).testBit (wakeBit cause port) then (false, d)
  else if d.pwState = pwEntering then
    if !d.pw.committed ∨ level then (true, d.latchWake cause port)
    else (false, (d.bump R.BARN_WIN_LOST_COUNT).irq .barn 0 irqWinLost)
  else if d.asleep then
    if d.pw.critHold then (false, if level then d.latchWake cause port else d) else (true, d.wakeNow cause port)
  else (false, d)

/-- LANE_ACTIVITY on Furrow port `p`. -/
def laneActivity (p samples : Nat) (d : Dev) : Dev := if 16 ≤ samples then (d.wakeEvent 0 p true).2 else d

/-- PCIE_TRAINING_DETECT on PCIe port `p`. -/
def pcieDetect (p : Nat) (d : Dev) : Dev := (d.wakeEvent 2 p true).2

/-- PERST_ASSERT of PCIe port `p`: stall resets, and a level-type wake (R308, R338). -/
def perst (p : Nat) (d : Dev) : Dev := ((d.resetPort p).wakeEvent 2 p true).2

/-- AUDIO_FRAME_WAKE on port `p`, whose domain is off. -/
def audioWake (p : Nat) (d : Dev) : Dev := if d.domOn (53 + p) then d else (d.wakeEvent 3 p true).2

/-- I3C_WAKE_HEADER: an address header names the sleeping device; it is NACKed (R338, R378). One that comes before the entry
commits is latched, and the target still answers (R337). -/
def i3cWake (d : Dev) : Dev :=
  if !d.on R.BARN_WAKE_EN_I3C ∨ d.pwState = pwWaking then d
  else if d.pw.committed then (d.wakeEvent 4 0 false).2.emit .i3cNack
  else (d.wakeEvent 4 0 false).2

/-- BARN_TIMER_EXPIRY: BARN.TIMER cycles since WAKE_ARMED have passed. -/
def timerExpiry (d : Dev) : Dev :=
  let t := d.rd R.BARN_TIMER_CYC
  if d.asleep ∧ d.pw.armed ∧ t ≠ 0 ∧ t ≤ d.pw.timer then (d.wakeEvent 5 0 true).2 else d

/-- KNOCK_ACCEPT: bursts on lane 0 of port `p` (R303, R304, R337, R340): a knock among them, awake, only records its mask; a knock that is taken is
echoed. -/
def knockAccept (p : Nat) (bursts : List Nat) (d : Dev) : Dev :=
  match d.heardKnock bursts with
  | none => d
  | some mask =>
  if d.pwState = pwRun ∨ d.pwState = pwIdle ∨ d.pwState = pwWaking then
    ((d.wr R.BARN_KNOCK_MASK mask).irq .barn 0 irqKnockRun).emit (.echo p)
  else
    let before := d.rd R.BARN_KNOCK_MASK
    let (taken, d) := (d.wr R.BARN_KNOCK_MASK mask).wakeEvent 1 p false
    if taken then d.emit (.echo p) else d.wr R.BARN_KNOCK_MASK before

/-- WAKE_ARMED: six Barn cycles after ENTRY_COMMIT; latched events wake the device, else FALLOW begins its FALLOW actions
(Table 17-3 steps 10 and 11, R343). -/
def wakeArmed (d : Dev) : Dev :=
  let d := d.settleEntry
  match d.pw.entry with
  | none => d
  | some e =>
    if !d.pw.committed ∨ d.pw.armed then d
    else
      let d := (d.setPw { d.pw with armed := true, timer := 0, critHold := e.crit }).wr R.PWR_STAT_STATE
        (if e.fallow then pwFallow else pwDormant)
      let d := d.latchLevels
      match (if e.crit then none else d.pendingWake) with
      | some (c, p) => d.wakeNow c p
      | none => if e.fallow then d.queueVouts (d.liveRegs.map d.fallowAction) else d

/-- CRIT_HOLD_END: wake events act again (R358). -/
def critHoldEnd (d : Dev) : Dev :=
  if !d.pw.critHold then d
  else
    let d := (d.setPw { d.pw with critHold := false }).latchLevels
    match d.pendingWake with
    | some (c, p) => if d.asleep then d.wakeNow c p else d
    | none => d

/-! ## The wake (R341-R345, Table 17-5) -/

/-- PD58 has come on during a wake: the Steward starts again with what ran before (DEDUCED: an image at its ENTRY, the ROM in
its service loop or at its boot). -/
def Dev.restartCore (d : Dev) : Dev :=
  if d.sy.mode ≠ .inReset ∨ !d.domOn 58 then d
  else
    let d := d.wr R.SYS_WDOG_CTL_EN 1
    d.startCore d.sy.resume (if d.sy.resume = .image then 0x38000000 + d.sy.entry else 0)

/-- DOMAIN_ON of domain `x`. -/
def domainSwitched (x : Nat) (d : Dev) : Dev := (domainOn x d).restartCore

/-- The wake set apart from the mandatory set, ascending (R339): the domains named, the bays of enabled streams and, behind
them, the banks in retention; never a disabled one. -/
def Dev.wakeSet (d : Dev) : List Nat :=
  let named := match d.pw.wake with
    | some (_, _, m) => m
    | none => 0
  let bays := streams.foldl (fun m s =>
    if d.on (R.SEQ_STRM_CFG_EN s) then m ||| d.rd (R.SEQ_STRM_BAYS_PINNED s) ||| d.rd (R.SEQ_STRM_BAYS_STANDBY s) else m) 0
  domains.filter (fun x => d.domEn x && (named.testBit x || bays.testBit x || (d.pw.ret.contains x && decide (x < 40))))

/-- The saved words take their places: at once on the pages of the fabric and of domains that are on, on the others when their
domain comes on (R331, R344). -/
def Dev.restore (d : Dev) (x : Save) : Dev :=
  let away := domains.filter (fun y => !d.domOn y)
  let waits := fun (a : Nat) => away.any (fun y => (domainPages y).contains (a / 4096))
  let d := { d with regs := (x.words.filter (fun (c : Nat × Word) => !waits c.1)).foldl (fun (m : NMap Word) (c : Nat × Word) => m.set resetWord c.1 c.2) d.regs
                    mem := { d.mem with training := x.training } }
  let d := d.setPw { d.pw with restored := x.regs.keep waits }
  (List.range 256).foldl (fun (d : Dev) i => d.setCtr i (x.ctrs.getD i 0)) d

/-- SAVE_RESTORE_DONE: the save list is restored, or its CRC fails (R344, R345); the bay sequencer holds the bays of the
enabled streams again (R342). -/
def saveRestore (crcOk : Bool) (d : Dev) : Dev :=
  if d.pwState ≠ pwWaking ∨ !d.domOn 62 ∨ !d.domOn 63 ∨ d.on R.BARN_SAVE_STAT_RESTORED then d
  else match d.pw.save with
  | none => d
  | some x =>
    if !crcOk then (d.wr R.BARN_SAVE_STAT_CRC_FAIL 1).warmReset 3
    else
      let d := (d.restore x).wr R.BARN_SAVE_STAT_RESTORED 1
      let d := (streams.filter (fun s => d.on (R.SEQ_STRM_CFG_EN s))).foldl Dev.pinBays d
      d.wakeSet.foldl Dev.switchOn d

/-- RAIL_FAIL_RETRY: 100 ms after a failed RUN action, the wake is tried again, three times in all (R341). -/
def railRetry (d : Dev) : Dev :=
  match d.pw.wake with
  | some (c, p, _) =>
    if d.pwState = pwFallow ∧ d.pw.vout.isNone ∧ d.pw.queue.isEmpty ∧ 0 < d.pw.tries ∧ d.pw.tries < 3 then
      (d.startWake c p).switchMandatory
    else d
  | none => d

/-- A RUN action failed: every rail goes back to its FALLOW action, and the device to FALLOW. -/
def Dev.railFail (d : Dev) : Dev :=
  let d := (d.wr R.BARN_WAKE_STAT_RAIL_FAIL 1).wr R.PWR_STAT_STATE pwFallow
  let d := d.setPw { d.pw with tries := d.pw.tries + 1, queue := [] }
  d.queueVouts (d.liveRegs.map d.fallowAction)

/-! ## Acknowledgments, DVFS (R349, R352, Table 17-8) -/

/-- Ask for the divider of a DVFS change: the step is written to TCLK_DIV.REQ if R34 lets it. -/
def Dev.dvfsDivide (d : Dev) (x : Dvfs) : Dev :=
  if d.divOk x.step then
    let d := d.wr R.CLK_TCLK_DIV_REQ x.step
    { d with ck := { d.ck with divDue := true } }
  else d.endDvfs false

/-- Whether READ_VOUT `raw` is within ±1.5 % of `mv`, with the exponent of VOUT_MODE (R349). -/
def voutNear (mode raw mv : Nat) : Bool :=
  let e := toSigned 5 mode
  let k := 2 ^ e.natAbs
  let got : Int := if e ≤ 0 then ((raw * 1000 : Nat) : Int) else ((raw * k * 1000 : Nat) : Int)
  let want : Int := if e ≤ 0 then ((mv * k : Nat) : Int) else (mv : Int)
  decide ((got - want).natAbs * 1000 ≤ 15 * want.natAbs)

/-- Whether READ_VOUT and STATUS_WORD confirm a command (R349): the voltage is near, and the status tells of no busy, off or
fault; a turning off is confirmed by bit 6 (R351). -/
def Dev.voutConfirms (d : Dev) (v : Vout) (raw status : Nat) : Bool :=
  if decide (v.use = .fallow) && v.mv == 0 then status.testBit 6
  else voutNear (d.rd (R.PWR_REG_CFG_VOUT_MODE v.reg)) raw v.mv && (status &&& 0xE8FE) == 0

/-- VOUT_ACKNOWLEDGED: a poll of the regulator of the command in flight returns READ_VOUT and STATUS_WORD; if they confirm the
command it is acknowledged, and else the host polls on (R349). -/
def voutAcknowledged (raw status : Nat) (d : Dev) : Dev :=
  match d.pw.vout with
  | none => d
  | some v =>
    if !d.voutConfirms v raw status then d
    else
    let d := ((d.setPw { d.pw with vout := none }).wr (R.PWR_REG_ACK_VOUT_ACK v.reg) v.mv).wr (R.PWR_REG_ACK_STAT v.reg) 0
    let d := match v.use, d.pw.dvfs with
      | .raise, some x => d.dvfsDivide x
      | .lower, some _ => d.endDvfs true
      | _, _ => d
    d.nextVout.switchMandatory

/-- VOUT_ACK_TIMEOUT: the command in flight has not been acknowledged within 5 ms. -/
def voutTimeout (d : Dev) : Dev :=
  match d.pw.vout with
  | none => d
  | some v =>
    let d := (d.setPw { d.pw with vout := none }).wr (R.PWR_REG_ACK_STAT v.reg) 3
    let d := (d.bump (R.PWR_REG_FAIL_ACK_FAIL_COUNT v.reg)).irq .pwr 0 irqAckFail
    match v.use with
    | .raise | .lower => (if d.pw.dvfs.isSome then d.endDvfs false else d).nextVout
    | .fallow => d.nextVout.switchMandatory
    | .run => d.railFail

/-- The effect of a write of DVFS_CTL. A faster step, or a higher voltage at the same step, raises first; without a regulator
of VDD_CORE there is no voltage to change (DESIGN CHOICE). -/
def Dev.dvfsCtl (d : Dev) (q : Req) (v : Nat) : Dev :=
  let step := bits v 0 2
  let mv := bits v 16 16
  if d.on R.PWR_DVFS_STAT_BUSY then d.perr A.PWR_DVFS_CTL q causeValue
  else
    let cur := d.rd R.CLK_TCLK_DIV_CUR
    let faster := decide (step < cur) || (step == cur && decide (d.coreMv < mv))
    let x : Dvfs := ⟨step, mv, faster⟩
    let d := (d.setPw { d.pw with dvfs := some x }).wr R.PWR_DVFS_STAT_BUSY 1
    match faster, d.coreRegs with
    | true, r :: _ => d.queueVouts [⟨r, mv, .raise⟩]
    | _, _ => d.dvfsDivide x

/-- DIV_CHANGE: the divider takes its step (R33), and a DVFS change goes on. -/
def divChange (d : Dev) : Dev :=
  if !d.divReady then d
  else
    let due := d.ck.divDue
    let d := d.divTake
    match d.pw.dvfs with
    | some x =>
      if !due ∨ d.pw.vout.isSome then d
      else if x.faster then d.endDvfs true
      else match d.coreRegs with
        | r :: _ => d.queueVouts [⟨r, x.mv, .lower⟩]
        | [] => d.endDvfs true
    | none => d

/-! ## Pads (R346, R347) -/

/-- Whether a domain of pad group `g` is on. -/
def Dev.groupOn (d : Dev) (g : Nat) : Bool :=
  match g with
  | 0 | 1 => [53, 54, 55, 56].any d.domOn
  | 2 => d.domOn 57
  | 3 => d.domOn 58
  | _ => d.pairOn

/-- The effect of a write of PAD_RELEASE: the pads of the groups named are driven again where their domain is on; a group that
has no domain on, or keeps a pad, counts the write (R347; DESIGN CHOICE for a group whose domains are not all on). -/
def Dev.padRelease (d : Dev) (q : Req) (v : Nat) : Dev :=
  let gs := maskList 5 v
  let d := (d.drivePads (fun x => gs.contains x.1 && d.domOn (padDomain x))).showMute
  if gs.all (fun g => d.groupOn g && d.pw.pads.all (fun x => x.1 != g)) then d else d.perr A.BARN_PAD_RELEASE q causeValue

/-! ## Thermal control (R353-R358) -/

/-- The 12 sensors. -/
def thermSensors : List Nat := List.range 12

/-- Threshold `k` in 1/16 °C: 0 WARN, 1 THROTTLE, 2 CRIT. -/
def Dev.threshold (d : Dev) (k : Nat) : Int :=
  16 * ((match k with
    | 0 => d.rd R.THM_THRESH_WARN
    | 1 => d.rd R.THM_THRESH_THROTTLE
    | _ => d.rd R.THM_THRESH_CRIT : Nat) : Int)

/-- A dwell after one more hot value. -/
def Dwell.next (w : Dwell) (t hot : Int) : Dwell :=
  ⟨if t ≤ hot then w.above + 1 else 0, if hot ≤ t - 64 then w.below + 1 else 0⟩

/-- THERMAL_SAMPLE: every sensor is read, and the filtered and hot values follow (R353). A mean is rounded down. -/
def thermalSample (raw : List (BitVec 16)) (d : Dev) : Dev :=
  let temps := thermSensors.foldl (fun (m : NMap (List Int)) i =>
    m.set (fun _ => []) i (((raw.getD i 0).toInt :: m.get (fun _ => []) i).take 32)) d.pw.temps
  let mean : Nat → Int := fun i =>
    let l := temps.get (fun _ => []) i
    l.foldl (fun (a b : Int) => a + b) 0 / ((max 1 l.length : Nat) : Int)
  let d := (thermSensors.foldl (fun (d : Dev) i => d.wr (R.THM_TEMP_VALUE i) (ofSigned 16 (mean i))) d).setPw
    { d.pw with temps := temps }
  let ok := thermSensors.filter (fun i => decide (-1024 ≤ mean i ∧ mean i ≤ 2400))
  let d := if ok.length < 12 then d.wr R.THM_STAT_SENSOR_FAULT 1 else d
  match ok with
  | [] => d.setPw { d.pw with warn := ⟨0, 0⟩, throttle := ⟨0, 0⟩, crit := ⟨0, 0⟩ }
  | i :: is =>
    let top := is.foldl (fun b j => if mean b < mean j then j else b) i
    let hot := mean top
    let d := (d.wr R.THM_HOT_VALUE (ofSigned 16 hot)).wr R.THM_HOT_SENSOR top
    d.setPw { d.pw with warn := d.pw.warn.next (d.threshold 0) hot
                        throttle := d.pw.throttle.next (d.threshold 1) hot
                        crit := d.pw.crit.next (d.threshold 2) hot }

/-- RT_LOAD: the largest, over the enabled streams and their last 16 blocks (R356). -/
def Dev.rtLoad (d : Dev) : Nat :=
  (streams.filter (fun s => d.on (R.SEQ_STRM_CFG_EN s))).foldl (fun m s => (d.pw.loads.get (fun _ => []) s).foldl max m) 0

/-- One step of throttling (R356). -/
def Dev.throttle (d : Dev) : Dev :=
  let cap := d.rd R.THM_CAP_STEP
  if 3 ≤ cap then d
  else
    let d := if !d.paused && decide (d.rd R.THM_LOAD_RT_LIMIT * stepDiv (d.rd R.CLK_TCLK_DIV_CUR) < d.rtLoad * stepDiv (cap + 1)) then
        (d.wr R.THR_BATCH_CTL_CAUSE_THERMAL 1).setPause.yieldAll
      else d
    (d.wr R.THM_CAP_STEP (cap + 1)).bump R.THM_STEP_COUNT

/-- The 256 values of a dwell. -/
abbrev dwellLen : Nat := 256

/-- CRIT asserts: a device-fatal warm reset, then FALLOW (R358). -/
def Dev.critical (d : Dev) : Dev :=
  let d := (d.muteUntilReleased.warmReset 5).beginEntry true true
  let d := d.wr R.BARN_WAKE_STAT_CRIT 1
  (d.setPw { d.pw with entry := some ⟨true, true, true⟩ }).settleEntry

/-- THRESHOLD_CROSS of threshold `k`: a dwell at or above it has completed (R354-R358). -/
def thresholdCross (k : Fin 3) (d : Dev) : Dev :=
  match k with
  | 0 =>
    if d.pw.warn.above < dwellLen ∨ d.on R.THM_STAT_WARN then d
    else (((d.wr R.THM_STAT_WARN 1).bump R.THM_WARN_SET_COUNT).irq .thm 0 0).mgmtIrq irqThermal
  | 1 =>
    if d.pw.throttle.above < dwellLen ∨ d.on R.THM_STAT_THROTTLE then d
    else
      let d := (((d.wr R.THM_STAT_THROTTLE 1).bump R.THM_THR_SET_COUNT).irq .thm 0 1).mgmtIrq irqThermal
      let d := d.setPw { d.pw with throttle := { d.pw.throttle with above := d.pw.throttle.above - dwellLen } }
      d.throttle.tellBays (List.range 16)
  | 2 =>
    if d.pw.crit.above < dwellLen ∨ d.on R.THM_STAT_CRIT then d
    else (((d.wr R.THM_STAT_CRIT 1).bump R.THM_CRIT_SET_COUNT).mgmtIrq irqThermal).critical

/-- THRESHOLD_CLEAR of threshold `k`: a dwell at or below T − 4 °C has completed (R354, R357). -/
def thresholdClear (k : Fin 3) (d : Dev) : Dev :=
  match k with
  | 0 =>
    if d.pw.warn.below < dwellLen ∨ !d.on R.THM_STAT_WARN then d
    else ((d.wr R.THM_STAT_WARN 0).bump R.THM_WARN_CLR_COUNT).mgmtIrq irqThermal
  | 1 =>
    if d.pw.throttle.below < dwellLen ∨ !d.on R.THM_STAT_THROTTLE then d
    else
      let d := ((d.wr R.THM_STAT_THROTTLE 0).bump R.THM_THR_CLR_COUNT).mgmtIrq irqThermal
      ((d.wr R.THR_BATCH_CTL_CAUSE_THERMAL 0).setPause).tellBays (List.range 16)
  | 2 =>
    if d.pw.crit.below < dwellLen ∨ !d.on R.THM_STAT_CRIT then d else (d.wr R.THM_STAT_CRIT 0).mgmtIrq irqThermal

/-- THROTTLE_STEP: a further dwell at or above THROTTLE has completed; a step of CAP is told to the stalls that hold bays (R84). -/
def throttleStep (d : Dev) : Dev :=
  if !d.on R.THM_STAT_THROTTLE ∨ d.pw.throttle.above < dwellLen then d
  else
    let cap := d.rd R.THM_CAP_STEP
    let d := (d.setPw { d.pw with throttle := { d.pw.throttle with above := d.pw.throttle.above - dwellLen } }).throttle
    if d.rd R.THM_CAP_STEP = cap then d else d.tellBays (List.range 16)

/-- CAP_RELAX: CAP limits the requested step no longer than it must (R357). -/
def capRelax (d : Dev) : Dev :=
  let cap := d.rd R.THM_CAP_STEP
  if d.on R.THM_STAT_THROTTLE ∨ cap ≤ d.rd R.CLK_TCLK_DIV_REQ then d
  else (d.wr R.THM_CAP_STEP (cap - 1)).tellBays (List.range 16)

/-- The effect of a write of THM.THRESH (R354). -/
def Dev.thresh (d : Dev) (q : Req) (v : Nat) : Dev :=
  if bits v 8 8 < bits v 0 8 ∨ 105 < bits v 8 8 then d.perr A.THM_THRESH q causeValue else d.storeWord A.THM_THRESH v

/-! ## Time (R35, R37, R341, R398, R399, R401) -/

/-- Whether stall `n`'s job watchdog counts (R398). -/
def Dev.jobCounts (d : Dev) (n : Nat) : Bool :=
  d.jobState n == jobOpen && d.tn.live.any (fun x => x.batchOf n) && d.coreOn && !d.on R.THR_BATCH_CTL_CAUSE_THERMAL

/-- One Barn cycle: the gap, the watchdogs, ALIVE, the sleep timer and the time slept. -/
def Dev.barnTick (d : Dev) : Dev :=
  let d := { d with ck := { d.ck with gap := d.ck.gap.map (· + 1) } }
  let d := (allStalls.filter d.jobCounts).foldl (fun (d : Dev) n => d.setJob n { d.job n with wdog := (d.job n).wdog + 1 }) d
  let d := if d.on R.SYS_WDOG_CTL_EN ∧ d.sy.mode = .image then d.setSy { d.sy with wdog := d.sy.wdog + 1 } else d
  let d := if d.sy.healthy then d.setSy { d.sy with aliveCount := d.sy.aliveCount + 1 } else d
  let d := if d.pw.armed ∧ d.asleep then d.setPw { d.pw with timer := d.pw.timer + 1 } else d
  match d.domOn 59, d.pw.entry with
  | false, some e => { d with ta := if e.fallow then { d.ta with sleepF := d.ta.sleepF + 1 } else { d.ta with sleepD := d.ta.sleepD + 1 } }
  | _, _ => d

/-- What passes while no command waits (DESIGN CHOICE): a tick, at which the reference and the Barn RC have an edge or not as
the open tick pattern says; the STC counts reference edges. -/
def Dev.tick (d : Dev) : Dev :=
  let e := (Config.freeTick d.ticks).toNat
  let d := { d with ticks := d.ticks + 1 }
  if d.sy.coldHold then d
  else
    let d := if e.testBit 0 && d.on R.CLK_REF_STAT_PRESENT then d.addTo R.CLK_STC 1 else d
    (if e.testBit 1 then d.barnTick else d).settleEntry

end Sys2Proof.Machine
end

