-- ==== Sys2Proof/Machine/Winnow.lean ====
section
/-! DEFINITION. Loss scaling at step close, and Winnow (spec/10 R193-R203). -/
namespace Sys2Proof.Machine

/-! ## Scales (R193, R195) -/

/-- The FP32 pattern of 2^e. -/
def powPat (e : Int) : Nat := (roundF fp32 true 0 false 1 e).val

/-- A non-negative finite FP32 pattern times 2^k. -/
def scalePat (p : Nat) (k : Int) : Nat :=
  match decodeF fp32 p with
  | .fin s m e => (roundF fp32 true 0 s m (e + k)).val
  | _ => p

/-- ⌊log₂⌋ of a positive FP32 pattern; a maximum that overflowed to infinity is beyond every exponent (DEDUCED). -/
def log2Pat (p : Nat) : Int :=
  match decodeF fp32 p with
  | .fin _ m e => (Nat.log2 m : Int) + e
  | _ => 1024

/-- The fields of stall `n`'s context (Table 10-7). -/
def Dev.lsMode (d : Dev) (n : Nat) : Nat := d.rd (R.WIN_LS_CFG_MODE (n - 1))
def Dev.lsNT (d : Dev) (n : Nat) : Nat := d.rd (R.WIN_LS_CFG_NT (n - 1))
def Dev.lsMin (d : Dev) (n : Nat) : Int := toSigned 8 (d.rd (R.WIN_LS_EXP_EMIN (n - 1)))
def Dev.lsMax (d : Dev) (n : Nat) : Int := toSigned 8 (d.rd (R.WIN_LS_EXP_EMAX (n - 1)))
def Dev.lsE (d : Dev) (n : Nat) : Int := toSigned 8 (d.rd (R.WIN_LS_EXP_E (n - 1)))
def Dev.lsReady (d : Dev) (n : Nat) : Nat := d.rd (R.WIN_LS_CTR_READY (n - 1))

/-- The scale and the inverse of an exponent, 8 bytes. -/
def scaleBytes (e : Int) : List Byte := leBytes 4 (powPat e) ++ leBytes 4 (powPat (-e))

/-- The loss-scale table of stall `n` (R195). -/
def Dev.lsTable (d : Dev) (n : Nat) (skip : Bool) : List Byte :=
  let x := d.lossScale n
  let per := d.lsMode n == 2
  leBytes 4 (d.rd (R.WIN_LS_STEP_COUNT (n - 1))) ++ leBytes 1 (b2n skip) ++ zeros 3 ++ scaleBytes (d.lsE n) ++
    (List.range (d.lsNT n)).flatMap (fun i => scaleBytes (if per then x.exps.getD i 0 else 0)) ++
    (List.range (d.lsNT n)).flatMap (fun i => (List.range 16).flatMap (fun j =>
      leBytes 4 (if per then (x.rings.getD i []).getD j 0 else 0)))

/-- Write the loss-scale table where it can be written; none while its place is not ready. -/
def Dev.writeLsTable (d : Dev) (n : Nat) (skip : Bool) : Option Dev :=
  match d.pathWrite n none (d.rd (R.WIN_LS_TABLE (n - 1))) (d.lsTable n skip) with
  | .done _ d' => some d'
  | .wait => none
  | .quota => some d

/-! ## Enabling (R196) -/

/-- Whether the Steward accepts an enable of stall `n`'s context. -/
def Dev.lsAccepts (d : Dev) (n : Nat) : Bool :=
  let i := n - 1
  let e0 := toSigned 8 (d.rd (R.WIN_LS_EXP_E0 i))
  let a := d.rd (R.WIN_LS_TABLE i)
  let nt := d.lsNT n
  d.jobState n == jobOpen && d.declares n (d.rd (R.WIN_LS_CTR_DONE i)) && d.declares n (d.lsReady n) &&
    decide (a < siloBytes) && d.inJob n a (16 + 72 * nt) &&
    decide (d.lsMin n ≤ e0 ∧ e0 ≤ d.lsMax n) && decide (1 ≤ nt ∧ nt ≤ 1024)

/-- Write the table of a context just enabled and signal READY; none while the table cannot be written. -/
def Dev.openLossScale (d : Dev) (n : Nat) : Option Dev :=
  (d.writeLsTable n false).map fun d => (d.signal (d.lsReady n) 1 n).1.noteStep n

/-- The effect of a write of stall `n`'s LS_CFG (R196, Table 10-7): MODE 1 or 2 enables the context if the Steward accepts;
a context that is on is not written. -/
def Dev.lsCfg (d : Dev) (q : Req) (n v : Nat) : Dev :=
  let i := n - 1
  let m := bits v 0 2
  if n = 0 ∨ 8 < n then d
  else if d.lsMode n ≠ 0 ∨ m = 3 then d.perr (A.WIN_LS_CFG i) q causeValue
  else
    let d0 := (d.storeWord (A.WIN_LS_CFG i) v).wr (R.WIN_LS_CFG_MODE i) 0
    if m = 0 then d0
    else if !d0.lsAccepts n then d0.wr (R.WIN_LS_STAT_BAD i) 1
    else
      let e0 := d0.rd (R.WIN_LS_EXP_E0 i)
      let nt := d0.lsNT n
      let d1 := (((d0.wr (R.WIN_LS_CFG_MODE i) m).wr (R.WIN_LS_EXP_E i) e0).wr (R.WIN_LS_GROW_CLEAN i) 0).wr
        (R.WIN_LS_STEP_COUNT i) 0
      let d1 := d1.setLossScale n ⟨List.replicate nt (toSigned 8 e0), List.replicate nt (List.replicate 16 0), none⟩
      (d1.openLossScale n).getD (d1.owe (.lossScale n))

/-- The effect of a write to another register of stall `n`'s context: it is written only while MODE is 0, and GROW_STEPS is
not set to 0 (Table 10-7); BAD is cleared at any time. -/
def Dev.lsWrite (d : Dev) (q : Req) (n addr v : Nat) : Dev :=
  let i := n - 1
  if addr = A.WIN_LS_STAT i then d.storeWord addr v
  else if d.lsMode n ≠ 0 ∨ (addr = A.WIN_LS_GROW i ∧ bits v 0 16 = 0) then d.perr addr q causeValue
  else d.storeWord addr v

/-! ## Step close (R193, R194) -/

/-- A mailbox entry as the Steward reads it. -/
structure MEntry where
  num : Nat
  kind : Nat
  stall : Nat
  float : Bool
  id : Nat
  value : Nat
  deriving DecidableEq, Repr

/-- An entry's fields (R165). -/
def MEntry.of (e : Nat × List Nat) : MEntry :=
  let w := e.2.getD 0 0
  ⟨e.1, bits w 0 4, bits w 6 4, w.testBit 10, bits w 16 16, e.2.getD 2 0 + 2 ^ 32 * e.2.getD 3 0⟩

/-- Whether entry number `k` was posted before number `notice`. -/
def postedBefore (k notice : Nat) : Bool := decide (0 < (notice + 2 ^ 32 - k) % 2 ^ 32 ∧ (notice + 2 ^ 32 - k) % 2 ^ 32 ≤ 2 ^ 31)

/-- Whether an entry reports a non-finite value: NONFINITE above 0, or an infinite SUM or SUMSQ. -/
def MEntry.bad (e : MEntry) : Bool :=
  let inf := bits e.value 0 31 == 0x7F800000
  (e.kind == 4 && e.value != 0) || (e.kind == 2 && e.float && inf) || (e.kind == 3 && inf)

/-- The FP32 value of a MAXABS entry; zero for another kind. -/
def MEntry.max (e : MEntry) : Nat := if e.kind = 1 then (if e.float then e.value % 2 ^ 32 else sumToF true 0 (e.value : Int)) else 0

/-- An exponent clamped to the context's range. -/
def Dev.lsClamp (d : Dev) (n : Nat) (e : Int) : Int := max (d.lsMin n) (min (d.lsMax n) e)

/-- Table 10-4. -/
def Dev.closeGlobal (d : Dev) (n : Nat) (skip : Bool) : Dev :=
  let i := n - 1
  let c := d.rd (R.WIN_LS_GROW_CLEAN i)
  let e := d.lsE n
  if skip then (d.wr (R.WIN_LS_EXP_E i) (ofSigned 8 (max (d.lsMin n) (e - 1)))).wr (R.WIN_LS_GROW_CLEAN i) 0
  else if c + 1 = d.rd (R.WIN_LS_GROW_GROW_STEPS i) then
    (d.wr (R.WIN_LS_EXP_E i) (ofSigned 8 (min (d.lsMax n) (e + 1)))).wr (R.WIN_LS_GROW_CLEAN i) 0
  else d.wr (R.WIN_LS_GROW_CLEAN i) (c + 1)

/-- Table 10-5. -/
def Dev.closeTensors (d : Dev) (n : Nat) (skip : Bool) (es : List MEntry) : Dev :=
  let i := n - 1
  let x := d.lossScale n
  let base := d.rd (R.WIN_LS_ID_ID_BASE i)
  let mine := fun k => es.filter (fun e => e.id == base + k)
  let one := fun (k : Nat) =>
    let e := x.exps.getD k 0
    let ring := x.rings.getD k []
    if skip then (if (mine k).any MEntry.bad then max (d.lsMin n) (e - 1) else e, ring)
    else
      let m := scalePat (((mine k).map MEntry.max).foldl Nat.max 0) (-e)
      let ring := ring.drop 1 ++ [m]
      let top := ring.foldl Nat.max 0
      (if top = 0 then d.lsMax n else d.lsClamp n (14 - (d.rd (R.WIN_LS_CFG_HEADROOM i) : Int) - log2Pat top), ring)
  let rs := (List.range (d.lsNT n)).map one
  d.setLossScale n { x with exps := rs.map (·.1), rings := rs.map (·.2) }

/-- Whether an entry is stall `n`'s and was posted before the notice. -/
def MEntry.ownOf (e : MEntry) (n notice : Nat) : Bool := e.stall == n && postedBefore e.num notice

/-- The entries of stall `n`'s step among those the Steward has taken: its own, before the notice, with an ID in range. -/
def Dev.stepEntries (d : Dev) (n notice : Nat) : List MEntry :=
  let base := d.rd (R.WIN_LS_ID_ID_BASE (n - 1))
  (d.wn.drained.map MEntry.of).filter (fun e => e.ownOf n notice && decide (base ≤ e.id) && decide (e.id < base + d.lsNT n))

/-- The Steward forgets the entries it has used. -/
def Dev.dropEntries (d : Dev) (n notice : Nat) : Dev :=
  { d with wn := { d.wn with drained := d.wn.drained.filter (fun e => !(MEntry.of e).ownOf n notice) } }

/-- The machine of stall `n`'s context, and the counts of the step. -/
def Dev.closeStep (d : Dev) (n : Nat) (skip : Bool) (es : List MEntry) : Dev :=
  let d := if d.lsMode n = 1 then d.closeGlobal n skip else d.closeTensors n skip es
  let d := d.wr (R.WIN_LS_STEP_COUNT (n - 1)) (d.rd (R.WIN_LS_STEP_COUNT (n - 1)) + 1)
  if skip then d.bump (R.WIN_LS_SKIP_COUNT (n - 1)) else d

/-- READY is signalled, and the next step's notice may follow at once. -/
def Dev.stepReady (d : Dev) (n : Nat) : Dev :=
  let d := (d.signal (d.lsReady n) 1 n).1
  (d.setLossScale n { d.lossScale n with notice := none }).noteStep n

/-- STEP_CLOSE: the notice of stall `n`'s step has come and the Steward runs: it takes the step's summaries, applies the
machine, writes the table, counts the step and signals READY (R194). -/
def stepClose (n : Nat) (d : Dev) : Dev :=
  match (d.lossScale n).notice with
  | none => d
  | some notice =>
    if n = 0 ∨ 8 < n ∨ d.lsMode n = 0 ∨ d.sy.mode ≠ .image then d
    else
      let d1 := if postedBefore (d.rd R.SFT_MBOX_TAIL) notice then d.drainTo notice else d
      let es := d1.stepEntries n notice
      let skip := es.any MEntry.bad
      match ((d1.dropEntries n notice).closeStep n skip es).writeLsTable n skip with
      | none => d
      | some d4 => d4.stepReady n

/-! ## The WINNOW body (Table 10-6a) -/

/-- A WINNOW body. -/
structure Winnow where
  mode : Nat
  kshift : Nat
  chaff : Bool
  bf16 : Bool
  sumId : Nat
  nelem : Nat
  src : Nat
  chaffIn : Nat
  chaffOut : Nat
  dst : Nat
  deriving DecidableEq, Repr

/-- The WINNOW body of a descriptor. -/
def Winnow.of (b : DescWord) : Winnow :=
  let f := fun k w => bits b.toNat (8 * k) w
  ⟨f 16 2, bits b.toNat 132 4, b.toNat.testBit 136, b.toNat.testBit 137, f 18 16, f 20 32, f 24 64, f 32 64, f 40 64, f 48 64⟩

/-- A length rounded up to a multiple of 4. -/
def up4 (n : Nat) : Nat := ceilDiv n 4 * 4

/-- k of a block of `n` elements (Table 10-6a). -/
def keepCount (kshift n : Nat) : Nat := max 1 (n >>> kshift)

/-- Bytes of a valid block of `n` elements. -/
def winBlockLen (mode kshift : Nat) (bf16 : Bool) (n : Nat) : Nat :=
  if mode = 0 then let k := keepCount kshift n; up4 (4 + 2 * k + k * (if bf16 then 2 else 4)) else up4 (8 + ceilDiv n 8)

/-- The blocks of a WINNOW, and the elements of block `b`. -/
def Winnow.blocks (x : Winnow) : Nat := ceilDiv x.nelem 4096
def Winnow.count (x : Winnow) (b : Nat) : Nat := min 4096 (x.nelem - 4096 * b)

/-- The longest stream a WINNOW can write. -/
def Winnow.maxLen (x : Winnow) : Nat :=
  16 + (x.blocks - 1) * winBlockLen x.mode x.kshift x.bf16 4096 + winBlockLen x.mode x.kshift x.bf16 (x.count (x.blocks - 1))

/-- Whether two spans share a byte. -/
def spansMeet (a n b m : Nat) : Bool := decide (a < b + m ∧ b < a + n)

/-- Whether a WINNOW body obeys R197; an ACCUM's stream length is checked when it is read. -/
def Winnow.wellFormed (b : DescWord) : Bool :=
  let x := Winnow.of b
  let arr := 4 * x.nelem
  decide (x.mode < 3) && decide (4 ≤ x.kshift ∧ x.kshift ≤ 10) && decide (1 ≤ x.nelem ∧ x.nelem ≤ 2 ^ 28) &&
    bits b.toNat 130 2 == 0 && bits b.toNat 138 6 == 0 && bits b.toNat 448 64 == 0 &&
    (x.mode == 2 || (!spansMeet x.dst x.maxLen x.src arr &&
      (!x.chaff || (!spansMeet x.dst x.maxLen x.chaffIn arr && !spansMeet x.dst x.maxLen x.chaffOut arr))))

/-- Whether a WINNOW's addresses lie where its trough may go (R80). -/
def Dev.winnowSpans (d : Dev) (t : TroughId) (x : Winnow) : Bool :=
  let arr := 4 * x.nelem
  if x.mode = 2 then d.mayUse t x.src 16 && d.mayUse t x.dst arr
  else d.mayUse t x.src arr && d.mayUse t x.dst x.maxLen &&
    (!x.chaff || (d.mayUse t x.chaffIn arr && d.mayUse t x.chaffOut arr))

/-! ## A block (R198, R199) -/

/-- FP32 patterns of a list of bytes. -/
def words32 (n : Nat) (bs : List Byte) : List Nat := (List.range n).map (fun i => leAt bs (4 * i) 4)

/-- A pattern with a subnormal flushed to zero of its sign, as fast mode does to an operand. -/
def flush32 (p : Nat) : Nat := if bits p 23 8 = 0 then p / 2 ^ 31 * 2 ^ 31 else p

/-- The largest magnitude that at least `k` of a list reach, from bit `b - 1` down. -/
def kthMag (ms : List Nat) (k : Nat) : Nat → Nat → Nat
  | 0, t => t
  | b + 1, t =>
    let u := t + 2 ^ b
    if k ≤ (ms.filter (fun m => decide (u ≤ m))).length then kthMag ms k b u else kthMag ms k b t

/-- Mark the kept elements: those above magnitude `t`, and the first `ties` equal to it. -/
def keepMarks (t : Nat) : List Nat → Nat → List Bool
  | [], _ => []
  | m :: ms, ties => if t < m then true :: keepMarks t ms ties
    else if m = t ∧ 0 < ties then true :: keepMarks t ms (ties - 1) else false :: keepMarks t ms ties

/-- The `k` elements of largest magnitude, the lower index first among equals. -/
def topK (gs : List Nat) (k : Nat) : List Bool :=
  let ms := gs.map (fun g => g % 2 ^ 31)
  let t := kthMag ms k 31 0
  keepMarks t ms (k - (ms.filter (fun m => decide (t < m))).length)

/-- Σ|g′| ÷ n, exact and rounded once. -/
def meanMag (gs : List Nat) : Nat :=
  let s := (gs.map (fun g => (fpUnits true (g % 2 ^ 31)).natAbs)).foldl (· + ·) 0
  let n := gs.length
  let q := s * 2 ^ 64 / n
  (roundF fp32 false 0 false (2 * q + b2n (s * 2 ^ 64 % n != 0)) (-(149 + 65))).val

/-- A block of corrected gradients coded: its bytes, and the chaff it leaves. -/
def winBlock (x : Winnow) (gs : List Nat) : List Byte × List Nat :=
  let n := gs.length
  if x.mode = 0 then
    let k := keepCount x.kshift n
    let keep := topK gs k
    let idx := (List.range n).filter (fun i => keep.getD i false)
    let stored := fun (g : Nat) => if x.bf16 then (deliver bf16 false 0 (operand false g)).val else g
    let back := fun (g : Nat) => if x.bf16 then stored g * 65536 else g
    let body := leBytes 4 k ++ idx.flatMap (leBytes 2) ++
      idx.flatMap (fun i => leBytes (if x.bf16 then 2 else 4) (stored (gs.getD i 0)))
    (padTo (up4 body.length) body, (gs.zip keep).map (fun p => if p.2 then (fSub false 0 p.1 (back p.1)).val else p.1))
  else
    let s := meanMag gs
    let signs := (List.range (ceilDiv n 8)).map (fun j => BitVec.ofNat 8
      (((List.range 8).filter (fun i => (gs.getD (8 * j + i) 0).testBit 31)).foldl (fun v i => v + 2 ^ i) 0))
    let body := leBytes 4 (keepCount x.kshift n) ++ leBytes 4 s ++ signs
    (padTo (up4 body.length) body, gs.map (fun g => (fSub false 0 g (s + g / 2 ^ 31 * 2 ^ 31)).val))

/-- One block of a TOPK or SIGN WINNOW. -/
def winnowBlock (t : TroughId) (x : Winnow) (r : WinRun) (n : Nat) (d : Dev) : Work WinRun :=
  let m := x.count r.block
  let o := 16384 * r.block
  (d.getBytes t (x.src + o) (4 * m)).bind fun gb d =>
  (if x.chaff then d.getBytes t (x.chaffIn + o) (4 * m) else .ok [] d).bind fun cb d =>
  let cs := words32 m cb
  let gs := if x.chaff then ((words32 m gb).zip cs).map (fun p => (fAdd false 0 p.1 p.2).val) else (words32 m gb).map flush32
  let bad := gs.any (fun g => !fpFinite g)
  let (bytes, left) := if bad then (leBytes 4 0x10000, cs) else winBlock x gs
  (d.putBytes t (x.dst + r.off) bytes).bind fun _ d =>
  (if x.chaff then d.putBytes t (x.chaffOut + o) (left.flatMap (leBytes 4)) else .ok () d).bind fun _ d =>
  let d := if bad then (d.bump R.WIN_INVALID_COUNT).irq .win 0 0 else d
  let fin := gs.filter fpFinite
  .ok { r with block := r.block + 1, off := r.off + bytes.length, seen := r.seen + m, nonfinite := r.nonfinite + (m - fin.length)
               maxAbs := (fin.map (· % 2 ^ 31)).foldl Nat.max r.maxAbs, held := false }
    ((d.addTo R.WIN_BLOCKS 1).count n cntWinb 1)

/-! ## ACCUM (R200) -/

/-- The values block `b` of a stream gives its `n` elements, and the block's length; `none` values for an INVALID block. -/
def Dev.accumBlock (d : Dev) (t : TroughId) (mode : Nat) (bf : Bool) (a n : Nat) : Work (Option (List Nat) × Nat) :=
  (d.getBytes t a 4).bind fun w d =>
  let w := leNat w
  let k := w % 65536
  if w.testBit 16 then .ok (none, 4) d
  else if mode = 0 then
    let sz := if bf then 2 else 4
    if n < k then .fail stDesc d
    else (d.getBytes t a (4 + 2 * k + k * sz)).bind fun bs d =>
      let idx := (List.range k).map (fun i => leAt bs (4 + 2 * i) 2)
      let val := fun i => let v := leAt bs (4 + 2 * k + sz * i) sz; if bf then v * 65536 else v
      if idx.any (fun i => decide (n ≤ i)) then .fail stDesc d
      else .ok (some ((List.range n).map (fun e => match idx.findIdx? (· == e) with | some i => val i | none => 0)),
        up4 (4 + 2 * k + k * sz)) d
  else
    (d.getBytes t a (8 + ceilDiv n 8)).bind fun bs d =>
      let s := leAt bs 4 4
      .ok (some ((List.range n).map (fun e => if (leAt bs (8 + e / 8) 1).testBit (e % 8) then s ^^^ 2 ^ 31 else s)),
        up4 (8 + ceilDiv n 8)) d

/-- One block of an ACCUM WINNOW. -/
def accumStep (t : TroughId) (x : Winnow) (r : WinRun) (n : Nat) (d : Dev) : Work WinRun :=
  (d.getBytes t x.src 16).bind fun h d =>
  let m := x.count r.block
  (d.accumBlock t (leAt h 0 1) (leAt h 2 1 != 0) (x.src + r.off) m).bind fun p d =>
  let r := { r with block := r.block + 1, off := r.off + p.2, held := false }
  (Work.check (decide (r.off ≤ leAt h 12 4)) stDesc d).bind fun _ d =>
  let d := (d.addTo R.WIN_BLOCKS 1).count n cntWinb 1
  match p.1 with
  | none => .ok r d
  | some vs =>
    let a := x.dst + 16384 * (r.block - 1)
    (d.getBytes t a (4 * m)).bind fun old d =>
    (d.putBytes t a (((words32 m old).zip vs).flatMap (fun p => leBytes 4 (fAdd false 0 p.1 p.2).val))).bind fun _ d => .ok r d

/-- Whether a stream header suits an ACCUM body: a known MODE, the same NELEM and block count, a stream apart from DST. -/
def Winnow.headerOk (x : Winnow) (h : List Byte) : Bool :=
  decide (leAt h 0 1 < 2) && leAt h 4 4 == x.nelem && leAt h 8 4 == x.blocks && decide (16 ≤ leAt h 12 4) &&
    !spansMeet x.dst (4 * x.nelem) x.src (leAt h 12 4)

/-! ## WINNOW -/

/-- Post the MAXABS and NONFINITE summaries of a finished WINNOW (R201); none while the mailbox lacks room. -/
def Dev.winnowSums (d : Dev) (x : Winnow) (r : WinRun) (n : Nat) : Option Dev :=
  if x.sumId = 0 ∨ x.mode = 2 then some d
  else if 62 < d.mboxUsed then none
  else some ((d.mboxPut (mboxWord 1 0 n 1 0 x.sumId) (r.seen - r.nonfinite) r.maxAbs 0).mboxPut
    (mboxWord 4 0 n 1 0 x.sumId) r.seen r.nonfinite 0)

/-- One step of the WINNOW that runs: a block, or its end; true while more may follow. -/
def winnowStep (t : TroughId) (pos : Nat) (d : Dev) : Work Bool :=
  match d.findDesc t pos, d.wn.win with
  | some y, some r =>
    let x := Winnow.of y.bits
    let n := d.stallOf t
    if d.paused ∨ !d.coreOn ∨ !d.domOn 51 then .wait
    else if r.block < x.blocks then
      (if x.mode = 2 then accumStep t x r n d else winnowBlock t x r n d).bind fun r' d =>
        .ok true ((d.setWin (some r')).progress n)
    else
      (if x.mode = 2 then
          (d.getBytes t x.src 16).bind fun h d => Work.check (leAt h 12 4 == r.off) stDesc d
        else d.putBytes t x.dst (leBytes 1 x.mode ++ leBytes 1 x.kshift ++ leBytes 1 (b2n x.bf16) ++ zeros 1 ++
          leBytes 4 x.nelem ++ leBytes 4 x.blocks ++ leBytes 4 r.off)).bind fun _ d =>
      match d.winnowSums x r n with
      | none => .wait
      | some d => .ok false ((d.setWin none).updDesc { y with phase := .done })
  | _, _ => .wait

/-- Whether a started WINNOW may begin. -/
def Dev.winnowMayBegin (d : Dev) (y : Desc) : Bool :=
  d.wn.win.isNone && !d.paused && d.coreOn && d.domOn 51 &&
    !d.tn.live.any (fun z => z.opcode == 6 && decide (z.phase = .started) && decide (z.order < y.order))

/-- WINNOW: a started WINNOW begins, or the one that runs works up to `fuel` further blocks (R197-R201). -/
def winnow (t : TroughId) (pos fuel : Nat) (d : Dev) : Dev :=
  match d.findDesc t pos with
  | none => d
  | some y =>
    let x := Winnow.of y.bits
    if y.opcode ≠ 6 then d
    else if y.phase = .started then
      if !d.winnowMayBegin y then d
      else
        ((if x.mode = 2 then (d.getBytes t x.src 16).bind fun h d => Work.check (x.headerOk h) stDesc d
          else .ok () d).bind fun _ d =>
          let d := (d.setWin (some ⟨t, pos, 0, 16, 0, 0, 0, false⟩)).wr R.WIN_STAT_MODE x.mode
          .ok () ((d.wr R.WIN_STAT_STALL (d.stallOf t)).updDesc { y with phase := .working })).close d t pos
    else if (d.wn.win.map (fun r => (r.trough, r.pos))) = some (t, pos) then
      (Dev.steps (winnowStep t pos) fuel d).close d t pos
    else d

/-- WINNOW_PAUSE: while batch work is paused, Winnow stands at a block boundary (R201). -/
def winnowPause (d : Dev) : Dev :=
  if d.paused then d.setWin (d.wn.win.map (fun r => { r with held := true })) else d

end Sys2Proof.Machine
end

