-- ==== Sys2Proof/Machine/Descriptors.lean ====
section
/-! DEFINITION. A descriptor from its fetch to its retirement: the header check and wait, the body check and the start, the
retirement, and MARK (spec/04 R76-R82, spec/05 R91-R93). What a class does between its start and the end of its work is
its own command's. -/
namespace Sys2Proof.Machine

/-! ## Becoming the next of a trough (R80, first stage) -/

/-- The status a header fails with (R80): DESC before QUOTA. -/
def Dev.headerFault (d : Dev) (n : Nat) (x : Desc) : Option Nat :=
  if 12 < x.opcode ∨ x.fld 13 3 ≠ 0 then some stDesc
  else if (x.waitEn && !d.declares n x.waitCtr) || (x.sigEn && !d.declares n x.sigCtr) then some stQuota
  else none

/-- The header wait of a descriptor. -/
def Desc.wait (x : Desc) : Waiter := ⟨x.waitCtr, x.waitVal, x.consume, x.trough, x.pos⟩

/-- A fetched descriptor joins the live ones, or its header fails it. -/
def Dev.hold (d : Dev) (x : Desc) : Dev :=
  match x.trough with
  | .batch n _ =>
    match d.headerFault n x with
    | some st => d.failDesc x.trough x.pos st
    | none =>
      let d := d.setLive (d.tn.live ++ [x])
      if x.waitEn then d.enqueue x.wait else d
  | .realtime s b =>
    if 12 < x.opcode ∨ x.fld 13 3 ≠ 0 then d.failRealtime s b else d.setLive (d.tn.live ++ [x])

/-- A descriptor that nothing has started. -/
def Desc.fetched (t : TroughId) (pos : Nat) (bs : List Byte) : Desc := ⟨t, pos, BitVec.ofNat 512 (leNat bs), .held, 0, 0, 0⟩

/-- The next descriptor of a batch trough is fetched when a doorbell covers it and the one before it has started; a FENCE
that has not retired holds those behind it (R75, R93, R96). -/
def Dev.nextBatch (d : Dev) (n t : Nat) : Dev :=
  let ts := d.trough n t
  let id := TroughId.batch n t
  if !d.coreOn ∨ d.troughState n t ≠ trgOpen ∨ d.jobState n ≠ jobOpen ∨ ts.next = d.rd (R.TRG_T_TAIL n t) ∨
      d.tn.live.any (fun x => x.trough == id && (decide (x.phase = .held) || x.opcode == 8)) then d
  else
    let step := fun (d : Dev) => d.setTrough n t { d.trough n t with next := (ts.next + 1) % 2 ^ 32 }
    match d.pathRead n none (d.slotAddr n t ts.next) 64 with
    | .data bs ue d' => if ue && n != 0 then d'.failDesc id ts.next stEcc else (step d').hold (.fetched id ts.next bs)
    | .quota => d.failDesc id ts.next stQuota
    | .wait => d

/-- The realtime run of a stream's live or standby trough, its place in Silo and its length (R51, R205). -/
def Dev.rtTrough (d : Dev) (s : Nat) (b : Bool) : Option (RtRun × Nat × Nat) :=
  let st := d.stream s
  if b then
    match st.standby, st.promo with
    | some r, some p => some (r, 64 * p.trgBase, p.trgLen)
    | _, _ => none
  else st.live.map (fun r => (r, 64 * d.rd (R.SEQ_STRM_TRG_BASE s), d.rd (R.SEQ_STRM_TRG_LEN s)))

/-- `d` with the realtime run of a trough replaced. -/
def Dev.setRtRun (d : Dev) (s : Nat) (b : Bool) (r : Option RtRun) : Dev :=
  let st := d.stream s
  d.setStream s (if b then { st with standby := r } else { st with live := r })

/-- The next descriptor of a realtime trough is fetched once the one before it has retired (R93). -/
def Dev.nextRealtime (d : Dev) (s : Nat) (b : Bool) : Dev :=
  let id := TroughId.realtime s b
  match d.rtTrough s b with
  | none => d
  | some (r, base, len) =>
    if !d.coreOn ∨ r.aborting ∨ len ≤ r.next ∨ d.tn.live.any (fun x => x.trough == id) then d
    else if !(List.range 64).all (fun i => d.siloReady (base + 64 * r.next + i)) then d
    else
      let (bs, ue, d) := d.siloRead (base + 64 * r.next) 64
      if ue then d.failDesc id r.next stEcc
      else (d.setRtRun s b (some { r with next := r.next + 1 })).hold (.fetched id r.next bs)

/-- DESCRIPTOR_NEXT: a descriptor becomes the next of its trough to start; its header is checked and its header wait
begins. -/
def descriptorNext (t : TroughId) (d : Dev) : Dev :=
  match t with
  | .batch n q => d.nextBatch n q
  | .realtime s b => d.nextRealtime s b

/-! ## Starting (R80, second stage) -/

/-- The status the body of a TILE fails with (R130). -/
def Dev.tileFault (d : Dev) (t : TroughId) (b : DescWord) : Option Nat :=
  let x := Tile.of b
  if !x.wellFormed t.rt.isNone then some stDesc
  else if !d.tileSpans t x then some stQuota
  else match t with
  | .batch n _ =>
    let bays := (d.job n).decl.bays
    if (!x.any && !(gangBays x.shape x.leader).all (fun k => bays.testBit k)) ||
        decide ((maskList 16 bays).length < shapeBays x.shape) then some stQuota
    else none
  | .realtime _ _ => none

/-- The status the body of a MOVE fails with (R86, R225, R228); for stall 0 the host region is no region (R226). -/
def Dev.moveFault (d : Dev) (t : TroughId) (b : DescWord) : Option Nat :=
  let x := Move.of b
  if !Move.wellFormed b then some stDesc
  else if x.target.inHost && d.stallOf t != 0 && !d.egress (d.stallOf t) 0 then some stDesc
  else if !d.rowsMayUse t x.target || (x.kind != 2 && !d.rowsMayUse t x.source) then some stQuota
  else none

/-- The status the body of a PORT fails with (spec/03 R57, R86). -/
def Dev.portFault (d : Dev) (t : TroughId) (b : DescWord) : Option Nat :=
  let x := PortB.of b
  match d.portCheck t b with
  | some st => some st
  | none => if x.kind ≠ 2 ∧ hostBase ≤ x.buf ∧ d.stallOf t ≠ 0 ∧ !d.egress (d.stallOf t) 0 then some stDesc else none

/-- The status the body of a LINK fails with: DESC, then QUOTA, then LINK (spec/15 R300). -/
def Dev.linkFault (d : Dev) (t : TroughId) (b : DescWord) : Option Nat :=
  let x := LinkB.of b
  if !d.linkOk (d.stallOf t) b then some stDesc
  else if !d.mayUse t x.src x.len then some stQuota
  else if x.dst ≠ d.node ∧ (d.route x.dst).isNone then some stLink
  else none

/-- The status a SYNC fails with (R80, R92). -/
def Dev.syncFault (d : Dev) (n : Nat) (b : DescWord) : Option Nat :=
  if !syncWellFormed b then some stDesc else if !d.syncDeclared n b then some stQuota else none

/-- DESC where `ok` does not hold, else QUOTA where `spans` does not. -/
def descThenQuota (ok spans : Bool) : Option Nat := if !ok then some stDesc else if !spans then some stQuota else none

/-- The status the body of a descriptor of trough `t` fails with, by class. A NOP has no body; what a SIFT, BALE, UNBALE or
SWAP reads from memory, and a SWAP's stream, are checked when its unit takes it up. -/
def Dev.bodyFault (d : Dev) (t : TroughId) (x : Desc) : Option Nat :=
  let n := d.stallOf t
  let b := x.bits
  match x.opcode with
  | 1 => d.tileFault t b
  | 2 => if !(Sift.of b).wellFormed then some stDesc else none
  | 3 => d.moveFault t b
  | 4 => descThenQuota (d.baleOk n b) (d.baleSpans t (Bale.of b))
  | 5 => descThenQuota (Unbale.wellFormed b && ((Unbale.of b).src != 1 || d.slotMay (Unbale.of b).slot n))
      (d.unbaleSpans t (Unbale.of b) && ((Unbale.of b).src != 0 || (d.funcOf n).isSome))
  | 6 => descThenQuota (Winnow.wellFormed b) (d.winnowSpans t (Winnow.of b))
  | 7 => d.syncFault n b
  | 8 => if !Fence.wellFormed b then some stDesc else none
  | 9 => d.linkFault t b
  | 10 => d.portFault t b
  | 12 => if x.fld 136 376 ≠ 0 then some stDesc else none
  | _ => none

/-- The domains of the units a descriptor is aimed at; a TILE's are looked at with its gang (R80, Table 17-1). -/
def Dev.unitsOf (d : Dev) (t : TroughId) (x : Desc) : List Nat :=
  let n := d.stallOf t
  let b := x.bits
  match x.opcode with
  | 2 => let s := Sift.of b; (16 + s.sifter) :: (if s.hopper then [20 + s.sifter] else [])
  | 3 => [61]
  | 4 =>
    let y := Bale.of b
    50 :: (match y.dest with
      | 0 => if hostBase ≤ y.dst then ((d.funcOf n).map (fun f => 44 + f / 4)).toList else []
      | 1 => [52]
      | _ => ((d.route y.peer).map (46 + ·)).toList)
  | 5 => ((d.pathOf n (Unbale.of b)).map pathDomain).toList
  | 6 => [51]
  | 9 => let u := d.linkUnit (LinkB.of b); if u < 4 then [46 + u] else []
  | 10 =>
    let y := PortB.of b
    [57, 53 + (if y.kind = 0 then d.inPort y.stream else d.outPort y.stream)]
  | 11 => [57]
  | _ => []

/-- Whether a descriptor is aimed at a disabled unit, or would be new work while the device enters a sleep state (R80,
spec/17 R336). -/
def Dev.aimedAtDisabled (d : Dev) (t : TroughId) (x : Desc) : Bool :=
  (t.rt.isNone && d.pwState == pwEntering) || (d.unitsOf t x).any (fun u => !d.takesWork t u) ||
    (x.opcode == 1 && d.tileDisabled t (Tile.of x.bits))

/-- Whether a realtime descriptor keeps the rules its stream was bound by (R80, R81). -/
def Dev.rtRulesKept (d : Dev) (s : Nat) (b : Bool) (x : Desc) : Bool :=
  match d.rtTrough s b with
  | none => false
  | some (_, base, len) =>
    let bays := if b then d.rd (R.SEQ_STRM_BAYS_STANDBY s) else d.rd (R.SEQ_STRM_BAYS_PINNED s)
    d.rtDescOk (d.stallOf (.realtime s b)) bays (d.troughDescs base len).1 x.bits

/-- A descriptor starts: it takes the next rank in the order of starts, the domains ungate, and what its class claims at its
start is claimed. -/
def Dev.begin (d : Dev) (x : Desc) : Dev :=
  let d := { d with tn := { d.tn with starts := d.tn.starts + 1 } }.ungate
  let d := d.updDesc { x with phase := .started, order := d.tn.starts }
  if x.opcode = 9 then d.makePair (d.stallOf x.trough) x.bits else d

/-- A realtime SIFT that starts presses on its sifter (spec/08 R166). -/
def Dev.beginRealtime (d : Dev) (x : Desc) : Dev :=
  let k := (Sift.of x.bits).sifter
  let before := d.rtPressing k
  let d := d.begin x
  if x.opcode = 2 then d.pressOn k before else d

/-- A batch descriptor whose header wait is met is checked and starts, fails, or halts its trough. -/
def Dev.startBatch (d : Dev) (n q : Nat) (x : Desc) : Dev :=
  if d.troughState n q ≠ trgOpen then d
  else if x.waitEn && !d.waitMet x.wait then d
  else
    let d := if x.waitEn then d.takeWait x.wait else d
    match d.bodyFault x.trough x with
    | some st => d.failDesc x.trough x.pos st
    | none => if d.aimedAtDisabled x.trough x then d.haltTrough n q x else d.begin x

/-- A realtime descriptor is checked and starts, or its trough is aborted. -/
def Dev.startRealtime (d : Dev) (s : Nat) (b : Bool) (x : Desc) : Dev :=
  if !d.rtRulesKept s b x || (d.bodyFault x.trough x).isSome || d.aimedAtDisabled x.trough x then d.failRealtime s b
  else d.beginRealtime x

/-- DESCRIPTOR_START: after its wait or consume is met, a held descriptor's body is checked and it begins work, or it halts
on a disabled unit. -/
def descriptorStart (t : TroughId) (pos : Nat) (d : Dev) : Dev :=
  match d.findDesc t pos with
  | none => d
  | some x =>
    if x.phase ≠ .held ∨ !d.coreOn then d
    else match t with
    | .batch n q => d.startBatch n q x
    | .realtime s b => d.startRealtime s b x

/-! ## Retiring (R76, R79, R92, R93) -/

/-- Post the summaries of a SIFT that retires; none while the mailbox has no room for a batch SIFT's (spec/08 R165). -/
def Dev.siftRetire (d : Dev) (t : TroughId) (pos : Nat) (x : Desc) : Option Dev :=
  if x.opcode ≠ 2 then some d
  else
    let k := (Sift.of x.bits).sifter
    let mine := fun (r : SiftRun) => r.trough == t && r.pos == pos
    match (d.sifter k).ended.find? mine with
    | none => some d
    | some r => (d.postSums r).map (fun d => d.setSifter k { d.sifter k with ended := (d.sifter k).ended.filter (fun q => !mine q) })

/-- Apply signals of stall `n`'s descriptor in order, up to the first that would wrap; whether all were applied. -/
def Dev.signals (d : Dev) (n : Nat) : List (Nat × Nat) → Dev × Bool
  | [] => (d, true)
  | (c, v) :: ss =>
    match d.signal c v n with
    | (d', true) => d'.signals n ss
    | (d', false) => (d', false)

/-- What a descriptor signals as it retires: a SYNC's signal slots, then the header signal (R79, R92). -/
def Desc.sends (x : Desc) : List (Nat × Nat) :=
  (if x.opcode = 7 then ((syncSlots x.bits).filter (fun s => s.2.1 == 1)).map (fun s => (s.1, s.2.2)) else []) ++
    (if x.sigEn then [(x.sigCtr, x.sigInc)] else [])

/-- A batch descriptor retires: its signals are applied, HEAD advances, the write-back and the vector follow. A signal that
would wrap faults the job instead (R90). -/
def Dev.retireBatch (d : Dev) (n q : Nat) (x : Desc) : Dev :=
  match d.signals n x.sends with
  | (d, false) => d.failDesc x.trough x.pos stWrap
  | (d, true) => (((d.dropDesc x.trough x.pos).markRetired n q x.pos).progress n).completion n q x

/-- The load of a block that retires now: ticks from its boundary over the ticks of its window, Q0.16 (spec/17 R356). -/
def Dev.blockLoad (d : Dev) (s due : Nat) : Nat :=
  let w := max 1 (d.blkLen s * d.strmTicks s)
  (d.stc - (due - w)) * 65536 / w

/-- A realtime descriptor retires; with the trough's last one the block is computed, in time if its deadline has not passed
(R49, R52). -/
def Dev.retireRealtime (d : Dev) (s : Nat) (b : Bool) (x : Desc) : Dev :=
  let d := d.dropDesc x.trough x.pos
  match d.rtTrough s b with
  | none => d
  | some (r, _, len) =>
    if r.next < len ∨ r.due < d.stc then d
    else
      let d := if b then d else d.addLoad s (d.blockLoad s r.due)
      let d := d.setRtRun s b none
      let st := d.stream s
      d.setStream s (if b then { st with standbyMet := true } else { st with liveMet := true })

/-- DESCRIPTOR_RETIRE: a descriptor whose work is done retires. -/
def descriptorRetire (t : TroughId) (pos : Nat) (d : Dev) : Dev :=
  match d.findDesc t pos with
  | none => d
  | some x =>
    if x.phase ≠ .done ∨ !d.coreOn then d
    else match d.siftRetire t pos x with
    | none => d
    | some d =>
      match t with
      | .batch n q => d.retireBatch n q x
      | .realtime s b => d.retireRealtime s b x

/-- MARK: a started MARK retires, with its event record and its vector (R82). One whose header signal would wrap has written
its record and raised its vector when the wrap faults its job (DESIGN CHOICE: R82 puts both at the retirement, of which R90
refuses the signal). -/
def mark (t : TroughId) (pos : Nat) (d : Dev) : Dev :=
  match d.findDesc t pos, t with
  | some x, .batch n q =>
    if x.opcode ≠ 12 ∨ x.phase ≠ .started ∨ !d.coreOn then d
    else
      let d := d.event n x.tag kindMark q pos
      let vec := x.fld 128 8
      let d := if 8 ≤ vec ∧ vec ≤ 31 then d.raise n vec else d
      d.retireBatch n q x
  | _, _ => d

end Sys2Proof.Machine
end

