-- ==== Sys2Proof/Machine/BusWrite.lean ====
section
/-! DEFINITION. The register buses: what a write of each register does, what a read of each returns, the sizes of an access,
the BAR2 and BAR4 windows, the management messages and the REG packets (spec/20, spec/18 R376-R378, spec/15 R296). -/
namespace Sys2Proof.Machine

/-! ## The effect of a write, by register -/

/-- Write the register unless its value is one that is ignored and counted (R415). -/
def Dev.storeIf (d : Dev) (q : Req) (addr v : Nat) (ok : Bool) : Dev :=
  if ok then d.storeWord addr v else d.perr addr q causeValue

/-- MSIP: mip.MSIP follows it (spec/18 R364). -/
def Dev.msip (d : Dev) (v : Nat) : Dev :=
  let d := d.storeWord A.SYS_MSIP v
  d.setCsr 0x344 (if v.testBit 0 then setBit (d.csr 0x344) 3 else clrBit (d.csr 0x344) 3)

/-- Registers of the SYS page (Tables 18-7 and 19-5). -/
def Dev.sysWrite (d : Dev) (q : Req) (addr v : Nat) : Dev :=
  if addr = A.SYS_LIMP_CTL then d.limpCtl q v
  else if addr = A.SYS_PWR_CMD then d.pwrCmd q v
  else if addr = A.SYS_RESET_CMD then d.resetCmd v
  else if addr = A.SYS_DOM_FORCE ∨ addr = A.SYS_DOM_FORCE + 4 then d.domForce q addr v
  else if addr = A.SYS_UPD_CTL then d.updCtl q none v
  else if addr = A.SYS_UPD_CHUNK then d.updChunk none v
  else if addr = A.SYS_MTIMECMP ∨ addr = A.SYS_MTIMECMP + 4 then d.mtimecmp addr v
  else if addr = A.SYS_MSIP then d.msip v
  else if addr = A.SYS_WDOG_CTL then d.storeIf q addr v (bits v 0 16 != 0)
  else if addr = A.SYS_WDOG_KICK then d.wdogKick q v
  else d.storeWord addr v

/-- Registers of the PWR page (Table 17-10); what a regulator answers is open here. -/
def Dev.pwrWrite (d : Dev) (q : Req) (addr v : Nat) : Dev :=
  if addr = A.PWR_CTL then d.pwrCtl v
  else if addr = A.PWR_DOM_EN ∨ addr = A.PWR_DOM_EN + 4 then d.domEnWrite q addr v
  else if addr = A.PWR_DVFS_CTL then d.dvfsCtl q v
  else match [0, 1, 2, 3].find? (fun r => addr == A.PWR_REG_CFG r) with
  | some r =>
    let (mode, d) := d.freeNext
    let (raw, d) := d.freeNext
    d.regCfg q r v (mode % 256) (some (raw % 65536))
  | none => d.storeWord addr v

/-- Registers of the CLK page (Table 02-5). -/
def Dev.clkWrite (d : Dev) (q : Req) (addr v : Nat) : Dev :=
  if addr = A.CLK_PLL_CTL then d.pllCtl q v
  else if addr = A.CLK_SRC_SEL then d.srcSel q v
  else if addr = A.CLK_TCLK_DIV then d.tclkDiv q v
  else d.storeWord addr v

/-- Registers of the WIN page: the contexts of stalls 1-8 (Table 10-7). -/
def Dev.winWrite (d : Dev) (q : Req) (addr v : Nat) : Dev :=
  let i := (addr % 4096 - 0x140) / 64
  if addr % 4096 < 0x140 then d.storeWord addr v
  else if addr = A.WIN_LS_CFG i then d.lsCfg q (i + 1) v
  else d.lsWrite q (i + 1) addr v

/-- Registers of the CEL page, and SIL[0]'s extents. -/
def Dev.celWrite (d : Dev) (q : Req) (addr v : Nat) : Dev :=
  let j := (addr % 4096 - 0x120) / 4
  if addr = A.CEL_CFG then d.celCfg q v
  else if 0x120 ≤ addr % 4096 then d.extentWrite q true (j / 8 + 1) (j % 8) v
  else d.storeWord addr v

/-- Registers of a SIL page (Table 12-6). -/
def Dev.silWrite (d : Dev) (q : Req) (addr v : Nat) : Dev :=
  let j := (addr % 4096 - 0x120) / 4
  if addr = A.SIL_INTERLEAVE then d.interleave q v
  else if 0x120 ≤ addr % 4096 ∧ addr % 4096 < 0x220 then d.extentWrite q false (j / 8 + 1) (j % 8) v
  else d.storeWord addr v

/-- Registers of the BAL page: the slots (Table 14-8). -/
def Dev.balWrite (d : Dev) (q : Req) (addr v : Nat) : Dev :=
  let o := addr % 4096 - 0x100
  if 0x100 ≤ addr % 4096 then d.slotWrite q (o / 8) (decide (o % 8 = 4)) v else d.storeWord addr v

/-- Registers of the SEQ page (Tables 03-6, 03-7). -/
def Dev.seqWrite (d : Dev) (q : Req) (addr v : Nat) : Dev :=
  if addr = A.SEQ_MUTE_CTL then d.muteCtl q v
  else if 0x300 ≤ addr % 4096 then d.contextWrite q addr v
  else d.storeWord addr v

/-- Registers of the TLY page (Table 16-4). -/
def Dev.tallyWrite (d : Dev) (q : Req) (addr v : Nat) : Dev :=
  if addr = A.TLY_CTL then d.tlyCtl q v
  else if addr = A.TLY_PERSIST_ACK then d.persistAck v
  else if addr = A.TLY_PERSIST_PERIOD ∨ addr = A.TLY_PERSIST_ADDR ∨ addr = A.TLY_SHARE_MASK + 4 ∨
      (0x80 ≤ addr % 4096 ∧ addr % 4096 < 0x94) then d.tlyWrite q addr v
  else d.storeWord addr v

/-- Registers of the KEY page (Table 18-8). -/
def Dev.keyWrite (d : Dev) (q : Req) (addr v : Nat) : Dev :=
  if addr = A.KEY_CMD then d.keyCmdWrite q v
  else if 0x50 ≤ addr % 4096 ∧ addr % 4096 < 0x74 then d.keyGen q ((addr % 4096 - 0x50) / 4) v
  else d.storeWord addr v

/-- Registers of STL[n] (Table 04-6). -/
def Dev.stlWrite (d : Dev) (q : Req) (n addr v : Nat) : Dev :=
  if addr = A.STL_BIND n then d.bindWrite q n v
  else if addr = A.STL_Q_SILO n then d.grantWrite q n .silo v
  else if addr = A.STL_Q_CELLAR n then d.grantWrite q n .cellar v
  else if addr = A.STL_Q_BAYS n then d.grantWrite q n .bays v
  else if addr = A.STL_Q_STREAMS n then d.grantWrite q n .streams v
  else if addr = A.STL_Q_RICK n then d.grantWrite q n .rick v
  else if addr = A.STL_JOB_CTL n then d.jobCtlWrite q n v
  else if addr = A.STL_EV_CFG n then d.storeIf q addr v (decide (8 ≤ bits v 0 4 ∧ bits v 0 4 ≤ 12))
  else d.storeWord addr v

/-- Registers of TRG[n] (Table 04-7). -/
def Dev.trgWrite (d : Dev) (q : Req) (n addr v : Nat) : Dev :=
  match troughNums.find? (fun t => addr == A.TRG_T_CTL n t) with
  | some t => d.tCtlWrite q n t v
  | none => d.storeWord addr v

/-- Registers of THR[b] (Tables 06-4, 07-3). -/
def Dev.thrWrite (d : Dev) (q : Req) (b addr v : Nat) : Dev :=
  if addr = A.THR_PROG_CTL b then d.progCtl q b v
  else if addr = A.THR_BATCH_CTL then d.batchRelease v
  else d.storeWord addr v

/-- The strips that R169 requires of Hopper `h` for the streams enabled now. -/
def Dev.reserveNeed (d : Dev) (h : Nat) : Nat :=
  ((streams.filter (fun s => d.on (R.SEQ_STRM_CFG_EN s))).map (fun s => d.stripNeed s h)).foldl (· + ·) 0

/-- Registers of FUR[p] (Table 15-9). -/
def Dev.furWrite (d : Dev) (q : Req) (p addr v : Nat) : Dev :=
  let o := addr % 4096
  if addr = A.FUR_CTL p then d.furCtl q p v
  else if 0x80 ≤ o ∧ o < 0xA0 then d.furDepth q p ((o - 0x80) / 4) v
  else if addr = A.FUR_KNOCK_CTL p then d.knockCtl q p v
  else if addr = A.FUR_KNOCK_RETRY p then d.storeIf q addr v (bits v 0 4 != 0)
  else if addr = A.FUR_NODE then d.furNode v
  else if addr = A.FUR_DEFAULT then d.storeIf q addr v (decide (bits v 0 3 ≤ 4))
  else if addr = A.FUR_RSIG_TIMEOUT then d.storeIf q addr v (bits v 0 20 != 0)
  else d.storeWord addr v

/-- Registers of the GRN page (Table 13-6): a write of 1 to ABORTED clears ABORT_SECTOR with it (R257). -/
def Dev.grnWrite (d : Dev) (q : Req) (addr v : Nat) : Dev :=
  if addr = A.GRN_CFG then d.storeIf q addr v (bits v 0 2 != 3)
  else
    let d := d.storeWord addr v
    if addr = A.GRN_ERASE_STAT ∧ v.testBit 19 then d.wr R.GRN_ABORT_SECTOR 0 else d

/-- What the screened value `v` written to the register at BAR0 address `addr` does. -/
def Dev.regEffect (d : Dev) (q : Req) (addr v : Nat) : Dev :=
  let p := addr / 4096
  let o := addr % 4096
  match pageKind p with
  | none => d
  | some (k, n) =>
    if o = 0x0C then d.pctlWrite q p v
    else if o = 0x14 then d.storeWord addr (v % 2 ^ k.nirq)
    else if o = 0x18 then d.pirqStatWrite p v
    else match k with
    | .sys => d.sysWrite q addr v
    | .barn => if addr = A.BARN_PAD_RELEASE then d.padRelease q v else d.storeWord addr v
    | .pwr => d.pwrWrite q addr v
    | .thm => if addr = A.THM_THRESH then d.thresh q v else d.storeWord addr v
    | .clk => d.clkWrite q addr v
    | .rck => d.storeWord addr v
    | .win => d.winWrite q addr v
    | .trn => d.storeWord addr v
    | .cel => d.celWrite q addr v
    | .grn => d.grnWrite q addr v
    | .bal => d.balWrite q addr v
    | .seq => d.seqWrite q addr v
    | .tly => d.tallyWrite q addr v
    | .key => d.keyWrite q addr v
    | .stl => d.stlWrite q n addr v
    | .trg => d.trgWrite q n addr v
    | .thr => d.thrWrite q n addr v
    | .hop => if addr = A.HOP_CFG n then d.hopCfg q n v (d.reserveNeed n) else d.storeWord addr v
    | .sft => if addr = A.SFT_MBOX_TAIL then d.mboxTail q v else d.storeWord addr v
    | .fur => d.furWrite q n addr v
    | .pci => d.storeWord addr v
    | .aud => if addr = A.AUD_PORT_CTL n then d.portCtl q n v else d.storeWord addr v
    | .sil => d.silWrite q addr v

/-! ## A write of one word (R404, R409, R410, R419) -/

/-- The page an access is made to: pages 0x7E and 0x7F are the stall's own STL and TRG (R410). -/
def ownPage (q : Req) (addr : Nat) : Option Nat :=
  let p := addr / 4096
  if p = 0x7E ∨ p = 0x7F then
    match q with
    | .stall n => some ((if p = 0x7E then 0x10 + n.val else 0x20 + n.val) * 4096 + addr % 4096)
    | _ => none
  else some addr

/-- Whether accesses of a requester reach the device: a stall's through its function or node (R68), the Steward's while its
core is out of reset, management's at any time. -/
def Dev.arrives (d : Dev) : Req → Bool
  | .stall n => d.reachable n
  | .mgmt => true
  | .steward => d.sy.mode != .inReset

/-- Whether the word at `addr` is its page's SNAP_STAT (R419). -/
def isSnap (addr : Nat) : Bool :=
  match pageKind (addr / 4096) with
  | some (k, _) => k.wide && addr % 4096 == k.snapOff
  | none => false

/-- Whether a requester sees the word at `addr`. -/
def Dev.shows (d : Dev) (q : Req) (addr : Nat) (write : Bool) : Bool :=
  match q with
  | .stall n => d.sees n addr write
  | _ => true

/-- Whether a Steward access to offset `a` of a window waits: a wake has not restored the registers there yet (spec/17 R341);
those of the Barn are never lost. -/
def Dev.unrestored (d : Dev) (q : Req) (b : Bar) (a : Nat) : Bool :=
  q == .steward && d.sy.mode != .inReset && d.pwState == pwWaking && d.pw.save.isSome && !d.on R.BARN_SAVE_STAT_RESTORED &&
    !(b == .bar0 && decide (a / 4096 < 5))

/-- A 4-byte write of `v` to the word at `addr` by `q`, whose effect on the screened value is `op`, as far as it reaches. -/
def Dev.regBy (d : Dev) (q : Req) (addr v : Nat) (op : Nat → Dev → Dev) : Dev :=
  if d.unrestored q .bar0 addr then d.owe (.access true .bar0 addr 4 v)
  else if d.arrives q then d.regWith q addr v op else d

/-- A 4-byte write of `v` to BAR0 offset `a` by `q`. -/
def Dev.regWrite (d : Dev) (q : Req) (a v : Nat) : Dev :=
  match ownPage q a with
  | none => d
  | some addr =>
    if isSnap addr then
      if d.arrives q && d.shows q addr true && v.testBit 16 then d.setStale q (addr / 4096) false else d
    else d.regBy q addr v (fun v d => d.regEffect q addr v)

/-! ## What a register reads as -/

/-- PSTATE of a unit in the domains `xs` (Table 18-6). -/
def Dev.pstateOf (d : Dev) (xs : List Nat) : Nat :=
  let top := fun (f : Nat → Nat) => (xs.map f).foldl max 0
  top d.mgmtView + 4 * top d.dataView + 16 * b2n (xs.any d.disagrees) + 32 * b2n (xs.any d.domOn) + 64 * b2n (xs.any d.gated)

/-- PSTATE of a page (R379, R408): a page whose unit has no switched domain reads ENABLED, ON and not GATED; its DATA_VIEW
tells whether the unit has work. -/
def Dev.pstate (d : Dev) (k : PageKind) (n : Nat) : Nat :=
  match k with
  | .stl | .trg => 32 + 4 * b2n (d.tn.live.any (fun x => x.batchOf n))
  | .rck => 32 + 4 * b2n (!d.tn.waiters.isEmpty)
  | .sys | .barn | .pwr | .thm | .clk => 32
  | .cel => d.pstateOf [40, 41, 42, 43]
  | _ => d.pstateOf [k.domain n]

/-- POWNER of a page (R408). -/
def Dev.powner (d : Dev) (k : PageKind) (n : Nat) : Nat :=
  match k with
  | .stl | .trg => n
  | .rck | .sys | .barn | .pwr | .thm | .clk | .cel => 15
  | _ => d.rd (R.TLY_SENSOR_OWNER (k.domain n))

/-- PIRQ_STAT of page `p`: RAW AND EN (R407). -/
def Dev.pirqStat (d : Dev) (p : Nat) : Nat := d.word (A.PIRQ_RAW p) &&& d.word (A.PIRQ_EN p)

/-- Word `w` of SYS.IRQ_PEND (R364, R405). -/
def Dev.irqPend (d : Dev) (w : Nat) : Nat :=
  (List.range 32).foldl (fun v i =>
    if (pageKind (32 * w + i)).isSome ∧ d.pirqStat (32 * w + i) ≠ 0 then setBit v i else v) 0

/-- The Steward's mip: MEIP is 1 while any page has an enabled interrupt pending, MSIP follows SYS.MSIP, and MTIP is set by the
timer (spec/18 R362, R364). -/
def Dev.mip (d : Dev) : Nat := setBits (d.csr 0x344) 11 1 (b2n ([0, 1, 2, 3].any (fun w => d.irqPend w != 0)))

/-- The level of IRQ_MGMT_N: low while an enabled bit of MGMT_IRQ_STAT is set (spec/18 R377). -/
def Dev.irqMgmtN (d : Dev) : Bool := d.word A.SYS_MGMT_IRQ_STAT &&& d.rd R.SYS_MGMT_IRQ_EN == 0

/-- Word `w` of DOM_GATED. -/
def Dev.gatedWord (d : Dev) (w : Nat) : Nat :=
  (List.range 32).foldl (fun v i => if d.gated (32 * w + i) then setBit v i else v) 0

/-- PWR.STAT: IDLE while every domain that is on is gated. -/
def Dev.pwrStat (d : Dev) : Nat :=
  let w := d.word A.PWR_STAT
  if d.pwState = pwIdle ∧ !(domains.all (fun x => !d.domOn x || d.gated x)) then setBits w 0 3 pwRun else w

/-- The words of the KEY page that the fuses hold (Table 18-8); byte 0 of a hash is its first. -/
def keyFuse (o : Nat) : Option Nat :=
  if o = 0x40 then some (b2n Config.fuseRootOk + 16 * Config.fuseRevoked.toNat)
  else if o = 0x44 then some (bits Config.fuseDevUid.toNat 0 32)
  else if o = 0x48 then some (bits Config.fuseDevUid.toNat 32 32)
  else if 0x100 ≤ o ∧ o < 0x180 then
    some (leNat (slice (beBytes 32 (Config.fusePkh ((o - 0x100) / 32)).toNat) (o % 32) 4))
  else none

/-- The header words every page has (Table 20-2). -/
def Dev.headerWord (d : Dev) (k : PageKind) (n p o : Nat) : Option Nat :=
  if o = 0x00 then some (k.type + 256 * n + 65536 * 0xB0 + 2 ^ 24 * Config.fuseGrade.toNat)
  else if o = 0x04 then some (k.domain n + 256 * b2n k.lockable + 512 * b2n k.wide + 4096 * k.nirq)
  else if o = 0x08 then some (d.pstate k n)
  else if o = 0x18 then some (d.pirqStat p)
  else if o = 0x1C then some (d.powner k n)
  else none

/-- What the word at BAR0 address `addr` reads as to a requester that sees it. -/
def Dev.liveWord (d : Dev) (q : Req) (addr : Nat) : Nat :=
  let p := addr / 4096
  let o := addr % 4096
  match pageKind p with
  | none => 0
  | some (k, n) =>
    match d.headerWord k n p o with
    | some v => v
    | none =>
      if isSnap addr then d.snapStat q p
      else if k = .sys ∧ 0xC0 ≤ o ∧ o < 0xD0 then d.irqPend ((o - 0xC0) / 4)
      else if k = .pwr ∧ (o = 0x68 ∨ o = 0x6C) then d.gatedWord ((o - 0x68) / 4)
      else if addr = A.PWR_STAT then d.pwrStat
      else if addr = A.THM_LOAD then ((d.wr R.THM_LOAD_RT_LOAD d.rtLoad).word addr)
      else if addr = A.SEQ_MUTE_CTL then ((d.wr R.SEQ_MUTE_CTL_MUTE_PIN (b2n d.au.muteLow)).word addr)
      else if k = .key then (keyFuse o).getD (d.word addr)
      else d.word addr

/-! ## A read (R413, R416, R417) -/

/-- Take the words `ws` of the wide register at `base` into the requester's shadow, and count the snapshot. -/
def Dev.snapshot (d : Dev) (q : Req) (base : Nat) (ws : List Nat) : Dev :=
  (ws.foldl (fun d w => d.setShadow q (base + 4 * w) (some (BitVec.ofNat 32 (d.liveWord q (base + 4 * w))))) d).snapCount
    q (base / 4096)

/-- The words above word 0 of a register. -/
def RegRow.upper (r : RegRow) : List Nat := (List.range r.words).drop 1

/-- A 4-byte read of the word at `addr` by a requester that sees it: word 0 of a wide register takes a snapshot, an upper
word returns the shadow. -/
def Dev.readWide (d : Dev) (q : Req) (addr : Nat) : Nat × Dev :=
  let v := d.liveWord q addr
  match regHit addr with
  | some h =>
    if h.row.words ≤ 1 then (v, d)
    else if h.word = 0 then (v, d.snapshot q addr h.row.upper)
    else match d.shadow q addr with
    | some w => (w.toNat, d)
    | none => (0, d.setStale q (addr / 4096) true)
  | none => (v, d)

/-- A 4-byte read of BAR0 offset `a` by `q`. -/
def Dev.read4 (d : Dev) (q : Req) (a : Nat) : Nat × Dev :=
  match ownPage q a with
  | none => (0, d)
  | some addr => if d.arrives q && d.shows q addr false then d.readWide q addr else (0, d)

/-- What an 8-byte read returns of one of its words: live, or zero where it is not seen. -/
def Dev.seenWord (d : Dev) (q : Req) (addr : Nat) : Nat := if d.shows q addr false then d.liveWord q addr else 0

/-- The snapshot an 8-byte read at `addr` takes for its word at `x`: of the words outside the pair, when it is a word 0. -/
def Dev.pairSnap (d : Dev) (q : Req) (addr x : Nat) : Dev :=
  match regHit x with
  | some h =>
    let out := h.row.upper.filter (fun w => decide (x + 4 * w < addr ∨ addr + 8 ≤ x + 4 * w))
    if h.word ≠ 0 ∨ out.isEmpty ∨ !d.shows q x false then d else d.snapshot q x out
  | none => d

/-- An aligned 8-byte read of BAR0 offset `a` by `q`: both words live (R417). -/
def Dev.read8 (d : Dev) (q : Req) (a : Nat) : Nat × Dev :=
  match ownPage q a with
  | none => (0, d)
  | some addr =>
    if d.arrives q then
      (d.seenWord q addr + 2 ^ 32 * d.seenWord q (addr + 4), (d.pairSnap q addr addr).pairSnap q addr (addr + 4))
    else (0, d)

/-! ## BAR2 and BAR4 (R104, R411, R412) -/

/-- The stall and trough whose doorbell lies at BAR2 offset `a`, as the requester sees it. -/
def doorbellAt (q : Req) (a : Nat) : Option (Nat × Nat) :=
  match q with
  | .stall n => if 0x80000 ≤ a ∧ a < 0x80020 then some (n.val, (a - 0x80000) / 8) else none
  | .steward => if 0x80000 ≤ a ∧ a < 0x80120 then some ((a - 0x80000) / 32, (a - 0x80000) % 32 / 8) else none
  | .mgmt => none

/-- A word of BAR2. -/
def Dev.bar2Word (d : Dev) (q : Req) (a : Nat) : Nat :=
  if !d.arrives q then 0
  else if a < 0x80000 then d.windowRead q (a / 8) (a % 8 / 4)
  else match doorbellAt q a with
  | some (n, t) => if a % 8 < 4 then d.rd (R.TRG_T_TAIL n t) else 0
  | none => 0

/-- A 4-byte write of BAR2: the low word of a counter entry signals, that of a doorbell rings; the high ones have no effect. -/
def Dev.bar2Write (d : Dev) (q : Req) (a v : Nat) : Dev :=
  if !d.arrives q then d
  else if a < 0x80000 then if a % 8 < 4 then d.windowWrite q (a / 8) v else d.windowHigh q (a / 8)
  else if 4 ≤ a % 8 then d
  else match doorbellAt q a with
  | some (n, t) => d.doorbell q n t v
  | none => d

/-- A write of BAR2 that R413 ignores, counted with CAUSE 4. -/
def Dev.bar2Bad (d : Dev) (q : Req) (a : Nat) : Dev :=
  if !d.arrives q then d
  else if a < 0x80000 then match q with
    | .mgmt => d
    | _ => d.perrAt 5 5 (a % 4096) (reqCode q) causeSize
  else match doorbellAt q a with
  | some (n, _) => d.perrAt (0x20 + n) (0x20 + n) (a % 4096) (reqCode q) causeSize
  | none => d

/-- The MSI-X table words and the pending bits of a function; the rest of BAR4 is reserved. -/
def bar4Has (a : Nat) : Bool := decide (a < 0x200) || decide (0x1000 ≤ a ∧ a < 0x1008)

/-- The PCIe function of a requester, if accesses come through it. -/
def Dev.bar4Func (d : Dev) (q : Req) : Option Nat :=
  match q with
  | .stall n => if d.arrives q then d.funcOf n else none
  | _ => none

/-- A word of BAR4. -/
def Dev.bar4Word (d : Dev) (q : Req) (a : Nat) : Nat :=
  match d.bar4Func q with
  | some f => if bar4Has a then d.bar4 f (a / 4 * 4) else 0
  | none => 0

/-- An MSI-X vector that is no longer masked and was pending is sent (PRESUMED from PCI Express, as R412 refers to it). -/
def Dev.bar4Unmask (d : Dev) (f v : Nat) : Dev :=
  if (d.bar4 f 0x1000).testBit v ∧ !(d.bar4 f (16 * v + 12)).testBit 0 then
    (d.setBar4 f 0x1000 (clrBit (d.bar4 f 0x1000) v)).emit
      (.msix f v (d.bar4 f (16 * v) + 2 ^ 32 * d.bar4 f (16 * v + 4)) (d.bar4 f (16 * v + 8)))
  else d

/-- A 4-byte write of BAR4: of the MSI-X table; the pending bits are read only. -/
def Dev.bar4Write (d : Dev) (q : Req) (a v : Nat) : Dev :=
  match d.bar4Func q with
  | some f =>
    if 0x200 ≤ a then d
    else (d.setBar4 f (a / 4 * 4) (if a % 16 / 4 = 3 then bits v 0 1 else if a % 16 / 4 = 0 then v / 4 * 4 else v)).bar4Unmask f (a / 16)
  | none => d

/-! ## Accesses of every size (R413) -/

/-- A 4-byte aligned write to a window. -/
def Dev.write4 (d : Dev) (q : Req) (b : Bar) (a v : Nat) : Dev :=
  match b with
  | .bar0 => d.regWrite q a v
  | .bar2 => d.bar2Write q a v
  | .bar4 => d.bar4Write q a v

/-- A write that R413 ignores: it is counted where the register it names can be written. -/
def Dev.writeBad (d : Dev) (q : Req) (b : Bar) (a : Nat) : Dev :=
  match b with
  | .bar0 =>
    match ownPage q (a / 4 * 4) with
    | none => d
    | some addr =>
      if !d.arrives q ∨ (regHit addr).isNone then d
      else match q with
      | .stall n =>
        if d.sees n addr true then d.perr addr q causeSize
        else d.perrAt (0x10 + n.val) (addr / 4096) (addr % 4096) (reqCode q) causeAccess
      | _ => d.perr addr q causeSize
  | .bar2 => d.bar2Bad q a
  | .bar4 => d

/-- The exception the Steward's core takes on a load or store of `len` bytes at offset `a` of a window: an access fault beyond
the window of Table 18-1, a misaligned address else (spec/18 R362, R363); the access then never leaves the core. -/
def Dev.stwCause (d : Dev) (q : Req) (b : Bar) (a len : Nat) (write : Bool) : Option Nat :=
  if q ≠ .steward ∨ b = .bar4 ∨ !d.arrives q then none
  else if b = .bar2 ∧ 0x100000 ≤ a then some (if write then 7 else 5)
  else if a % len ≠ 0 then some (if write then 6 else 4)
  else none

/-- The Steward's address of offset `a` of a window (Table 18-1). -/
def stwAddr (b : Bar) (a : Nat) : Nat := (if b = .bar2 then 0x41000000 else 0x40000000) + a

/-- A write of `len` bytes to offset `a` of a window: 4 bytes at a multiple of 4, or 8 as two words in ascending order. -/
def Dev.busWrite (d : Dev) (q : Req) (b : Bar) (a len v : Nat) : Dev :=
  if let some c := d.stwCause q b a len true then d.stwTrap c (stwAddr b a)
  else if d.unrestored q b a then d.owe (.access true b a len v)
  else if a % 4 = 0 ∧ len = 4 then d.write4 q b a (bits v 0 32)
  else if a % 4 = 0 ∧ len = 8 then (d.write4 q b a (bits v 0 32)).write4 q b (a + 4) (bits v 32 32)
  else d.writeBad q b a

/-- A 4-byte aligned read of a window. -/
def Dev.readOne (d : Dev) (q : Req) (b : Bar) (a : Nat) : Nat × Dev :=
  match b with
  | .bar0 => d.read4 q a
  | .bar2 => (d.bar2Word q a, d)
  | .bar4 => (d.bar4Word q a, d)

/-- An 8-byte aligned read of a window. -/
def Dev.readTwo (d : Dev) (q : Req) (b : Bar) (a : Nat) : Nat × Dev :=
  match b with
  | .bar0 => d.read8 q a
  | .bar2 => (d.bar2Word q a + 2 ^ 32 * d.bar2Word q (a + 4), d)
  | .bar4 => (d.bar4Word q a + 2 ^ 32 * d.bar4Word q (a + 4), d)

/-- A read of at most 8 bytes from offset `a` of a window; a misaligned one returns zero and does nothing. -/
def Dev.busRead (d : Dev) (q : Req) (b : Bar) (a len : Nat) : Nat × Dev :=
  if len = 8 ∧ a % 8 = 0 then d.readTwo q b a
  else if len = 8 ∧ a % 4 = 0 then
    let (lo, d) := d.readOne q b a
    let (hi, d) := d.readOne q b (a + 4)
    (lo + 2 ^ 32 * hi, d)
  else if len = 4 ∧ a % 4 = 0 then d.readOne q b a
  else if (len = 1 ∨ len = 2) ∧ a % 4 + len ≤ 4 then
    let (v, d) := d.readOne q b (a / 4 * 4)
    (bits v (8 * (a % 4)) (8 * len), d)
  else (0, d)

/-- A longer read: successive accesses in ascending order, at most `fuel` of them. -/
def Dev.readRun (d : Dev) (q : Req) (b : Bar) (a len : Nat) : Nat → List Byte × Dev
  | 0 => ([], d)
  | k + 1 =>
    if len = 0 then ([], d)
    else
      let w := if len ≤ 8 then len else if a % 8 = 0 then 8 else 4
      let (v, d) := d.busRead q b a w
      let (bs, d) := d.readRun q b (a + w) (len - w) k
      (leBytes w v ++ bs, d)

/-- Hold what a read returned. -/
def Dev.latch (r : Nat × Dev) : Dev := { r.2 with bus := { r.2.bus with rdata := r.1 } }

/-- The read a command makes: its data is held, or it waits (spec/17 R341). -/
def Dev.readHeld (d : Dev) (q : Req) (b : Bar) (a len : Nat) : Dev :=
  if let some c := d.stwCause q b a len false then d.stwTrap c (stwAddr b a)
  else if d.unrestored q b a then d.owe (.access false b a len 0) else Dev.latch (d.busRead q b a len)

/-! ## Accesses that wait (R72, R76, R83, R213, R222, R223, R323, R341) -/

/-- The queue an access waits in: each is served in order, and none holds up another. -/
def Owed.queue : Owed → Nat × Nat × Nat
  | .jobOpen n _ _ => (0, n, 0)
  | .head n t _ _ _ => (1, n, t)
  | .event n _ _ => (2, n, 0)
  | .record _ _ => (3, 0, 0)
  | .access .. => (4, 0, 0)
  | .lossScale n => (6, n, 0)
  | .swap _ pos s _ _ _ _ => (5, s, pos)

/-- Make an access good; none while it has to wait on. -/
def Dev.payOne (d : Dev) : Owed → Option Dev
  | .jobOpen n e a => d.openDecl n e a
  | .head n t pos v irq => d.putHead n t pos v irq
  | .event n bs quiet => d.putEvent n bs quiet
  | .record a bs => d.putRecord a bs
  | .lossScale n => d.openLossScale n
  | .swap t pos s result status block bs => d.swapWrite t pos s result status block bs
  | .access w b a len v =>
    if d.unrestored .steward b a then none
    else some (if w then d.busWrite .steward b a len v else Dev.latch (d.busRead .steward b a len))

/-- Serve one access that waits, if it is the first of its queue and its place is ready. -/
def Dev.pay (d : Dev) (o : Owed) : Dev :=
  if d.tn.owed.find? (fun p => p.queue == o.queue) == some o then
    ((d.setOwed (d.tn.owed.erase o)).payOne o).getD d
  else d

/-- Serve the accesses that wait, as far as their places are ready now. -/
def Dev.payOwed (d : Dev) : Dev := d.tn.owed.foldl Dev.pay d

/-- What passes while no command waits: a tick, and the accesses that wait are tried again (DESIGN CHOICE). -/
def Dev.idle (d : Dev) : Dev := if d.sy.coldHold then d.tick else d.tick.payOwed

/-! ## The commands of the bus -/

/-- REGISTER_WRITE. -/
def registerWrite (q : Req) (b : Bar) (a len v : Nat) (d : Dev) : Dev := d.busWrite q b a len v

/-- LOCK_SET on page `p`. -/
def lockSet (q : Req) (p : Nat) (d : Dev) : Dev := d.regWrite q (p * 4096 + 0x0C) 1

/-- PERR_CLR on page `p`. -/
def perrClr (q : Req) (p : Nat) (d : Dev) : Dev := d.regWrite q (p * 4096 + 0x0C) 2

/-- Whether the word that a narrow or 4-byte access to `a` names is an upper word of a wide register. -/
def upperWord (q : Req) (b : Bar) (a : Nat) : Bool :=
  match b with
  | .bar0 =>
    match ownPage q (a / 4 * 4) with
    | some addr =>
      (match regHit addr with
        | some h => decide (h.word ≠ 0)
        | none => false)
    | none => false
  | .bar2 => decide (4 ≤ a % 8)
  | .bar4 => false

/-- WIDE_LO_READ: a read of at most 4 bytes of a register's word 0. -/
def wideLoRead (q : Req) (b : Bar) (a len : Nat) (d : Dev) : Dev :=
  if 4 < len ∨ upperWord q b a then d else d.readHeld q b a len

/-- WIDE_UPPER_READ: a read of at most 4 bytes of an upper word. -/
def wideUpperRead (q : Req) (b : Bar) (a len : Nat) (d : Dev) : Dev :=
  if 4 < len ∨ !upperWord q b a then d else d.readHeld q b a len

/-- WIDE_PAIR_READ: an 8-byte read. -/
def widePairRead (q : Req) (b : Bar) (a : Nat) (d : Dev) : Dev := d.readHeld q b a 8

/-- UNBOUND_ACCESS through a PCIe function that no stall is bound to (R69). -/
def unboundAccess (f : Nat) (write : Bool) (d : Dev) : Dev :=
  if !d.hostUp f ∨ (d.stallOfFunc f).isSome then d
  else if write then d.bump (R.STL_UNBOUND_COUNT 0)
  else Dev.latch (0, d)

/-- COUNTER_WINDOW_WRITE of counter `c` (R104). -/
def counterWindowWrite (q : Req) (c v : Nat) (d : Dev) : Dev := d.bar2Write q (8 * c) v

/-! ## Management messages (Table 18-5, R378) -/

/-- Status codes of a management reply. -/
abbrev mgOk : Nat := 0
abbrev mgNoResult : Nat := 1
abbrev mgBadAddr : Nat := 2
abbrev mgBadOp : Nat := 3
abbrev mgAsleep : Nat := 4

/-- The reply that waits for the next private read. -/
def Dev.setReply (d : Dev) (st : Nat) (bs : List Byte) : Dev := d.setSy { d.sy with reply := some (st, bs) }

/-- Whether a message may name BAR0 offset `a`. -/
def mgAddrOk (a : Nat) : Bool := decide (a % 4 = 0 ∧ a < 0x1000000)

/-- The pages whose READs the Barn answers while the device sleeps. -/
def barnPage (a : Nat) : Bool := [1, 2, 3].contains (a / 4096)

/-- MGMT_READ of `len` bytes at BAR0 offset `a`. -/
def mgmtRead (a len : Nat) (d : Dev) : Dev :=
  if !d.i3cTakes then d.emit .i3cNack
  else if d.asleep && !barnPage a then d.setReply mgAsleep []
  else if len ≠ 4 ∧ len ≠ 8 then d.setReply mgBadOp []
  else if !mgAddrOk a then d.setReply mgBadAddr []
  else
    let (v, d) := d.busRead .mgmt .bar0 a len
    d.setReply mgOk (leBytes len v)

/-- MGMT_WRITE of a message with data bytes `bs` to BAR0 offset `a`. -/
def mgmtWrite (a : Nat) (bs : List Byte) (d : Dev) : Dev :=
  if !d.i3cTakes then d.emit .i3cNack
  else if d.asleep then d.setReply mgAsleep []
  else if bs.length ≠ 4 then d.setReply mgBadOp []
  else if !mgAddrOk a then d.setReply mgBadAddr []
  else (d.busWrite .mgmt .bar0 a 4 (leNat bs)).setReply mgOk []

/-- MGMT_RESULT_READ: the private read that follows. -/
def mgmtResult (d : Dev) : Dev :=
  if !d.i3cTakes then d.emit .i3cNack
  else match d.sy.reply with
  | some (st, bs) => (d.emit (.i3c (st :: (padTo 8 bs).map BitVec.toNat))).setSy { d.sy with reply := none }
  | none => d.emit (.i3c (mgNoResult :: List.replicate 8 0))

/-! ## REG packets (spec/15 R296) -/

/-- Answer a REG read (Table 15-6). -/
def Dev.regRsp (d : Dev) (x : Packet) (status : Nat) (bs : List Byte) : Dev :=
  d.sendPacket 2 (d.packet pkRegRsp x.src x.sstall x.dstall (zeros 2 ++ leBytes 2 (x.fld 18 2) ++ leBytes 2 status) bs)

/-- Write a packet's data to a register space: 4 or 8 bytes. -/
def Dev.regPacketWrite (d : Dev) (q : Req) (b : Bar) (a : Nat) (bs : List Byte) : Dev :=
  if bs.length = 4 ∨ bs.length = 8 then d.busWrite q b a bs.length (leNat bs) else d.writeBad q b a

/-- Read a register space: up to 8 bytes at once, or a longer run of words. -/
def Dev.regPacketRead (d : Dev) (q : Req) (b : Bar) (a len : Nat) : List Byte × Dev :=
  if len ≤ 8 ∨ (a % 4 = 0 ∧ len % 4 = 0) then d.readRun q b a len len else (List.replicate len 0, d)

/-- Whether `len` bytes from `a` lie in the local Silo or Cellar of a stall. -/
def localSpan (a : Nat) : Bool := decide (a < siloBytes) || decide (cellarBase ≤ a ∧ a < cellarEnd)

/-- A REG packet to local memory; none while the memory is not ready. -/
def Dev.regMemory (d : Dev) (x : Packet) (n a len : Nat) (write : Bool) : Option Dev :=
  let ue := fun (bad : Bool) (d : Dev) => if bad && n != 0 then d.faultJob n stEcc kindJob 0 0 else d
  if write then
    if !localSpan a then some d
    else match d.pathWrite n none a x.data with
    | .done bad d => some (ue bad d)
    | .wait => none
    | .quota => some d
  else if !localSpan a then some (d.regRsp x 0 (List.replicate len 0))
  else match d.pathRead n none a len with
  | .data bs bad d => some (ue bad (d.regRsp x 0 bs))
  | .wait => none
  | .quota => some (d.regRsp x 0 (List.replicate len 0))

/-- REG_RECEIVE on port `p`: the packet acts for the stall bound to its node; a read is answered, also where no stall is
bound. -/
def regReceive (p : Nat) (d : Dev) : Dev :=
  d.receive p pkReg fun x d =>
    let write := (x.fld 16 1).testBit 0
    let a := x.fld 20 8
    let len := min 3584 (x.fld 28 4)
    match d.stallOfNode x.src with
    | none => some (if write then d.bump (R.STL_UNBOUND_COUNT 0) else d.regRsp x 1 (List.replicate len 0))
    | some n =>
      let q := Req.stall (Fin.ofNat 9 n)
      match bits (x.fld 16 1) 1 2 with
      | 2 => d.regMemory x n a len write
      | 3 => some d
      | s =>
        let b := if s = 0 then Bar.bar0 else Bar.bar2
        if write then some (d.regPacketWrite q b a x.data)
        else
          let (bs, d) := d.regPacketRead q b a len
          some (d.regRsp x 0 bs)

end Sys2Proof.Machine
end

