-- ==== Sys2Proof/Machine/Act.lean ====
section
/-! DEFINITION. How a command acts on the machine: on the device alone and never on the queue and, the power events apart,
only while the device is not held in cold reset (spec/19 R424, R425). -/
namespace Sys2Proof.Machine

/-- The trough an operand names. -/
def troughOf : Trough → TroughId
  | .batch n t => .batch n.val t.val
  | .realtime s b => .realtime s.val b

/-- A command that acts whatever the state of the power. -/
def State.always (s : State) (f : Dev → Dev) : Host.Outcome State Fault Refusal := .next { s with dev := f s.dev }

/-- A command that acts only while the device is out of the cold reset hold. -/
def State.act (s : State) (f : Dev → Dev) : Host.Outcome State Fault Refusal :=
  s.always (fun d => if d.sy.coldHold then d else f d)

end Sys2Proof.Machine
end

