-- ==== Sys2Proof/Machine/ExecAdapt.lean ====
section
/-! DEFINITION. The meanings of the commands of loss scaling and Winnow (spec/10): one definition per row of the opcode table. -/
namespace Sys2Proof.Machine

/-- LOSS_SCALE_ENABLE (spec/10 R196). -/
def execLossScaleEnable (q : Req) (n : Fin 8) (value : BitVec 32) (s : State) : Host.Outcome State Fault Refusal :=
  s.act (fun d => d.regBy q (A.WIN_LS_CFG n.val) value.toNat (fun v d => d.lsCfg q (n.val + 1) v))

/-- STEP_CLOSE (spec/10 R194). -/
def execStepClose (n : Fin 9) (s : State) : Host.Outcome State Fault Refusal :=
  s.act (stepClose n.val)

/-- WINNOW_PAUSE (spec/10 R201). -/
def execWinnowPause (s : State) : Host.Outcome State Fault Refusal :=
  s.act winnowPause

end Sys2Proof.Machine
end

