-- ==== Sys2Proof/Machine/ExecAudio.lean ====
section
/-! DEFINITION. The meanings of the commands of audio ports and streams (spec/03): one definition per row of the opcode table. -/
namespace Sys2Proof.Machine

/-- PORT_CTL_WRITE (spec/03 R43). -/
def execPortCtlWrite (q : Req) (p : Fin 4) (value : BitVec 32) (s : State) : Host.Outcome State Fault Refusal :=
  s.act (fun d => d.regBy q (A.AUD_PORT_CTL p.val) value.toNat (fun v d => d.portCtl q p.val v))

/-- INPUT_FRAME (spec/03 R45). -/
def execInputFrame (p : Fin 4) (words : List Word) (s : State) : Host.Outcome State Fault Refusal :=
  s.act (inputFrame p.val (words.map BitVec.toNat))

/-- FRAME_LOST (spec/03 R45). -/
def execFrameLost (p : Fin 4) (s : State) : Host.Outcome State Fault Refusal :=
  s.act (frameLost p.val)

/-- BLOCK_BOUNDARY (spec/03 R51). -/
def execBlockBoundary (str : Fin 32) (s : State) : Host.Outcome State Fault Refusal :=
  s.act (blockBoundary str.val)

/-- REALTIME_ABORT_DONE (spec/03 R52). -/
def execRealtimeAbortDone (str : Fin 32) (s : State) : Host.Outcome State Fault Refusal :=
  s.act (realtimeAbortDone str.val)

/-- STREAM_BIND (spec/03 R47). -/
def execStreamBind (n : Fin 9) (str : Fin 32) (s : State) : Host.Outcome State Fault Refusal :=
  s.act (streamBind n.val str.val)

/-- STREAM_CONTEXT_WRITE (spec/03 R47). -/
def execStreamContextWrite (q : Req) (str : Fin 32) (word : Fin 24) (value : BitVec 32) (s : State) : Host.Outcome State Fault Refusal :=
  s.act (fun d => d.regBy q (A.SEQ_STRM_CFG str.val + 4 * word.val) value.toNat (fun v d => d.contextWrite q (A.SEQ_STRM_CFG str.val + 4 * word.val) v))

/-- STREAM_DISABLE (spec/03 R60). -/
def execStreamDisable (q : Req) (str : Fin 32) (s : State) : Host.Outcome State Fault Refusal :=
  s.act (fun d => d.regBy q (A.SEQ_STRM_CFG str.val) (clrBit (d.word (A.SEQ_STRM_CFG str.val)) 0) (fun v d => d.strmCfg q str.val v))

/-- ZC_ARM (spec/03 R62). -/
def execZcArm (q : Req) (str : Fin 32) (s : State) : Host.Outcome State Fault Refusal :=
  s.act (fun d => d.regBy q (A.SEQ_STRM_ZC str.val) (setBit (d.word (A.SEQ_STRM_ZC str.val)) 31) (fun v d => d.strmZc q str.val v))

/-- ZC_TIMEOUT (spec/03 R63). -/
def execZcTimeout (str : Fin 32) (s : State) : Host.Outcome State Fault Refusal :=
  s.act (zcTimeout str.val)

/-- OUT_RELEASE (spec/03 R59). -/
def execOutRelease (q : Req) (s : State) : Host.Outcome State Fault Refusal :=
  s.act (fun d => d.regBy q A.SEQ_MUTE_CTL ((d.word A.SEQ_MUTE_CTL &&& 4) + 1) (fun v d => d.muteCtl q v))

/-- MUTE_RELEASE (spec/03 R59). -/
def execMuteRelease (q : Req) (s : State) : Host.Outcome State Fault Refusal :=
  s.act (fun d => d.regBy q A.SEQ_MUTE_CTL ((d.word A.SEQ_MUTE_CTL &&& 4) + 2) (fun v d => d.muteCtl q v))

/-- MUTE_FORCE (spec/03 R61). -/
def execMuteForce (q : Req) (on : Bool) (s : State) : Host.Outcome State Fault Refusal :=
  s.act (fun d => d.regBy q A.SEQ_MUTE_CTL (4 * b2n on) (fun v d => d.muteCtl q v))

end Sys2Proof.Machine
end

