-- ==== Sys2Proof/Machine/ExecBaler.lean ====
section
/-! DEFINITION. The meanings of the commands of the Baler (spec/14): one definition per row of the opcode table. -/
namespace Sys2Proof.Machine

/-- SLOT_WRITE (spec/14 R275). -/
def execSlotWrite (q : Req) (slot : Fin 16) (owner : Bool) (value : BitVec 32) (s : State) : Host.Outcome State Fault Refusal :=
  s.act (fun d => d.regBy q (if owner then A.BAL_SLOT_B slot.val else A.BAL_SLOT_A slot.val) value.toNat (fun v d => d.slotWrite q slot.val owner v))

/-- BALER_PAUSE (spec/14 R273). -/
def execBalerPause (s : State) : Host.Outcome State Fault Refusal :=
  s.act balerPause

end Sys2Proof.Machine
end

