-- ==== Sys2Proof/Machine/ExecBus.lean ====
section
/-! DEFINITION. The meanings of the commands of the register buses (spec/20): one definition per row of the opcode table. -/
namespace Sys2Proof.Machine

/-- REGISTER_WRITE (spec/20 R409). -/
def execRegisterWrite (q : Req) (bar : Bar) (addr : BitVec 24) (len : BitVec 4) (value : BitVec 64) (s : State) : Host.Outcome State Fault Refusal :=
  s.act (registerWrite q bar addr.toNat len.toNat value.toNat)

/-- LOCK_SET (spec/20 R414). -/
def execLockSet (q : Req) (page : BitVec 12) (s : State) : Host.Outcome State Fault Refusal :=
  s.act (lockSet q page.toNat)

/-- PERR_CLR (spec/20 R415). -/
def execPerrClr (q : Req) (page : BitVec 12) (s : State) : Host.Outcome State Fault Refusal :=
  s.act (perrClr q page.toNat)

/-- WIDE_LO_READ (spec/20 R416). -/
def execWideLoRead (q : Req) (bar : Bar) (addr : BitVec 24) (len : BitVec 3) (s : State) : Host.Outcome State Fault Refusal :=
  s.act (wideLoRead q bar addr.toNat len.toNat)

/-- WIDE_UPPER_READ (spec/20 R416). -/
def execWideUpperRead (q : Req) (bar : Bar) (addr : BitVec 24) (len : BitVec 3) (s : State) : Host.Outcome State Fault Refusal :=
  s.act (wideUpperRead q bar addr.toNat len.toNat)

/-- WIDE_PAIR_READ (spec/20 R417). -/
def execWidePairRead (q : Req) (bar : Bar) (addr : BitVec 24) (s : State) : Host.Outcome State Fault Refusal :=
  s.act (widePairRead q bar addr.toNat)

/-- UNBOUND_ACCESS (spec/04 R69). -/
def execUnboundAccess (port : Fin 2) (func : Fin 4) (write : Bool) (s : State) : Host.Outcome State Fault Refusal :=
  s.act (unboundAccess (4 * port.val + func.val) write)

end Sys2Proof.Machine
end

