-- ==== Sys2Proof/Machine/ExecClock.lean ====
section
/-! DEFINITION. The meanings of the commands of clocks (spec/02): one definition per row of the opcode table. -/
namespace Sys2Proof.Machine

/-- REF_MEASURE_DONE (spec/02 R26). -/
def execRefMeasureDone (count : BitVec 32) (s : State) : Host.Outcome State Fault Refusal :=
  s.act (refMeasureDone count.toNat)

/-- REF_LOST (spec/02 R27). -/
def execRefLost (s : State) : Host.Outcome State Fault Refusal :=
  s.act refLost

/-- REF_EDGE_RETURN (spec/02 R37). -/
def execRefEdgeReturn (s : State) : Host.Outcome State Fault Refusal :=
  s.act refEdgeReturn

/-- PLL_ENABLE (spec/02 R28). -/
def execPllEnable (q : Req) (s : State) : Host.Outcome State Fault Refusal :=
  s.act (fun d => d.regBy q A.CLK_PLL_CTL 1 (fun v d => d.pllCtl q v))

/-- PLL_DISABLE (spec/02 R41). -/
def execPllDisable (q : Req) (s : State) : Host.Outcome State Fault Refusal :=
  s.act (fun d => d.regBy q A.CLK_PLL_CTL 0 (fun v d => d.pllCtl q v))

/-- PLL_LOCK (spec/02 R28). -/
def execPllLock (s : State) : Host.Outcome State Fault Refusal :=
  s.act pllLock

/-- LOSS_OF_LOCK (spec/02 R40). -/
def execLossOfLock (s : State) : Host.Outcome State Fault Refusal :=
  s.act lossOfLock

/-- CORE_SRC_SET (spec/02 R39). -/
def execCoreSrcSet (q : Req) (s : State) : Host.Outcome State Fault Refusal :=
  s.act (fun d => d.regBy q A.CLK_SRC_SEL 1 (fun v d => d.srcSel q v))

/-- CORE_SRC_CLEAR (spec/02 R39). -/
def execCoreSrcClear (q : Req) (s : State) : Host.Outcome State Fault Refusal :=
  s.act (fun d => d.regBy q A.CLK_SRC_SEL 0 (fun v d => d.srcSel q v))

/-- TCLK_DIV_REQUEST (spec/02 R34). -/
def execTclkDivRequest (q : Req) (code : BitVec 3) (s : State) : Host.Outcome State Fault Refusal :=
  s.act (fun d => d.regBy q A.CLK_TCLK_DIV code.toNat (fun v d => d.tclkDiv q v))

/-- DIV_CHANGE (spec/02 R33). -/
def execDivChange (s : State) : Host.Outcome State Fault Refusal :=
  s.act divChange

end Sys2Proof.Machine
end

