-- ==== Sys2Proof/Machine/ExecDescriptor.lean ====
section
/-! DEFINITION. The meanings of the commands of descriptors, by class (spec/04 to spec/15): one definition per row of the opcode table. -/
namespace Sys2Proof.Machine

/-- DESCRIPTOR_NEXT (spec/04 R80). -/
def execDescriptorNext (trough : Trough) (s : State) : Host.Outcome State Fault Refusal :=
  s.act (descriptorNext (troughOf trough))

/-- DESCRIPTOR_START (spec/04 R80). -/
def execDescriptorStart (trough : Trough) (pos : BitVec 32) (s : State) : Host.Outcome State Fault Refusal :=
  s.act (descriptorStart (troughOf trough) pos.toNat)

/-- DESCRIPTOR_RETIRE (spec/04 R76). -/
def execDescriptorRetire (trough : Trough) (pos : BitVec 32) (s : State) : Host.Outcome State Fault Refusal :=
  s.act (descriptorRetire (troughOf trough) pos.toNat)

/-- NOP (spec/04 R80). -/
def execNop (trough : Trough) (pos : BitVec 32) (s : State) : Host.Outcome State Fault Refusal :=
  s.act (nop (troughOf trough) pos.toNat)

/-- TILE (spec/07 R130). -/
def execTile (trough : Trough) (pos : BitVec 32) (s : State) : Host.Outcome State Fault Refusal :=
  s.act (tileDesc (troughOf trough) pos.toNat)

/-- SIFT (spec/08 R153). -/
def execSift (trough : Trough) (pos : BitVec 32) (granules : BitVec 32) (s : State) : Host.Outcome State Fault Refusal :=
  s.act (sift (troughOf trough) pos.toNat granules.toNat)

/-- MOVE (spec/12 R228). -/
def execMove (trough : Trough) (pos : BitVec 32) (groups : BitVec 32) (s : State) : Host.Outcome State Fault Refusal :=
  s.act (move (troughOf trough) pos.toNat groups.toNat)

/-- BALE (spec/14 R271). -/
def execBale (trough : Trough) (pos : BitVec 32) (blocks : BitVec 32) (s : State) : Host.Outcome State Fault Refusal :=
  s.act (bale (troughOf trough) pos.toNat blocks.toNat)

/-- UNBALE (spec/14 R276). -/
def execUnbale (trough : Trough) (pos : BitVec 32) (blocks : BitVec 32) (s : State) : Host.Outcome State Fault Refusal :=
  s.act (unbale (troughOf trough) pos.toNat blocks.toNat)

/-- WINNOW (spec/10 R197). -/
def execWinnow (trough : Trough) (pos : BitVec 32) (blocks : BitVec 32) (s : State) : Host.Outcome State Fault Refusal :=
  s.act (winnow (troughOf trough) pos.toNat blocks.toNat)

/-- SYNC (spec/05 R92). -/
def execSync (trough : Trough) (pos : BitVec 32) (s : State) : Host.Outcome State Fault Refusal :=
  s.act (sync (troughOf trough) pos.toNat)

/-- FENCE (spec/05 R96). -/
def execFence (trough : Trough) (pos : BitVec 32) (s : State) : Host.Outcome State Fault Refusal :=
  s.act (fence (troughOf trough) pos.toNat)

/-- FENCE_CONDITION_MET (spec/05 R96). -/
def execFenceConditionMet (trough : Trough) (pos : BitVec 32) (s : State) : Host.Outcome State Fault Refusal :=
  s.act (fenceConditionMet (troughOf trough) pos.toNat)

/-- LINK (spec/15 R300). -/
def execLink (trough : Trough) (pos : BitVec 32) (packets : BitVec 32) (s : State) : Host.Outcome State Fault Refusal :=
  s.act (link (troughOf trough) pos.toNat packets.toNat)

/-- PORT (spec/03 R56). -/
def execPort (trough : Trough) (pos : BitVec 32) (blocks : BitVec 32) (s : State) : Host.Outcome State Fault Refusal :=
  s.act (port (troughOf trough) pos.toNat blocks.toNat)

/-- SWAP (spec/11 R205). -/
def execSwap (trough : Trough) (pos : BitVec 32) (s : State) : Host.Outcome State Fault Refusal :=
  s.act (swap (troughOf trough) pos.toNat)

/-- MARK (spec/04 R82). -/
def execMark (trough : Trough) (pos : BitVec 32) (s : State) : Host.Outcome State Fault Refusal :=
  s.act (mark (troughOf trough) pos.toNat)

end Sys2Proof.Machine
end

