-- ==== Sys2Proof/Machine/ExecDomain.lean ====
section
/-! DEFINITION. The meanings of the commands of domain enables (spec/18): one definition per row of the opcode table. -/
namespace Sys2Proof.Machine

/-- DOMAIN_DISABLE (spec/18 R380). -/
def execDomainDisable (q : Req) (x : Fin 64) (s : State) : Host.Outcome State Fault Refusal :=
  s.act (fun d => d.regBy q (A.PWR_DOM_EN + 4 * (x.val / 32)) (clrBit (d.word (A.PWR_DOM_EN + 4 * (x.val / 32))) (x.val % 32)) (fun v d => d.domEnWrite q (A.PWR_DOM_EN + 4 * (x.val / 32)) v))

/-- DOMAIN_ENABLE (spec/18 R380). -/
def execDomainEnable (q : Req) (x : Fin 64) (s : State) : Host.Outcome State Fault Refusal :=
  s.act (fun d => d.regBy q (A.PWR_DOM_EN + 4 * (x.val / 32)) (setBit (d.word (A.PWR_DOM_EN + 4 * (x.val / 32))) (x.val % 32)) (fun v d => d.domEnWrite q (A.PWR_DOM_EN + 4 * (x.val / 32)) v))

/-- DRAIN_DONE (spec/18 R380). -/
def execDrainDone (x : Fin 64) (s : State) : Host.Outcome State Fault Refusal :=
  s.act (drainDone x.val)

/-- DOMAIN_FORCE_OFF (spec/18 R381). -/
def execDomainForceOff (q : Req) (x : Fin 64) (s : State) : Host.Outcome State Fault Refusal :=
  s.act (fun d => d.regBy q (A.SYS_DOM_FORCE + 4 * (x.val / 32)) (2 ^ (x.val % 32)) (fun v d => d.domForce q (A.SYS_DOM_FORCE + 4 * (x.val / 32)) v))

/-- FORCED_OFF_DONE (spec/18 R381). -/
def execForcedOffDone (x : Fin 64) (s : State) : Host.Outcome State Fault Refusal :=
  s.act (forcedOffDone x.val)

end Sys2Proof.Machine
end

