-- ==== Sys2Proof/Machine/ExecFurrow.lean ====
section
/-! DEFINITION. The meanings of the commands of Furrow ports and packets (spec/15): one definition per row of the opcode table. -/
namespace Sys2Proof.Machine

/-- FURROW_ENABLE (spec/15 R283). -/
def execFurrowEnable (q : Req) (p : Fin 4) (value : BitVec 32) (s : State) : Host.Outcome State Fault Refusal :=
  s.act (fun d => d.regBy q (A.FUR_CTL p.val) value.toNat (fun v d => d.furCtl q p.val v))

/-- TS1_RECEIVE (spec/15 R283). -/
def execTs1Receive (p : Fin 4) (ts : Ts) (s : State) : Host.Outcome State Fault Refusal :=
  s.act (ts1Receive p.val ts)

/-- TS2_RECEIVE (spec/15 R283). -/
def execTs2Receive (p : Fin 4) (ts : Ts) (sent : BitVec 8) (s : State) : Host.Outcome State Fault Refusal :=
  s.act (ts2Receive p.val ts sent.toNat)

/-- ALIGN_RECEIVE (spec/15 R282). -/
def execAlignReceive (p : Fin 4) (s : State) (headers : BitVec 16 := 0xAAAA) : Host.Outcome State Fault Refusal :=
  s.act (alignReceive p.val headers)

/-- ALIGN_SEND (spec/15 R282). -/
def execAlignSend (p : Fin 4) (s : State) : Host.Outcome State Fault Refusal :=
  s.act (alignSend p.val)

/-- TRAIN_TIMEOUT (spec/15 R283). -/
def execTrainTimeout (p : Fin 4) (s : State) : Host.Outcome State Fault Refusal :=
  s.act (trainTimeout p.val)

/-- SEQUENCED_FLIT_RECEIVE (spec/15 R286). -/
def execSequencedFlitReceive (p : Fin 4) (bytes : List Byte) (s : State) (headers : BitVec 16 := 0x5555) :
    Host.Outcome State Fault Refusal :=
  s.act (sequencedFlit p.val headers bytes)

/-- NULL_FLIT_RECEIVE (spec/15 R285). -/
def execNullFlitReceive (p : Fin 4) (bytes : List Byte) (s : State) (headers : BitVec 16 := 0x5555) :
    Host.Outcome State Fault Refusal :=
  s.act (nullFlit p.val headers bytes)

/-- CREDIT_RETURN (spec/15 R285). -/
def execCreditReturn (p : Fin 4) (s : State) : Host.Outcome State Fault Refusal :=
  s.act (creditReturn p.val)

/-- REPLAY_TIMEOUT (spec/15 R286). -/
def execReplayTimeout (p : Fin 4) (s : State) : Host.Outcome State Fault Refusal :=
  s.act (replayTimeout p.val)

/-- LINK_SILENCE_TIMEOUT (spec/15 R287). -/
def execLinkSilenceTimeout (p : Fin 4) (s : State) : Host.Outcome State Fault Refusal :=
  s.act (linkSilence p.val)

/-- IDLE_HOLD_END (spec/15 R287). -/
def execIdleHoldEnd (p : Fin 4) (s : State) : Host.Outcome State Fault Refusal :=
  s.act (idleHoldEnd p.val)

/-- ACT_RECEIVE (spec/15 R292). -/
def execActReceive (p : Fin 5) (s : State) : Host.Outcome State Fault Refusal :=
  s.act (dataReceive p.val pkAct)

/-- GRAD_RECEIVE (spec/15 R292). -/
def execGradReceive (p : Fin 5) (s : State) : Host.Outcome State Fault Refusal :=
  s.act (dataReceive p.val pkGrad)

/-- CKPT_RECEIVE (spec/15 R298). -/
def execCkptReceive (p : Fin 5) (s : State) : Host.Outcome State Fault Refusal :=
  s.act (ckptReceive p.val)

/-- ABORT_RECEIVE (spec/15 R294). -/
def execAbortReceive (p : Fin 5) (s : State) : Host.Outcome State Fault Refusal :=
  s.act (abortReceive p.val)

/-- ABORT_ACK_RECEIVE (spec/05 R100). -/
def execAbortAckReceive (p : Fin 5) (s : State) : Host.Outcome State Fault Refusal :=
  s.act (abortAckReceive p.val)

/-- REG_RECEIVE (spec/15 R296). -/
def execRegReceive (p : Fin 5) (s : State) : Host.Outcome State Fault Refusal :=
  s.act (regReceive p.val)

/-- PACKET_FORWARD (spec/15 R291). -/
def execPacketForward (p : Fin 5) (s : State) : Host.Outcome State Fault Refusal :=
  s.act (packetForward p.val)

/-- LINK_PAUSE (spec/15 R301). -/
def execLinkPause (s : State) : Host.Outcome State Fault Refusal :=
  s.act linkPause

/-- KNOCK_SEND (spec/15 R304). -/
def execKnockSend (q : Req) (p : Fin 4) (s : State) : Host.Outcome State Fault Refusal :=
  s.act (fun d => d.regBy q (A.FUR_KNOCK_CTL p.val) 1 (fun v d => d.knockCtl q p.val v))

/-- KNOCK_ECHO_TIMEOUT (spec/15 R304). -/
def execKnockEchoTimeout (p : Fin 4) (s : State) : Host.Outcome State Fault Refusal :=
  s.act (knockTimeout p.val)

/-- KNOCK_ECHO_RECEIVE (spec/15 R304). -/
def execKnockEchoReceive (p : Fin 4) (s : State) : Host.Outcome State Fault Refusal :=
  s.act (knockEcho p.val)

/-- KNOCK_ACCEPT (spec/15 R303). -/
def execKnockAccept (p : Fin 4) (bursts : List Byte) (s : State) : Host.Outcome State Fault Refusal :=
  s.act (knockAccept p.val (bursts.map BitVec.toNat))

/-- LANE_ACTIVITY (spec/17 R338). -/
def execLaneActivity (p : Fin 4) (s : State) (samples : BitVec 16 := 16) : Host.Outcome State Fault Refusal :=
  s.act (laneActivity p.val samples.toNat)

end Sys2Proof.Machine
end

