-- ==== Sys2Proof/Machine/ExecGranary.lean ====
section
/-! DEFINITION. The meanings of the commands of the Granary (spec/13): one definition per row of the opcode table. -/
namespace Sys2Proof.Machine

/-- INFO (spec/13 R241). -/
def execInfo (intact : Bool) (s : State) : Host.Outcome State Fault Refusal :=
  s.act (gsrService intact (fun d => d.gsrInfo))

/-- PROGRAM (spec/13 R243). -/
def execProgram (addr : BitVec 32) (data : BitVec 64) (fails : Bool) (corrected : Fin 3) (partner : GPartner) (intact : Bool) (s : State) : Host.Outcome State Fault Refusal :=
  s.act (gsrService intact (fun d => d.gsrProgram addr.toNat data fails corrected partner))

/-- ERASE_START (spec/13 R247). -/
def execEraseStart (addr : BitVec 32) (stall : BitVec 32) (intact : Bool) (s : State) : Host.Outcome State Fault Refusal :=
  s.act (gsrService intact (fun d => d.gsrErase addr.toNat stall.toNat))

/-- ERASE_POLL (spec/13 R247). -/
def execErasePoll (intact : Bool) (s : State) : Host.Outcome State Fault Refusal :=
  s.act (gsrService intact (fun d => d.gsrPoll))

/-- VERIFY_ERASED (spec/13 R241). -/
def execVerifyErased (addr : BitVec 32) (intact : Bool) (s : State) : Host.Outcome State Fault Refusal :=
  s.act (gsrService intact (fun d => d.gsrVerify addr.toNat))

/-- XO_SET (spec/13 R253). -/
def execXoSet (region : BitVec 32) (first : BitVec 32) (count : BitVec 32) (flags : BitVec 32) (intact : Bool) (s : State) : Host.Outcome State Fault Refusal :=
  s.act (gsrService intact (fun d => d.gsrXo region.toNat first.toNat count.toNat flags.toNat))

/-- WIN_SET (spec/13 R251). -/
def execWinSet (window : BitVec 32) (first : BitVec 32) (phys : BitVec 32) (logical : BitVec 32) (flags : BitVec 32) (intact : Bool) (s : State) : Host.Outcome State Fault Refusal :=
  s.act (gsrService intact (fun d => d.gsrWin window.toNat first.toNat phys.toNat logical.toNat flags.toNat))

/-- ERASE_END (spec/13 R247). -/
def execEraseEnd (done : Bool) (s : State) : Host.Outcome State Fault Refusal :=
  s.act (fun d => (eraseEnd done d).settleEntry)

/-- ERASE_RESUME (spec/13 R249). -/
def execEraseResume (us : BitVec 32) (s : State) : Host.Outcome State Fault Refusal :=
  s.act (eraseResume us.toNat)

/-- GRANARY_READ (spec/13 R255). -/
def execGranaryRead (reader : GReader) (addr : BitVec 32) (s : State) : Host.Outcome State Fault Refusal :=
  s.act (granaryRead reader addr.toNat)

end Sys2Proof.Machine
end

