-- ==== Sys2Proof/Machine/ExecHopper.lean ====
section
/-! DEFINITION. The meanings of the commands of Hoppers, sifters and the mailbox (spec/08): one definition per row of the opcode table. -/
namespace Sys2Proof.Machine

/-- STRIP_TAKE (spec/08 R148). -/
def execStripTake (k : Fin 4) (s : State) : Host.Outcome State Fault Refusal :=
  s.act (stripTake k.val)

/-- SIFT_UNPARK (spec/08 R163). -/
def execSiftUnpark (k : Fin 4) (s : State) : Host.Outcome State Fault Refusal :=
  s.act (siftUnpark k.val)

/-- HOP_CFG_WRITE (spec/08 R150). -/
def execHopCfgWrite (q : Req) (h : Fin 4) (value : BitVec 32) (s : State) : Host.Outcome State Fault Refusal :=
  s.act (fun d => d.regBy q (A.HOP_CFG h.val) value.toNat (fun v d => d.hopCfg q h.val v (d.reserveNeed h.val)))

/-- SIFTER_YIELD (spec/08 R166). -/
def execSifterYield (k : Fin 4) (latency : BitVec 16) (s : State) : Host.Outcome State Fault Refusal :=
  s.act (sifterYield k.val latency.toNat)

/-- SIFTER_RESUME (spec/08 R167). -/
def execSifterResume (k : Fin 4) (s : State) : Host.Outcome State Fault Refusal :=
  s.act (sifterResume k.val)

/-- MBOX_TAIL_WRITE (spec/08 R171). -/
def execMboxTailWrite (q : Req) (value : BitVec 32) (s : State) : Host.Outcome State Fault Refusal :=
  s.act (fun d => d.regBy q A.SFT_MBOX_TAIL value.toNat (fun v d => d.mboxTail q v))

end Sys2Proof.Machine
end

