-- ==== Sys2Proof/Machine/ExecKey.lean ====
section
/-! DEFINITION. The meanings of the commands of keys (spec/18): one definition per row of the opcode table. -/
namespace Sys2Proof.Machine

/-- KEY_GEN_WRITE (spec/18 R384). -/
def execKeyGenWrite (q : Req) (n : Fin 9) (value : BitVec 32) (s : State) : Host.Outcome State Fault Refusal :=
  s.act (fun d => d.regBy q (A.KEY_GEN n.val) value.toNat (fun v d => d.keyGen q n.val v))

/-- KEY_SHA256 (spec/18 R385). -/
def execKeySha256 (q : Req) (s : State) : Host.Outcome State Fault Refusal :=
  s.act (fun d => d.regBy q A.KEY_CMD 1 (fun v d => d.keyCmdWrite q v))

/-- KEY_VERIFY (spec/18 R385). -/
def execKeyVerify (q : Req) (s : State) : Host.Outcome State Fault Refusal :=
  s.act (fun d => d.regBy q A.KEY_CMD 2 (fun v d => d.keyCmdWrite q v))

/-- KEY_CMD_DONE (spec/18 R385). -/
def execKeyCmdDone (s : State) : Host.Outcome State Fault Refusal :=
  s.act keyDone

end Sys2Proof.Machine
end

