-- ==== Sys2Proof/Machine/ExecLate.lean ====
section
/-! DEFINITION. The meanings of the commands of the rows the opcode table lists last (spec/13, spec/15): one definition per row of the opcode table. -/
namespace Sys2Proof.Machine

/-- BLOCK_LOCK_LOSS (spec/15 R282). -/
def execBlockLockLoss (p : Fin 4) (s : State) : Host.Outcome State Fault Refusal :=
  s.act (blockLockLoss p.val)

/-- PCIE_LINK_UP (spec/15 R311). -/
def execPcieLinkUp (p : Fin 2) (speed : BitVec 4) (width : BitVec 8) (s : State) : Host.Outcome State Fault Refusal :=
  s.act (pcieUp p.val speed.toNat width.toNat)

/-- SRIOV_VF_ENABLE (spec/04 R68). -/
def execSriovVfEnable (p : Fin 2) (vfs : Fin 4) (s : State) : Host.Outcome State Fault Refusal :=
  s.act (sriov p.val vfs.val)

/-- GRANARY_READY (spec/13 R256). -/
def execGranaryReady (s : State) : Host.Outcome State Fault Refusal :=
  s.act granaryReady

end Sys2Proof.Machine
end

