-- ==== Sys2Proof/Machine/ExecPcie.lean ====
section
/-! DEFINITION. The meanings of the commands of the PCIe ports (spec/15): one definition per row of the opcode table. -/
namespace Sys2Proof.Machine

/-- FLR (spec/15 R308). -/
def execFlr (port : Fin 2) (func : Fin 4) (s : State) : Host.Outcome State Fault Refusal :=
  s.act (flr (4 * port.val + func.val))

/-- PERST_ASSERT (spec/15 R308). -/
def execPerstAssert (p : Fin 2) (s : State) : Host.Outcome State Fault Refusal :=
  s.act (perst p.val)

/-- HOT_RESET (spec/15 R308). -/
def execHotReset (p : Fin 2) (s : State) : Host.Outcome State Fault Refusal :=
  s.act (hotReset p.val)

/-- PCIE_LINK_DOWN (spec/15 R308). -/
def execPcieLinkDown (p : Fin 2) (s : State) : Host.Outcome State Fault Refusal :=
  s.act (pcieDown p.val)

/-- PCIE_TRAINING_DETECT (spec/17 R338). -/
def execPcieTrainingDetect (p : Fin 2) (s : State) : Host.Outcome State Fault Refusal :=
  s.act (pcieDetect p.val)

end Sys2Proof.Machine
end

