-- ==== Sys2Proof/Machine/ExecPowerState.lean ====
section
/-! DEFINITION. The meanings of the commands of power states, wakes and regulators (spec/17): one definition per row of the opcode table. -/
namespace Sys2Proof.Machine

/-- PWR_CMD_RUN (spec/17 R342). -/
def execPwrCmdRun (q : Req) (s : State) : Host.Outcome State Fault Refusal :=
  s.act (fun d => d.regBy q A.SYS_PWR_CMD 1 (fun v d => d.pwrCmd q v))

/-- PWR_CMD_DORMANT (spec/17 R334). -/
def execPwrCmdDormant (q : Req) (force : Bool) (s : State) : Host.Outcome State Fault Refusal :=
  s.act (fun d => d.regBy q A.SYS_PWR_CMD (2 + 256 * b2n force) (fun v d => d.pwrCmd q v))

/-- PWR_CMD_FALLOW (spec/17 R334). -/
def execPwrCmdFallow (q : Req) (force : Bool) (s : State) : Host.Outcome State Fault Refusal :=
  s.act (fun d => d.regBy q A.SYS_PWR_CMD (3 + 256 * b2n force) (fun v d => d.pwrCmd q v))

/-- DEVICE_IDLE_TIMEOUT (spec/17 R335). -/
def execDeviceIdleTimeout (s : State) : Host.Outcome State Fault Refusal :=
  s.act idleTimeout

/-- ENTRY_ACK (spec/17 R336). -/
def execEntryAck (q : Req) (s : State) : Host.Outcome State Fault Refusal :=
  s.act (fun d => d.regBy q A.PWR_CTL (setBit (d.word A.PWR_CTL) 0) (fun v d => d.pwrCtl v))

/-- ENTRY_ACK_TIMEOUT (spec/17 R336). -/
def execEntryAckTimeout (s : State) : Host.Outcome State Fault Refusal :=
  s.act entryTimeout

/-- WAKE_ARMED (spec/17 R337). -/
def execWakeArmed (s : State) : Host.Outcome State Fault Refusal :=
  s.act wakeArmed

/-- AUDIO_FRAME_WAKE (spec/17 R338). -/
def execAudioFrameWake (p : Fin 4) (s : State) : Host.Outcome State Fault Refusal :=
  s.act (audioWake p.val)

/-- I3C_WAKE_HEADER (spec/17 R338). -/
def execI3cWakeHeader (s : State) : Host.Outcome State Fault Refusal :=
  s.act i3cWake

/-- BARN_TIMER_EXPIRY (spec/17 R338). -/
def execBarnTimerExpiry (s : State) : Host.Outcome State Fault Refusal :=
  s.act timerExpiry

/-- RAIL_FAIL_RETRY (spec/17 R341). -/
def execRailFailRetry (s : State) : Host.Outcome State Fault Refusal :=
  s.act railRetry

/-- SAVE_RESTORE_DONE (spec/17 R345). -/
def execSaveRestoreDone (crcOk : Bool) (s : State) : Host.Outcome State Fault Refusal :=
  s.act (fun d => (saveRestore crcOk d).payOwed)

/-- DOMAIN_GATE (spec/17 R330). -/
def execDomainGate (x : Fin 64) (s : State) : Host.Outcome State Fault Refusal :=
  s.act (domainGate x.val)

/-- DOMAIN_ON (spec/17 R331). -/
def execDomainOn (x : Fin 64) (s : State) : Host.Outcome State Fault Refusal :=
  s.act (domainSwitched x.val)

/-- PAD_RELEASE (spec/17 R347). -/
def execPadRelease (q : Req) (groups : BitVec 5) (s : State) : Host.Outcome State Fault Refusal :=
  s.act (fun d => d.regBy q A.BARN_PAD_RELEASE groups.toNat (fun v d => d.padRelease q v))

/-- REGULATOR_ENABLE (spec/17 R348). -/
def execRegulatorEnable (q : Req) (r : Fin 4) (value : BitVec 32) (mode : BitVec 8) (raw : Option (BitVec 16)) (s : State) : Host.Outcome State Fault Refusal :=
  s.act (fun d => d.regBy q (A.PWR_REG_CFG r.val) value.toNat (fun v d => d.regCfg q r.val v mode.toNat (raw.map BitVec.toNat)))

/-- VOUT_ACKNOWLEDGED (spec/17 R349). -/
def execVoutAcknowledged (s : State) (vout status : BitVec 16 := 0) : Host.Outcome State Fault Refusal :=
  s.act (voutAcknowledged vout.toNat status.toNat)

/-- VOUT_ACK_TIMEOUT (spec/17 R349). -/
def execVoutAckTimeout (s : State) : Host.Outcome State Fault Refusal :=
  s.act voutTimeout

/-- DVFS_REQUEST (spec/17 R352). -/
def execDvfsRequest (q : Req) (step : BitVec 2) (mv : BitVec 16) (s : State) : Host.Outcome State Fault Refusal :=
  s.act (fun d => d.regBy q A.PWR_DVFS_CTL (step.toNat + mv.toNat * 65536) (fun v d => d.dvfsCtl q v))

end Sys2Proof.Machine
end

