-- ==== Sys2Proof/Machine/ExecReset.lean ====
section
/-! DEFINITION. The meanings of the commands of resets, watchdogs and boot (spec/18, spec/19): one definition per row of the opcode table. -/
namespace Sys2Proof.Machine

/-- PWR_OK_AON_RISE (spec/02 R24). -/
def execPwrOkAonRise (refSel : Bool) (bootSrc : Bool) (bootAddr : BitVec 2) (s : State) : Host.Outcome State Fault Refusal :=
  s.always (pwrOkRise refSel bootSrc bootAddr)

/-- COLD_RESET_RELEASE (spec/21 R424). -/
def execColdResetRelease (s : State) : Host.Outcome State Fault Refusal :=
  s.always coldRelease

/-- PWR_OK_AON_FALL (spec/21 R425). -/
def execPwrOkAonFall (s : State) : Host.Outcome State Fault Refusal :=
  s.always pwrOkFall

/-- AON_UNDERVOLTAGE (spec/21 R425). -/
def execAonUndervoltage (s : State) : Host.Outcome State Fault Refusal :=
  s.always aonUndervoltage

/-- POWER_LOSS (spec/13 R258). -/
def execPowerLoss (op : GOp) (s : State) : Host.Outcome State Fault Refusal :=
  s.always (powerLoss op)

/-- RESET_N_ASSERT (spec/21 R434). -/
def execResetNAssert (samples : BitVec 8) (s : State) : Host.Outcome State Fault Refusal :=
  s.act (resetN samples.toNat)

/-- RESET_CMD_WARM (spec/19 R396). -/
def execResetCmdWarm (q : Req) (s : State) : Host.Outcome State Fault Refusal :=
  s.act (fun d => d.regBy q A.SYS_RESET_CMD 2 (fun v d => d.resetCmd v))

/-- RESET_CMD_STEWARD (spec/19 R396). -/
def execResetCmdSteward (q : Req) (s : State) : Host.Outcome State Fault Refusal :=
  s.act (fun d => d.regBy q A.SYS_RESET_CMD 1 (fun v d => d.resetCmd v))

/-- RESET_CMD_BOOT_B (spec/18 R368). -/
def execResetCmdBootB (q : Req) (s : State) : Host.Outcome State Fault Refusal :=
  s.act (fun d => d.regBy q A.SYS_RESET_CMD 4 (fun v d => d.resetCmd v))

/-- RESET_CMD_STALLS (spec/19 R396). -/
def execResetCmdStalls (q : Req) (stalls : BitVec 9) (s : State) : Host.Outcome State Fault Refusal :=
  s.act (fun d => d.regBy q A.SYS_RESET_CMD (stalls.toNat * 256) (fun v d => d.resetCmd v))

/-- STEWARD_RESET (spec/18 R370). -/
def execStewardReset (s : State) : Host.Outcome State Fault Refusal :=
  s.act stewardReset

/-- STEWARD_WATCHDOG_EXPIRY (spec/19 R399). -/
def execStewardWatchdogExpiry (s : State) : Host.Outcome State Fault Refusal :=
  s.act stwExpiry

/-- WDOG_KICK (spec/19 R399). -/
def execWdogKick (q : Req) (value : BitVec 32) (s : State) : Host.Outcome State Fault Refusal :=
  s.act (fun d => d.regBy q A.SYS_WDOG_KICK value.toNat (fun v d => d.wdogKick q v))

/-- JOB_WATCHDOG_EXPIRY (spec/19 R398). -/
def execJobWatchdogExpiry (n : Fin 9) (s : State) : Host.Outcome State Fault Refusal :=
  s.act (jobExpiry n.val)

/-- ALIVE_TOGGLE (spec/19 R401). -/
def execAliveToggle (s : State) : Host.Outcome State Fault Refusal :=
  s.act aliveToggle

/-- BOOT (spec/18 R367). -/
def execBoot (bootSrc : Bool) (bootAddr : BitVec 2) (intact : Bool) (s : State) : Host.Outcome State Fault Refusal :=
  s.act (romBoot intact bootSrc bootAddr)

end Sys2Proof.Machine
end

