-- ==== Sys2Proof/Machine/ExecSifter.lean ====
section
/-! DEFINITION. The meanings of the commands of sifter instructions (spec/08, spec/09): one definition per row of the opcode table. -/
namespace Sys2Proof.Machine

/-- SIFTER_NOP (spec/08 R156). -/
def execSifterNop (k : Fin 4) (d : BitVec 5) (s : State) : Host.Outcome State Fault Refusal :=
  s.act (sifterIns k.val (Ins.word ⟨0x00, d.toNat, 0, 0, 0, 0, 0⟩))

/-- MOV (spec/08 R156). -/
def execMov (k : Fin 4) (d : BitVec 5) (a : BitVec 5) (s : State) : Host.Outcome State Fault Refusal :=
  s.act (sifterIns k.val (Ins.word ⟨0x01, d.toNat, a.toNat, 0, 0, 0, 0⟩))

/-- ADD (spec/08 R156). -/
def execAdd (k : Fin 4) (d : BitVec 5) (a : BitVec 5) (b : BitVec 5) (s : State) : Host.Outcome State Fault Refusal :=
  s.act (sifterIns k.val (Ins.word ⟨0x02, d.toNat, a.toNat, b.toNat, 0, 0, 0⟩))

/-- SUB (spec/08 R156). -/
def execSub (k : Fin 4) (d : BitVec 5) (a : BitVec 5) (b : BitVec 5) (s : State) : Host.Outcome State Fault Refusal :=
  s.act (sifterIns k.val (Ins.word ⟨0x03, d.toNat, a.toNat, b.toNat, 0, 0, 0⟩))

/-- MUL (spec/08 R156). -/
def execMul (k : Fin 4) (d : BitVec 5) (a : BitVec 5) (b : BitVec 5) (s : State) : Host.Outcome State Fault Refusal :=
  s.act (sifterIns k.val (Ins.word ⟨0x04, d.toNat, a.toNat, b.toNat, 0, 0, 0⟩))

/-- MULH (spec/08 R156). -/
def execMulh (k : Fin 4) (d : BitVec 5) (a : BitVec 5) (b : BitVec 5) (s : State) : Host.Outcome State Fault Refusal :=
  s.act (sifterIns k.val (Ins.word ⟨0x05, d.toNat, a.toNat, b.toNat, 0, 0, 0⟩))

/-- AND (spec/08 R156). -/
def execAnd (k : Fin 4) (d : BitVec 5) (a : BitVec 5) (b : BitVec 5) (s : State) : Host.Outcome State Fault Refusal :=
  s.act (sifterIns k.val (Ins.word ⟨0x06, d.toNat, a.toNat, b.toNat, 0, 0, 0⟩))

/-- OR (spec/08 R156). -/
def execOr (k : Fin 4) (d : BitVec 5) (a : BitVec 5) (b : BitVec 5) (s : State) : Host.Outcome State Fault Refusal :=
  s.act (sifterIns k.val (Ins.word ⟨0x07, d.toNat, a.toNat, b.toNat, 0, 0, 0⟩))

/-- XOR (spec/08 R156). -/
def execXor (k : Fin 4) (d : BitVec 5) (a : BitVec 5) (b : BitVec 5) (s : State) : Host.Outcome State Fault Refusal :=
  s.act (sifterIns k.val (Ins.word ⟨0x08, d.toNat, a.toNat, b.toNat, 0, 0, 0⟩))

/-- SHL (spec/08 R156). -/
def execShl (k : Fin 4) (d : BitVec 5) (a : BitVec 5) (b : BitVec 5) (s : State) : Host.Outcome State Fault Refusal :=
  s.act (sifterIns k.val (Ins.word ⟨0x09, d.toNat, a.toNat, b.toNat, 0, 0, 0⟩))

/-- SHR (spec/08 R156). -/
def execShr (k : Fin 4) (d : BitVec 5) (a : BitVec 5) (b : BitVec 5) (s : State) : Host.Outcome State Fault Refusal :=
  s.act (sifterIns k.val (Ins.word ⟨0x0A, d.toNat, a.toNat, b.toNat, 0, 0, 0⟩))

/-- SRA (spec/08 R156). -/
def execSra (k : Fin 4) (d : BitVec 5) (a : BitVec 5) (b : BitVec 5) (s : State) : Host.Outcome State Fault Refusal :=
  s.act (sifterIns k.val (Ins.word ⟨0x0B, d.toNat, a.toNat, b.toNat, 0, 0, 0⟩))

/-- MIN (spec/08 R156). -/
def execMin (k : Fin 4) (d : BitVec 5) (a : BitVec 5) (b : BitVec 5) (s : State) : Host.Outcome State Fault Refusal :=
  s.act (sifterIns k.val (Ins.word ⟨0x0C, d.toNat, a.toNat, b.toNat, 0, 0, 0⟩))

/-- MAX (spec/08 R156). -/
def execMax (k : Fin 4) (d : BitVec 5) (a : BitVec 5) (b : BitVec 5) (s : State) : Host.Outcome State Fault Refusal :=
  s.act (sifterIns k.val (Ins.word ⟨0x0D, d.toNat, a.toNat, b.toNat, 0, 0, 0⟩))

/-- ABS (spec/08 R156). -/
def execAbs (k : Fin 4) (d : BitVec 5) (a : BitVec 5) (s : State) : Host.Outcome State Fault Refusal :=
  s.act (sifterIns k.val (Ins.word ⟨0x0E, d.toNat, a.toNat, 0, 0, 0, 0⟩))

/-- ADDS (spec/08 R156). -/
def execAdds (k : Fin 4) (d : BitVec 5) (a : BitVec 5) (b : BitVec 5) (s : State) : Host.Outcome State Fault Refusal :=
  s.act (sifterIns k.val (Ins.word ⟨0x0F, d.toNat, a.toNat, b.toNat, 0, 0, 0⟩))

/-- SUBS (spec/08 R156). -/
def execSubs (k : Fin 4) (d : BitVec 5) (a : BitVec 5) (b : BitVec 5) (s : State) : Host.Outcome State Fault Refusal :=
  s.act (sifterIns k.val (Ins.word ⟨0x13, d.toNat, a.toNat, b.toNat, 0, 0, 0⟩))

/-- CMPEQ (spec/08 R156). -/
def execCmpeq (k : Fin 4) (d : BitVec 5) (a : BitVec 5) (b : BitVec 5) (s : State) : Host.Outcome State Fault Refusal :=
  s.act (sifterIns k.val (Ins.word ⟨0x10, d.toNat, a.toNat, b.toNat, 0, 0, 0⟩))

/-- CMPLT (spec/08 R156). -/
def execCmplt (k : Fin 4) (d : BitVec 5) (a : BitVec 5) (b : BitVec 5) (s : State) : Host.Outcome State Fault Refusal :=
  s.act (sifterIns k.val (Ins.word ⟨0x11, d.toNat, a.toNat, b.toNat, 0, 0, 0⟩))

/-- SEL (spec/08 R156). -/
def execSel (k : Fin 4) (d : BitVec 5) (a : BitVec 5) (b : BitVec 5) (c : BitVec 5) (s : State) : Host.Outcome State Fault Refusal :=
  s.act (sifterIns k.val (Ins.word ⟨0x12, d.toNat, a.toNat, b.toNat, c.toNat, 0, 0⟩))

/-- FADD (spec/08 R156). -/
def execFadd (k : Fin 4) (d : BitVec 5) (a : BitVec 5) (b : BitVec 5) (rnd : BitVec 3) (s : State) : Host.Outcome State Fault Refusal :=
  s.act (sifterIns k.val (Ins.word ⟨0x20, d.toNat, a.toNat, b.toNat, 0, rnd.toNat, 0⟩))

/-- FSUB (spec/08 R156). -/
def execFsub (k : Fin 4) (d : BitVec 5) (a : BitVec 5) (b : BitVec 5) (rnd : BitVec 3) (s : State) : Host.Outcome State Fault Refusal :=
  s.act (sifterIns k.val (Ins.word ⟨0x21, d.toNat, a.toNat, b.toNat, 0, rnd.toNat, 0⟩))

/-- FMUL (spec/08 R156). -/
def execFmul (k : Fin 4) (d : BitVec 5) (a : BitVec 5) (b : BitVec 5) (rnd : BitVec 3) (s : State) : Host.Outcome State Fault Refusal :=
  s.act (sifterIns k.val (Ins.word ⟨0x22, d.toNat, a.toNat, b.toNat, 0, rnd.toNat, 0⟩))

/-- FMA (spec/08 R156). -/
def execFma (k : Fin 4) (d : BitVec 5) (a : BitVec 5) (b : BitVec 5) (c : BitVec 5) (rnd : BitVec 3) (s : State) : Host.Outcome State Fault Refusal :=
  s.act (sifterIns k.val (Ins.word ⟨0x23, d.toNat, a.toNat, b.toNat, c.toNat, rnd.toNat, 0⟩))

/-- FMIN (spec/09 R180). -/
def execFmin (k : Fin 4) (d : BitVec 5) (a : BitVec 5) (b : BitVec 5) (s : State) : Host.Outcome State Fault Refusal :=
  s.act (sifterIns k.val (Ins.word ⟨0x24, d.toNat, a.toNat, b.toNat, 0, 0, 0⟩))

/-- FMAX (spec/09 R180). -/
def execFmax (k : Fin 4) (d : BitVec 5) (a : BitVec 5) (b : BitVec 5) (s : State) : Host.Outcome State Fault Refusal :=
  s.act (sifterIns k.val (Ins.word ⟨0x25, d.toNat, a.toNat, b.toNat, 0, 0, 0⟩))

/-- FABS (spec/09 R178). -/
def execFabs (k : Fin 4) (d : BitVec 5) (a : BitVec 5) (s : State) : Host.Outcome State Fault Refusal :=
  s.act (sifterIns k.val (Ins.word ⟨0x26, d.toNat, a.toNat, 0, 0, 0, 0⟩))

/-- FNEG (spec/09 R178). -/
def execFneg (k : Fin 4) (d : BitVec 5) (a : BitVec 5) (s : State) : Host.Outcome State Fault Refusal :=
  s.act (sifterIns k.val (Ins.word ⟨0x27, d.toNat, a.toNat, 0, 0, 0, 0⟩))

/-- FDIV (spec/08 R156). -/
def execFdiv (k : Fin 4) (d : BitVec 5) (a : BitVec 5) (b : BitVec 5) (rnd : BitVec 3) (s : State) : Host.Outcome State Fault Refusal :=
  s.act (sifterIns k.val (Ins.word ⟨0x28, d.toNat, a.toNat, b.toNat, 0, rnd.toNat, 0⟩))

/-- FSQRT (spec/08 R156). -/
def execFsqrt (k : Fin 4) (d : BitVec 5) (a : BitVec 5) (rnd : BitVec 3) (s : State) : Host.Outcome State Fault Refusal :=
  s.act (sifterIns k.val (Ins.word ⟨0x29, d.toNat, a.toNat, 0, 0, rnd.toNat, 0⟩))

/-- FCMPLT (spec/09 R180). -/
def execFcmplt (k : Fin 4) (d : BitVec 5) (a : BitVec 5) (b : BitVec 5) (s : State) : Host.Outcome State Fault Refusal :=
  s.act (sifterIns k.val (Ins.word ⟨0x2A, d.toNat, a.toNat, b.toNat, 0, 0, 0⟩))

/-- FCMPEQ (spec/09 R180). -/
def execFcmpeq (k : Fin 4) (d : BitVec 5) (a : BitVec 5) (b : BitVec 5) (s : State) : Host.Outcome State Fault Refusal :=
  s.act (sifterIns k.val (Ins.word ⟨0x2B, d.toNat, a.toNat, b.toNat, 0, 0, 0⟩))

/-- FFIN (spec/08 R156). -/
def execFfin (k : Fin 4) (d : BitVec 5) (a : BitVec 5) (s : State) : Host.Outcome State Fault Refusal :=
  s.act (sifterIns k.val (Ins.word ⟨0x2C, d.toNat, a.toNat, 0, 0, 0, 0⟩))

/-- CVT (spec/09 R183). -/
def execCvt (k : Fin 4) (d : BitVec 5) (a : BitVec 5) (b : BitVec 5) (c : BitVec 5) (rnd : BitVec 3) (s : State) : Host.Outcome State Fault Refusal :=
  s.act (sifterIns k.val (Ins.word ⟨0x30, d.toNat, a.toNat, b.toNat, c.toNat, rnd.toNat, 0⟩))

/-- QNT (spec/09 R181). -/
def execQnt (k : Fin 4) (d : BitVec 5) (a : BitVec 5) (b : BitVec 5) (c : BitVec 5) (rnd : BitVec 3) (s : State) : Host.Outcome State Fault Refusal :=
  s.act (sifterIns k.val (Ins.word ⟨0x31, d.toNat, a.toNat, b.toNat, c.toNat, rnd.toNat, 0⟩))

/-- DQNT (spec/09 R182). -/
def execDqnt (k : Fin 4) (d : BitVec 5) (a : BitVec 5) (b : BitVec 5) (c : BitVec 5) (rnd : BitVec 3) (s : State) : Host.Outcome State Fault Refusal :=
  s.act (sifterIns k.val (Ins.word ⟨0x32, d.toNat, a.toNat, b.toNat, c.toNat, rnd.toNat, 0⟩))

/-- LUT (spec/08 R446). -/
def execLut (k : Fin 4) (d : BitVec 5) (a : BitVec 5) (b : BitVec 5) (c : BitVec 5) (s : State) : Host.Outcome State Fault Refusal :=
  s.act (sifterIns k.val (Ins.word ⟨0x33, d.toNat, a.toNat, b.toNat, c.toNat, 0, 0⟩))

/-- VLD (spec/08 R157). -/
def execVld (k : Fin 4) (d : BitVec 5) (a : BitVec 5) (b : BitVec 5) (c : BitVec 5) (rnd : BitVec 3) (space : BitVec 1) (s : State) : Host.Outcome State Fault Refusal :=
  s.act (sifterIns k.val (Ins.word ⟨0x40, d.toNat, a.toNat, b.toNat, c.toNat, rnd.toNat, space.toNat⟩))

/-- VST (spec/08 R157). -/
def execVst (k : Fin 4) (d : BitVec 5) (a : BitVec 5) (b : BitVec 5) (c : BitVec 5) (rnd : BitVec 3) (space : BitVec 1) (s : State) : Host.Outcome State Fault Refusal :=
  s.act (sifterIns k.val (Ins.word ⟨0x41, d.toNat, a.toNat, b.toNat, c.toNat, rnd.toNat, space.toNat⟩))

/-- LFILL (spec/08 R157). -/
def execLfill (k : Fin 4) (d : BitVec 5) (a : BitVec 5) (b : BitVec 5) (c : BitVec 5) (s : State) : Host.Outcome State Fault Refusal :=
  s.act (sifterIns k.val (Ins.word ⟨0x42, d.toNat, a.toNat, b.toNat, c.toNat, 0, 0⟩))

/-- LSPILL (spec/08 R157). -/
def execLspill (k : Fin 4) (d : BitVec 5) (a : BitVec 5) (b : BitVec 5) (c : BitVec 5) (s : State) : Host.Outcome State Fault Refusal :=
  s.act (sifterIns k.val (Ins.word ⟨0x43, d.toNat, a.toNat, b.toNat, c.toNat, 0, 0⟩))

/-- VRED (spec/08 R157). -/
def execVred (k : Fin 4) (d : BitVec 5) (a : BitVec 5) (c : BitVec 5) (s : State) : Host.Outcome State Fault Refusal :=
  s.act (sifterIns k.val (Ins.word ⟨0x44, d.toNat, a.toNat, 0, c.toNat, 0, 0⟩))

/-- PERM (spec/08 R157). -/
def execPerm (k : Fin 4) (d : BitVec 5) (a : BitVec 5) (b : BitVec 5) (s : State) : Host.Outcome State Fault Refusal :=
  s.act (sifterIns k.val (Ins.word ⟨0x45, d.toNat, a.toNat, b.toNat, 0, 0, 0⟩))

/-- SHUF (spec/08 R157). -/
def execShuf (k : Fin 4) (d : BitVec 5) (a : BitVec 5) (b : BitVec 5) (c : BitVec 5) (s : State) : Host.Outcome State Fault Refusal :=
  s.act (sifterIns k.val (Ins.word ⟨0x46, d.toNat, a.toNat, b.toNat, c.toNat, 0, 0⟩))

/-- PACK (spec/08 R157). -/
def execPack (k : Fin 4) (d : BitVec 5) (a : BitVec 5) (b : BitVec 5) (c : BitVec 5) (s : State) : Host.Outcome State Fault Refusal :=
  s.act (sifterIns k.val (Ins.word ⟨0x47, d.toNat, a.toNat, b.toNat, c.toNat, 0, 0⟩))

/-- UNPACK (spec/08 R157). -/
def execUnpack (k : Fin 4) (d : BitVec 5) (a : BitVec 5) (b : BitVec 5) (c : BitVec 5) (s : State) : Host.Outcome State Fault Refusal :=
  s.act (sifterIns k.val (Ins.word ⟨0x48, d.toNat, a.toNat, b.toNat, c.toNat, 0, 0⟩))

/-- SUMM (spec/08 R157). -/
def execSumm (k : Fin 4) (a : BitVec 5) (c : BitVec 5) (rnd : BitVec 3) (s : State) : Host.Outcome State Fault Refusal :=
  s.act (sifterIns k.val (Ins.word ⟨0x49, 0, a.toNat, 0, c.toNat, rnd.toNat, 0⟩))

/-- LOOP (spec/08 R158). -/
def execLoop (k : Fin 4) (body : BitVec 8) (repeats : BitVec 16) (s : State) : Host.Outcome State Fault Refusal :=
  s.act (sifterIns k.val (0x4A + body.toNat * 2 ^ 7 + repeats.toNat * 2 ^ 15))

/-- SADDI (spec/08 R157). -/
def execSaddi (k : Fin 4) (d : BitVec 5) (a : BitVec 5) (imm : BitVec 15) (s : State) : Host.Outcome State Fault Refusal :=
  s.act (sifterIns k.val (0x4B + d.toNat * 2 ^ 7 + a.toNat * 2 ^ 12 + imm.toNat * 2 ^ 17))

/-- END (spec/08 R157). -/
def execEndIns (k : Fin 4) (s : State) : Host.Outcome State Fault Refusal :=
  s.act (sifterIns k.val 0x7F)

end Sys2Proof.Machine
end

