-- ==== Sys2Proof/Machine/ExecSignal.lean ====
section
/-! DEFINITION. The meanings of the commands of counters, remote signals and barriers (spec/05, spec/15): one definition per row of the opcode table. -/
namespace Sys2Proof.Machine

/-- JOB_RETURN (spec/19 R392). -/
def execJobReturn (n : Fin 9) (s : State) : Host.Outcome State Fault Refusal :=
  s.act (jobReturn n.val)

/-- COUNTER_WINDOW_WRITE (spec/05 R104). -/
def execCounterWindowWrite (q : Req) (ctr : BitVec 16) (value : BitVec 32) (s : State) : Host.Outcome State Fault Refusal :=
  s.act (counterWindowWrite q ctr.toNat value.toNat)

/-- BARRIER_RECEIVE (spec/05 R97). -/
def execBarrierReceive (p : Fin 5) (s : State) : Host.Outcome State Fault Refusal :=
  s.act (barrierReceive p.val)

/-- RSIG_RECEIVE (spec/05 R98). -/
def execRsigReceive (p : Fin 5) (s : State) : Host.Outcome State Fault Refusal :=
  s.act (rsigReceive p.val)

/-- RACK_RECEIVE (spec/05 R100). -/
def execRackReceive (p : Fin 5) (s : State) : Host.Outcome State Fault Refusal :=
  s.act (rackReceive p.val)

/-- RSIG_RESEND (spec/15 R293). -/
def execRsigResend (n : Fin 9) (s : State) : Host.Outcome State Fault Refusal :=
  s.act (rsigResend n.val)

end Sys2Proof.Machine
end

