-- ==== Sys2Proof/Machine/ExecSilo.lean ====
section
/-! DEFINITION. The meanings of the commands of Silo, the Turner and the Cellar (spec/12): one definition per row of the opcode table. -/
namespace Sys2Proof.Machine

/-- INTERLEAVE_WRITE (spec/12 R217). -/
def execInterleaveWrite (q : Req) (value : BitVec 32) (s : State) : Host.Outcome State Fault Refusal :=
  s.act (fun d => d.regBy q A.SIL_INTERLEAVE value.toNat (fun v d => d.interleave q v))

/-- BANK_ZERO_DONE (spec/12 R221). -/
def execBankZeroDone (b : Fin 16) (s : State) : Host.Outcome State Fault Refusal :=
  s.act (fun d => (bankZeroDone b.val d).payOwed)

/-- SCRUB_LINE (spec/12 R220). -/
def execScrubLine (b : Fin 16) (s : State) : Host.Outcome State Fault Refusal :=
  s.act (scrubLine b.val)

/-- EXTENT_WRITE (spec/12 R222). -/
def execExtentWrite (q : Req) (cellar : Bool) (n : Fin 8) (x : Fin 8) (value : BitVec 32) (s : State) : Host.Outcome State Fault Refusal :=
  s.act (fun d => d.regBy q (if cellar then A.CEL_EXTENT (n.val * 8 + x.val) else A.SIL_EXTENT (n.val * 8 + x.val)) value.toNat (fun v d => d.extentWrite q cellar (n.val + 1) x.val v))

/-- GRANULE_ZERO_DONE (spec/12 R223). -/
def execGranuleZeroDone (cellar : Bool) (g : BitVec 16) (s : State) : Host.Outcome State Fault Refusal :=
  s.act (fun d => (granuleZeroDone cellar g.toNat d).payOwed)

/-- MOVE_YIELD (spec/12 R230). -/
def execMoveYield (c : Fin 4) (latency : BitVec 16) (s : State) : Host.Outcome State Fault Refusal :=
  s.act (moveYield c.val latency.toNat)

/-- MOVE_RESUME (spec/12 R230). -/
def execMoveResume (c : Fin 4) (s : State) : Host.Outcome State Fault Refusal :=
  s.act (moveResume c.val)

/-- CELLAR_TRAINED (spec/12 R233). -/
def execCellarTrained (s : State) : Host.Outcome State Fault Refusal :=
  s.act cellarTrained

/-- CEL_CFG_WRITE (spec/12 R236). -/
def execCelCfgWrite (q : Req) (value : BitVec 32) (s : State) : Host.Outcome State Fault Refusal :=
  s.act (fun d => d.regBy q A.CEL_CFG value.toNat (fun v d => d.celCfg q v))

end Sys2Proof.Machine
end

