-- ==== Sys2Proof/Machine/ExecStall.lean ====
section
/-! DEFINITION. The meanings of the commands of bindings, grants, jobs, troughs and doorbells (spec/04): one definition per row of the opcode table. -/
namespace Sys2Proof.Machine

/-- BIND_WRITE (spec/04 R67). -/
def execBindWrite (q : Req) (n : Fin 9) (value : BitVec 32) (s : State) : Host.Outcome State Fault Refusal :=
  s.act (fun d => d.regBy q (A.STL_BIND n.val) value.toNat (fun v d => d.bindWrite q n.val v))

/-- GRANT_WRITE (spec/04 R71). -/
def execGrantWrite (q : Req) (n : Fin 9) (grant : Grant) (value : BitVec 32) (s : State) : Host.Outcome State Fault Refusal :=
  s.act (fun d => d.regBy q (grantAddr n.val grant) value.toNat (fun v d => d.grantWrite q n.val grant v))

/-- JOB_OPEN (spec/04 R72). -/
def execJobOpen (q : Req) (n : Fin 9) (epoch : BitVec 16) (s : State) : Host.Outcome State Fault Refusal :=
  s.act (fun d => d.regBy q (A.STL_JOB_CTL n.val) (1 + epoch.toNat * 65536) (fun v d => d.jobCtlWrite q n.val v))

/-- JOB_CLOSE (spec/04 R73). -/
def execJobClose (q : Req) (n : Fin 9) (s : State) : Host.Outcome State Fault Refusal :=
  s.act (fun d => d.regBy q (A.STL_JOB_CTL n.val) 2 (fun v d => d.jobCtlWrite q n.val v))

/-- TROUGH_OPEN (spec/04 R74). -/
def execTroughOpen (q : Req) (n : Fin 9) (t : Fin 4) (epoch : BitVec 16) (s : State) : Host.Outcome State Fault Refusal :=
  s.act (fun d => d.regBy q (A.TRG_T_CTL n.val t.val) (1 + epoch.toNat * 65536) (fun v d => d.tCtlWrite q n.val t.val v))

/-- TROUGH_CLOSE (spec/04 R78). -/
def execTroughClose (q : Req) (n : Fin 9) (t : Fin 4) (s : State) : Host.Outcome State Fault Refusal :=
  s.act (fun d => d.regBy q (A.TRG_T_CTL n.val t.val) 2 (fun v d => d.tCtlWrite q n.val t.val v))

/-- TROUGH_CLOSE_DONE (spec/04 R78). -/
def execTroughCloseDone (n : Fin 9) (t : Fin 4) (s : State) : Host.Outcome State Fault Refusal :=
  s.act (fun d => d.closeDone n.val t.val)

/-- TROUGH_SKIP (spec/04 R78). -/
def execTroughSkip (q : Req) (n : Fin 9) (t : Fin 4) (s : State) : Host.Outcome State Fault Refusal :=
  s.act (fun d => d.regBy q (A.TRG_T_CTL n.val t.val) 3 (fun v d => d.tCtlWrite q n.val t.val v))

/-- DOORBELL (spec/04 R75). -/
def execDoorbell (q : Req) (n : Fin 9) (t : Fin 4) (tail : BitVec 32) (s : State) : Host.Outcome State Fault Refusal :=
  s.act (fun d => if (q = .stall n ∨ q = .steward) ∧ d.arrives q then d.doorbell q n.val t.val tail.toNat else d)

end Sys2Proof.Machine
end

