-- ==== Sys2Proof/Machine/ExecSteward.lean ====
section
/-! DEFINITION. The meanings of the commands of the Steward, LIMP, updates and the management bus (spec/18): one definition per row of the opcode table. -/
namespace Sys2Proof.Machine

/-- MTIME_INTERRUPT (spec/18 R362). -/
def execMtimeInterrupt (s : State) : Host.Outcome State Fault Refusal :=
  s.act mtimeInterrupt

/-- LIMP_ENTER (spec/18 R371). -/
def execLimpEnter (q : Req) (cause : BitVec 3) (s : State) : Host.Outcome State Fault Refusal :=
  s.act (fun d => d.regBy q A.SYS_LIMP_CTL cause.toNat (fun v d => d.limpCtl q v))

/-- LIMP_READY (spec/18 R371). -/
def execLimpReady (q : Req) (s : State) : Host.Outcome State Fault Refusal :=
  s.act (fun d => d.regBy q A.SYS_LIMP_CTL 256 (fun v d => d.limpCtl q v))

/-- UPDATE_BEGIN (spec/18 R374). -/
def execUpdateBegin (q : Req) (target : BitVec 2) (hostOk : Bool) (fail : Option (BitVec 16)) (s : State) : Host.Outcome State Fault Refusal :=
  s.act (fun d => d.regBy q A.SYS_UPD_CTL (1 + target.toNat * 4 + 256 * b2n hostOk) (fun v d => d.updCtl q (fail.map BitVec.toNat) v))

/-- UPDATE_CHUNK (spec/18 R374). -/
def execUpdateChunk (q : Req) (offset : BitVec 32) (fail : Option (BitVec 16)) (s : State) : Host.Outcome State Fault Refusal :=
  s.act (fun d => d.regBy q A.SYS_UPD_CHUNK offset.toNat (fun v d => d.updChunk (fail.map BitVec.toNat) v))

/-- UPDATE_COMMIT (spec/18 R374). -/
def execUpdateCommit (q : Req) (target : BitVec 2) (hostOk : Bool) (fail : Option (BitVec 16)) (s : State) : Host.Outcome State Fault Refusal :=
  s.act (fun d => d.regBy q A.SYS_UPD_CTL (2 + target.toNat * 4 + 256 * b2n hostOk) (fun v d => d.updCtl q (fail.map BitVec.toNat) v))

/-- UPDATE_ABORT (spec/18 R374). -/
def execUpdateAbort (q : Req) (target : BitVec 2) (hostOk : Bool) (s : State) : Host.Outcome State Fault Refusal :=
  s.act (fun d => d.regBy q A.SYS_UPD_CTL (3 + target.toNat * 4 + 256 * b2n hostOk) (fun v d => d.updCtl q none v))

/-- ENEC (spec/18 R375). -/
def execEnec (addr : Option (BitVec 7)) (events : BitVec 8) (s : State) : Host.Outcome State Fault Refusal :=
  s.act (i3cEvents true addr events)

/-- DISEC (spec/18 R375). -/
def execDisec (addr : Option (BitVec 7)) (events : BitVec 8) (s : State) : Host.Outcome State Fault Refusal :=
  s.act (i3cEvents false addr events)

/-- RSTDAA (spec/18 R375). -/
def execRstdaa (s : State) : Host.Outcome State Fault Refusal :=
  s.act i3cRstdaa

/-- ENTDAA (spec/18 R375). -/
def execEntdaa (dyn : BitVec 7) (s : State) : Host.Outcome State Fault Refusal :=
  s.act (i3cEntdaa dyn)

/-- SETDASA (spec/18 R375). -/
def execSetdasa (static : BitVec 7) (dyn : BitVec 7) (s : State) : Host.Outcome State Fault Refusal :=
  s.act (i3cSetdasa static dyn)

/-- SETNEWDA (spec/18 R375). -/
def execSetnewda (addr : BitVec 7) (dyn : BitVec 7) (s : State) : Host.Outcome State Fault Refusal :=
  s.act (i3cSetnewda addr dyn)

/-- GETPID (spec/18 R375). -/
def execGetpid (addr : BitVec 7) (s : State) : Host.Outcome State Fault Refusal :=
  s.act (i3cGetpid addr)

/-- GETBCR (spec/18 R375). -/
def execGetbcr (addr : BitVec 7) (s : State) : Host.Outcome State Fault Refusal :=
  s.act (i3cGetbcr addr)

/-- GETDCR (spec/18 R375). -/
def execGetdcr (addr : BitVec 7) (s : State) : Host.Outcome State Fault Refusal :=
  s.act (i3cGetdcr addr)

/-- GETSTATUS (spec/18 R375). -/
def execGetstatus (addr : BitVec 7) (s : State) : Host.Outcome State Fault Refusal :=
  s.act (i3cGetstatus addr)

/-- SETMWL (spec/18 R375). -/
def execSetmwl (addr : Option (BitVec 7)) (len : BitVec 16) (s : State) : Host.Outcome State Fault Refusal :=
  s.act (i3cSetmwl addr len)

/-- SETMRL (spec/18 R375). -/
def execSetmrl (addr : Option (BitVec 7)) (len : BitVec 16) (s : State) : Host.Outcome State Fault Refusal :=
  s.act (i3cSetmrl addr len)

/-- GETMWL (spec/18 R375). -/
def execGetmwl (addr : BitVec 7) (s : State) : Host.Outcome State Fault Refusal :=
  s.act (i3cGetmwl addr)

/-- GETMRL (spec/18 R375). -/
def execGetmrl (addr : BitVec 7) (s : State) : Host.Outcome State Fault Refusal :=
  s.act (i3cGetmrl addr)

/-- MGMT_READ (spec/18 R376). -/
def execMgmtRead (addr : BitVec 32) (len : BitVec 8) (s : State) : Host.Outcome State Fault Refusal :=
  s.act (mgmtRead addr.toNat len.toNat)

/-- MGMT_WRITE (spec/18 R376). -/
def execMgmtWrite (addr : BitVec 32) (bytes : List Byte) (s : State) : Host.Outcome State Fault Refusal :=
  s.act (mgmtWrite addr.toNat bytes)

/-- MGMT_RESULT_READ (spec/18 R376). -/
def execMgmtResultRead (s : State) : Host.Outcome State Fault Refusal :=
  s.act mgmtResult

end Sys2Proof.Machine
end

