-- ==== Sys2Proof/Machine/ExecTally.lean ====
section
/-! DEFINITION. The meanings of the commands of Tally (spec/16): one definition per row of the opcode table. -/
namespace Sys2Proof.Machine

/-- TALLY_SAMPLE (spec/16 R312). -/
def execTallySample (milliamps : List (BitVec 16)) (grants : List (Option (Fin 9))) (vout : Option (Fin 4 × BitVec 16)) (s : State) : Host.Outcome State Fault Refusal :=
  s.act (tallySample (milliamps.map BitVec.toNat) (grants.map (Option.map Fin.val)) (vout.map (fun r => (r.1.val, r.2.toNat))))

/-- SETTLEMENT (spec/16 R315). -/
def execSettlement (s : State) : Host.Outcome State Fault Refusal :=
  s.act settlement

/-- TALLY_START (spec/16 R325). -/
def execTallyStart (q : Req) (s : State) : Host.Outcome State Fault Refusal :=
  s.act (fun d => d.regBy q A.TLY_CTL 1 (fun v d => d.tlyCtl q v))

/-- TALLY_RESTORE (spec/16 R325). -/
def execTallyRestore (q : Req) (s : State) : Host.Outcome State Fault Refusal :=
  s.act (fun d => d.regBy q A.TLY_CTL 2 (fun v d => d.tlyCtl q v))

/-- TALLY_FINAL (spec/16 R323). -/
def execTallyFinal (q : Req) (s : State) : Host.Outcome State Fault Refusal :=
  s.act (fun d => d.regBy q A.TLY_CTL 4 (fun v d => d.tlyCtl q v))

/-- PERSIST_ACK (spec/16 R324). -/
def execPersistAck (q : Req) (s : State) : Host.Outcome State Fault Refusal :=
  s.act (fun d => d.regBy q A.TLY_PERSIST_ACK 1 (fun v d => d.persistAck v))

end Sys2Proof.Machine
end

