-- ==== Sys2Proof/Machine/ExecThermal.lean ====
section
/-! DEFINITION. The meanings of the commands of thermal control (spec/17): one definition per row of the opcode table. -/
namespace Sys2Proof.Machine

/-- THERMAL_SAMPLE (spec/17 R353). -/
def execThermalSample (raw : List (BitVec 16)) (s : State) : Host.Outcome State Fault Refusal :=
  s.act (thermalSample raw)

/-- THRESHOLD_CROSS (spec/17 R354). -/
def execThresholdCross (k : Fin 3) (s : State) : Host.Outcome State Fault Refusal :=
  s.act (thresholdCross k)

/-- THRESHOLD_CLEAR (spec/17 R354). -/
def execThresholdClear (k : Fin 3) (s : State) : Host.Outcome State Fault Refusal :=
  s.act (thresholdClear k)

/-- THROTTLE_STEP (spec/17 R356). -/
def execThrottleStep (s : State) : Host.Outcome State Fault Refusal :=
  s.act throttleStep

/-- CAP_RELAX (spec/17 R357). -/
def execCapRelax (s : State) : Host.Outcome State Fault Refusal :=
  s.act capRelax

/-- CRIT_HOLD_END (spec/17 R358). -/
def execCritHoldEnd (s : State) : Host.Outcome State Fault Refusal :=
  s.act critHoldEnd

end Sys2Proof.Machine
end

