-- ==== Sys2Proof/Machine/ExecTile.lean ====
section
/-! DEFINITION. The meanings of the commands of the Thresher (spec/06, spec/07): one definition per row of the opcode table. -/
namespace Sys2Proof.Machine

/-- TILE_GRANT (spec/07 R139). -/
def execTileGrant (trough : Trough) (pos : BitVec 32) (s : State) : Host.Outcome State Fault Refusal :=
  s.act (tileGrant (troughOf trough) pos.toNat)

/-- RAMP_UP_DONE (spec/06 R116). -/
def execRampUpDone (leader : Fin 16) (s : State) : Host.Outcome State Fault Refusal :=
  s.act (rampUpDone leader.val)

/-- FRONT_COMPLETE (spec/06 R119). -/
def execFrontComplete (leader : Fin 16) (s : State) : Host.Outcome State Fault Refusal :=
  s.act (frontComplete leader.val)

/-- FOLD_COMPLETE (spec/07 R133). -/
def execFoldComplete (leader : Fin 16) (s : State) : Host.Outcome State Fault Refusal :=
  s.act (foldComplete leader.val)

/-- CREDIT_TAKE (spec/08 R147). -/
def execCreditTake (leader : Fin 16) (held : BitVec 32) (s : State) : Host.Outcome State Fault Refusal :=
  s.act (creditTake leader.val held.toNat)

/-- STRIP_ENTER (spec/08 R147). -/
def execStripEnter (h : Fin 4) (s : State) : Host.Outcome State Fault Refusal :=
  s.act (stripEnter h.val)

/-- HOLD_RAMP_DOWN (spec/06 R116). -/
def execHoldRampDown (leader : Fin 16) (cycles : BitVec 32) (s : State) : Host.Outcome State Fault Refusal :=
  s.act (holdRampDown leader.val cycles.toNat)

/-- RAMP_DOWN_DONE (spec/06 R116). -/
def execRampDownDone (b : Fin 16) (s : State) : Host.Outcome State Fault Refusal :=
  s.act (rampDownDone b.val)

/-- YIELD_REQUEST (spec/07 R140). -/
def execYieldRequest (q : Req) (b : Fin 16) (s : State) : Host.Outcome State Fault Refusal :=
  s.act (fun d => d.regBy q (A.THR_PROG_CTL b.val) 1 (fun v d => d.progCtl q b.val v))

/-- YIELD_TAKE (spec/07 R141). -/
def execYieldTake (leader : Fin 16) (latency : BitVec 16) (s : State) : Host.Outcome State Fault Refusal :=
  s.act (yieldTake leader.val latency.toNat)

/-- SPILL_DONE (spec/07 R142). -/
def execSpillDone (slot : Fin 32) (s : State) : Host.Outcome State Fault Refusal :=
  s.act (spillDone slot.val)

/-- TILE_RESUME (spec/07 R143). -/
def execTileResume (slot : Fin 32) (s : State) : Host.Outcome State Fault Refusal :=
  s.act (tileResume slot.val)

/-- REFILL_DONE (spec/07 R143). -/
def execRefillDone (leader : Fin 16) (s : State) : Host.Outcome State Fault Refusal :=
  s.act (refillDone leader.val)

/-- BATCH_RELEASE (spec/07 R139). -/
def execBatchRelease (q : Req) (s : State) : Host.Outcome State Fault Refusal :=
  s.act (fun d => d.regBy q A.THR_BATCH_CTL 2 (fun v d => d.batchRelease v))

end Sys2Proof.Machine
end

