-- ==== Sys2Proof/Machine/Dispatch.lean ====
section
/-! DEFINITION. The meaning of each command: one arm per constructor. -/
namespace Sys2Proof.Machine

/-- The effect of a command on everything but the queue. -/
def exec (i : Instr) (s : State) : Host.Outcome State Fault Refusal :=
  match i with
  | .registerWrite q bar addr len value => Sys2Proof.Machine.execRegisterWrite q bar addr len value s
  | .lockSet q page => Sys2Proof.Machine.execLockSet q page s
  | .perrClr q page => Sys2Proof.Machine.execPerrClr q page s
  | .wideLoRead q bar addr len => Sys2Proof.Machine.execWideLoRead q bar addr len s
  | .wideUpperRead q bar addr len => Sys2Proof.Machine.execWideUpperRead q bar addr len s
  | .widePairRead q bar addr => Sys2Proof.Machine.execWidePairRead q bar addr s
  | .unboundAccess port func write => Sys2Proof.Machine.execUnboundAccess port func write s
  | .pwrOkAonRise refSel bootSrc bootAddr => Sys2Proof.Machine.execPwrOkAonRise refSel bootSrc bootAddr s
  | .coldResetRelease => Sys2Proof.Machine.execColdResetRelease s
  | .pwrOkAonFall => Sys2Proof.Machine.execPwrOkAonFall s
  | .aonUndervoltage => Sys2Proof.Machine.execAonUndervoltage s
  | .powerLoss op => Sys2Proof.Machine.execPowerLoss op s
  | .resetNAssert samples => Sys2Proof.Machine.execResetNAssert samples s
  | .resetCmdWarm q => Sys2Proof.Machine.execResetCmdWarm q s
  | .resetCmdSteward q => Sys2Proof.Machine.execResetCmdSteward q s
  | .resetCmdBootB q => Sys2Proof.Machine.execResetCmdBootB q s
  | .resetCmdStalls q stalls => Sys2Proof.Machine.execResetCmdStalls q stalls s
  | .stewardReset => Sys2Proof.Machine.execStewardReset s
  | .stewardWatchdogExpiry => Sys2Proof.Machine.execStewardWatchdogExpiry s
  | .wdogKick q value => Sys2Proof.Machine.execWdogKick q value s
  | .jobWatchdogExpiry n => Sys2Proof.Machine.execJobWatchdogExpiry n s
  | .aliveToggle => Sys2Proof.Machine.execAliveToggle s
  | .boot bootSrc bootAddr intact => Sys2Proof.Machine.execBoot bootSrc bootAddr intact s
  | .refMeasureDone count => Sys2Proof.Machine.execRefMeasureDone count s
  | .refLost => Sys2Proof.Machine.execRefLost s
  | .refEdgeReturn => Sys2Proof.Machine.execRefEdgeReturn s
  | .pllEnable q => Sys2Proof.Machine.execPllEnable q s
  | .pllDisable q => Sys2Proof.Machine.execPllDisable q s
  | .pllLock => Sys2Proof.Machine.execPllLock s
  | .lossOfLock => Sys2Proof.Machine.execLossOfLock s
  | .coreSrcSet q => Sys2Proof.Machine.execCoreSrcSet q s
  | .coreSrcClear q => Sys2Proof.Machine.execCoreSrcClear q s
  | .tclkDivRequest q code => Sys2Proof.Machine.execTclkDivRequest q code s
  | .divChange => Sys2Proof.Machine.execDivChange s
  | .portCtlWrite q p value => Sys2Proof.Machine.execPortCtlWrite q p value s
  | .inputFrame p words => Sys2Proof.Machine.execInputFrame p words s
  | .frameLost p => Sys2Proof.Machine.execFrameLost p s
  | .blockBoundary str => Sys2Proof.Machine.execBlockBoundary str s
  | .realtimeAbortDone str => Sys2Proof.Machine.execRealtimeAbortDone str s
  | .streamBind n str => Sys2Proof.Machine.execStreamBind n str s
  | .streamContextWrite q str word value => Sys2Proof.Machine.execStreamContextWrite q str word value s
  | .streamDisable q str => Sys2Proof.Machine.execStreamDisable q str s
  | .zcArm q str => Sys2Proof.Machine.execZcArm q str s
  | .zcTimeout str => Sys2Proof.Machine.execZcTimeout str s
  | .outRelease q => Sys2Proof.Machine.execOutRelease q s
  | .muteRelease q => Sys2Proof.Machine.execMuteRelease q s
  | .muteForce q on => Sys2Proof.Machine.execMuteForce q on s
  | .bindWrite q n value => Sys2Proof.Machine.execBindWrite q n value s
  | .grantWrite q n grant value => Sys2Proof.Machine.execGrantWrite q n grant value s
  | .jobOpen q n epoch => Sys2Proof.Machine.execJobOpen q n epoch s
  | .jobClose q n => Sys2Proof.Machine.execJobClose q n s
  | .troughOpen q n t epoch => Sys2Proof.Machine.execTroughOpen q n t epoch s
  | .troughClose q n t => Sys2Proof.Machine.execTroughClose q n t s
  | .troughCloseDone n t => Sys2Proof.Machine.execTroughCloseDone n t s
  | .troughSkip q n t => Sys2Proof.Machine.execTroughSkip q n t s
  | .doorbell q n t tail => Sys2Proof.Machine.execDoorbell q n t tail s
  | .descriptorNext trough => Sys2Proof.Machine.execDescriptorNext trough s
  | .descriptorStart trough pos => Sys2Proof.Machine.execDescriptorStart trough pos s
  | .descriptorRetire trough pos => Sys2Proof.Machine.execDescriptorRetire trough pos s
  | .nop trough pos => Sys2Proof.Machine.execNop trough pos s
  | .tile trough pos => Sys2Proof.Machine.execTile trough pos s
  | .sift trough pos granules => Sys2Proof.Machine.execSift trough pos granules s
  | .move trough pos groups => Sys2Proof.Machine.execMove trough pos groups s
  | .bale trough pos blocks => Sys2Proof.Machine.execBale trough pos blocks s
  | .unbale trough pos blocks => Sys2Proof.Machine.execUnbale trough pos blocks s
  | .winnow trough pos blocks => Sys2Proof.Machine.execWinnow trough pos blocks s
  | .sync trough pos => Sys2Proof.Machine.execSync trough pos s
  | .fence trough pos => Sys2Proof.Machine.execFence trough pos s
  | .fenceConditionMet trough pos => Sys2Proof.Machine.execFenceConditionMet trough pos s
  | .link trough pos packets => Sys2Proof.Machine.execLink trough pos packets s
  | .port trough pos blocks => Sys2Proof.Machine.execPort trough pos blocks s
  | .swap trough pos => Sys2Proof.Machine.execSwap trough pos s
  | .mark trough pos => Sys2Proof.Machine.execMark trough pos s
  | .jobReturn n => Sys2Proof.Machine.execJobReturn n s
  | .counterWindowWrite q ctr value => Sys2Proof.Machine.execCounterWindowWrite q ctr value s
  | .barrierReceive p => Sys2Proof.Machine.execBarrierReceive p s
  | .rsigReceive p => Sys2Proof.Machine.execRsigReceive p s
  | .rackReceive p => Sys2Proof.Machine.execRackReceive p s
  | .rsigResend n => Sys2Proof.Machine.execRsigResend n s
  | .tileGrant trough pos => Sys2Proof.Machine.execTileGrant trough pos s
  | .rampUpDone leader => Sys2Proof.Machine.execRampUpDone leader s
  | .frontComplete leader => Sys2Proof.Machine.execFrontComplete leader s
  | .foldComplete leader => Sys2Proof.Machine.execFoldComplete leader s
  | .creditTake leader held => Sys2Proof.Machine.execCreditTake leader held s
  | .stripEnter h => Sys2Proof.Machine.execStripEnter h s
  | .holdRampDown leader cycles => Sys2Proof.Machine.execHoldRampDown leader cycles s
  | .rampDownDone b => Sys2Proof.Machine.execRampDownDone b s
  | .yieldRequest q b => Sys2Proof.Machine.execYieldRequest q b s
  | .yieldTake leader latency => Sys2Proof.Machine.execYieldTake leader latency s
  | .spillDone slot => Sys2Proof.Machine.execSpillDone slot s
  | .tileResume slot => Sys2Proof.Machine.execTileResume slot s
  | .refillDone leader => Sys2Proof.Machine.execRefillDone leader s
  | .batchRelease q => Sys2Proof.Machine.execBatchRelease q s
  | .stripTake k => Sys2Proof.Machine.execStripTake k s
  | .siftUnpark k => Sys2Proof.Machine.execSiftUnpark k s
  | .hopCfgWrite q h value => Sys2Proof.Machine.execHopCfgWrite q h value s
  | .sifterYield k latency => Sys2Proof.Machine.execSifterYield k latency s
  | .sifterResume k => Sys2Proof.Machine.execSifterResume k s
  | .mboxTailWrite q value => Sys2Proof.Machine.execMboxTailWrite q value s
  | .sifterNop k d => Sys2Proof.Machine.execSifterNop k d s
  | .mov k d a => Sys2Proof.Machine.execMov k d a s
  | .add k d a b => Sys2Proof.Machine.execAdd k d a b s
  | .sub k d a b => Sys2Proof.Machine.execSub k d a b s
  | .mul k d a b => Sys2Proof.Machine.execMul k d a b s
  | .mulh k d a b => Sys2Proof.Machine.execMulh k d a b s
  | .and k d a b => Sys2Proof.Machine.execAnd k d a b s
  | .or k d a b => Sys2Proof.Machine.execOr k d a b s
  | .xor k d a b => Sys2Proof.Machine.execXor k d a b s
  | .shl k d a b => Sys2Proof.Machine.execShl k d a b s
  | .shr k d a b => Sys2Proof.Machine.execShr k d a b s
  | .sra k d a b => Sys2Proof.Machine.execSra k d a b s
  | .min k d a b => Sys2Proof.Machine.execMin k d a b s
  | .max k d a b => Sys2Proof.Machine.execMax k d a b s
  | .abs k d a => Sys2Proof.Machine.execAbs k d a s
  | .adds k d a b => Sys2Proof.Machine.execAdds k d a b s
  | .subs k d a b => Sys2Proof.Machine.execSubs k d a b s
  | .cmpeq k d a b => Sys2Proof.Machine.execCmpeq k d a b s
  | .cmplt k d a b => Sys2Proof.Machine.execCmplt k d a b s
  | .sel k d a b c => Sys2Proof.Machine.execSel k d a b c s
  | .fadd k d a b rnd => Sys2Proof.Machine.execFadd k d a b rnd s
  | .fsub k d a b rnd => Sys2Proof.Machine.execFsub k d a b rnd s
  | .fmul k d a b rnd => Sys2Proof.Machine.execFmul k d a b rnd s
  | .fma k d a b c rnd => Sys2Proof.Machine.execFma k d a b c rnd s
  | .fmin k d a b => Sys2Proof.Machine.execFmin k d a b s
  | .fmax k d a b => Sys2Proof.Machine.execFmax k d a b s
  | .fabs k d a => Sys2Proof.Machine.execFabs k d a s
  | .fneg k d a => Sys2Proof.Machine.execFneg k d a s
  | .fdiv k d a b rnd => Sys2Proof.Machine.execFdiv k d a b rnd s
  | .fsqrt k d a rnd => Sys2Proof.Machine.execFsqrt k d a rnd s
  | .fcmplt k d a b => Sys2Proof.Machine.execFcmplt k d a b s
  | .fcmpeq k d a b => Sys2Proof.Machine.execFcmpeq k d a b s
  | .ffin k d a => Sys2Proof.Machine.execFfin k d a s
  | .cvt k d a b c rnd => Sys2Proof.Machine.execCvt k d a b c rnd s
  | .qnt k d a b c rnd => Sys2Proof.Machine.execQnt k d a b c rnd s
  | .dqnt k d a b c rnd => Sys2Proof.Machine.execDqnt k d a b c rnd s
  | .lut k d a b c => Sys2Proof.Machine.execLut k d a b c s
  | .vld k d a b c rnd space => Sys2Proof.Machine.execVld k d a b c rnd space s
  | .vst k d a b c rnd space => Sys2Proof.Machine.execVst k d a b c rnd space s
  | .lfill k d a b c => Sys2Proof.Machine.execLfill k d a b c s
  | .lspill k d a b c => Sys2Proof.Machine.execLspill k d a b c s
  | .vred k d a c => Sys2Proof.Machine.execVred k d a c s
  | .perm k d a b => Sys2Proof.Machine.execPerm k d a b s
  | .shuf k d a b c => Sys2Proof.Machine.execShuf k d a b c s
  | .pack k d a b c => Sys2Proof.Machine.execPack k d a b c s
  | .unpack k d a b c => Sys2Proof.Machine.execUnpack k d a b c s
  | .summ k a c rnd => Sys2Proof.Machine.execSumm k a c rnd s
  | .loop k body repeats => Sys2Proof.Machine.execLoop k body repeats s
  | .saddi k d a imm => Sys2Proof.Machine.execSaddi k d a imm s
  | .endIns k => Sys2Proof.Machine.execEndIns k s
  | .lossScaleEnable q n value => Sys2Proof.Machine.execLossScaleEnable q n value s
  | .stepClose n => Sys2Proof.Machine.execStepClose n s
  | .winnowPause => Sys2Proof.Machine.execWinnowPause s
  | .interleaveWrite q value => Sys2Proof.Machine.execInterleaveWrite q value s
  | .bankZeroDone b => Sys2Proof.Machine.execBankZeroDone b s
  | .scrubLine b => Sys2Proof.Machine.execScrubLine b s
  | .extentWrite q cellar n x value => Sys2Proof.Machine.execExtentWrite q cellar n x value s
  | .granuleZeroDone cellar g => Sys2Proof.Machine.execGranuleZeroDone cellar g s
  | .moveYield c latency => Sys2Proof.Machine.execMoveYield c latency s
  | .moveResume c => Sys2Proof.Machine.execMoveResume c s
  | .cellarTrained => Sys2Proof.Machine.execCellarTrained s
  | .celCfgWrite q value => Sys2Proof.Machine.execCelCfgWrite q value s
  | .info intact => Sys2Proof.Machine.execInfo intact s
  | .program addr data fails corrected partner intact => Sys2Proof.Machine.execProgram addr data fails corrected partner intact s
  | .eraseStart addr stall intact => Sys2Proof.Machine.execEraseStart addr stall intact s
  | .erasePoll intact => Sys2Proof.Machine.execErasePoll intact s
  | .verifyErased addr intact => Sys2Proof.Machine.execVerifyErased addr intact s
  | .xoSet region first count flags intact => Sys2Proof.Machine.execXoSet region first count flags intact s
  | .winSet window first phys logical flags intact => Sys2Proof.Machine.execWinSet window first phys logical flags intact s
  | .eraseEnd done => Sys2Proof.Machine.execEraseEnd done s
  | .eraseResume us => Sys2Proof.Machine.execEraseResume us s
  | .granaryRead reader addr => Sys2Proof.Machine.execGranaryRead reader addr s
  | .slotWrite q slot owner value => Sys2Proof.Machine.execSlotWrite q slot owner value s
  | .balerPause => Sys2Proof.Machine.execBalerPause s
  | .furrowEnable q p value => Sys2Proof.Machine.execFurrowEnable q p value s
  | .ts1Receive p ts => Sys2Proof.Machine.execTs1Receive p ts s
  | .ts2Receive p ts sent => Sys2Proof.Machine.execTs2Receive p ts sent s
  | .alignReceive p headers => Sys2Proof.Machine.execAlignReceive p s headers
  | .alignSend p => Sys2Proof.Machine.execAlignSend p s
  | .trainTimeout p => Sys2Proof.Machine.execTrainTimeout p s
  | .sequencedFlitReceive p bytes headers => Sys2Proof.Machine.execSequencedFlitReceive p bytes s headers
  | .nullFlitReceive p bytes headers => Sys2Proof.Machine.execNullFlitReceive p bytes s headers
  | .creditReturn p => Sys2Proof.Machine.execCreditReturn p s
  | .replayTimeout p => Sys2Proof.Machine.execReplayTimeout p s
  | .linkSilenceTimeout p => Sys2Proof.Machine.execLinkSilenceTimeout p s
  | .idleHoldEnd p => Sys2Proof.Machine.execIdleHoldEnd p s
  | .actReceive p => Sys2Proof.Machine.execActReceive p s
  | .gradReceive p => Sys2Proof.Machine.execGradReceive p s
  | .ckptReceive p => Sys2Proof.Machine.execCkptReceive p s
  | .abortReceive p => Sys2Proof.Machine.execAbortReceive p s
  | .abortAckReceive p => Sys2Proof.Machine.execAbortAckReceive p s
  | .regReceive p => Sys2Proof.Machine.execRegReceive p s
  | .packetForward p => Sys2Proof.Machine.execPacketForward p s
  | .linkPause => Sys2Proof.Machine.execLinkPause s
  | .knockSend q p => Sys2Proof.Machine.execKnockSend q p s
  | .knockEchoTimeout p => Sys2Proof.Machine.execKnockEchoTimeout p s
  | .knockEchoReceive p => Sys2Proof.Machine.execKnockEchoReceive p s
  | .knockAccept p bursts => Sys2Proof.Machine.execKnockAccept p bursts s
  | .laneActivity p samples => Sys2Proof.Machine.execLaneActivity p s samples
  | .flr port func => Sys2Proof.Machine.execFlr port func s
  | .perstAssert p => Sys2Proof.Machine.execPerstAssert p s
  | .hotReset p => Sys2Proof.Machine.execHotReset p s
  | .pcieLinkDown p => Sys2Proof.Machine.execPcieLinkDown p s
  | .pcieTrainingDetect p => Sys2Proof.Machine.execPcieTrainingDetect p s
  | .tallySample milliamps grants vout => Sys2Proof.Machine.execTallySample milliamps grants vout s
  | .settlement => Sys2Proof.Machine.execSettlement s
  | .tallyStart q => Sys2Proof.Machine.execTallyStart q s
  | .tallyRestore q => Sys2Proof.Machine.execTallyRestore q s
  | .tallyFinal q => Sys2Proof.Machine.execTallyFinal q s
  | .persistAck q => Sys2Proof.Machine.execPersistAck q s
  | .pwrCmdRun q => Sys2Proof.Machine.execPwrCmdRun q s
  | .pwrCmdDormant q force => Sys2Proof.Machine.execPwrCmdDormant q force s
  | .pwrCmdFallow q force => Sys2Proof.Machine.execPwrCmdFallow q force s
  | .deviceIdleTimeout => Sys2Proof.Machine.execDeviceIdleTimeout s
  | .entryAck q => Sys2Proof.Machine.execEntryAck q s
  | .entryAckTimeout => Sys2Proof.Machine.execEntryAckTimeout s
  | .wakeArmed => Sys2Proof.Machine.execWakeArmed s
  | .audioFrameWake p => Sys2Proof.Machine.execAudioFrameWake p s
  | .i3cWakeHeader => Sys2Proof.Machine.execI3cWakeHeader s
  | .barnTimerExpiry => Sys2Proof.Machine.execBarnTimerExpiry s
  | .railFailRetry => Sys2Proof.Machine.execRailFailRetry s
  | .saveRestoreDone crcOk => Sys2Proof.Machine.execSaveRestoreDone crcOk s
  | .domainGate x => Sys2Proof.Machine.execDomainGate x s
  | .domainOn x => Sys2Proof.Machine.execDomainOn x s
  | .padRelease q groups => Sys2Proof.Machine.execPadRelease q groups s
  | .regulatorEnable q r value mode raw => Sys2Proof.Machine.execRegulatorEnable q r value mode raw s
  | .voutAcknowledged vout status => Sys2Proof.Machine.execVoutAcknowledged s vout status
  | .voutAckTimeout => Sys2Proof.Machine.execVoutAckTimeout s
  | .dvfsRequest q step mv => Sys2Proof.Machine.execDvfsRequest q step mv s
  | .thermalSample raw => Sys2Proof.Machine.execThermalSample raw s
  | .thresholdCross k => Sys2Proof.Machine.execThresholdCross k s
  | .thresholdClear k => Sys2Proof.Machine.execThresholdClear k s
  | .throttleStep => Sys2Proof.Machine.execThrottleStep s
  | .capRelax => Sys2Proof.Machine.execCapRelax s
  | .critHoldEnd => Sys2Proof.Machine.execCritHoldEnd s
  | .mtimeInterrupt => Sys2Proof.Machine.execMtimeInterrupt s
  | .limpEnter q cause => Sys2Proof.Machine.execLimpEnter q cause s
  | .limpReady q => Sys2Proof.Machine.execLimpReady q s
  | .updateBegin q target hostOk fail => Sys2Proof.Machine.execUpdateBegin q target hostOk fail s
  | .updateChunk q offset fail => Sys2Proof.Machine.execUpdateChunk q offset fail s
  | .updateCommit q target hostOk fail => Sys2Proof.Machine.execUpdateCommit q target hostOk fail s
  | .updateAbort q target hostOk => Sys2Proof.Machine.execUpdateAbort q target hostOk s
  | .enec addr events => Sys2Proof.Machine.execEnec addr events s
  | .disec addr events => Sys2Proof.Machine.execDisec addr events s
  | .rstdaa => Sys2Proof.Machine.execRstdaa s
  | .entdaa dyn => Sys2Proof.Machine.execEntdaa dyn s
  | .setdasa static dyn => Sys2Proof.Machine.execSetdasa static dyn s
  | .setnewda addr dyn => Sys2Proof.Machine.execSetnewda addr dyn s
  | .getpid addr => Sys2Proof.Machine.execGetpid addr s
  | .getbcr addr => Sys2Proof.Machine.execGetbcr addr s
  | .getdcr addr => Sys2Proof.Machine.execGetdcr addr s
  | .getstatus addr => Sys2Proof.Machine.execGetstatus addr s
  | .setmwl addr len => Sys2Proof.Machine.execSetmwl addr len s
  | .setmrl addr len => Sys2Proof.Machine.execSetmrl addr len s
  | .getmwl addr => Sys2Proof.Machine.execGetmwl addr s
  | .getmrl addr => Sys2Proof.Machine.execGetmrl addr s
  | .mgmtRead addr len => Sys2Proof.Machine.execMgmtRead addr len s
  | .mgmtWrite addr bytes => Sys2Proof.Machine.execMgmtWrite addr bytes s
  | .mgmtResultRead => Sys2Proof.Machine.execMgmtResultRead s
  | .domainDisable q x => Sys2Proof.Machine.execDomainDisable q x s
  | .domainEnable q x => Sys2Proof.Machine.execDomainEnable q x s
  | .drainDone x => Sys2Proof.Machine.execDrainDone x s
  | .domainForceOff q x => Sys2Proof.Machine.execDomainForceOff q x s
  | .forcedOffDone x => Sys2Proof.Machine.execForcedOffDone x s
  | .keyGenWrite q n value => Sys2Proof.Machine.execKeyGenWrite q n value s
  | .keySha256 q => Sys2Proof.Machine.execKeySha256 q s
  | .keyVerify q => Sys2Proof.Machine.execKeyVerify q s
  | .keyCmdDone => Sys2Proof.Machine.execKeyCmdDone s
  | .blockLockLoss p => Sys2Proof.Machine.execBlockLockLoss p s
  | .pcieLinkUp p speed width => Sys2Proof.Machine.execPcieLinkUp p speed width s
  | .sriovVfEnable p vfs => Sys2Proof.Machine.execSriovVfEnable p vfs s
  | .granaryReady => Sys2Proof.Machine.execGranaryReady s

end Sys2Proof.Machine
end

