-- ==== Sys2Proof/WellFormed.lean ====
section
/-! DEFINITION. Which commands are well formed: the limits that the types of the operands do not state. The machine runs an
ill-formed command too; what is outside these limits never arrives from outside. -/
namespace Sys2Proof

/-- A program operation names a word of the Granary, 32,768 sectors of 512 words (spec/13, Terms). -/
def GOp.wellFormed : GOp → Bool
  | .program w _ => decide (w < 32768 * 512)
  | _ => true

/-- The limits of a command: an access of 1 to 8 bytes (spec/20 R413), a frame of at most 8 slots (spec/03 R44), the granules
of Silo (spec/12 R222), the 64 bytes of a flit (spec/15 R284), the 65 sensors of Tally and the 26 domains whose stall is told
(spec/16 R312), the 12 thermal sensors (spec/17 R353) and the speeds and widths of a host link (spec/15 R311). -/
def Instr.wellFormed : Instr → Bool
  | .registerWrite _ _ _ len _ => decide (1 ≤ len.toNat ∧ len.toNat ≤ 8)
  | .lockSet _ _ => true
  | .perrClr _ _ => true
  | .wideLoRead _ _ _ len => decide (1 ≤ len.toNat ∧ len.toNat ≤ 4)
  | .wideUpperRead _ _ _ len => decide (1 ≤ len.toNat ∧ len.toNat ≤ 4)
  | .widePairRead _ _ _ => true
  | .unboundAccess _ _ _ => true
  | .pwrOkAonRise _ _ _ => true
  | .coldResetRelease => true
  | .pwrOkAonFall => true
  | .aonUndervoltage => true
  | .powerLoss op => op.wellFormed
  | .resetNAssert _ => true
  | .resetCmdWarm _ => true
  | .resetCmdSteward _ => true
  | .resetCmdBootB _ => true
  | .resetCmdStalls _ _ => true
  | .stewardReset => true
  | .stewardWatchdogExpiry => true
  | .wdogKick _ _ => true
  | .jobWatchdogExpiry _ => true
  | .aliveToggle => true
  | .boot _ _ _ => true
  | .refMeasureDone _ => true
  | .refLost => true
  | .refEdgeReturn => true
  | .pllEnable _ => true
  | .pllDisable _ => true
  | .pllLock => true
  | .lossOfLock => true
  | .coreSrcSet _ => true
  | .coreSrcClear _ => true
  | .tclkDivRequest _ _ => true
  | .divChange => true
  | .portCtlWrite _ _ _ => true
  | .inputFrame _ words => decide (words.length ≤ 8)
  | .frameLost _ => true
  | .blockBoundary _ => true
  | .realtimeAbortDone _ => true
  | .streamBind _ _ => true
  | .streamContextWrite _ _ _ _ => true
  | .streamDisable _ _ => true
  | .zcArm _ _ => true
  | .zcTimeout _ => true
  | .outRelease _ => true
  | .muteRelease _ => true
  | .muteForce _ _ => true
  | .bindWrite _ _ _ => true
  | .grantWrite _ _ _ _ => true
  | .jobOpen _ _ _ => true
  | .jobClose _ _ => true
  | .troughOpen _ _ _ _ => true
  | .troughClose _ _ _ => true
  | .troughCloseDone _ _ => true
  | .troughSkip _ _ _ => true
  | .doorbell _ _ _ _ => true
  | .descriptorNext _ => true
  | .descriptorStart _ _ => true
  | .descriptorRetire _ _ => true
  | .nop _ _ => true
  | .tile _ _ => true
  | .sift _ _ _ => true
  | .move _ _ _ => true
  | .bale _ _ _ => true
  | .unbale _ _ _ => true
  | .winnow _ _ _ => true
  | .sync _ _ => true
  | .fence _ _ => true
  | .fenceConditionMet _ _ => true
  | .link _ _ _ => true
  | .port _ _ _ => true
  | .swap _ _ => true
  | .mark _ _ => true
  | .jobReturn _ => true
  | .counterWindowWrite _ _ _ => true
  | .barrierReceive _ => true
  | .rsigReceive _ => true
  | .rackReceive _ => true
  | .rsigResend _ => true
  | .tileGrant _ _ => true
  | .rampUpDone _ => true
  | .frontComplete _ => true
  | .foldComplete _ => true
  | .creditTake _ _ => true
  | .stripEnter _ => true
  | .holdRampDown _ _ => true
  | .rampDownDone _ => true
  | .yieldRequest _ _ => true
  | .yieldTake _ _ => true
  | .spillDone _ => true
  | .tileResume _ => true
  | .refillDone _ => true
  | .batchRelease _ => true
  | .stripTake _ => true
  | .siftUnpark _ => true
  | .hopCfgWrite _ _ _ => true
  | .sifterYield _ _ => true
  | .sifterResume _ => true
  | .mboxTailWrite _ _ => true
  | .sifterNop _ _ => true
  | .mov _ _ _ => true
  | .add _ _ _ _ => true
  | .sub _ _ _ _ => true
  | .mul _ _ _ _ => true
  | .mulh _ _ _ _ => true
  | .and _ _ _ _ => true
  | .or _ _ _ _ => true
  | .xor _ _ _ _ => true
  | .shl _ _ _ _ => true
  | .shr _ _ _ _ => true
  | .sra _ _ _ _ => true
  | .min _ _ _ _ => true
  | .max _ _ _ _ => true
  | .abs _ _ _ => true
  | .adds _ _ _ _ => true
  | .subs _ _ _ _ => true
  | .cmpeq _ _ _ _ => true
  | .cmplt _ _ _ _ => true
  | .sel _ _ _ _ _ => true
  | .fadd _ _ _ _ _ => true
  | .fsub _ _ _ _ _ => true
  | .fmul _ _ _ _ _ => true
  | .fma _ _ _ _ _ _ => true
  | .fmin _ _ _ _ => true
  | .fmax _ _ _ _ => true
  | .fabs _ _ _ => true
  | .fneg _ _ _ => true
  | .fdiv _ _ _ _ _ => true
  | .fsqrt _ _ _ _ => true
  | .fcmplt _ _ _ _ => true
  | .fcmpeq _ _ _ _ => true
  | .ffin _ _ _ => true
  | .cvt _ _ _ _ _ _ => true
  | .qnt _ _ _ _ _ _ => true
  | .dqnt _ _ _ _ _ _ => true
  | .lut _ _ _ _ _ => true
  | .vld _ _ _ _ _ _ _ => true
  | .vst _ _ _ _ _ _ _ => true
  | .lfill _ _ _ _ _ => true
  | .lspill _ _ _ _ _ => true
  | .vred _ _ _ _ => true
  | .perm _ _ _ _ => true
  | .shuf _ _ _ _ _ => true
  | .pack _ _ _ _ _ => true
  | .unpack _ _ _ _ _ => true
  | .summ _ _ _ _ => true
  | .loop _ _ _ => true
  | .saddi _ _ _ _ => true
  | .endIns _ => true
  | .lossScaleEnable _ _ _ => true
  | .stepClose _ => true
  | .winnowPause => true
  | .interleaveWrite _ _ => true
  | .bankZeroDone _ => true
  | .scrubLine _ => true
  | .extentWrite _ _ _ _ _ => true
  | .granuleZeroDone cellar g => cellar || decide (g.toNat < 1024)
  | .moveYield _ _ => true
  | .moveResume _ => true
  | .cellarTrained => true
  | .celCfgWrite _ _ => true
  | .info _ => true
  | .program _ _ _ _ _ _ => true
  | .eraseStart _ _ _ => true
  | .erasePoll _ => true
  | .verifyErased _ _ => true
  | .xoSet _ _ _ _ _ => true
  | .winSet _ _ _ _ _ _ => true
  | .eraseEnd _ => true
  | .eraseResume _ => true
  | .granaryRead _ _ => true
  | .slotWrite _ _ _ _ => true
  | .balerPause => true
  | .furrowEnable _ _ _ => true
  | .ts1Receive _ _ => true
  | .ts2Receive _ _ _ => true
  | .alignReceive _ _ => true
  | .alignSend _ => true
  | .trainTimeout _ => true
  | .sequencedFlitReceive _ bytes _ => decide (bytes.length = 64)
  | .nullFlitReceive _ bytes _ => decide (bytes.length = 64)
  | .creditReturn _ => true
  | .replayTimeout _ => true
  | .linkSilenceTimeout _ => true
  | .idleHoldEnd _ => true
  | .actReceive _ => true
  | .gradReceive _ => true
  | .ckptReceive _ => true
  | .abortReceive _ => true
  | .abortAckReceive _ => true
  | .regReceive _ => true
  | .packetForward _ => true
  | .linkPause => true
  | .knockSend _ _ => true
  | .knockEchoTimeout _ => true
  | .knockEchoReceive _ => true
  | .knockAccept _ _ => true
  | .laneActivity _ _ => true
  | .flr _ _ => true
  | .perstAssert _ => true
  | .hotReset _ => true
  | .pcieLinkDown _ => true
  | .pcieTrainingDetect _ => true
  | .tallySample milliamps grants _ => decide (milliamps.length = 65 ∧ grants.length = 26)
  | .settlement => true
  | .tallyStart _ => true
  | .tallyRestore _ => true
  | .tallyFinal _ => true
  | .persistAck _ => true
  | .pwrCmdRun _ => true
  | .pwrCmdDormant _ _ => true
  | .pwrCmdFallow _ _ => true
  | .deviceIdleTimeout => true
  | .entryAck _ => true
  | .entryAckTimeout => true
  | .wakeArmed => true
  | .audioFrameWake _ => true
  | .i3cWakeHeader => true
  | .barnTimerExpiry => true
  | .railFailRetry => true
  | .saveRestoreDone _ => true
  | .domainGate _ => true
  | .domainOn _ => true
  | .padRelease _ _ => true
  | .regulatorEnable _ _ _ _ _ => true
  | .voutAcknowledged _ _ => true
  | .voutAckTimeout => true
  | .dvfsRequest _ _ _ => true
  | .thermalSample raw => decide (raw.length = 12)
  | .thresholdCross _ => true
  | .thresholdClear _ => true
  | .throttleStep => true
  | .capRelax => true
  | .critHoldEnd => true
  | .mtimeInterrupt => true
  | .limpEnter _ _ => true
  | .limpReady _ => true
  | .updateBegin _ _ _ _ => true
  | .updateChunk _ _ _ => true
  | .updateCommit _ _ _ _ => true
  | .updateAbort _ _ _ => true
  | .enec _ _ => true
  | .disec _ _ => true
  | .rstdaa => true
  | .entdaa _ => true
  | .setdasa _ _ => true
  | .setnewda _ _ => true
  | .getpid _ => true
  | .getbcr _ => true
  | .getdcr _ => true
  | .getstatus _ => true
  | .setmwl _ _ => true
  | .setmrl _ _ => true
  | .getmwl _ => true
  | .getmrl _ => true
  | .mgmtRead _ _ => true
  | .mgmtWrite _ _ => true
  | .mgmtResultRead => true
  | .domainDisable _ _ => true
  | .domainEnable _ _ => true
  | .drainDone _ => true
  | .domainForceOff _ _ => true
  | .forcedOffDone _ => true
  | .keyGenWrite _ _ _ => true
  | .keySha256 _ => true
  | .keyVerify _ => true
  | .keyCmdDone => true
  | .blockLockLoss _ => true
  | .pcieLinkUp _ speed width => decide (1 ≤ speed.toNat ∧ speed.toNat ≤ 4) && [1, 2, 4].contains width.toNat
  | .sriovVfEnable _ _ => true
  | .granaryReady => true

end Sys2Proof
end

