-- ==== Sys2Proof/Safety.lean ====
section
/-! DEFINITION. The terms claims are stated in: a command that completes, a write that its requester may make, what a GSR
call returns, correct rounding, the canonical form of the memories, and the device held in cold reset. -/
namespace Sys2Proof.Machine

/-- Command `i` answers a next state, and `P` holds of it. -/
def Completes (i : Instr) (s : State) (P : State → Prop) : Prop := ∃ t, exec i s = .next t ∧ P t

/-- Requester `q`'s write of `v` to the register at BAR0 address `addr` takes effect whole: it arrives and is seen, the page's
lock does not stop it, `q` has the right to every field it changes (spec/20 R409, R410, R414), and no wake has yet to restore
the page (spec/17 R341). -/
def Dev.permits (d : Dev) (q : Req) (addr v : Nat) : Prop :=
  ∃ h, d.unrestored q .bar0 addr = false ∧ regHit addr = some h ∧ d.arrives q = true ∧ d.shows q addr true = true ∧ h.row.readOnly = false ∧
    screen q (d.locked addr) h v (d.word addr) = ⟨v, true, false, false⟩

/-- The register words at the BAR0 addresses `ws` apart, every register word of `t` is that of `s`. -/
def SameWords (s t : State) (ws : List Nat) : Prop := ∀ a, a ∉ ws → t.dev.word a = s.dev.word a

/-- `t` differs from `s` in the register words at the BAR0 addresses `ws` alone. -/
def OnlyRegs (s t : State) (ws : List Nat) : Prop :=
  t = { s with dev := { s.dev with regs := t.dev.regs } } ∧ SameWords s t ws

/-- What `t` keeps of `s` when a write by `q` to offset `off` of page `target` is ignored and counted on page `p` with a
cause: PERR_COUNT goes up by one, to its largest value at most, the first such write since the count was zero is recorded in
PERR_FIRST, and nothing else changes (spec/00 R14, spec/20 R415). -/
def Counted (s t : State) (p target off : Nat) (q : Req) (cause : Nat) : Prop :=
  t.dev.rd (R.PERR_COUNT p) = min (s.dev.rd (R.PERR_COUNT p) + 1) maxWord ∧
  (if s.dev.rd (R.PERR_COUNT p) = 0 then
    t.dev.rd (R.PERR_FIRST_OFFSET p) = off ∧ t.dev.rd (R.PERR_FIRST_REQ p) = reqCode q ∧
      t.dev.rd (R.PERR_FIRST_CAUSE p) = cause ∧ t.dev.rd (R.PERR_FIRST_PAGE p) = target ∧
      OnlyRegs s t [A.PERR_COUNT p, A.PERR_FIRST p]
  else OnlyRegs s t [A.PERR_COUNT p])

/-- What a GSR call leaves: the code in a0 and the result in a1, every other integer register of the Steward as it was, a
Steward reset requested before it to be taken after it (spec/13 R257), and no byte of its memory changed but the 512 below sp. What the call itself does to the Granary and to Tally's counts is said
beside it (spec/13 R240). -/
def CallReturns (s t : State) (code res : Nat) : Prop :=
  t.dev.xreg 10 = code ∧ t.dev.xreg 11 = res % 2 ^ 64 ∧ (∀ i, i ≠ 10 → i ≠ 11 → t.dev.xreg i = s.dev.xreg i) ∧
  (∀ a, ¬(s.dev.xreg 2 ≤ 0x10000200 + a ∧ 0x10000000 + a < s.dev.xreg 2) →
    t.dev.mem.tcsram.get zeroByte a = s.dev.mem.tcsram.get zeroByte a) ∧
  t = { s with dev := { s.dev with
    regs := t.dev.regs
    gr := t.dev.gr
    ta := t.dev.ta
    free := t.dev.free
    mem := { s.dev.mem with tcsram := t.dev.mem.tcsram }
    sy := { s.dev.sy with x := t.dev.sy.x, afterCall := s.dev.sy.resetReq } } }

/-- `t` and `s` agree on every register, the Granary and Tally. -/
def SameFlash (s t : State) : Prop := t.dev.regs = s.dev.regs ∧ t.dev.gr = s.dev.gr ∧ t.dev.ta = s.dev.ta

/-! ## Rounding (spec/09 R174-R176, R179) -/

/-- `r × 2^k` is the magnitude `m` of a value of sign `neg`, rounded to a multiple of `2^k` by attribute `rnd`: 0 to nearest,
ties to even; 1 to nearest, ties away; 2 toward zero; 3 toward +∞; 4 toward −∞ (R174). -/
def RoundsTo (rnd : Nat) (neg : Bool) (m k r : Nat) : Prop :=
  let down := r * 2 ^ k ≤ m ∧ m < (r + 1) * 2 ^ k
  let up := m ≤ r * 2 ^ k ∧ r * 2 ^ k < m + 2 ^ k
  match rnd with
  | 0 => 2 * (r * 2 ^ k) ≤ 2 * m + 2 ^ k ∧ 2 * m ≤ 2 * (r * 2 ^ k) + 2 ^ k ∧
      (2 * (r * 2 ^ k) = 2 * m + 2 ^ k ∨ 2 * m = 2 * (r * 2 ^ k) + 2 ^ k → r % 2 = 0)
  | 1 => 2 * (r * 2 ^ k) ≤ 2 * m + 2 ^ k ∧ 2 * m < 2 * (r * 2 ^ k) + 2 ^ k
  | 2 => down
  | 3 => if neg then down else up
  | _ => if neg then up else down

/-- `x` is what an operation whose exact result is `±m × 2^e`, not zero, delivers in FP32: in the normal range the value of
a 24-bit significand, inexact or not; beyond it the infinity or the largest finite value; below it a multiple of 2⁻¹⁴⁹, or in
fast mode a zero. No flag is raised in fast mode (R174-R176, R179). -/
def Delivers (strict : Bool) (rnd : Nat) (neg : Bool) (m : Nat) (e : Int) (x : FRes) : Prop :=
  let top := (Nat.log2 m : Int) + e
  (-126 ≤ top → top ≤ 126 → ∃ k r : Nat, (k = 0 ∧ m < 2 ^ 24 ∨ 2 ^ (k + 23) ≤ m ∧ m < 2 ^ (k + 24)) ∧ RoundsTo rnd neg m k r ∧
    cmpVals (decodeF fp32 x.val) (.fin neg r (e + k)) = .eq ∧ x.flags = if r * 2 ^ k = m ∨ strict = false then 0 else flagNX) ∧
  (128 ≤ top →
    x.val = (if rnd = 2 ∨ rnd = 3 ∧ neg = true ∨ rnd = 4 ∧ neg = false then fp32.maxPat neg else fp32.infPat neg) ∧
    x.flags = if strict then flagOF + flagNX else 0) ∧
  (top < -127 → strict = false → x = ⟨fp32.sign neg, 0⟩) ∧
  (top < -127 → strict = true → ∃ r : Nat, x.val = fp32.sign neg + r ∧
    (if e < -149 then RoundsTo rnd neg m (-149 - e).toNat r ∧
        x.flags = (if r * 2 ^ (-149 - e).toNat = m then 0 else flagUF + flagNX)
      else r = m * 2 ^ (e + 149).toNat ∧ x.flags = 0))

/-- Every memory is in its canonical form. -/
def Mem.wf (m : Mem) : Bool :=
  m.silo.wf zeroByte && m.cellar.wf zeroByte && m.host.wf zeroByte && m.loft.wf zeroByte && m.tcsram.wf zeroByte &&
    m.ecc.wf (fun _ => none)

/-- The register bank, the counters, the Granary and the memories are in their canonical form. -/
def Dev.canonical (d : Dev) : Bool :=
  d.regs.wf resetWord && d.tn.rick.wf (fun _ => 0) && d.gr.words.wf gBlank && d.mem.wf

/-- The device is held in cold reset with MUTE_N low (spec/19 R425). -/
def Dev.held (d : Dev) : Prop := d.sy.coldHold = true ∧ d.au.muteLow = true

end Sys2Proof.Machine
end

