-- ==== Sys2Proof/Certificates/Slice0/Obligations.lean ====
section
/-! DEFINITION. The statements to be proved of the model: what each command does, what it leaves alone, and what every step
keeps. -/
open Sys2Proof Sys2Proof.Machine

/-- A step is the command at the front of the queue; an empty queue is a tick (log entry 1)
(spec/95_what_each_step_holds.md, spec/00_scope.md). -/
def Obligations.StepRunsFrontCommand : Prop :=
  (∀ (c : Instr) (s : State), step { s with pending := c :: s.pending } = exec c s) ∧
  (∀ s : State, s.pending = [] → step s = .next { s with dev := s.dev.idle })

/-- Any queue of commands runs to its end, first in, first out, and no command stops the device or touches the queue
(spec/20_register_page_map.md R409, spec/19_faults_resets_and_restart.md R388). -/
def Obligations.QueueRunsInOrder : Prop :=
  ∀ (d : Dev) (cs ds : List Instr), ∃ e : Dev,
    Host.Core.run Sys2Proof.core cs.length (⟨d, cs ++ ds⟩ : State) = .next (⟨e, ds⟩ : State) ∧
    Host.Core.run Sys2Proof.core cs.length (⟨d, cs⟩ : State) = .next (⟨e, []⟩ : State)

/-- Until its release a device in cold reset stays in it, with MUTE_N low and no frame driven
(spec/21_electrical_and_package.md R424, spec/21_electrical_and_package.md R425, spec/02_clocks_and_sample_time.md R24). -/
def Obligations.HeldDeviceStaysHeld : Prop :=
  ∀ s t : State, s.dev.held → Instr.coldResetRelease ∉ s.pending → step s = .next t →
    t.dev.held ∧ Instr.coldResetRelease ∉ t.pending ∧
    (∀ p b ws, Out.frame p b ws ∈ t.dev.outs ↔ Out.frame p b ws ∈ s.dev.outs)

/-- In the cold reset hold every command but the five power events changes nothing (log entry 3)
(spec/21_electrical_and_package.md R425). -/
def Obligations.HoldStopsCommands : Prop :=
  ∀ (s : State) (c : Instr), s.dev.sy.coldHold = true → c ≠ .coldResetRelease → c ≠ .pwrOkAonFall →
    c ≠ .aonUndervoltage → (∀ r b a, c ≠ .pwrOkAonRise r b a) → (∀ op, c ≠ .powerLoss op) → exec c s = .next s

/-- What reset leaves: STC, Rick and Silo zero, jobs closed, outputs muted, the default bindings, no command waiting
(spec/21_electrical_and_package.md R424, spec/05_rick_counters_and_ordering.md R89, spec/12_silo_turner_and_cellar.md R217,
spec/17_power_and_thermal.md Table 17-10, spec/04_stalls_troughs_commands.md R67). -/
def Obligations.ResetLeaves : Prop :=
  State.reset.pending = [] ∧ State.reset.dev.sy.coldHold = false ∧ State.reset.dev.au.muteLow = true ∧
  State.reset.dev.stc = 0 ∧ State.reset.dev.rd R.CLK_TCLK_DIV_CUR = 0 ∧ State.reset.dev.coreOn = false ∧
  (∀ c, State.reset.dev.ctr c = 0) ∧ (∀ a, State.reset.dev.peek (.silo a) = 0) ∧
  (∀ b < 16, b ∈ State.reset.dev.mem.bankPend) ∧ (∀ n < 9, State.reset.dev.jobState n = jobClosed) ∧
  (∀ f < 8, State.reset.dev.funcOf (f + 1) = some (4 * (f / 4) + f % 4))

/-- At reset the registers, the counters, the Granary and the memories are in their canonical form
(spec/12_silo_turner_and_cellar.md, spec/20_register_page_map.md). -/
def Obligations.ResetIsCanonical : Prop :=
  State.reset.dev.canonical = true

/-- The operations over registers, counters and memories keep the canonical form, from every state that has it
(spec/12_silo_turner_and_cellar.md R219, spec/20_register_page_map.md R404, spec/05_rick_counters_and_ordering.md R89). -/
def Obligations.MemoryOperationsKeepForm : Prop :=
  ∀ d : Dev, d.canonical = true →
    (∀ f v, (d.wr f v).canonical = true) ∧ (∀ a v, (d.storeWord a v).canonical = true) ∧
    (∀ c v, (d.setCtr c v).canonical = true) ∧ (∀ ls, (d.readLocs ls).2.2.canonical = true) ∧
    (∀ ls bs, (d.writeLocs ls bs).2.canonical = true) ∧ (∀ a q c, (d.perr a q c).canonical = true) ∧
    (∀ w x, (d.setGword w x).canonical = true)

/-- Bytes written to Silo are read back, every other byte of every memory is unchanged, and whole words lose bad check bits
(spec/12_silo_turner_and_cellar.md R219, spec/00_scope.md R6). -/
def Obligations.SiloReadAfterWrite : Prop :=
  ∀ (d : Dev) (a : Nat) (bs : List Byte),
    (∀ w ∈ siloWords (siloSpan a bs.length), coversWord (siloSpan a bs.length) w = false → d.eccOf w ≠ some .ue) →
    (∀ i (h : i < bs.length), (d.siloWrite a bs).2.peek (.silo (a + i)) = bs[i]) ∧
    (∀ x, (x < a ∨ a + bs.length ≤ x) → (d.siloWrite a bs).2.peek (.silo x) = d.peek (.silo x)) ∧
    (∀ x, (d.siloWrite a bs).2.peek (.cellar x) = d.peek (.cellar x)) ∧
    (∀ f x, (d.siloWrite a bs).2.peek (.host f x) = d.peek (.host f x)) ∧
    (∀ k x, (d.siloWrite a bs).2.peek (.loft k x) = d.peek (.loft k x)) ∧
    (∀ w, a ≤ 8 * w → 8 * w + 8 ≤ a + bs.length → (d.siloWrite a bs).2.eccOf w = none)

/-- REGISTER_WRITE of four bytes stores each read-write field, and changes nothing else (spec/20_register_page_map.md R409,
spec/20_register_page_map.md R413, spec/00_scope.md R13). -/
def Obligations.RegisterWriteStores : Prop :=
  ∀ (s : State) (q : Req) (a : BitVec 24) (v : BitVec 64) (h : RegHit), s.dev.sy.coldHold = false →
    a.toNat % 4 = 0 → v.toNat < 2 ^ 32 → ownPage q a.toNat = some a.toNat → isSnap a.toNat = false →
    regHit a.toNat = some h → (∀ f ∈ h.row.fields, f.acc = .rw ∨ f.acc = .rwl) → s.dev.permits q a.toNat v.toNat →
    s.dev.regEffect q a.toNat v.toNat = s.dev.storeWord a.toNat v.toNat →
    Completes (.registerWrite q .bar0 a 4 v) s fun t =>
      OnlyRegs s t [a.toNat] ∧ ∀ f ∈ h.row.fields,
        bits (t.dev.word a.toNat) (f.inWord h.word).1 (f.inWord h.word).2.1 = bits v.toNat (f.inWord h.word).1 (f.inWord h.word).2.1

/-- REGISTER_WRITE that is refused is counted with its cause and changes nothing else (spec/20_register_page_map.md R409,
spec/20_register_page_map.md R410, spec/20_register_page_map.md R413, spec/00_scope.md R14, spec/00_scope.md R15,
spec/20_register_page_map.md R447). -/
def Obligations.RegisterWriteRefused : Prop :=
  ∀ (s : State) (q : Req) (a : BitVec 24) (len : BitVec 4) (v : BitVec 64), s.dev.sy.coldHold = false → len.toNat ≤ 8 →
    (pageKind (a.toNat / 4096) ≠ none → regHit a.toNat = none → isSnap a.toNat = false → a.toNat % 4 = 0 →
      s.dev.unrestored q .bar0 a.toNat = false →
      exec (.registerWrite q .bar0 a 4 v) s = .next s) ∧
    (∀ (n : Fin 9) h, q = .stall n → a.toNat % 4 = 0 → pageKind (a.toNat / 4096) ≠ none → regHit a.toNat = some h →
      isSnap a.toNat = false → s.dev.reachable n = true → s.dev.sees n a.toNat true = false →
      Completes (.registerWrite q .bar0 a 4 v) s fun t =>
        Counted s t (0x10 + n.val) (a.toNat / 4096) (a.toNat % 4096) q causeAccess) ∧
    (q = .mgmt → ((len ≠ 4 ∧ len ≠ 8) ∨ a.toNat % 4 ≠ 0) → 0 < len.toNat →
      pageKind (a.toNat / 4096) ≠ none → regHit (a.toNat / 4 * 4) ≠ none →
      Completes (.registerWrite q .bar0 a len v) s fun t =>
        Counted s t (a.toNat / 4096) (a.toNat / 4096) (a.toNat / 4 * 4 % 4096) q causeSize) ∧
    (q = .mgmt → a.toNat % 4096 = 0x18 → pageKind (a.toNat / 4096) ≠ none → bits v.toNat 0 32 ≠ 0 →
      Completes (.registerWrite q .bar0 a 4 v) s fun t => Counted s t (a.toNat / 4096) (a.toNat / 4096) 0x18 q causeAccess) ∧
    (∀ h f, a.toNat % 4 = 0 → isSnap a.toNat = false → ownPage q a.toNat = some a.toNat → regHit a.toNat = some h →
      h.row.words = 1 → h.row.fields = [f] → f.acc = .rwl → f.mayWrite q = true → s.dev.arrives q = true →
      s.dev.unrestored q .bar0 a.toNat = false →
      s.dev.shows q a.toNat true = true → s.dev.locked a.toNat = true →
      Completes (.registerWrite q .bar0 a 4 v) s fun t => Counted s t (a.toNat / 4096) (a.toNat / 4096) (a.toNat % 4096) q causeLocked) ∧
    (s.dev.arrives q = false → exec (.registerWrite q .bar0 a len v) s = .next s)

/-- A Steward write of PIRQ_STAT clears the bits written in PIRQ_RAW, whatever PIRQ_EN holds, and nothing else changes
(spec/20_register_page_map.md R407, spec/20_register_page_map.md R447). -/
def Obligations.PirqStatClears : Prop :=
  ∀ (s : State) (a : BitVec 24) (v : BitVec 64), s.dev.sy.coldHold = false → s.dev.arrives .steward = true →
    s.dev.unrestored .steward .bar0 a.toNat = false → a.toNat % 4096 = 0x18 → pageKind (a.toNat / 4096) ≠ none →
    Completes (.registerWrite .steward .bar0 a 4 v) s fun t =>
      OnlyRegs s t [A.PIRQ_RAW (a.toNat / 4096)] ∧
      ∀ i < 32, (t.dev.rd (R.PIRQ_RAW (a.toNat / 4096))).testBit i =
        ((s.dev.rd (R.PIRQ_RAW (a.toNat / 4096))).testBit i && !v.toNat.testBit i)

/-- LOCK_SET sets PCTL.LOCK or is counted, and PERR_CLR clears PERR_COUNT and PERR_FIRST (spec/20_register_page_map.md R414,
spec/20_register_page_map.md R415). -/
def Obligations.LockAndErrorCommands : Prop :=
  ∀ (s : State) (q : Req) (p : BitVec 12) (k : PageKind) (n : Nat), s.dev.sy.coldHold = false → s.dev.arrives q = true →
    s.dev.unrestored q .bar0 (p.toNat * 4096 + 0x0C) = false → pageKind p.toNat = some (k, n) →
    ((q = .mgmt ∨ q = .steward) → k.lockable = true → Completes (.lockSet q p) s fun t =>
      OnlyRegs s t [A.PCTL p.toNat] ∧ t.dev.rd (R.PCTL_LOCK p.toNat) = 1) ∧
    ((q = .mgmt ∨ q = .steward) → k.lockable = false → Completes (.lockSet q p) s fun t =>
      Counted s t p.toNat p.toNat 0x0C q causeValue) ∧
    (∀ m : Fin 9, q = .stall m → Completes (.lockSet q p) s fun t =>
      Counted s t (if p.toNat = 0x20 + m.val then p.toNat else 0x10 + m.val) p.toNat 0x0C q causeAccess) ∧
    ((q = .mgmt ∨ q = .steward) → Completes (.perrClr q p) s fun t =>
      OnlyRegs s t [A.PERR_COUNT p.toNat, A.PERR_FIRST p.toNat] ∧ t.dev.word (A.PERR_COUNT p.toNat) = 0 ∧
      t.dev.word (A.PERR_FIRST p.toNat) = 0)

/-- Reads of a wide register: word 0 is returned and the upper words snapshotted; an upper word returns the requester's
shadow (R416). -/
def Obligations.WideReadsSnapshot : Prop :=
  ∀ (s : State) (q : Req) (a : BitVec 24) (h : RegHit), s.dev.sy.coldHold = false → s.dev.arrives q = true →
    s.dev.unrestored q .bar0 a.toNat = false →
    s.dev.shows q a.toNat false = true → ownPage q a.toNat = some a.toNat → a.toNat % 4 = 0 → regHit a.toNat = some h →
    1 < h.row.words →
    (h.word = 0 → Completes (.wideLoRead q .bar0 a 4) s fun t =>
      t = { s with dev := { s.dev with bus := t.dev.bus } } ∧ t.dev.bus.bar4 = s.dev.bus.bar4 ∧
      t.dev.bus.rdata = s.dev.liveWord q a.toNat ∧
      (∀ w, 1 ≤ w → w < h.row.words →
        t.dev.shadow q (a.toNat + 4 * w) = some (BitVec.ofNat 32 (s.dev.liveWord q (a.toNat + 4 * w)))) ∧
      t.dev.snapStat q (a.toNat / 4096) % 65536 = (s.dev.snapStat q (a.toNat / 4096) % 65536 + 1) % 65536 ∧
      (∀ q', reqCode q' ≠ reqCode q → ∀ x < 2 ^ 24, t.dev.shadow q' x = s.dev.shadow q' x)) ∧
    (h.word ≠ 0 → Completes (.wideUpperRead q .bar0 a 4) s fun t =>
      match s.dev.shadow q a.toNat with
      | some w => t = { s with dev := { s.dev with bus := { s.dev.bus with rdata := w.toNat } } }
      | none => t.dev.bus.rdata = 0 ∧ (t.dev.snapStat q (a.toNat / 4096)).testBit 16 = true ∧
          t = { s with dev := { s.dev with bus := { s.dev.bus with rdata := 0, snapStale := t.dev.bus.snapStale } } })

/-- An aligned eight-byte read returns both words live, uses no shadow, and snapshots the words outside the pair (R417). -/
def Obligations.WidePairReads : Prop :=
  ∀ (s : State) (q : Req) (a : BitVec 24), s.dev.sy.coldHold = false → s.dev.arrives q = true →
    s.dev.unrestored q .bar0 a.toNat = false →
    s.dev.shows q a.toNat false = true → s.dev.shows q (a.toNat + 4) false = true →
    ownPage q a.toNat = some a.toNat → a.toNat % 8 = 0 →
    Completes (.widePairRead q .bar0 a) s fun t =>
      t = { s with dev := { s.dev with bus := t.dev.bus } } ∧
      t.dev.bus.rdata = s.dev.liveWord q a.toNat + 2 ^ 32 * s.dev.liveWord q (a.toNat + 4) ∧
      (∀ x h, (x = a.toNat ∨ x = a.toNat + 4) → regHit x = some h → h.word = 0 → a.toNat + 8 < x + 4 * h.row.words →
        (∀ w, w < h.row.words → a.toNat + 8 ≤ x + 4 * w →
          t.dev.shadow q (x + 4 * w) = some (BitVec.ofNat 32 (s.dev.liveWord q (x + 4 * w)))) ∧
        t.dev.snapStat q (a.toNat / 4096) % 65536 = (s.dev.snapStat q (a.toNat / 4096) % 65536 + 1) % 65536) ∧
      ((∀ x h, (x = a.toNat ∨ x = a.toNat + 4) → regHit x = some h → h.word = 0 → x + 4 * h.row.words ≤ a.toNat + 8) →
        t = { s with dev := { s.dev with bus := { s.dev.bus with rdata := t.dev.bus.rdata } } })

/-- UNBOUND_ACCESS: a read returns zero, a write is counted in STL[0].UNBOUND_COUNT, and nothing else changes
(spec/04_stalls_troughs_commands.md R69). -/
def Obligations.UnboundAccess : Prop :=
  ∀ (s : State) (p : Fin 2) (f : Fin 4), s.dev.sy.coldHold = false → s.dev.hostUp (4 * p.val + f.val) = true →
    s.dev.stallOfFunc (4 * p.val + f.val) = none →
    Completes (.unboundAccess p f false) s (fun t =>
      t = { s with dev := { s.dev with bus := { s.dev.bus with rdata := 0 } } }) ∧
    Completes (.unboundAccess p f true) s (fun t => OnlyRegs s t [A.STL_UNBOUND_COUNT 0] ∧
      t.dev.rd (R.STL_UNBOUND_COUNT 0) = min (s.dev.rd (R.STL_UNBOUND_COUNT 0) + 1) (2 ^ 32 - 1))

/-- The power pins: PWR_OK_AON falling holds the device in cold reset, its rise latches the straps, the release clears it
(spec/21_electrical_and_package.md R424, spec/21_electrical_and_package.md R425, spec/02_clocks_and_sample_time.md R24,
spec/12_silo_turner_and_cellar.md R224, spec/19_faults_resets_and_restart.md Table 19-4,
spec/19_faults_resets_and_restart.md R400, spec/18_steward_firmware_and_management.md R367). -/
def Obligations.ColdResetCommands : Prop :=
  ∀ s : State,
    (Completes .pwrOkAonFall s fun t => t.pending = s.pending ∧ t.dev.held ∧ t.dev.sy.pwrOk = false ∧ t.dev.sy.mode = .inReset ∧
      (∀ a, a ≠ A.CLK_REF_STAT → ¬(0x9180 ≤ a ∧ a < 0x91C0) → t.dev.word a = (resetWord a).toNat) ∧
      (∀ c, t.dev.ctr c = 0) ∧ (∀ a, t.dev.peek (.silo a) = 0) ∧ (∀ b < 16, b ∈ t.dev.mem.bankPend) ∧
      t.dev.gr.words = s.dev.gr.words ∧ t.dev.mem.cellar = s.dev.mem.cellar) ∧
    (∀ r b a, s.dev.sy.pwrOk = false → Completes (.pwrOkAonRise r b a) s fun t =>
      t = { s with dev := { s.dev with
              regs := t.dev.regs
              sy := { s.dev.sy with refSel := r, bootSrc := b, i3cStrap := a.toNat, pwrOk := true } } } ∧
      SameWords s t [A.CLK_REF_STAT] ∧ t.dev.rd R.CLK_REF_STAT_FAMILY = b2n r) ∧
    (s.dev.sy.coldHold = true → s.dev.sy.pwrOk = true → Completes .coldResetRelease s fun t =>
      t.pending = s.pending ∧ t.dev.sy.coldHold = false ∧ t.dev.sy.mode = .rom ∧ t.dev.au.muteLow = true ∧ t.dev.stc = 0 ∧
      (∀ a, a ≠ A.CLK_REF_STAT → ¬(0x9180 ≤ a ∧ a < 0x91C0) → t.dev.word a = (resetWord a).toNat) ∧
      (∀ c, t.dev.ctr c = 0) ∧ (∀ a, t.dev.peek (.silo a) = 0) ∧ (∀ b < 16, b ∈ t.dev.mem.bankPend) ∧
      t.dev.gr.words = s.dev.gr.words ∧ t.dev.mem.cellar = s.dev.mem.cellar) ∧
    (Completes .aonUndervoltage s fun t => SameWords s t [A.SEQ_MUTE_CTL] ∧ t.dev.au.muteLow = true ∧
      t.dev.rd R.SEQ_MUTE_CTL_OUT_RELEASE = 0 ∧ t.dev.rd R.SEQ_MUTE_CTL_MUTE_RELEASE = 0 ∧
      t = { s with dev := { s.dev with
              regs := t.dev.regs
              au := { s.dev.au with muteLow := true }
              outs := if s.dev.au.muteLow then s.dev.outs else s.dev.outs ++ [.muteN true] } })

/-- RESET_N low at two samples, and RESET_CMD.WARM by management, take a warm reset; one sample changes nothing
(spec/21_electrical_and_package.md R434, spec/19_faults_resets_and_restart.md R396, spec/19_faults_resets_and_restart.md
Table 19-4, spec/19_faults_resets_and_restart.md Table 19-5, spec/12_silo_turner_and_cellar.md R224,
spec/19_faults_resets_and_restart.md R400). -/
def Obligations.WarmResetCommands : Prop :=
  ∀ (s : State) (k : BitVec 8), s.dev.sy.coldHold = false →
    let left := fun (cause : Nat) (t : State) =>
      t.pending = s.pending ∧ t.dev.sy.mode = .rom ∧ t.dev.rd R.SYS_RESET_CAUSE = cause ∧ t.dev.rd R.SYS_BOOT_STAT_KIND = 1 ∧
      t.dev.au.muteLow = true ∧ (∀ n < 9, t.dev.jobState n = jobClosed) ∧ (∀ n < 9, ∀ i < 4, t.dev.troughState n i = trgClosed) ∧
      (∀ x < 32, t.dev.rd (R.SEQ_STRM_CFG_EN x) = 0) ∧ t.dev.tn.live = [] ∧ (∀ a, t.dev.peek (.silo a) = 0) ∧
      (∀ b < 16, b ∈ t.dev.mem.bankPend) ∧ t.dev.mem.cellar = s.dev.mem.cellar ∧ t.dev.sy.healthy = false
    (2 ≤ k.toNat → Completes (.resetNAssert k) s (left 1)) ∧
    (k.toNat < 2 → exec (.resetNAssert k) s = .next s) ∧
    Completes (.resetCmdWarm .mgmt) s (left 2)

/-- RESET_CMD: STEWARD asks for a Steward reset, BOOT_B is held, STALLS resets each named stall
(spec/19_faults_resets_and_restart.md R396, spec/19_faults_resets_and_restart.md Table 19-5,
spec/18_steward_firmware_and_management.md R368, spec/18_steward_firmware_and_management.md Table 18-7). -/
def Obligations.ResetCommands : Prop :=
  ∀ (s : State), s.dev.sy.coldHold = false →
    (Completes (.resetCmdSteward .mgmt) s fun t => SameWords s t [A.SYS_RESET_CAUSE] ∧ t.dev.rd R.SYS_RESET_CAUSE = 7 ∧
      t.dev.rd R.SYS_RESET_CAUSE_REPEAT = s.dev.rd R.SYS_RESET_CAUSE_REPEAT ∧
      t = { s with dev := { s.dev with regs := t.dev.regs, sy := { s.dev.sy with resetReq := true } } }) ∧
    (Completes (.resetCmdBootB .mgmt) s fun t => t = { s with dev := { s.dev with sy := { s.dev.sy with bootB := true } } }) ∧
    (∀ (q : Req) (m : BitVec 9), s.dev.permits q A.SYS_RESET_CMD (m.toNat * 256) → m ≠ 0 →
      Completes (.resetCmdStalls q m) s fun t =>
        t = { s with dev := (maskList 9 m.toNat).foldl Dev.stallReset (s.dev.wr R.SYS_RESET_CAUSE 8) }) ∧
    (∀ (q : Req) (n : Fin 9), n ≠ 0 → s.dev.permits q A.SYS_RESET_CMD (2 ^ n.val * 256) →
      Completes (.resetCmdStalls q (BitVec.ofNat 9 (2 ^ n.val))) s fun t =>
        t.pending = s.pending ∧ t.dev.jobState n = jobClosed ∧ (∀ i < 4, t.dev.troughState n i = trgClosed) ∧
        (∀ a, (a / 4096 = 0x10 + n.val ∨ a / 4096 = 0x20 + n.val) → stallKeeps a = false → t.dev.word a = (resetWord a).toNat))

/-- The Steward watchdog, its kick, ALIVE and the Steward reset (spec/18_steward_firmware_and_management.md R370,
spec/19_faults_resets_and_restart.md R399, spec/19_faults_resets_and_restart.md R401, spec/19_faults_resets_and_restart.md
Table 19-5, spec/13_granary_flash.md R241). -/
def Obligations.StewardSupervision : Prop :=
  ∀ s : State, s.dev.sy.coldHold = false →
    (s.dev.sy.resetReq = true → s.dev.sy.mode = .image → Completes .stewardReset s fun t =>
      t.pending = s.pending ∧ t.dev.sy.resetReq = false ∧ t.dev.sy.wdog = 0 ∧ t.dev.sy.mode = .image ∧
      t.dev.sy.pc = 0x38000000 + s.dev.sy.entry ∧ t.dev.sy.update = none ∧ t.dev.sy.alive = false ∧
      t.dev.rd R.SYS_BOOT_STAT_KIND = 2 ∧ t.dev.rd R.SYS_WDOG_CTL_EN = 1 ∧ t.dev.rd R.THR_BATCH_CTL_CAUSE_STEWARD = 1) ∧
    (s.dev.on R.SYS_WDOG_CTL_EN = true → s.dev.serves = true → s.dev.sy.resetReq = false →
      s.dev.rd R.SYS_WDOG_CTL_PERIOD * 3072 ≤ s.dev.sy.wdog → Completes .stewardWatchdogExpiry s fun t =>
      t = { s with dev := { s.dev with
              regs := t.dev.regs
              sy := { s.dev.sy with alive := false, healthy := false, aliveCount := 0, resetReq := true }
              outs := if s.dev.sy.alive && !s.dev.padsOff 3 0 then s.dev.outs ++ [.alive false] else s.dev.outs } } ∧
      SameWords s t [A.SYS_WDOG_COUNT, A.SYS_RESET_CAUSE, A.SYS_ALIVE_STAT] ∧
      t.dev.rd R.SYS_WDOG_COUNT = min (s.dev.rd R.SYS_WDOG_COUNT + 1) maxWord ∧ t.dev.rd R.SYS_RESET_CAUSE = 6 ∧
      t.dev.rd R.SYS_ALIVE_STAT_TOGGLING = 0) ∧
    (∀ v : BitVec 32, s.dev.arrives .steward = true → v.toNat % 65536 = 0x4B1C → Completes (.wdogKick .steward v) s fun t =>
      t = { s with dev := { s.dev with regs := t.dev.regs, sy := { s.dev.sy with
              wdog := 0
              healthy := true
              aliveCount := if s.dev.sy.healthy then s.dev.sy.aliveCount else 0 } } } ∧
      SameWords s t [A.SYS_ALIVE_STAT] ∧ t.dev.rd R.SYS_ALIVE_STAT_TOGGLING = 1) ∧
    (∀ v : BitVec 32, s.dev.arrives .steward = true → v.toNat % 65536 ≠ 0x4B1C → Completes (.wdogKick .steward v) s fun t =>
      Counted s t 0 0 0xD4 .steward causeValue) ∧
    (s.dev.sy.healthy = true → 1536 ≤ s.dev.sy.aliveCount → Completes .aliveToggle s fun t =>
      t = { s with dev := { s.dev with
              sy := { s.dev.sy with alive := !s.dev.sy.alive, aliveCount := s.dev.sy.aliveCount - 1536 }
              outs := if s.dev.padsOff 3 0 then s.dev.outs else s.dev.outs ++ [.alive !s.dev.sy.alive] } })

/-- BOOT: a bad ROM check resets; the recovery strap or three fatal resets end in the service loop; else the slot checks
decide (spec/18_steward_firmware_and_management.md R367, spec/18_steward_firmware_and_management.md R368,
spec/18_steward_firmware_and_management.md Table 18-3, spec/19_faults_resets_and_restart.md R391). -/
def Obligations.BootCommand : Prop :=
  ∀ (s : State) (src : Bool) (addr : BitVec 2), s.dev.sy.coldHold = false → s.dev.sy.mode = .rom →
    (s.dev.rd R.SYS_RESET_CAUSE_REPEAT < 3 → Completes (.boot src addr false) s fun t =>
      t = { s with dev := s.dev.warmReset 4 } ∧ t.dev.sy.mode = .rom ∧ t.dev.rd R.SYS_RESET_CAUSE = 4 ∧
      t.dev.rd R.SYS_FATAL_COUNT = min (s.dev.rd R.SYS_FATAL_COUNT + 1) maxWord) ∧
    ((s.dev.ck.measuring = 0 ∨ s.dev.on R.CLK_REF_STAT_PRESENT = false) →
    let strap := if s.dev.rd R.SYS_BOOT_STAT_KIND = 1 then src else s.dev.sy.bootSrc
    let e := if s.dev.rd R.SYS_BOOT_STAT_KIND = 1 then s.dev.setSy { s.dev.sy with bootSrc := src, i3cStrap := addr.toNat } else s.dev
    let d := (e.bootClocks.kick.wr R.SYS_BOOT_STAT_GSR_EPOCH Config.gsrEpoch.toNat).wr R.SYS_BOOT_STAT_RECOVERY (b2n strap)
    ((strap = true ∨ 3 ≤ s.dev.rd R.SYS_RESET_CAUSE_REPEAT) → Completes (.boot src addr true) s fun t =>
      t.pending = s.pending ∧ t.dev.sy.mode = .serviceLoop ∧ t.dev.rd R.SYS_LIMP_CAUSE = limpRecovery ∧
      t.dev.rd R.SYS_BOOT_STAT_RECOVERY = b2n strap) ∧
    (strap = false → s.dev.rd R.SYS_RESET_CAUSE_REPEAT < 3 → Completes (.boot src addr true) s fun t =>
      t.pending = s.pending ∧
      match d.bootSlots.1 with
      | some (k, h) => t.dev.sy.mode = .image ∧ t.dev.sy.pc = 0x38000000 + leAt h 12 4 ∧ t.dev.sy.bootSlot = slotSector k * 4096 ∧
          t.dev.rd R.SYS_IF_EPOCH = leAt h 6 2 % 65536
      | none => t.dev.sy.mode = .serviceLoop ∧ t.dev.rd R.SYS_LIMP_CAUSE = limpNoImage))

/-- JOB_WATCHDOG_EXPIRY faults an open job by steps 1 to 4 of the fault procedure; JOB_RETURN is its step 5, once
(spec/19_faults_resets_and_restart.md R392, spec/19_faults_resets_and_restart.md Table 19-3,
spec/19_faults_resets_and_restart.md R390, spec/19_faults_resets_and_restart.md R398, spec/05_rick_counters_and_ordering.md
R101, spec/05_rick_counters_and_ordering.md R103). -/
def Obligations.JobFault : Prop :=
  ∀ (s : State) (n : Fin 9), s.dev.sy.coldHold = false →
    (s.dev.jobState n = jobOpen → s.dev.rd (R.STL_JOB_WDOG_MS n) ≠ 0 →
      s.dev.rd (R.STL_JOB_WDOG_MS n) * 3072 ≤ (s.dev.job n).wdog → Completes (.jobWatchdogExpiry n) s fun t =>
      t.pending = s.pending ∧ t.dev.jobState n = jobFaulted ∧ t.dev.rd (R.STL_JOB_STAT_STATUS n) = 0x31 ∧
      t.dev.rd (R.STL_LAST_STATUS n) = 0x31 ∧ t.dev.rd (R.STL_FAULT_STAT_KIND n) = 2 ∧ t.dev.rd (R.STL_FAULT_STAT_INDEX n) = 0 ∧
      t.dev.rd (R.STL_FAULT_POS n) = 0 ∧ t.dev.rd (R.STL_FAULT_STAT_RETURNED n) = 0 ∧
      t.dev.rd (R.STL_FAULT_COUNT n) = min (s.dev.rd (R.STL_FAULT_COUNT n) + 1) (2 ^ (R.STL_FAULT_COUNT n).width - 1) ∧
      t.dev.rd R.SYS_MGMT_IRQ_STAT_FAULT = 1 ∧
      t.dev.rd (R.STL_FAULT_STAT_ABORT_PEND n) = (s.dev.job n).decl.peers.length % 2 ^ (R.STL_FAULT_STAT_ABORT_PEND n).width ∧
      (∀ i < 4, s.dev.troughState n i = trgClosed → t.dev.troughState n i = trgClosed) ∧
      (∀ i < 4, s.dev.troughState n i ≠ trgClosed → t.dev.troughState n i = trgHalted ∧
        t.dev.rd (R.TRG_T_STAT_STATUS n i) = 0x31 ∧ t.dev.rd (R.TRG_T_HEAD n i) = s.dev.rd (R.TRG_T_TAIL n i) ∧
        ∀ x ∈ t.dev.tn.live, x.trough ≠ .batch n i) ∧
      (∀ w ∈ t.dev.tn.waiters, ∀ i, w.trough ≠ .batch n i) ∧ (∀ c, t.dev.ctr c = s.dev.ctr c) ∧
      (n ≠ 0 → t.dev.rd (R.WIN_LS_CFG_MODE (n.val - 1)) = 0) ∧
      t = { s with dev := s.dev.faultJob n stWatchdog kindJob 0 0 }) ∧
    (¬(s.dev.jobState n = jobOpen ∧ s.dev.rd (R.STL_JOB_WDOG_MS n) ≠ 0 ∧
      s.dev.rd (R.STL_JOB_WDOG_MS n) * 3072 ≤ (s.dev.job n).wdog) → exec (.jobWatchdogExpiry n) s = .next s) ∧
    (∀ st k i p, s.dev.jobState n = jobFaulted → OnlyRegs s { s with dev := s.dev.faultJob n st k i p } [A.STL_FAULT_EXTRA n] ∧
      (s.dev.faultJob n st k i p).rd (R.STL_FAULT_EXTRA_COUNT n) = min (s.dev.rd (R.STL_FAULT_EXTRA_COUNT n) + 1) maxWord) ∧
    (s.dev.jobState n = jobFaulted → s.dev.on (R.STL_FAULT_STAT_RETURNED n) = false → Completes (.jobReturn n) s fun t =>
      t.pending = s.pending ∧ t.dev.jobState n = jobFaulted ∧ t.dev.rd (R.STL_FAULT_STAT_RETURNED n) = 1 ∧
      t.dev.rd (R.RCK_RET_SEQ_COUNT n) = min (s.dev.rd (R.RCK_RET_SEQ_COUNT n) + 1) (2 ^ (R.RCK_RET_SEQ_COUNT n).width - 1) ∧
      (n ≠ 0 → t.dev.rd (R.WIN_LS_CFG_MODE (n.val - 1)) = 0) ∧
      ((∀ x < 32, (s.dev.stream x).promo = none) → ((s.dev.job n).decl.counters.map (·.1)).Nodup →
        ∀ c ∈ (s.dev.job n).decl.counters, t.dev.ctr c.1 = c.2 % 2 ^ 32)) ∧
    (¬(s.dev.jobState n = jobFaulted ∧ s.dev.on (R.STL_FAULT_STAT_RETURNED n) = false) → exec (.jobReturn n) s = .next s)

/-- The reference: its measurement, its loss and its return (spec/02_clocks_and_sample_time.md R26,
spec/02_clocks_and_sample_time.md R27, spec/02_clocks_and_sample_time.md R37, spec/02_clocks_and_sample_time.md R40). -/
def Obligations.ReferenceCommands : Prop :=
  ∀ s : State, s.dev.sy.coldHold = false →
    (∀ k : BitVec 32, s.dev.ck.measuring ≠ 0 → Completes (.refMeasureDone k) s fun t =>
      let fits := if s.dev.on R.CLK_REF_STAT_FAMILY then 21918 ≤ k.toNat ∧ k.toNat ≤ 23281 else 23856 ≤ k.toNat ∧ k.toNat ≤ 25340
      t = { s with dev := { s.dev with regs := t.dev.regs, ck := { s.dev.ck with measuring := 0 } } } ∧
      t.dev.rd R.CLK_REF_STAT_MEAS = min k.toNat 65535 ∧
      (fits → t.dev.rd R.CLK_REF_STAT_MISMATCH = 0) ∧ (¬fits → t.dev.rd R.CLK_REF_STAT_MISMATCH = 1) ∧
      (fits ∨ s.dev.on R.CLK_PLL_CTL_EN = false → SameWords s t [A.CLK_REF_STAT]) ∧
      (¬fits → s.dev.on R.CLK_PLL_CTL_EN = true →
        SameWords s t [A.CLK_REF_STAT, A.CLK_PLL_CTL, A.CLK_PLL_STAT, A.CLK_SRC_SEL] ∧ t.dev.rd R.CLK_PLL_CTL_EN = 0 ∧
        t.dev.rd R.CLK_PLL_STAT_LOCK = 0 ∧ t.dev.rd R.CLK_PLL_STAT_LOL = s.dev.rd R.CLK_PLL_STAT_LOL ∧
        t.dev.rd R.CLK_SRC_SEL_CORE_SRC = 0 ∧ t.dev.rd R.CLK_SRC_SEL_ACLK_SRC = 0)) ∧
    (s.dev.on R.CLK_REF_STAT_PRESENT = true → Completes .refLost s fun t =>
      t = { s with dev := { s.dev with regs := t.dev.regs, ck := { s.dev.ck with gap := some 0 } } } ∧
      t.dev.rd R.CLK_REF_STAT_PRESENT = 0 ∧ (t.dev.rd (R.PIRQ_RAW 4)).testBit 1 = true ∧
      (s.dev.on R.CLK_PLL_STAT_LOCK = false → SameWords s t [A.CLK_REF_STAT, A.PIRQ_RAW 4]) ∧
      (s.dev.on R.CLK_PLL_STAT_LOCK = true → t.dev.rd R.CLK_PLL_STAT_LOCK = 0 ∧ t.dev.rd R.CLK_PLL_STAT_LOL = 1 ∧
        t.dev.rd R.CLK_LOL_COUNT = min (s.dev.rd R.CLK_LOL_COUNT + 1) maxWord ∧ t.dev.rd R.CLK_SRC_SEL_CORE_SRC = 0 ∧
        t.dev.rd R.CLK_SRC_SEL_ACLK_SRC = 0 ∧ (t.dev.rd (R.PIRQ_RAW 4)).testBit 0 = true ∧
        SameWords s t [A.CLK_REF_STAT, A.PIRQ_RAW 4, A.CLK_PLL_STAT, A.CLK_LOL_COUNT, A.CLK_SRC_SEL])) ∧
    (s.dev.on R.CLK_REF_STAT_PRESENT = false → Completes .refEdgeReturn s fun t =>
      t = { s with dev := { s.dev with regs := t.dev.regs, ck := { s.dev.ck with measuring := 2, gap := none } } } ∧
      t.dev.rd R.CLK_REF_STAT_PRESENT = 1 ∧ t.dev.stc = (s.dev.stc + 1) % 2 ^ 64 ∧
      SameWords s t [A.CLK_REF_STAT, A.CLK_STC, A.CLK_STC + 4, A.CLK_STC_GAP, A.CLK_STC_GAP + 4, A.CLK_STC_GAP_COUNT] ∧
      match s.dev.ck.gap with
      | some g => t.dev.rd R.CLK_STC_GAP = g % 2 ^ 64 ∧ t.dev.rd R.CLK_STC_GAP_COUNT = min (s.dev.rd R.CLK_STC_GAP_COUNT + 1) maxWord
      | none => t.dev.rd R.CLK_STC_GAP = s.dev.rd R.CLK_STC_GAP ∧ t.dev.rd R.CLK_STC_GAP_COUNT = s.dev.rd R.CLK_STC_GAP_COUNT)

/-- The root PLL: enable, disable, lock and loss of lock (spec/02_clocks_and_sample_time.md R26,
spec/02_clocks_and_sample_time.md R28, spec/02_clocks_and_sample_time.md R36, spec/02_clocks_and_sample_time.md R40,
spec/02_clocks_and_sample_time.md R41). -/
def Obligations.PllCommands : Prop :=
  ∀ (s : State) (q : Req), s.dev.sy.coldHold = false →
    (s.dev.permits q A.CLK_PLL_CTL 1 → s.dev.on R.CLK_REF_STAT_MISMATCH = false → Completes (.pllEnable q) s fun t =>
      OnlyRegs s t [A.CLK_PLL_CTL] ∧ t.dev.rd R.CLK_PLL_CTL_EN = 1) ∧
    (s.dev.permits q A.CLK_PLL_CTL 1 → s.dev.on R.CLK_REF_STAT_MISMATCH = true → Completes (.pllEnable q) s fun t =>
      Counted s t 4 4 0x44 q causeValue) ∧
    (s.dev.permits q A.CLK_PLL_CTL 0 → s.dev.coreOn = false → Completes (.pllDisable q) s fun t =>
      OnlyRegs s t [A.CLK_PLL_CTL, A.CLK_PLL_STAT, A.CLK_SRC_SEL] ∧ t.dev.rd R.CLK_PLL_CTL_EN = 0 ∧
      t.dev.rd R.CLK_PLL_STAT_LOCK = 0 ∧ t.dev.rd R.CLK_PLL_STAT_LOL = s.dev.rd R.CLK_PLL_STAT_LOL ∧
      t.dev.rd R.CLK_SRC_SEL_ACLK_SRC = 0 ∧ t.dev.coreOn = false) ∧
    (s.dev.permits q A.CLK_PLL_CTL 0 → s.dev.coreOn = true → Completes (.pllDisable q) s fun t =>
      Counted s t 4 4 0x44 q causeValue) ∧
    (s.dev.on R.CLK_PLL_CTL_EN = true → s.dev.on R.CLK_PLL_STAT_LOCK = false → s.dev.on R.CLK_REF_STAT_PRESENT = true →
      s.dev.on R.CLK_REF_STAT_MISMATCH = false → s.dev.ck.measuring ≠ 2 → Completes .pllLock s fun t =>
      OnlyRegs s t [A.CLK_PLL_STAT, A.CLK_SRC_SEL, A.PIRQ_RAW 4] ∧ t.dev.rd R.CLK_PLL_STAT_LOCK = 1 ∧
      t.dev.rd R.CLK_SRC_SEL_ACLK_SRC = 1 ∧ t.dev.coreOn = s.dev.coreOn ∧
      t.dev.rd (R.PIRQ_RAW 4) = setBit (s.dev.rd (R.PIRQ_RAW 4)) 2) ∧
    (s.dev.on R.CLK_PLL_STAT_LOCK = true → Completes .lossOfLock s fun t =>
      OnlyRegs s t [A.CLK_PLL_STAT, A.CLK_LOL_COUNT, A.CLK_SRC_SEL, A.PIRQ_RAW 4] ∧ t.dev.rd R.CLK_PLL_STAT_LOCK = 0 ∧
      t.dev.rd R.CLK_PLL_STAT_LOL = 1 ∧ t.dev.rd R.CLK_LOL_COUNT = min (s.dev.rd R.CLK_LOL_COUNT + 1) maxWord ∧
      t.dev.rd R.CLK_SRC_SEL_ACLK_SRC = 0 ∧ t.dev.coreOn = false ∧
      t.dev.rd (R.PIRQ_RAW 4) = setBit (s.dev.rd (R.PIRQ_RAW 4)) 0)

/-- CORE_SRC switches the core clocks, only with lock; DIV_CHANGE takes the slower of REQ and CAP and raises DIV_DONE
(spec/02_clocks_and_sample_time.md R33, spec/02_clocks_and_sample_time.md R39, spec/02_clocks_and_sample_time.md Table
02-5). -/
def Obligations.CoreClockCommands : Prop :=
  ∀ (s : State) (q : Req), s.dev.sy.coldHold = false →
    (s.dev.permits q A.CLK_SRC_SEL 1 → s.dev.on R.CLK_PLL_STAT_LOCK = true → Completes (.coreSrcSet q) s fun t =>
      OnlyRegs s t [A.CLK_SRC_SEL] ∧ t.dev.coreOn = true ∧ t.dev.rd R.CLK_SRC_SEL_ACLK_SRC = s.dev.rd R.CLK_SRC_SEL_ACLK_SRC) ∧
    (s.dev.permits q A.CLK_SRC_SEL 1 → s.dev.on R.CLK_PLL_STAT_LOCK = false → Completes (.coreSrcSet q) s fun t =>
      Counted s t 4 4 0x4C q causeValue) ∧
    (s.dev.permits q A.CLK_SRC_SEL 0 → Completes (.coreSrcClear q) s fun t =>
      OnlyRegs s t [A.CLK_SRC_SEL] ∧ t.dev.coreOn = false ∧ t.dev.rd R.CLK_SRC_SEL_ACLK_SRC = s.dev.rd R.CLK_SRC_SEL_ACLK_SRC) ∧
    (s.dev.coreOn = true → (s.dev.ck.divDue = true ∨ s.dev.rd R.CLK_TCLK_DIV_CUR ≠ max (s.dev.rd R.CLK_TCLK_DIV_REQ) (s.dev.rd R.THM_CAP_STEP)) →
      Completes .divChange s fun t =>
        t.pending = s.pending ∧ t.dev.ck.divDue = false ∧
        t.dev.rd R.CLK_TCLK_DIV_CUR = max (s.dev.rd R.CLK_TCLK_DIV_REQ) (s.dev.rd R.THM_CAP_STEP) % 8 ∧
        t.dev.rd R.CLK_TCLK_DIV_REQ = s.dev.rd R.CLK_TCLK_DIV_REQ ∧ (t.dev.rd (R.PIRQ_RAW 4)).testBit 3 = true ∧
        (s.dev.pw.dvfs = none → SameWords s t [A.CLK_TCLK_DIV, A.PIRQ_RAW 4] ∧
          t = { s with dev := { s.dev with regs := t.dev.regs, ck := { s.dev.ck with divDue := false } } }))

/-- TCLK_DIV.REQ: refused for a code above 3 or a faster step the recorded voltage does not allow; else it takes the code
(R34). -/
def Obligations.DividerRequests : Prop :=
  ∀ (s : State) (q : Req) (c : BitVec 3), s.dev.sy.coldHold = false → s.dev.permits q A.CLK_TCLK_DIV c.toNat →
    let least := fun (c : Nat) => if c = 0 then 850 else if c = 1 then 780 else if c = 2 then 720 else 650
    ((4 ≤ c.toNat ∨ (c.toNat < s.dev.rd R.CLK_TCLK_DIV_CUR ∧ s.dev.coreMv < least c.toNat)) →
      Completes (.tclkDivRequest q c) s fun t => Counted s t 4 4 0x50 q causeValue) ∧
    (¬(4 ≤ c.toNat ∨ (c.toNat < s.dev.rd R.CLK_TCLK_DIV_CUR ∧ s.dev.coreMv < least c.toNat)) →
      Completes (.tclkDivRequest q c) s fun t =>
        t = { s with dev := { s.dev with regs := t.dev.regs, ck := { s.dev.ck with divDue := true } } } ∧
        SameWords s t [A.CLK_TCLK_DIV] ∧ t.dev.rd R.CLK_TCLK_DIV_REQ = c.toNat ∧
        t.dev.rd R.CLK_TCLK_DIV_CUR = s.dev.rd R.CLK_TCLK_DIV_CUR)

/-- PORT_CTL takes a legal word, frames follow the grid, a slip and a lost frame are recorded
(spec/03_audio_ports_and_streams.md R42, spec/03_audio_ports_and_streams.md R43, spec/03_audio_ports_and_streams.md R44,
spec/03_audio_ports_and_streams.md R45, spec/03_audio_ports_and_streams.md Table 03-1). -/
def Obligations.PortCommands : Prop :=
  ∀ (s : State) (p : Fin 4), s.dev.sy.coldHold = false →
    (∀ (q : Req) (v : BitVec 32), s.dev.permits q (A.AUD_PORT_CTL p) v.toNat → s.dev.portCtlOk p v.toNat = true →
      Completes (.portCtlWrite q p v) s fun t =>
        SameWords s t [A.AUD_PORT_CTL p, A.AUD_PORT_STAT p] ∧ t = { s with dev := { s.dev with regs := t.dev.regs, au := t.dev.au } } ∧
        t.dev.rd (R.AUD_PORT_CTL_EN p) = bits v.toNat 0 1 ∧ t.dev.rd (R.AUD_PORT_CTL_ROLE p) = bits v.toNat 1 1 ∧
        t.dev.rd (R.AUD_PORT_CTL_FMT p) = bits v.toNat 2 2 ∧ t.dev.rd (R.AUD_PORT_CTL_RATE p) = bits v.toNat 4 3 ∧
        t.dev.rd (R.AUD_PORT_CTL_SLOTS p) = bits v.toNat 8 3 ∧ (∀ k, k ≠ p.val → t.dev.port k = s.dev.port k) ∧
        (s.dev.on (R.AUD_PORT_CTL_EN p) ≠ v.toNat.testBit 0 → t.dev.port p = Port.idle ∧ t.dev.rd (R.AUD_PORT_STAT_FRAME_OK p) = 0)) ∧
    (∀ (q : Req) (v : BitVec 32), s.dev.permits q (A.AUD_PORT_CTL p) v.toNat → s.dev.portCtlOk p v.toNat = false →
      Completes (.portCtlWrite q p v) s fun t => Counted s t (0x50 + p.val) (0x50 + p.val) 0x40 q causeValue) ∧
    (∀ ws, s.dev.portOn p = true → s.dev.on (R.AUD_PORT_CTL_ROLE p) = false →
      let g := nearest (s.dev.port p).grid (s.dev.smpTicks p) s.dev.stc
      ((s.dev.port p).framed = false → Completes (.inputFrame p ws) s fun t => t.pending = s.pending ∧
        (t.dev.port p).framed = true ∧ (t.dev.port p).grid = s.dev.stc ∧ t.dev.rd (R.AUD_PORT_STAT_FRAME_OK p) = 1 ∧
        t.dev.rd (R.AUD_PORT_STAT_PHASE p) = s.dev.stc % s.dev.smpTicks p) ∧
      ((s.dev.port p).framed = true → (s.dev.port p).lost = false → g ≤ s.dev.stc + 4 → s.dev.stc ≤ g + 4 →
        (s.dev.port p).grid < g → Completes (.inputFrame p ws) s fun t => t.pending = s.pending ∧ (t.dev.port p).grid = g ∧
        t.dev.rd (R.AUD_SLIP_COUNT p) = s.dev.rd (R.AUD_SLIP_COUNT p)) ∧
      ((s.dev.port p).framed = true → (s.dev.port p).lost = false → ¬(g ≤ s.dev.stc + 4 ∧ s.dev.stc ≤ g + 4) →
        Completes (.inputFrame p ws) s fun t => t.pending = s.pending ∧ (t.dev.port p).grid = s.dev.stc ∧
        t.dev.rd (R.AUD_PORT_STAT_SLIP p) = 1 ∧
        t.dev.rd (R.AUD_SLIP_COUNT p) = min (s.dev.rd (R.AUD_SLIP_COUNT p) + 1) maxWord ∧
        t.dev.rd (R.AUD_PORT_STAT_PHASE p) = s.dev.stc % s.dev.smpTicks p)) ∧
    (∀ ws, s.dev.portOn p = true → s.dev.on (R.AUD_PORT_CTL_ROLE p) = true → s.dev.stc % s.dev.smpTicks p = 0 →
      ((s.dev.port p).framed = true → (s.dev.port p).grid < s.dev.stc) → Completes (.inputFrame p ws) s fun t =>
        t.pending = s.pending ∧ (t.dev.port p).framed = true ∧ (t.dev.port p).grid = s.dev.stc ∧
        t.dev.rd (R.AUD_PORT_STAT_FRAME_OK p) = 1 ∧ (s.dev.padsOff 0 p = false → s.dev.padsOff 1 p = false →
          ∃ out, out.length = s.dev.positions p ∧
            Out.frame p (s.dev.smpTicks p / (32 * s.dev.positions p)) out ∈ t.dev.outs)) ∧
    (s.dev.portOn p = true → s.dev.on (R.AUD_PORT_CTL_ROLE p) = false → (s.dev.port p).framed = true →
      (s.dev.port p).lost = false → (s.dev.port p).grid + 2 * s.dev.smpTicks p + 4 < s.dev.stc →
      Completes (.frameLost p) s fun t => t.pending = s.pending ∧ (t.dev.port p).lost = true ∧
        t.dev.rd (R.AUD_PORT_STAT_FRAME_OK p) = 0 ∧ t.dev.rd (R.AUD_PORT_STAT_FRAME_LOST p) = 1 ∧
        t.dev.rd (R.AUD_LOST_COUNT p) = min (s.dev.rd (R.AUD_LOST_COUNT p) + 1) maxWord ∧
        (t.dev.rd (R.PIRQ_RAW (0x50 + p.val))).testBit 1 = true)

/-- BLOCK_BOUNDARY ends the block that fills and launches it, or ends a stopping stream; an abort done launches the delayed
block (spec/03_audio_ports_and_streams.md R51, spec/03_audio_ports_and_streams.md R52, spec/03_audio_ports_and_streams.md
R60, spec/19_faults_resets_and_restart.md R393). -/
def Obligations.StreamBlocks : Prop :=
  ∀ (s : State) (x : Fin 32), s.dev.sy.coldHold = false →
    let st := s.dev.stream x
    let bnd := st.blkStart + s.dev.blkLen x * s.dev.strmTicks x
    (s.dev.lowerDue x bnd = true → exec (.blockBoundary x) s = .next s) ∧
    (s.dev.domOn 57 = true → s.dev.on R.CLK_REF_STAT_MISMATCH = false → s.dev.lowerDue x bnd = false →
      st.filling = true → bnd ≤ s.dev.stc → st.stopping = 0 → Completes (.blockBoundary x) s fun t =>
      t.pending = s.pending ∧ (t.dev.stream x).block = st.block + 1 ∧ t.dev.rd (R.SEQ_STRM_BLOCK x) = st.block % 2 ^ 64 ∧
      (st.promo = none → t.dev.rd (R.SEQ_STRM_STAT_RUN x) = b2n (s.dev.mayLaunch x)) ∧
      (s.dev.mayLaunch x = true → st.live = none → st.standby = none → st.promo = none →
        (t.dev.stream x).live = some ⟨st.block, 0, bnd + s.dev.blkLen x * s.dev.strmTicks x, false, false⟩)) ∧
    (s.dev.domOn 57 = true → s.dev.on R.CLK_REF_STAT_MISMATCH = false → s.dev.lowerDue x bnd = false →
      st.filling = true → bnd ≤ s.dev.stc → st.stopping = 1 → Completes (.blockBoundary x) s fun t =>
      t.pending = s.pending ∧ (t.dev.stream x).filling = false ∧ t.dev.rd (R.SEQ_STRM_STAT_RUN x) = 0) ∧
    (∀ r due, st.live = some r → r.aborting = true → st.standby = none → st.delayed = some due → st.promo = none →
      s.dev.mayLaunch x = true → Completes (.realtimeAbortDone x) s fun t =>
        t = { s with dev := { s.dev with regs := t.dev.regs, au := { s.dev.au with streams := t.dev.au.streams } } } ∧
        SameWords s t [A.PWR_DOM_GATED, A.PWR_DOM_GATED + 4, A.PWR_STAT] ∧
        t.dev.stream x = { st with
                live := some ⟨s.dev.rd (R.SEQ_STRM_BLOCK x), 0, due, false, false⟩
                standby := none
                liveMet := false
                delayed := none } ∧
        (∀ y, y ≠ x.val → t.dev.stream y = s.dev.stream y))

/-- Binding, writing and disabling a stream (spec/03_audio_ports_and_streams.md R47, spec/03_audio_ports_and_streams.md R48,
spec/03_audio_ports_and_streams.md R60, spec/11_promotion_and_weight_swap.md R214). -/
def Obligations.StreamContexts : Prop :=
  ∀ (s : State) (x : Fin 32), s.dev.sy.coldHold = false →
    (∀ n : Fin 9, s.dev.sy.mode ≠ .inReset → Completes (.streamBind n x) s fun t => t.pending = s.pending ∧
      match s.dev.bindCheck n x with
      | .ok _ d => t.dev.rd (R.SEQ_STRM_CFG_EN x) = 1 ∧ (t.dev.stream x).block = d.rd (R.SEQ_STRM_BLOCK x) + 1 ∧
          (t.dev.stream x).filling = false ∧ (t.dev.stream x).promo = none ∧ (t.dev.stream x).det = (d.stream x).det
      | .fail st d => t.dev = d.wr (R.STL_LAST_STATUS n) st
      | .wait => t.dev = s.dev) ∧
    (∀ n : Fin 9, s.dev.sy.mode ≠ .inReset → s.dev.limp = true → Completes (.streamBind n x) s fun t =>
      OnlyRegs s t [A.STL_LAST_STATUS n] ∧ t.dev.rd (R.STL_LAST_STATUS n) = stDisabled) ∧
    (∀ (q : Req) (w : Fin 24) (v : BitVec 32), w ≠ 0 → w ≠ 10 → w ≠ 12 →
      s.dev.permits q (A.SEQ_STRM_CFG x + 4 * w.val) v.toNat → s.dev.on (R.SEQ_STRM_CFG_EN x) = false →
      Completes (.streamContextWrite q x w v) s fun t => OnlyRegs s t [A.SEQ_STRM_CFG x + 4 * w.val] ∧
        ∀ h, regHit (A.SEQ_STRM_CFG x + 4 * w.val) = some h → ∀ f ∈ h.row.fields,
          bits (t.dev.word (A.SEQ_STRM_CFG x + 4 * w.val)) f.lo f.width = bits v.toNat f.lo f.width) ∧
    (∀ (q : Req) (w : Fin 24) (v : BitVec 32), w ≠ 0 → w ≠ 10 → w ≠ 12 →
      s.dev.permits q (A.SEQ_STRM_CFG x + 4 * w.val) v.toNat → s.dev.on (R.SEQ_STRM_CFG_EN x) = true →
      Completes (.streamContextWrite q x w v) s fun t => Counted s t 11 11 (0x300 + x.val * 0x60 + 4 * w.val) q causeValue) ∧
    (∀ (q : Req) (v : BitVec 32), s.dev.permits q (A.SEQ_STRM_CFG x) v.toNat → s.dev.on (R.SEQ_STRM_CFG_EN x) = true →
      v.toNat ≠ clrBit (s.dev.word (A.SEQ_STRM_CFG x)) 0 →
      Completes (.streamContextWrite q x 0 v) s fun t => Counted s t 11 11 (0x300 + x.val * 0x60) q causeValue) ∧
    (∀ q : Req, s.dev.permits q (A.SEQ_STRM_CFG x) (clrBit (s.dev.word (A.SEQ_STRM_CFG x)) 0) →
      s.dev.on (R.SEQ_STRM_CFG_EN x) = true → Completes (.streamDisable q x) s fun t =>
        t.pending = s.pending ∧ t.dev.rd (R.SEQ_STRM_CFG_EN x) = 0 ∧
        ((s.dev.stream x).promo = none → (s.dev.stream x).block ≠ (s.dev.stream x).first →
          s.dev.portOn (s.dev.inPort x) = true → (s.dev.port (s.dev.inPort x)).framed = true →
          SameWords s t [A.SEQ_STRM_CFG x] ∧ (t.dev.stream x) = { s.dev.stream x with stopping := 1 }))

/-- Arming and timing out the zero-crossing detector, and the releases and the forcing of MUTE_N
(spec/03_audio_ports_and_streams.md R59, spec/03_audio_ports_and_streams.md R61, spec/03_audio_ports_and_streams.md R62,
spec/03_audio_ports_and_streams.md R63, spec/19_faults_resets_and_restart.md R400). -/
def Obligations.DetectorAndMute : Prop :=
  ∀ (s : State) (x : Fin 32) (q : Req), s.dev.sy.coldHold = false →
    (s.dev.permits q (A.SEQ_STRM_ZC x) (setBit (s.dev.word (A.SEQ_STRM_ZC x)) 31) →
      (s.dev.word (A.SEQ_STRM_ZC x)).testBit 31 = false → Completes (.zcArm q x) s fun t =>
        t = { s with dev := { s.dev with regs := t.dev.regs, au := t.dev.au } } ∧ t.dev.au.ports = s.dev.au.ports ∧
        (t.dev.stream x) = { s.dev.stream x with det := some ⟨none, none, 0⟩ } ∧ t.dev.rd (R.SEQ_STRM_STAT_ZC_ARMED x) = 1 ∧
        (∀ y, y ≠ x.val → t.dev.stream y = s.dev.stream y)) ∧
    (∀ z, (s.dev.stream x).det = some z → s.dev.zcLimit x ≤ z.age → Completes (.zcTimeout x) s fun t =>
      t = { s with dev := { s.dev with regs := t.dev.regs, au := t.dev.au } } ∧
      (t.dev.stream x) = { s.dev.stream x with det := none } ∧ t.dev.rd (R.SEQ_STRM_STAT_ZC_ARMED x) = 0 ∧
      t.dev.rd (R.SEQ_STRM_STAT_ZC_TO x) = 1 ∧ (t.dev.rd (R.PIRQ_RAW 11)).testBit 2 = true ∧
      t.dev.rd (R.SEQ_PROMO_STAT_STATE x) = if s.dev.watching x then 4 else s.dev.rd (R.SEQ_PROMO_STAT_STATE x)) ∧
    (s.dev.permits q A.SEQ_MUTE_CTL ((s.dev.word A.SEQ_MUTE_CTL &&& 4) + 1) → Completes (.outRelease q) s fun t =>
      SameWords s t [A.SEQ_MUTE_CTL] ∧ t.dev.rd R.SEQ_MUTE_CTL_OUT_RELEASE = 1 ∧
      t.dev.rd R.SEQ_MUTE_CTL_MUTE_RELEASE = s.dev.rd R.SEQ_MUTE_CTL_MUTE_RELEASE ∧
      t.dev.rd R.SEQ_MUTE_CTL_MUTE_FORCE = s.dev.rd R.SEQ_MUTE_CTL_MUTE_FORCE) ∧
    (s.dev.permits q A.SEQ_MUTE_CTL ((s.dev.word A.SEQ_MUTE_CTL &&& 4) + 2) → s.dev.au.muteLow = true →
      s.dev.on R.SEQ_MUTE_CTL_MUTE_RELEASE = false →
      (s.dev.on R.SEQ_MUTE_CTL_OUT_RELEASE = true → s.dev.on R.SEQ_MUTE_CTL_MUTE_FORCE = false → Completes (.muteRelease q) s fun t =>
        SameWords s t [A.SEQ_MUTE_CTL] ∧ t.dev.rd R.SEQ_MUTE_CTL_MUTE_RELEASE = 1 ∧
        t.dev.au.muteLow = (s.dev.rd R.BARN_PAD_STAT_HELD).testBit 2) ∧
      (s.dev.on R.SEQ_MUTE_CTL_OUT_RELEASE = false → Completes (.muteRelease q) s fun t =>
        Counted s t 11 11 0x40 q causeValue)) ∧
    (∀ on : Bool, s.dev.permits q A.SEQ_MUTE_CTL (4 * b2n on) → Completes (.muteForce q on) s fun t =>
      SameWords s t [A.SEQ_MUTE_CTL] ∧ t.dev.rd R.SEQ_MUTE_CTL_MUTE_FORCE = b2n on ∧
      t.dev.rd R.SEQ_MUTE_CTL_MUTE_RELEASE = s.dev.rd R.SEQ_MUTE_CTL_MUTE_RELEASE ∧
      ((s.dev.rd R.BARN_PAD_STAT_HELD).testBit 2 = false →
        t.dev.au.muteLow = (!s.dev.on R.SEQ_MUTE_CTL_MUTE_RELEASE || on)))

/-- Binding a stall and writing its grants: what keeps the rules is stored, what breaks them is counted
(spec/04_stalls_troughs_commands.md R67, spec/04_stalls_troughs_commands.md R68, spec/04_stalls_troughs_commands.md R71,
spec/04_stalls_troughs_commands.md Table 04-1, spec/20_register_page_map.md R418). -/
def Obligations.BindAndGrantWrites : Prop :=
  ∀ (s : State) (q : Req) (n : Fin 9) (v : BitVec 32), s.dev.sy.coldHold = false →
    (s.dev.permits q (A.STL_BIND n) v.toNat →
      (n ≠ 0 → bits v.toNat 0 2 ≠ 3 → s.dev.bindTaken n v.toNat = false → s.dev.jobState n = jobClosed →
        Completes (.bindWrite q n v) s fun t =>
          t = { s with dev := { s.dev with regs := t.dev.regs, bus := (s.dev.clearShadows n).bus } } ∧ SameWords s t [A.STL_BIND n] ∧
          t.dev.rd (R.STL_BIND_KIND n) = bits v.toNat 0 2 ∧ t.dev.rd (R.STL_BIND_PORT n) = bits v.toNat 2 1 ∧
          t.dev.rd (R.STL_BIND_FUNC n) = bits v.toNat 3 2 ∧ t.dev.rd (R.STL_BIND_NODE n) = bits v.toNat 16 16 ∧
          (∀ x < 2 ^ 24, t.dev.shadow (.stall n) x = none)) ∧
      (n = 0 ∨ bits v.toNat 0 2 = 3 ∨ s.dev.bindTaken n v.toNat = true ∨ s.dev.jobState n ≠ jobClosed →
        Completes (.bindWrite q n v) s fun t =>
          Counted { s with dev := s.dev.clearShadows n } t (0x10 + n.val) (0x10 + n.val) 0x40 q causeValue)) ∧
    (∀ g : Grant, s.dev.permits q (grantAddr n g) v.toNat →
      (s.dev.grantFits n v.toNat g = true → s.dev.grantCovers n v.toNat g = true → Completes (.grantWrite q n g v) s fun t =>
        OnlyRegs s t [grantAddr n g] ∧ ∀ h, regHit (grantAddr n g) = some h → ∀ f ∈ h.row.fields,
          bits (t.dev.word (grantAddr n g)) f.lo f.width = bits v.toNat f.lo f.width) ∧
      (s.dev.grantFits n v.toNat g = false ∨ s.dev.grantCovers n v.toNat g = false → Completes (.grantWrite q n g v) s fun t =>
        OnlyRegs s t [A.PERR_COUNT (0x10 + n.val), A.PERR_FIRST (0x10 + n.val), A.STL_GRANT_STAT n] ∧
        t.dev.rd (R.PERR_COUNT (0x10 + n.val)) = min (s.dev.rd (R.PERR_COUNT (0x10 + n.val)) + 1) maxWord ∧
        t.dev.rd (R.STL_GRANT_STAT_SHORT n) = 1))

/-- JOB_OPEN and JOB_CLOSE: the checks in their order, the counters set and released (spec/04_stalls_troughs_commands.md
R72, spec/04_stalls_troughs_commands.md R73, spec/19_faults_resets_and_restart.md R395,
spec/05_rick_counters_and_ordering.md R101, spec/19_faults_resets_and_restart.md Table 19-2). -/
def Obligations.JobCommands : Prop :=
  ∀ (s : State) (q : Req) (n : Fin 9) (e : BitVec 16), s.dev.sy.coldHold = false →
    (s.dev.permits q (A.STL_JOB_CTL n) (1 + e.toNat * 65536) →
      (s.dev.jobState n = jobClosed → Completes (.jobOpen q n e) s fun t => t.pending = s.pending ∧
        (if s.dev.limp then t.dev.jobState n = jobClosed ∧ t.dev.rd (R.STL_JOB_STAT_STATUS n) = stDisabled
        else if s.dev.epochServed e.toNat = false then t.dev.jobState n = jobClosed ∧ t.dev.rd (R.STL_JOB_STAT_STATUS n) = stEpoch
        else match s.dev.readDecl n (s.dev.rd (R.STL_JOB_DECL n)) with
          | .bad => t.dev.jobState n = jobClosed ∧ t.dev.rd (R.STL_JOB_STAT_STATUS n) = stDesc
          | .wait => t = { s with dev := { s.dev with tn := { s.dev.tn with owed := t.dev.tn.owed } } } ∧
            Owed.jobOpen n e.toNat (s.dev.rd (R.STL_JOB_DECL n)) ∈ t.dev.tn.owed
          | .good j d =>
            if d.declGranted n j then
              t.dev.jobState n = jobOpen ∧ t.dev.rd (R.STL_JOB_STAT_STATUS n) = stOk ∧ (t.dev.job n).decl = j ∧
              (t.dev.job n).epoch = e.toNat ∧
              (distinct (j.counters.map (·.1)) = true → ∀ c ∈ j.counters, t.dev.ctr c.1 = c.2 % 2 ^ 32) ∧
              (∀ c, (∀ x ∈ j.counters, x.1 ≠ c) → t.dev.ctr c = s.dev.ctr c)
            else t.dev.jobState n = jobClosed ∧ t.dev.rd (R.STL_JOB_STAT_STATUS n) = stQuota)) ∧
      (s.dev.jobState n = jobOpen → Completes (.jobOpen q n e) s fun t =>
        Counted s t (0x10 + n.val) (0x10 + n.val) (A.STL_JOB_CTL n % 4096) q causeValue) ∧
      (s.dev.jobState n = jobFaulted → s.dev.troughsClosed n = true → s.dev.on (R.STL_FAULT_STAT_RETURNED n) = true →
        s.dev.rd (R.STL_FAULT_STAT_ABORT_PEND n) = 0 → s.dev.limp = false → s.dev.epochServed e.toNat = true →
        Completes (.jobOpen q n e) s fun t => t.pending = s.pending ∧ t.dev.jobState n = jobOpen ∧
          t.dev.rd (R.STL_JOB_STAT_STATUS n) = stOk ∧ t.dev.rd (R.STL_FAULT_STAT_RETURNED n) = 0 ∧
          (t.dev.job n).epoch = e.toNat ∧ (t.dev.job n).decl = (s.dev.job n).decl ∧ t.dev.tn.rick = s.dev.tn.rick ∧
          SameWords s t [A.STL_JOB_STAT n, A.STL_FAULT_STAT n]) ∧
      (s.dev.jobState n = jobFaulted → (s.dev.troughsClosed n = false ∨ s.dev.on (R.STL_FAULT_STAT_RETURNED n) = false ∨
        s.dev.rd (R.STL_FAULT_STAT_ABORT_PEND n) ≠ 0) → Completes (.jobOpen q n e) s fun t =>
          Counted s t (0x10 + n.val) (0x10 + n.val) (A.STL_JOB_CTL n % 4096) q causeValue)) ∧
    (s.dev.permits q (A.STL_JOB_CTL n) 2 →
      (s.dev.jobState n = jobClosed → exec (.jobClose q n) s = .next s) ∧
      (s.dev.jobState n ≠ jobClosed → (s.dev.troughsClosed n = false ∨
        (s.dev.jobState n = jobFaulted ∧ s.dev.on (R.STL_FAULT_STAT_RETURNED n) = false)) → Completes (.jobClose q n) s fun t =>
          Counted s t (0x10 + n.val) (0x10 + n.val) (A.STL_JOB_CTL n % 4096) q causeValue) ∧
      (s.dev.jobState n ≠ jobClosed → s.dev.troughsClosed n = true →
        (s.dev.jobState n = jobFaulted → s.dev.on (R.STL_FAULT_STAT_RETURNED n) = true) → Completes (.jobClose q n) s fun t =>
          t.pending = s.pending ∧ t.dev.jobState n = jobClosed ∧ t.dev.rd (R.STL_FAULT_STAT_RETURNED n) = 0 ∧
          (t.dev.job n).decl = ⟨[], [], [], 0⟩ ∧ (∀ c ∈ (s.dev.job n).decl.counters, t.dev.ctr c.1 = 0) ∧
          (∀ c, (∀ x ∈ (s.dev.job n).decl.counters, x.1 ≠ c) → t.dev.ctr c = s.dev.ctr c) ∧ t.dev.mem = s.dev.mem))

/-- Opening, closing, skipping and ringing a trough (spec/04_stalls_troughs_commands.md R74,
spec/04_stalls_troughs_commands.md R75, spec/04_stalls_troughs_commands.md R76, spec/04_stalls_troughs_commands.md R77,
spec/04_stalls_troughs_commands.md R78). -/
def Obligations.TroughCommands : Prop :=
  ∀ (s : State) (q : Req) (n : Fin 9) (i : Fin 4) (e : BitVec 16), s.dev.sy.coldHold = false →
    (s.dev.permits q (A.TRG_T_CTL n i) (1 + e.toNat * 65536) →
      (s.dev.troughState n i = trgClosed → Completes (.troughOpen q n i e) s fun t => t.pending = s.pending ∧
        (if s.dev.limp ∨ s.dev.jobState n ≠ jobOpen then
          t.dev.troughState n i = trgClosed ∧ t.dev.rd (R.TRG_T_STAT_STATUS n i) = stDisabled
        else if s.dev.epochServed e.toNat = false then
          t.dev.troughState n i = trgClosed ∧ t.dev.rd (R.TRG_T_STAT_STATUS n i) = stEpoch
        else if s.dev.troughPlaced n i = false then
          t.dev.troughState n i = trgClosed ∧ t.dev.rd (R.TRG_T_STAT_STATUS n i) = stDesc
        else t.dev.troughState n i = trgOpen ∧ t.dev.rd (R.TRG_T_STAT_STATUS n i) = stOk ∧ t.dev.rd (R.TRG_T_HEAD n i) = 0 ∧
          t.dev.rd (R.TRG_T_TAIL n i) = 0 ∧ t.dev.trough n i = TroughSt.reset ∧
          SameWords s t [A.TRG_T_HEAD n i, A.TRG_T_TAIL n i, A.TRG_T_STAT n i])) ∧
      (s.dev.troughState n i ≠ trgClosed → Completes (.troughOpen q n i e) s fun t =>
        Counted s t (0x20 + n.val) (0x20 + n.val) (A.TRG_T_CTL n i % 4096) q causeValue)) ∧
    (s.dev.permits q (A.TRG_T_CTL n i) 2 → (s.dev.troughState n i = trgOpen ∨ s.dev.troughState n i = trgHalted) →
      Completes (.troughClose q n i) s fun t => OnlyRegs s t [A.TRG_T_STAT n i] ∧ t.dev.troughState n i = trgClosing ∧
        t.dev.rd (R.TRG_T_STAT_STATUS n i) = s.dev.rd (R.TRG_T_STAT_STATUS n i)) ∧
    (s.dev.troughState n i = trgClosing →
      (∀ x ∈ s.dev.tn.live, x.trough = .batch n i → x.phase = .held) → Completes (.troughCloseDone n i) s fun t =>
        t.dev.troughState n i = trgClosed ∧ t.dev.rd (R.TRG_T_HEAD n i) = s.dev.rd (R.TRG_T_TAIL n i) ∧
        t.dev.rd (R.TRG_T_TAIL n i) = s.dev.rd (R.TRG_T_TAIL n i) ∧ (∀ x ∈ t.dev.tn.live, x.trough ≠ .batch n i) ∧
        SameWords s t [A.TRG_T_HEAD n i, A.TRG_T_STAT n i, A.TRG_T_DISCARD n i] ∧
        t = { s with dev := { s.dev with
                regs := t.dev.regs
                tn := t.dev.tn
                au := { s.dev.au with caps := t.dev.au.caps, checked := t.dev.au.checked }
                fu := { s.dev.fu with links := t.dev.fu.links } } }) ∧
    (∀ x xs, s.dev.permits q (A.TRG_T_CTL n i) 3 → s.dev.troughState n i = trgHalted → (s.dev.trough n i).halted = x :: xs →
      x.cmpl = false → Completes (.troughSkip q n i) s fun t => t.pending = s.pending ∧
        t.dev.troughState n i = (if xs.isEmpty then trgOpen else trgHalted) ∧
        (t.dev.trough n i).halted = xs ∧ (t.dev.trough n i).next = (s.dev.trough n i).next ∧
        (s.dev.rd (R.TRG_T_HEAD n i) = x.pos → (s.dev.trough n i).retired = [] →
          t.dev.rd (R.TRG_T_HEAD n i) = (x.pos + 1) % 2 ^ 32)) ∧
    (∀ v : BitVec 32, (q = .stall n ∨ q = .steward) → s.dev.arrives q = true →
      let fits := (s.dev.rd (R.TRG_T_TAIL n i) + 2 ^ 32 - s.dev.rd (R.TRG_T_HEAD n i)) % 2 ^ 32 ≤
          (v.toNat + 2 ^ 32 - s.dev.rd (R.TRG_T_HEAD n i)) % 2 ^ 32 ∧
        (v.toNat + 2 ^ 32 - s.dev.rd (R.TRG_T_HEAD n i)) % 2 ^ 32 ≤ s.dev.troughSize n i
      (s.dev.troughState n i = trgOpen → fits → Completes (.doorbell q n i v) s fun t =>
        OnlyRegs s t [A.TRG_T_TAIL n i] ∧ t.dev.rd (R.TRG_T_TAIL n i) = v.toNat) ∧
      (s.dev.troughState n i = trgOpen → ¬fits → Completes (.doorbell q n i v) s fun t =>
        OnlyRegs s t [A.TRG_T_STAT n i, A.PERR_COUNT (0x20 + n.val), A.PERR_FIRST (0x20 + n.val)] ∧
        t.dev.rd (R.TRG_T_STAT_DB_BAD n i) = 1 ∧ t.dev.troughState n i = trgOpen ∧
        t.dev.rd (R.PERR_COUNT (0x20 + n.val)) = min (s.dev.rd (R.PERR_COUNT (0x20 + n.val)) + 1) maxWord) ∧
      (s.dev.troughState n i ≠ trgOpen → Completes (.doorbell q n i v) s fun t =>
        Counted s t (0x20 + n.val) (0x20 + n.val) (8 * i.val) q causeValue))

/-- COUNTER_WINDOW_WRITE signals a counter in reach; outside the range it is counted; a wrap or a closed job refuses it
(spec/05_rick_counters_and_ordering.md R90, spec/05_rick_counters_and_ordering.md R101,
spec/05_rick_counters_and_ordering.md R104, spec/05_rick_counters_and_ordering.md R445). -/
def Obligations.CounterWindowWrites : Prop :=
  ∀ (s : State) (q : Req) (c : BitVec 16) (v : BitVec 32), s.dev.sy.coldHold = false → s.dev.arrives q = true →
    ((q = .steward ∨ ∃ n, q = .stall n ∧ s.dev.inRick n c.toNat = true) →
      (s.dev.takesSignal c.toNat false = true → s.dev.ctr c.toNat + v.toNat ≤ maxWord →
        Completes (.counterWindowWrite q c v) s fun t => t.pending = s.pending ∧
          t.dev.ctr c.toNat = s.dev.ctr c.toNat + v.toNat ∧ (∀ x, x ≠ c.toNat → t.dev.ctr x = s.dev.ctr x) ∧
          t.dev.mem = s.dev.mem ∧ t.dev.tn.live = s.dev.tn.live ∧
          (let m := (s.dev.ctrStall c.toNat).getD 0
           t.dev.rd (R.RCK_SIG_TOTAL m) = (s.dev.rd (R.RCK_SIG_TOTAL m) + v.toNat) % 2 ^ 96 ∧
           SameWords s t [A.RCK_SIG_TOTAL m, A.RCK_SIG_TOTAL m + 4, A.RCK_SIG_TOTAL m + 8])) ∧
      (s.dev.takesSignal c.toNat false = false ∨ maxWord < s.dev.ctr c.toNat + v.toNat →
        Completes (.counterWindowWrite q c v) s fun t => t = { s with dev := { s.dev with regs := t.dev.regs } } ∧
          t.dev.rd (R.PERR_COUNT 5) = min (s.dev.rd (R.PERR_COUNT 5) + 1) maxWord ∧
          t.dev.rd R.RCK_REFUSE_COUNT = min (s.dev.rd R.RCK_REFUSE_COUNT + 1) maxWord ∧
          t.dev.rd R.RCK_LAST_REFUSE_COUNTER = c.toNat)) ∧
    (∀ n : Fin 9, q = .stall n → s.dev.inRick n c.toNat = false → Completes (.counterWindowWrite q c v) s fun t =>
      Counted s t 5 5 (8 * c.toNat % 4096) q causeAccess)

/-- A descriptor is fetched behind the last one that started; it starts after its wait, fails on its body, or halts its
trough (spec/04_stalls_troughs_commands.md R75, spec/04_stalls_troughs_commands.md R80, spec/04_stalls_troughs_commands.md
R81, spec/05_rick_counters_and_ordering.md R93). -/
def Obligations.DescriptorFetchAndStart : Prop :=
  ∀ (s : State), s.dev.sy.coldHold = false → s.dev.coreOn = true →
    (∀ (n : Fin 9) (q : Fin 4) (bs : List Byte) (ue : Bool) (d : Dev),
      let ts := s.dev.trough n q
      let x := Desc.fetched (.batch n q) ts.next bs
      s.dev.troughState n q = trgOpen → s.dev.jobState n = jobOpen → ts.next ≠ s.dev.rd (R.TRG_T_TAIL n q) →
      (∀ y ∈ s.dev.tn.live, y.trough = .batch n q → y.phase ≠ .held ∧ y.opcode ≠ 8) →
      s.dev.pathRead n none (s.dev.slotAddr n q ts.next) 64 = .data bs ue d →
      ((ue = false ∨ n = 0) → d.headerFault n x = none → Completes (.descriptorNext (.batch n q)) s fun t =>
        t.pending = s.pending ∧ t.dev.tn.live = s.dev.tn.live ++ [x] ∧ (t.dev.trough n q).next = (ts.next + 1) % 2 ^ 32 ∧
        t.dev.regs = d.regs ∧ t.dev.mem = d.mem ∧ t.dev.tn.rick = s.dev.tn.rick ∧
        t.dev.tn.waiters = if x.waitEn = true ∧ x.wait ∉ s.dev.tn.waiters then s.dev.tn.waiters ++ [x.wait] else s.dev.tn.waiters) ∧
      (∀ st, (ue = false ∨ n = 0) → d.headerFault n x = some st → Completes (.descriptorNext (.batch n q)) s fun t =>
        t.dev.jobState n = jobFaulted ∧ t.dev.rd (R.STL_JOB_STAT_STATUS n) = st) ∧
      (ue = true → n ≠ 0 → Completes (.descriptorNext (.batch n q)) s fun t =>
        t.dev.jobState n = jobFaulted ∧ t.dev.rd (R.STL_JOB_STAT_STATUS n) = stEcc)) ∧
    (∀ (x : Fin 32) (b : Bool) (r : RtRun) (base len : Nat) (bs : List Byte) (d : Dev),
      s.dev.rtTrough x b = some (r, base, len) → r.aborting = false → r.next < len →
      (∀ y ∈ s.dev.tn.live, y.trough ≠ .realtime x b) → (∀ i < 64, s.dev.siloReady (base + 64 * r.next + i) = true) →
      s.dev.siloRead (base + 64 * r.next) 64 = (bs, false, d) →
      (Desc.fetched (.realtime x b) r.next bs).opcode ≤ 12 → (Desc.fetched (.realtime x b) r.next bs).fld 13 3 = 0 →
      Completes (.descriptorNext (.realtime x b)) s fun t =>
        t.pending = s.pending ∧ t.dev.tn.live = s.dev.tn.live ++ [Desc.fetched (.realtime x b) r.next bs] ∧
        t.dev.rtTrough x b = some ({ r with next := r.next + 1 }, base, len) ∧ t.dev.regs = d.regs ∧ t.dev.mem = d.mem) ∧
    (∀ (n : Fin 9) (q : Fin 4) (p : BitVec 32) (x : Desc), s.dev.findDesc (.batch n q) p.toNat = some x → x.phase = .held →
      s.dev.troughState n q = trgOpen →
      let d := if x.waitEn then s.dev.takeWait x.wait else s.dev
      (x.waitEn = true → s.dev.waitMet x.wait = false → exec (.descriptorStart (.batch n q) p) s = .next s) ∧
      ((x.waitEn = true → s.dev.waitMet x.wait = true) →
        (∀ st, s.dev.jobState n = jobOpen → d.bodyFault x.trough x = some st → Completes (.descriptorStart (.batch n q) p) s fun t =>
          t.dev.jobState n = jobFaulted ∧ t.dev.rd (R.STL_JOB_STAT_STATUS n) = st % 65536) ∧
        (d.bodyFault x.trough x = none → d.aimedAtDisabled x.trough x = true → Completes (.descriptorStart (.batch n q) p) s fun t =>
          t.pending = s.pending ∧ t.dev.troughState n q = trgHalted ∧ t.dev.rd (R.TRG_T_STAT_STATUS n q) = stDisabled ∧
          (t.dev.trough n q).halted = (s.dev.trough n q).halted ++ [x] ∧ t.dev.findDesc (.batch n q) p.toNat = none ∧ t.dev.jobState n = s.dev.jobState n) ∧
        (d.bodyFault x.trough x = none → d.aimedAtDisabled x.trough x = false → Completes (.descriptorStart (.batch n q) p) s fun t =>
          t.pending = s.pending ∧ t.dev.tn.starts = s.dev.tn.starts + 1 ∧
          t.dev.findDesc (.batch n q) p.toNat = some { x with phase := .started, order := s.dev.tn.starts + 1 } ∧
          (∀ c, t.dev.ctr c = if x.waitEn = true ∧ x.consume = true ∧ c = x.waitCtr then s.dev.ctr c - x.waitVal else s.dev.ctr c) ∧
          t.dev.mem = s.dev.mem ∧ t.dev.tn.waiters = d.tn.waiters ∧ t.dev.outs = s.dev.outs))) ∧
    (∀ (z : Fin 32) (b : Bool) (p : BitVec 32) (x : Desc), s.dev.findDesc (.realtime z b) p.toNat = some x → x.phase = .held →
      (s.dev.rtRulesKept z b x = false ∨ s.dev.bodyFault x.trough x ≠ none ∨ s.dev.aimedAtDisabled x.trough x = true →
        Completes (.descriptorStart (.realtime z b) p) s fun t => t.pending = s.pending ∧
          ∀ y ∈ t.dev.tn.live, y.trough ≠ .realtime z b) ∧
      (s.dev.rtRulesKept z b x = true → s.dev.bodyFault x.trough x = none → s.dev.aimedAtDisabled x.trough x = false →
        x.opcode ≠ 2 → Completes (.descriptorStart (.realtime z b) p) s fun t => t.pending = s.pending ∧
          t.dev.findDesc (.realtime z b) p.toNat = some { x with phase := .started, order := s.dev.tn.starts + 1 } ∧
          t.dev.tn.rick = s.dev.tn.rick ∧ t.dev.mem = s.dev.mem))

/-- A descriptor that is done retires: its signal adds to its counter or faults the job, HEAD advances; NOP and MARK
(spec/04_stalls_troughs_commands.md R76, spec/04_stalls_troughs_commands.md R79, spec/04_stalls_troughs_commands.md R82,
spec/04_stalls_troughs_commands.md R83, spec/05_rick_counters_and_ordering.md R90, spec/03_audio_ports_and_streams.md R49).
-/
def Obligations.DescriptorRetirement : Prop :=
  ∀ (s : State), s.dev.sy.coldHold = false → s.dev.coreOn = true →
    (∀ (n : Fin 9) (q : Fin 4) (p : BitVec 32) (x : Desc), s.dev.findDesc (.batch n q) p.toNat = some x → x.phase = .done →
      x.opcode ≠ 2 → x.opcode ≠ 7 →
      ((x.sigEn = true → s.dev.wraps x.sigCtr x.sigInc = false) → x.cmpl = false → (s.dev.trough n q).retired = [] →
        Completes (.descriptorRetire (.batch n q) p) s fun t =>
          t.pending = s.pending ∧ t.dev.findDesc (.batch n q) p.toNat = none ∧ t.dev.mem = s.dev.mem ∧ (t.dev.job n).wdog = 0 ∧
          (∀ c, t.dev.ctr c = if x.sigEn = true ∧ c = x.sigCtr then s.dev.ctr c + x.sigInc else s.dev.ctr c) ∧
          (if s.dev.rd (R.TRG_T_HEAD n q) = p.toNat then
            t.dev.rd (R.TRG_T_HEAD n q) = (p.toNat + 1) % 2 ^ 32 ∧ (t.dev.trough n q).retired = []
          else t.dev.rd (R.TRG_T_HEAD n q) = s.dev.rd (R.TRG_T_HEAD n q) ∧ (t.dev.trough n q).retired = [p.toNat])) ∧
      (x.sigEn = true → s.dev.wraps x.sigCtr x.sigInc = true → s.dev.jobState n = jobOpen →
        Completes (.descriptorRetire (.batch n q) p) s fun t =>
          t.dev.jobState n = jobFaulted ∧ t.dev.rd (R.STL_JOB_STAT_STATUS n) = stWrap ∧ t.dev.tn.rick = s.dev.tn.rick ∧
          t.dev.rd R.RCK_REFUSE_COUNT = min (s.dev.rd R.RCK_REFUSE_COUNT + 1) maxWord)) ∧
    (∀ (z : Fin 32) (b : Bool) (p : BitVec 32) (x : Desc) (r : RtRun) (base len : Nat),
      s.dev.findDesc (.realtime z b) p.toNat = some x → x.phase = .done → x.opcode ≠ 2 →
      s.dev.rtTrough z b = some (r, base, len) →
      (r.next < len → Completes (.descriptorRetire (.realtime z b) p) s fun t =>
        t = { s with dev := s.dev.dropDesc (.realtime z b) p.toNat }) ∧
      (len ≤ r.next → s.dev.stc ≤ r.due → Completes (.descriptorRetire (.realtime z b) p) s fun t =>
        t.pending = s.pending ∧ t.dev.rtTrough z b = none ∧ t.dev.regs = s.dev.regs ∧
        (if b then (t.dev.stream z).standbyMet = true ∧ (t.dev.stream z).liveMet = (s.dev.stream z).liveMet
        else (t.dev.stream z).liveMet = true ∧ (t.dev.stream z).standbyMet = (s.dev.stream z).standbyMet))) ∧
    (∀ (tr : Trough) (p : BitVec 32) (x : Desc), s.dev.findDesc (troughOf tr) p.toNat = some x → x.opcode = 0 → x.phase = .started →
      Completes (.nop tr p) s fun t => t = { s with dev := s.dev.updDesc { x with phase := .done } } ∧
        t.dev.findDesc (troughOf tr) p.toNat = some { x with phase := .done }) ∧
    (∀ (n : Fin 9) (q : Fin 4) (p : BitVec 32) (x : Desc), s.dev.findDesc (.batch n q) p.toNat = some x → x.opcode = 12 →
      x.phase = .started → x.cmpl = false → (x.sigEn = true → s.dev.wraps x.sigCtr x.sigInc = false) →
      let size := 2 ^ s.dev.rd (R.STL_EV_CFG_LOG2SIZE n)
      let head := s.dev.rd (R.STL_EV_HEAD n)
      let used := (head + 2 ^ 32 - s.dev.rd (R.STL_EV_TAIL n)) % 2 ^ 32 + s.dev.owedEvents n
      let at0 := ringAddr (s.dev.on (R.STL_EV_CFG_LOC n)) (s.dev.rd (R.STL_EV_BASE n) * 4096) (head % size * 16)
      (size ≤ used → Completes (.mark (.batch n q) p) s fun t =>
        t.pending = s.pending ∧ t.dev.findDesc (.batch n q) p.toNat = none ∧ t.dev.mem = s.dev.mem ∧
        t.dev.rd (R.STL_EV_LOST_COUNT n) = min (s.dev.rd (R.STL_EV_LOST_COUNT n) + 1) maxWord ∧
        t.dev.rd (R.STL_LAST_STATUS n) = s.dev.rd (R.STL_LAST_STATUS n) ∧ t.dev.rd (R.STL_EV_HEAD n) = head) ∧
      (used < size → s.dev.owedEvents n = 0 → (s.dev.on (R.STL_EV_CFG_LOC n) = true → at0 + 16 ≤ siloBytes) →
        (∀ ue d, s.dev.pathWrite n none at0 (eventBytes x.tag kindMark q p.toNat s.dev.stc) = .done ue d →
          Completes (.mark (.batch n q) p) s fun t =>
            t.pending = s.pending ∧ t.dev.findDesc (.batch n q) p.toNat = none ∧ t.dev.mem = d.mem ∧
            t.dev.rd (R.STL_EV_HEAD n) = (head + 1) % 2 ^ 32 ∧
            t.dev.rd (R.STL_LAST_STATUS n) = s.dev.rd (R.STL_LAST_STATUS n)) ∧
        (s.dev.pathWrite n none at0 (eventBytes x.tag kindMark q p.toNat s.dev.stc) = .wait →
          Completes (.mark (.batch n q) p) s fun t =>
            t.pending = s.pending ∧ t.dev.findDesc (.batch n q) p.toNat = none ∧ t.dev.mem = s.dev.mem ∧
            t.dev.rd (R.STL_EV_HEAD n) = head ∧ t.dev.rd (R.STL_LAST_STATUS n) = s.dev.rd (R.STL_LAST_STATUS n) ∧
            Owed.event n (eventBytes x.tag kindMark q p.toNat s.dev.stc) false ∈ t.dev.tn.owed)))

/-- SYNC goes through its slots in order; FENCE waits for what it covers, and with BARRIER for its peers' packets
(spec/05_rick_counters_and_ordering.md R91, spec/05_rick_counters_and_ordering.md R92, spec/05_rick_counters_and_ordering.md
R96, spec/05_rick_counters_and_ordering.md R97, spec/05_rick_counters_and_ordering.md Table 05-3). -/
def Obligations.SyncAndFence : Prop :=
  ∀ (s : State), s.dev.sy.coldHold = false → s.dev.coreOn = true →
    (∀ (tr : Trough) (p : BitVec 32) (y : Desc), s.dev.findDesc (troughOf tr) p.toNat = some y →
      (y.opcode = 7 → y.phase = .started ∨ y.phase = .working →
        (y.prog ≤ 4 → (∀ i < 4, y.prog ≤ i → (syncSlot y.bits i).2.1 < 2) → Completes (.sync tr p) s fun t =>
          t.dev.findDesc (troughOf tr) p.toNat = some { y with phase := .done, prog := 4 } ∧
          t = { s with dev := { s.dev with tn := { s.dev.tn with live := t.dev.tn.live } } }) ∧
        (y.prog < 4 → 2 ≤ (syncSlot y.bits y.prog).2.1 →
          let sl := syncSlot y.bits y.prog
          let w : Waiter := ⟨sl.1, sl.2.2, sl.2.1 == 3, troughOf tr, p.toNat⟩
          ((s.dev.enqueue w).waitMet w = false → Completes (.sync tr p) s fun t =>
            t.dev.findDesc (troughOf tr) p.toNat = some { y with phase := .working } ∧
            t.dev.tn.waiters = (if w ∈ s.dev.tn.waiters then s.dev.tn.waiters else s.dev.tn.waiters ++ [w]) ∧
            t = { s with dev := { s.dev with tn := { s.dev.tn with
                    live := t.dev.tn.live, waiters := t.dev.tn.waiters, latched := t.dev.tn.latched } } }) ∧
          (y.prog = 3 → (s.dev.enqueue w).waitMet w = true → Completes (.sync tr p) s fun t => t.pending = s.pending ∧
            t.dev.findDesc (troughOf tr) p.toNat = some { y with phase := .done, prog := 4 } ∧ w ∉ t.dev.tn.waiters ∧
            (∀ c, t.dev.ctr c = if sl.2.1 = 3 ∧ c = sl.1 then s.dev.ctr c - sl.2.2 else s.dev.ctr c) ∧ t.dev.mem = s.dev.mem))) ∧
      (y.opcode = 8 → y.phase = .started → Completes (.fence tr p) s fun t =>
        t.dev.findDesc (troughOf tr) p.toNat = some { y with phase := .working, aux := 0 } ∧
        t = { s with dev := { s.dev with tn := { s.dev.tn with live := t.dev.tn.live } } }) ∧
      (y.opcode = 8 → y.phase = .working → y.aux = 0 →
        (s.dev.fenceMet y = false → exec (.fenceConditionMet tr p) s = .next s) ∧
        (s.dev.fenceMet y = true → (Fence.of y.bits).barrier = false → Completes (.fenceConditionMet tr p) s fun t =>
          t.dev.findDesc (troughOf tr) p.toNat = some { y with phase := .done } ∧
          t = { s with dev := { s.dev with tn := { s.dev.tn with live := t.dev.tn.live } } }) ∧
        (s.dev.fenceMet y = true → (Fence.of y.bits).barrier = true → Completes (.fenceConditionMet tr p) s fun t =>
          let n := s.dev.stallOf (troughOf tr)
          t.pending = s.pending ∧ t.dev.tn.rick = s.dev.tn.rick ∧ t.dev.findDesc (troughOf tr) p.toNat = some { y with
            aux := 1
            phase := if ∀ x ∈ (s.dev.job n).decl.peers, (n, x, (Fence.of y.bits).barId) ∈ s.dev.tn.barriers then .done else .working }))) ∧
    (∀ (p : Fin 5) v x rest, firstRx (fun x => x.dst == s.dev.node && x.cls == pkBarrier) [] [] (s.dev.rxList p) = some (v, x, rest) →
      let d := s.dev.popRx p v x rest
      ((∀ m ∈ allStalls, d.openPeer m x.src = false) → Completes (.barrierReceive p) s fun t => t = { s with dev := d }) ∧
      (∀ n ∈ allStalls, d.openPeer n x.src = true → (∀ m ∈ allStalls, m ≠ n → d.openPeer m x.src = false) →
        (d.setBarriers (d.tn.barriers ++ [(n, x.src, x.fld 16 2)])).earlyBarriers n ≤ 16 →
        (∀ y ∈ d.tn.live, y.atBarrier n (x.fld 16 2) = false) → Completes (.barrierReceive p) s fun t =>
          t = { s with dev := d.setBarriers (d.tn.barriers ++ [(n, x.src, x.fld 16 2)]) }))

/-- A remote signal is applied once, refused or found a repeat, and acknowledged; ABORT and its answer settle what is
pending (spec/05_rick_counters_and_ordering.md R98, spec/05_rick_counters_and_ordering.md R99,
spec/05_rick_counters_and_ordering.md R100, spec/15_links_furrow_and_pcie.md R293, spec/15_links_furrow_and_pcie.md R294,
spec/15_links_furrow_and_pcie.md R292). -/
def Obligations.RemoteSignals : Prop :=
  ∀ (s : State) (p : Fin 5), s.dev.sy.coldHold = false → s.dev.coreOn = true →
    (∀ v x rest, firstRx (fun x => x.dst == s.dev.node && x.cls == pkRsig) [] [] (s.dev.rxList p) = some (v, x, rest) →
      let d := s.dev.popRx p v x rest
      let n := x.dstall
      let c := x.fld 16 2
      let seq := x.fld 18 2
      let fresh := seqNewer (s.dev.lastSeq n x.sstall x.src) seq = true
      let declared := (n ≤ 8 ∧ d.openPeer n x.src = true ∧ ∃ e ∈ (s.dev.job n).decl.counters, e.1 = c) ∨
        (n = 0 ∧ c < standingEnd ∧ d.openPeer 0 x.src = true)
      Completes (.rsigReceive p) s fun t => t.pending = s.pending ∧ t.dev.mem = s.dev.mem ∧
        (fresh → declared → s.dev.wraps c (x.fld 20 4) = false →
          t.dev.ctr c = s.dev.ctr c + x.fld 20 4 ∧ (∀ k, k ≠ c → t.dev.ctr k = s.dev.ctr k) ∧
          t.dev.lastSeq n x.sstall x.src = some seq ∧ ∃ d' : Dev, t.dev = d'.rack x seq stOk 0) ∧
        (fresh → declared → s.dev.wraps c (x.fld 20 4) = true → t.dev.tn.rick = s.dev.tn.rick ∧
          t.dev.rd R.RCK_REFUSE_COUNT = min (s.dev.rd R.RCK_REFUSE_COUNT + 1) maxWord ∧ ∃ d' : Dev, t.dev = d'.rack x seq stWrap 0) ∧
        (fresh → ¬declared → t.dev.tn.rick = s.dev.tn.rick ∧
          t.dev.rd R.RCK_REFUSE_COUNT = min (s.dev.rd R.RCK_REFUSE_COUNT + 1) maxWord ∧ ∃ d' : Dev, t.dev = d'.rack x seq stDesc 0) ∧
        (¬fresh → t.dev.tn = s.dev.tn ∧ t.dev = d.rack x seq stOk 0)) ∧
    (∀ v x rest, firstRx (fun x => x.dst == s.dev.node && x.cls == pkRack) [] [] (s.dev.rxList p) = some (v, x, rest) →
      x.dstall ≤ 8 →
      let n := x.dstall
      let mine := fun (r : RSig) => r.stall == n && (r.node == x.src && r.dstall == x.sstall && r.seq == x.fld 16 2)
      let hit := s.dev.tn.rsigs.filter mine
      let total := (hit.map (·.amount)).foldl (· + ·) 0
      (x.fld 20 1 % 2 = 0 → hit ≠ [] → (x.fld 18 2 = stOk ∨ s.dev.jobState n = jobOpen) → Completes (.rackReceive p) s fun t =>
        t.pending = s.pending ∧ t.dev.tn.rsigs = s.dev.tn.rsigs.filter (fun r => !mine r) ∧ t.dev.tn.rick = s.dev.tn.rick ∧
        t.dev.rd (R.RCK_RSIG_PEND_COUNT n) = s.dev.rd (R.RCK_RSIG_PEND_COUNT n) - hit.length ∧
        (x.fld 18 2 = stOk → t.dev.rd (R.RCK_RSIG_ACKED n) = (s.dev.rd (R.RCK_RSIG_ACKED n) + total) % 2 ^ 96 ∧
          t.dev.rd (R.RCK_RSIG_RET n) = s.dev.rd (R.RCK_RSIG_RET n) ∧ t.dev.jobState n = s.dev.jobState n) ∧
        (x.fld 18 2 ≠ stOk → t.dev.rd (R.RCK_RSIG_RET n) = (s.dev.rd (R.RCK_RSIG_RET n) + total) % 2 ^ 96 ∧
          t.dev.rd (R.RCK_RSIG_ACKED n) = s.dev.rd (R.RCK_RSIG_ACKED n) ∧
          t.dev.jobState n = jobFaulted ∧ t.dev.rd (R.STL_JOB_STAT_STATUS n) = x.fld 18 2)) ∧
      (x.fld 20 1 % 2 = 0 → hit = [] → Completes (.rackReceive p) s fun t => t = { s with dev := s.dev.popRx p v x rest }) ∧
      (x.fld 20 1 % 2 = 1 → s.dev.jobState n = jobOpen → Completes (.rackReceive p) s fun t =>
        t.pending = s.pending ∧ t.dev.tn.rsigs = s.dev.tn.rsigs ∧ t.dev.tn.rick = s.dev.tn.rick ∧
        t.dev.jobState n = jobFaulted ∧ t.dev.rd (R.STL_JOB_STAT_STATUS n) = stDesc)) ∧
    (∀ n : Fin 9, Completes (.rsigResend n) s fun t => t.pending = s.pending ∧ t.dev.tn = s.dev.tn ∧ t.dev.mem = s.dev.mem ∧
      (∀ r ∈ s.dev.tn.rsigs, r.stall = n.val →
        let k := s.dev.packet pkRsig r.node r.dstall n (leBytes 2 r.ctr ++ leBytes 2 r.seq ++ leBytes 4 r.amount) []
        (r.node = s.dev.node → (r.vc, k) ∈ t.dev.fu.loop) ∧
        (∀ q, r.node ≠ s.dev.node → s.dev.route r.node = some q → s.dev.furUp q = false →
          ∀ f ∈ k.flits r.vc none, f ∈ (t.dev.link q).txq)) ∧
      (∀ x ∈ (s.dev.job n).abortPeers,
        let k := s.dev.packet pkAbort x 0 n (leBytes 2 (s.dev.rd (R.STL_JOB_STAT_STATUS n))) []
        (x = s.dev.node → (0, k) ∈ t.dev.fu.loop) ∧
        (∀ q, x ≠ s.dev.node → s.dev.route x = some q → s.dev.furUp q = false →
          ∀ f ∈ k.flits 0 none, f ∈ (t.dev.link q).txq)) ∧
      ((∀ r ∈ s.dev.tn.rsigs, r.stall ≠ n.val) → (s.dev.job n).abortPeers = [] → t = s)) ∧
    (∀ v x rest, firstRx (fun x => x.dst == s.dev.node && x.cls == pkAbort) [] [] (s.dev.rxList p) = some (v, x, rest) →
      let d := s.dev.popRx p v x rest
      Completes (.abortReceive p) s fun t => t.pending = s.pending ∧ t.dev.tn.rick = s.dev.tn.rick ∧
        (∀ n ∈ allStalls, d.openPeer n x.src = true → t.dev.jobState n = jobFaulted ∧ t.dev.rd (R.STL_JOB_STAT_STATUS n) = stAborted) ∧
        (∀ n ∈ allStalls, d.openPeer n x.src = false → t.dev.jobState n = s.dev.jobState n) ∧
        ((∀ n ∈ allStalls, d.openPeer n x.src = false) → (∀ m ∈ allStalls, s.dev.lastSeq m x.sstall x.src = none) →
          t.dev = d.abortAck x x.dstall none)) ∧
    (∀ v x rest, firstRx (fun x => x.dst == s.dev.node && x.cls == pkAbortAck) [] [] (s.dev.rxList p) = some (v, x, rest) →
      x.dstall ≤ 8 →
      let n := x.dstall
      let gone := fun (r : RSig) => r.stall == n && (r.node == x.src && (!(x.fld 18 1).testBit 0 || r.dstall == x.sstall))
      let acked := fun (r : RSig) => (x.fld 18 1).testBit 0 && !seqNewer (some (x.fld 16 2)) r.seq
      let hit := s.dev.tn.rsigs.filter gone
      Completes (.abortAckReceive p) s fun t => t.pending = s.pending ∧ t.dev.tn.rick = s.dev.tn.rick ∧
        t.dev.tn.rsigs = s.dev.tn.rsigs.filter (fun r => !gone r) ∧
        t.dev.rd (R.RCK_RSIG_ACKED n) =
          (s.dev.rd (R.RCK_RSIG_ACKED n) + ((hit.filter acked).map (·.amount)).foldl (· + ·) 0) % 2 ^ 96 ∧
        t.dev.rd (R.RCK_RSIG_RET n) =
          (s.dev.rd (R.RCK_RSIG_RET n) + ((hit.filter (fun r => !acked r)).map (·.amount)).foldl (· + ·) 0) % 2 ^ 96 ∧
        (t.dev.job n).abortPeers = (s.dev.job n).abortPeers.filter (· ≠ x.src))

/-- A started descriptor of each class of unit is taken up when its unit may take it, and waits unchanged while it may not
(spec/07_tile_instructions_and_folding.md R130, spec/08_hoppers_and_sifters.md R153, spec/12_silo_turner_and_cellar.md R230,
spec/14_baler_checkpoints.md R273, spec/14_baler_checkpoints.md R276, spec/10_adaptation_and_training.md R197,
spec/15_links_furrow_and_pcie.md R299, spec/03_audio_ports_and_streams.md R56, spec/11_promotion_and_weight_swap.md R205).
-/
def Obligations.UnitsTakeUp : Prop :=
  ∀ (s : State) (tr : Trough) (p g : BitVec 32) (y : Desc), s.dev.sy.coldHold = false →
    s.dev.findDesc (troughOf tr) p.toNat = some y → y.phase = .started →
    (y.opcode = 1 → s.dev.coreOn = true → Completes (.tile tr p) s fun t =>
      t.dev.findDesc (troughOf tr) p.toNat = some { y with phase := .working } ∧
      t = { s with dev := { s.dev with tn := { s.dev.tn with live := t.dev.tn.live } } }) ∧
    (y.opcode = 2 →
      let x := Sift.of y.bits
      (s.dev.siftMayBegin y x.sifter = false → exec (.sift tr p g) s = .next s) ∧
      (∀ blk ps d, s.dev.siftMayBegin y x.sifter = true → loadBlock (troughOf tr) x s.dev = .ok (blk, ps) d →
        (x.kind = 2 → x.hopper = false → d.tineSpans (troughOf tr) x blk = true) → Completes (.sift tr p g) s fun t =>
          t.pending = s.pending ∧ (t.dev.sifter x.sifter).cur = some (y.siftRun (d.stallOf (troughOf tr)) blk ps) ∧
          t.dev.findDesc (troughOf tr) p.toNat = some { y with phase := .working } ∧ t.dev.mem = d.mem)) ∧
    (y.opcode = 3 →
      let c := (Move.of y.bits).chan
      (s.dev.moveMayBegin y c = false → exec (.move tr p g) s = .next s) ∧
      (s.dev.moveMayBegin y c = true → Completes (.move tr p g) s fun t => t.pending = s.pending ∧
        (t.dev.channel c).cur = some (troughOf tr, p.toNat) ∧ t.dev.rd (R.TRN_CH_STAT_STATE c) = 1 ∧
        t.dev.rd (R.TRN_CH_STAT_TAG c) = y.tag ∧ t.dev.rd (R.TRN_CH_TOTAL c) = (Move.of y.bits).groups % 2 ^ 64 ∧
        t.dev.findDesc (troughOf tr) p.toNat = some { y with phase := .working } ∧ t.dev.mem = s.dev.mem)) ∧
    (y.opcode = 4 →
      let x := Bale.of y.bits
      (s.dev.baleMayBegin y = false → exec (.bale tr p g) s = .next s) ∧
      (∀ tb d, s.dev.baleMayBegin y = true → s.dev.getBytes (troughOf tr) x.tables x.tableLen = .ok tb d →
        tablesOk x.format x.ntab tb = true → Completes (.bale tr p g) s fun t => t.pending = s.pending ∧
          t.dev.ba.bale = some ⟨troughOf tr, p.toNat, 0, [], false, 0, 0, false⟩ ∧ t.dev.rd R.BAL_STAT_BUSY = 1 ∧
          t.dev.findDesc (troughOf tr) p.toNat = some { y with phase := .working } ∧ t.dev.mem = d.mem)) ∧
    (y.opcode = 5 → (Unbale.of y.bits).src = 0 → ∀ k < 7, s.dev.pathOf (s.dev.stallOf (troughOf tr)) (Unbale.of y.bits) = some k →
      (s.dev.unbaleMayBegin y k = false → exec (.unbale tr p g) s = .next s) ∧
      (s.dev.unbaleMayBegin y k = true → Completes (.unbale tr p g) s fun t => t.pending = s.pending ∧
        t.dev.path k = some ⟨troughOf tr, p.toNat, [], false, none, 0, 0, [], false, false⟩ ∧ (t.dev.rd R.BAL_STAT_PATHS).testBit k = true ∧
        t.dev.findDesc (troughOf tr) p.toNat = some { y with phase := .working } ∧ t.dev.mem = s.dev.mem)) ∧
    (y.opcode = 6 →
      (s.dev.winnowMayBegin y = false → exec (.winnow tr p g) s = .next s) ∧
      (s.dev.winnowMayBegin y = true → (Winnow.of y.bits).mode ≠ 2 → Completes (.winnow tr p g) s fun t => t.pending = s.pending ∧
        t.dev.wn.win = some ⟨troughOf tr, p.toNat, 0, 16, 0, 0, 0, false⟩ ∧ t.dev.rd R.WIN_STAT_BUSY = 1 ∧
        t.dev.findDesc (troughOf tr) p.toNat = some { y with phase := .working } ∧ t.dev.mem = s.dev.mem)) ∧
    (y.opcode = 9 →
      (s.dev.linkMayBegin y = false → exec (.link tr p g) s = .next s) ∧
      (s.dev.linkMayBegin y = true → Completes (.link tr p g) s fun t =>
        t.dev.findDesc (troughOf tr) p.toNat = some { y with phase := .working } ∧
        t = { s with dev := { s.dev with tn := { s.dev.tn with live := t.dev.tn.live } } })) ∧
    (y.opcode = 10 → s.dev.portBehind y = true → exec (.port tr p g) s = .next s) ∧
    (y.opcode = 10 → s.dev.portBehind y = false → (PortB.of y.bits).kind ≠ 2 → (PortB.of y.bits).result = 0 →
      s.dev.on (R.SEQ_STRM_CFG_EN (PortB.of y.bits).stream) = true → Completes (.port tr p g) s fun t =>
        let next := s.dev.nextBlock (PortB.of y.bits).stream (PortB.of y.bits).kind
        t.dev.findDesc (troughOf tr) p.toNat = some { y with
          phase := .working
          aux := if (PortB.of y.bits).atBlock ≠ 0 ∧ next ≤ (PortB.of y.bits).atBlock then (PortB.of y.bits).atBlock else next } ∧
        t = { s with dev := { s.dev with tn := { s.dev.tn with live := t.dev.tn.live } } }) ∧
    (y.opcode = 11 → s.dev.au.checked.any (fun q => q.trough == troughOf tr && q.pos == p.toNat) = true →
      s.dev.rd (R.SEQ_PROMO_STAT_STATE (SwapB.of y.bits).stream) ≠ 0 → exec (.swap tr p) s = .next s) ∧
    (∀ m d, y.opcode = 11 → s.dev.sy.mode ≠ .inReset → s.dev.swapCheck (troughOf tr) p.toNat y.bits = .ok m d →
      s.dev.au.checked.any (fun q => q.trough == troughOf tr && q.pos == p.toNat) = false →
      s.dev.checkedOf (SwapB.of y.bits).stream = [] →
      (∀ b < 16, (s.dev.rd (R.SEQ_STRM_BAYS_STANDBY (SwapB.of y.bits).stream)).testBit b = true → s.dev.domEn b = true) →
      s.dev.rd (R.SEQ_PROMO_STAT_STATE (SwapB.of y.bits).stream) = 0 → Completes (.swap tr p) s fun t => t.pending = s.pending ∧
        (t.dev.stream (SwapB.of y.bits).stream).promo = some m ∧ t.dev.rd (R.SEQ_PROMO_STAT_STATE (SwapB.of y.bits).stream) = 1 ∧
        t.dev.rd (R.SEQ_PROMO_STAT_TAG (SwapB.of y.bits).stream) = y.tag ∧
        t.dev.findDesc (troughOf tr) p.toNat = some { y with phase := .working })

/-- A line of a MOVE copies its bytes and no others; a packet of a LINK, a block of a BALE and of an UNBALE move its work on
by one (spec/12_silo_turner_and_cellar.md R228, spec/12_silo_turner_and_cellar.md R229, spec/12_silo_turner_and_cellar.md
R230, spec/15_links_furrow_and_pcie.md R299, spec/14_baler_checkpoints.md R266, spec/14_baler_checkpoints.md R270,
spec/14_baler_checkpoints.md R269). -/
def Obligations.UnitsWork : Prop :=
  ∀ (s : State) (tr : Trough) (p : BitVec 32) (y : Desc), s.dev.sy.coldHold = false → s.dev.coreOn = true →
    s.dev.findDesc (troughOf tr) p.toNat = some y → y.phase = .working →
    (∀ f : Nat → Nat, y.opcode = 3 →
      let x := Move.of y.bits
      let ps := x.pairs y.prog y.aux
      let last := decide (x.groupLines y.prog ≤ y.aux + 1)
      let n := s.dev.stallOf (troughOf tr)
      x.kind < 2 → (s.dev.channel x.chan).cur = some (troughOf tr, p.toNat) → s.dev.domOn 61 = true →
      ((troughOf tr).rt = none → y.aux = 0 → s.dev.moveHeldBack x.chan = false) → (∀ w, s.dev.eccOf w = none) →
      (∀ a ∈ ps, s.dev.mayUse (troughOf tr) a.1 1 = true ∧ s.dev.mayUse (troughOf tr) a.2 1 = true ∧
        s.dev.reach n (troughOf tr).rt a.1 = .ok (.silo (f a.1)) ∧ s.dev.reach n (troughOf tr).rt a.2 = .ok (.silo (f a.2))) →
      (ps.map (fun a => f a.2)).Nodup → Completes (.move tr p 1) s fun t =>
        (∀ a ∈ ps, t.dev.peek (.silo (f a.2)) = s.dev.peek (.silo (f a.1))) ∧
        (∀ b, (∀ a ∈ ps, f a.2 ≠ b) → t.dev.peek (.silo b) = s.dev.peek (.silo b)) ∧
        t.dev.mem.cellar = s.dev.mem.cellar ∧ t.dev.mem.host = s.dev.mem.host ∧ t.dev.mem.loft = s.dev.mem.loft ∧
        t.dev.rd (R.TRN_CH_DONE x.chan) = (if last then (y.prog + 1) % 2 ^ 64 else s.dev.rd (R.TRN_CH_DONE x.chan)) ∧
        t.dev.findDesc (troughOf tr) p.toNat = some (if last then { y with
          prog := y.prog + 1, aux := 0, phase := if x.groups ≤ y.prog + 1 then .done else .working } else { y with aux := y.aux + 1 })) ∧
    (∀ bs d, y.opcode = 9 →
      let x := LinkB.of y.bits
      y.prog < x.packets → s.dev.paused = false →
      s.dev.getBytes (troughOf tr) (x.src + 3584 * y.prog) (min 3584 (x.len - 3584 * y.prog)) = .ok bs d →
      Completes (.link tr p 1) s fun t => t.pending = s.pending ∧ t.dev.mem = d.mem ∧ t.dev.tn.rick = s.dev.tn.rick ∧
        t.dev.findDesc (troughOf tr) p.toNat = some { y with prog := y.prog + 1, aux := 0 } ∧
        (x.dst = s.dev.node → t.dev.fu.loop = s.dev.fu.loop ++ [(x.vc, d.packet (if x.kind = 0 then pkAct else pkGrad) x.dst x.dstall
          (s.dev.stallOf (troughOf tr)) (leBytes 8 (x.dstAddr + 3584 * y.prog)) bs)])) ∧
    (∀ r vs d tb d', y.opcode = 4 → s.dev.ba.bale = some r → r.trough = troughOf tr → r.pos = p.toNat → s.dev.paused = false →
      s.dev.domOn 50 = true → (Bale.of y.bits).mode ≠ 1 → r.block < ceilDiv (Bale.of y.bits).values 4096 →
      s.dev.baleValues (troughOf tr) (Bale.of y.bits) r.block = .ok vs d →
      d.getBytes (troughOf tr) (Bale.of y.bits).tables (Bale.of y.bits).tableLen = .ok tb d' →
      Completes (.bale tr p 1) s fun t =>
        let e := encodeLossless (Bale.of y.bits).format ((tablesOf (Bale.of y.bits).ntab tb).map (·.1)) vs
        t.dev.ba.bale = some { r with block := r.block + 1, body := r.body ++ e.1, held := false } ∧
        t.dev.rd R.BAL_BLOCKS_OUT = (s.dev.rd R.BAL_BLOCKS_OUT + 1) % 2 ^ (R.BAL_BLOCKS_OUT).width ∧
        t.dev.rd R.BAL_RAW_COUNT = (if e.2 then min (s.dev.rd R.BAL_RAW_COUNT + 1) maxWord else s.dev.rd R.BAL_RAW_COUNT) ∧
        t.dev.mem = d'.mem) ∧
    (∀ k < 7, ∀ r body, y.opcode = 5 → s.dev.pathOf (s.dev.stallOf (troughOf tr)) (Unbale.of y.bits) = some k →
      s.dev.path k = some r → r.trough = troughOf tr → r.pos = p.toNat → s.dev.paused = false →
      (s.dev.domOn (pathDomain k) = true ∨ k = 6) → r.body = some body →
      let v := s.dev.freeNext.1
      let place : Nat → Nat := fun b => (Unbale.of y.bits).dst + 8192 * (b - (Unbale.of y.bits).start)
      let written : PathRun → Nat → Dev → State → Prop := fun q b d t =>
        let left := q.ready.filter (fun z => z.1 != b)
        t.dev.mem = d.mem ∧ t.dev.rd R.BAL_BLOCKS_IN = (s.dev.rd R.BAL_BLOCKS_IN + 1) % 2 ^ (R.BAL_BLOCKS_IN).width ∧
        t.dev.path k = (if left = [] ∧ q.block = ceilDiv (leAt body 8 4) 4096 then none
          else some { q with ready := left, held := false })
      (∀ vs size, r.mayDispatch body = true → readBlock body r.block r.off = .ok (vs, size) →
        let q : PathRun := { r with
          block := r.block + 1, off := r.off + size, ready := r.ready ++ [(r.block, vs.flatMap (leBytes 2))], held := false }
        Completes (.unbale tr p 1) s fun t =>
          (v % 2 = 0 → t.dev.mem = s.dev.mem ∧ t.dev.rd R.BAL_BLOCKS_IN = s.dev.rd R.BAL_BLOCKS_IN ∧ t.dev.path k = some q) ∧
          (∀ b bs d, v % 2 = 1 → q.ready[v / 2 % max 1 q.ready.length]? = some (b, bs) →
            (s.dev.freeNext.2.setPath k (some q)).putBytes (troughOf tr) (place b) bs = .ok () d → written q b d t)) ∧
      (∀ b bs d, r.mayDispatch body = false → r.ready[v / 2 % max 1 r.ready.length]? = some (b, bs) →
        s.dev.freeNext.2.putBytes (troughOf tr) (place b) bs = .ok () d → Completes (.unbale tr p 1) s (written r b d)))

/-- A TILE takes its gang, ramps, loads a front, folds, takes credits, and its strips enter their Hopper in order
(spec/07_tile_instructions_and_folding.md R139, spec/06_thresher_array.md R114, spec/06_thresher_array.md R116,
spec/06_thresher_array.md R119, spec/07_tile_instructions_and_folding.md R133, spec/07_tile_instructions_and_folding.md
R134, spec/06_thresher_array.md R115, spec/08_hoppers_and_sifters.md R147). -/
def Obligations.TilesOnTheirGang : Prop :=
  ∀ (s : State), s.dev.sy.coldHold = false → s.dev.coreOn = true →
    (∀ (tr : Trough) (p : BitVec 32) (x : Desc), s.dev.findDesc (troughOf tr) p.toNat = some x →
      (∃ w ∈ s.dev.waitingTiles, w.trough = troughOf tr ∧ w.pos = p.toNat) →
      (∀ r ∈ s.dev.cp.thr.yielded, ¬(r.trough = troughOf tr ∧ r.pos = p.toNat)) →
      s.dev.tileDisabled (troughOf tr) (Tile.of x.bits) = false →
      (((troughOf tr).rt = none ∧ s.dev.paused = true) ∨ s.dev.pickGang (troughOf tr) (Tile.of x.bits) = none →
        exec (.tileGrant tr p) s = .next s) ∧
      (∀ l, ((troughOf tr).rt = none → s.dev.paused = false) → s.dev.pickGang (troughOf tr) (Tile.of x.bits) = some l →
        gangOk (Tile.of x.bits).shape l = true →
        s.dev.behind (troughOf tr) x.order (gangBays (Tile.of x.bits).shape l) = false → Completes (.tileGrant tr p) s fun t =>
          let bays := gangBays (Tile.of x.bits).shape l
          let active := s.dev.cp.thr.warm.any (fun g => g.1 == bays)
          t = { s with dev := { s.dev with regs := t.dev.regs, cp := { s.dev.cp with thr := t.dev.cp.thr }, free := t.dev.free } } ∧
          (∃ n, t.dev.cp.thr.runs = s.dev.cp.thr.runs ++
              [{ x.run (s.dev.stallOf (troughOf tr)) l with ramped := active, rampCyc := n, lead := some n }] ∧
            (active = true → n = 0) ∧ n ≤ s.dev.rampLen bays ∧
            (active = false → (∃ b ∈ bays, s.dev.rd (R.THR_ACT_STAT_PHASE b) ≠ 3) → n = s.dev.rampLen bays)) ∧
          t.dev.cp.thr.yielded = s.dev.cp.thr.yielded ∧
          (∀ b ∈ bays, t.dev.rd (R.THR_ACT_STAT_PHASE b) = (if active then 2 else 1) ∧ t.dev.rd (R.THR_ACT_STAT_FRONT b) = 1) ∧
          (∀ b < 16, b ∉ bays → t.dev.rd (R.THR_ACT_STAT_PHASE b) = s.dev.rd (R.THR_ACT_STAT_PHASE b) ∨
            t.dev.rd (R.THR_ACT_STAT_PHASE b) = 3 ∧ ∃ w ∈ s.dev.cp.thr.warm, b ∈ w.1))) ∧
    (∀ (g : Fin 16) (r : TileRun), s.dev.runAt g = some r → gangOk r.shape r.leader = true →
      (r.ramped = false → (∀ b ∈ r.bays, s.dev.rd (R.THR_ACT_STAT_PHASE b) = 1) → Completes (.rampUpDone g) s fun t =>
        t = { s with dev := { s.dev with regs := t.dev.regs, cp := { s.dev.cp with thr := t.dev.cp.thr } } } ∧
        t.dev.runAt g = some { r with ramped := true } ∧ (∀ b ∈ r.bays, t.dev.rd (R.THR_ACT_STAT_PHASE b) = 2 ∧
          t.dev.rd (R.THR_BUSY_CYC b) = (s.dev.rd (R.THR_BUSY_CYC b) + r.rampCyc) % 2 ^ 64)) ∧
      (∀ bs d, r.loaded = false → r.yielding = false → r.folds < r.tile.folds → s.dev.holds r = false →
        s.dev.pathRead r.stall r.trough.rt (r.tile.blockAddr r.nf r.kf) r.tile.block = .data bs false d →
        Completes (.frontComplete g) s fun t => t.pending = s.pending ∧ t.dev.mem = d.mem ∧
          t.dev.runAt g = some { r with loaded := true, image := some (r.nf, r.kf, r.tile.images bs) } ∧
          ∀ b ∈ r.bays, t.dev.rd (R.THR_ACT_STAT_FRONT b) = 0) ∧
      (∀ nf kf img rows d, r.image = some (nf, kf, img) → r.ramped = true → r.loaded = true → r.refilled = true → r.strips = [] →
        s.dev.spillHolds r.bays = false →
        s.dev.readActs r (r.kf * r.tile.kp) (min r.tile.kp (r.tile.k - r.kf * r.tile.kp)) (r.mf * r.tile.vr) (r.tile.vectors r.mf) =
          .data rows false d → Completes (.foldComplete g) s fun t =>
          let x := r.tile
          let first := r.kf == 0 || x.mode == 4
          let acc := x.fold ((rows.map List.toArray).toArray) img.toArray r.mf r.kf first (if first then [] else r.acc)
          let last := r.kf + 1 == x.kf || x.mode == 4
          let nx := x.next r.nf r.mf r.kf
          t.pending = s.pending ∧ t.dev.mem = d.mem ∧ t.dev.runAt g = some { r with
            nf := nx.1
            mf := nx.2.1
            kf := nx.2.2
            folds := r.folds + 1
            acc := if last then [] else acc
            strips := if last then x.strips acc r.nf r.mf r.kf r.stall r.trough.rtKey r.tag r.leader else []
            lead := none
            loaded := nx.1 == r.nf && nx.2.2 == r.kf && !r.yielding && decide (r.folds + 1 < x.folds) }) ∧
      (∀ st rest, ∀ held : BitVec 32, r.strips = st :: rest →
        (r.ramped = false → exec (.creditTake g held) s = .next s) ∧
        (r.ramped = true → s.dev.rd (R.THR_ACT_STAT_PHASE g) = 2 → s.dev.creditFree r.tile.hop r.trough.rt.isSome = true →
          Completes (.creditTake g held) s fun t =>
          t.pending = s.pending ∧ t.dev.rd (R.HOP_CREDIT_FREE r.tile.hop) = s.dev.rd (R.HOP_CREDIT_FREE r.tile.hop) - 1 ∧
          (t.dev.hopper r.tile.hop).inflight = (s.dev.hopper r.tile.hop).inflight ++ [st] ∧
          (∀ q, t.dev.runAt g = some q → q.strips = rest ∧ q.flying = r.flying + 1) ∧
          (s.dev.on (R.THR_ACT_STAT_HELD g) = true → ∀ b ∈ r.bays, t.dev.rd (R.THR_ACT_STAT_HELD b) = 0)) ∧
        (r.ramped = true → s.dev.rd (R.THR_ACT_STAT_PHASE g) ≠ 2 → s.dev.creditFree r.tile.hop r.trough.rt.isSome = true →
          Completes (.creditTake g held) s fun t => t.pending = s.pending ∧
            t.dev.rd (R.HOP_CREDIT_FREE r.tile.hop) = s.dev.rd (R.HOP_CREDIT_FREE r.tile.hop) ∧
            (∃ n, t.dev.runAt g = some { r with ramped := false, rampCyc := n }) ∧
            (∀ b ∈ r.bays, t.dev.rd (R.THR_ACT_STAT_PHASE b) = 1)) ∧
        (r.ramped = true → s.dev.creditFree r.tile.hop r.trough.rt.isSome = false → Completes (.creditTake g held) s fun t =>
          OnlyRegs s t (r.bays.map A.THR_ACT_STAT) ∧ ∀ b ∈ r.bays, t.dev.rd (R.THR_ACT_STAT_HELD b) = 1)) ∧
      (∀ cycles : BitVec 32, (cycles.toNat < 1024 → exec (.holdRampDown g cycles) s = .next s) ∧
        (1024 ≤ cycles.toNat → (∀ b ∈ r.bays, s.dev.rd (R.THR_ACT_STAT_HELD b) = 1 ∧ s.dev.rd (R.THR_ACT_STAT_PHASE b) = 2) →
          Completes (.holdRampDown g cycles) s fun t =>
            t = { s with dev := { s.dev with regs := t.dev.regs, cp := { s.dev.cp with thr := { s.dev.cp.thr with
              falling := if r.bays ∈ s.dev.cp.thr.falling then s.dev.cp.thr.falling else s.dev.cp.thr.falling ++ [r.bays] } } } } ∧
            ∀ b ∈ r.bays, t.dev.rd (R.THR_ACT_STAT_PHASE b) = 3 ∧
              t.dev.rd (R.THR_BUSY_CYC b) = (s.dev.rd (R.THR_BUSY_CYC b) + cycles.toNat) % 2 ^ 64))) ∧
    (∀ (h : Fin 4) (x : Strip) (rest : List Strip), (s.dev.hopper h).inflight = x :: rest →
      (∀ r, s.dev.runAt x.src = some r → gangOk r.shape r.leader = true) →
      (∀ w ∈ s.dev.cp.thr.warm, ∀ b ∈ w.1, b < 16) → Completes (.stripEnter h) s fun t =>
      t.pending = s.pending ∧ t.dev.hopper h = (if x.rt.isSome then ⟨rest, (s.dev.hopper h).rt ++ [x], (s.dev.hopper h).batch⟩
        else ⟨rest, (s.dev.hopper h).rt, (s.dev.hopper h).batch ++ [x]⟩) ∧
      t.dev.rd (R.HOP_STRIPS_IN h) = (s.dev.rd (R.HOP_STRIPS_IN h) + 1) % 2 ^ 64 ∧
      t.dev.rd (R.HOP_CREDIT_FREE h) = s.dev.rd (R.HOP_CREDIT_FREE h) ∧ t.dev.mem = s.dev.mem) ∧
    (∀ b : Fin 16, (s.dev.cp.thr.falling.find? (fun g => g.contains b.val) = none → exec (.rampDownDone b) s = .next s) ∧
      ∀ g, s.dev.cp.thr.falling.find? (fun g => g.contains b.val) = some g → (∀ x ∈ g, x < 16) → g.Nodup →
        Completes (.rampDownDone b) s fun t =>
          t = { s with dev := { s.dev with
            regs := t.dev.regs, cp := { s.dev.cp with thr := { s.dev.cp.thr with falling := s.dev.cp.thr.falling.filter (· ≠ g) } } } } ∧
          (∀ x ∈ g, t.dev.rd (R.THR_ACT_STAT_PHASE x) = 0 ∧ (t.dev.rd (R.PIRQ_RAW (0x30 + x))).testBit 1 = true ∧
            t.dev.rd (R.THR_BUSY_CYC x) = (s.dev.rd (R.THR_BUSY_CYC x) + s.dev.rampLen g) % 2 ^ 64) ∧
          ∀ x < 16, x ∉ g → t.dev.rd (R.THR_ACT_STAT_PHASE x) = s.dev.rd (R.THR_ACT_STAT_PHASE x))

/-- A TILE asked to yield leaves its gang at a fold boundary, spills, resumes with the same progress and reads its sums back
(spec/07_tile_instructions_and_folding.md R140, spec/07_tile_instructions_and_folding.md R141,
spec/07_tile_instructions_and_folding.md R142, spec/07_tile_instructions_and_folding.md R143,
spec/07_tile_instructions_and_folding.md R139). -/
def Obligations.TileYield : Prop :=
  ∀ (s : State), s.dev.sy.coldHold = false →
    (∀ (q : Req) (b : Fin 16), s.dev.permits q (A.THR_PROG_CTL b) 1 →
      let few := (yieldSlots.filter s.dev.slotFree).length < 16
      (s.dev.on (R.THR_GANG_PINNED b) = true ∨ ((s.dev.runOn b).isSome = true ∧ few) → Completes (.yieldRequest q b) s fun t =>
        Counted s t (0x30 + b.val) (0x30 + b.val) (A.THR_PROG_CTL b % 4096) q causeValue) ∧
      (s.dev.on (R.THR_GANG_PINNED b) = false → s.dev.runOn b = none → exec (.yieldRequest q b) s = .next s) ∧
      (∀ r, s.dev.on (R.THR_GANG_PINNED b) = false → s.dev.runOn b = some r → ¬few → r.trough.rt = none → r.folds < r.tile.folds →
        (r.ramped = true → r.loaded = true → r.folds + 1 < r.tile.folds) → Completes (.yieldRequest q b) s fun t =>
          t = { s with dev := { s.dev with regs := t.dev.regs, cp := { s.dev.cp with thr := t.dev.cp.thr } } } ∧
          t.dev.runAt r.leader = some { r with yielding := true })) ∧
    (∀ (g : Fin 16) (k : BitVec 16) (r : TileRun) (sl : Nat), s.dev.coreOn = true → s.dev.runAt g = some r →
      yieldSlots.find? s.dev.slotFree = some sl → gangOk r.shape r.leader = true →
      r.yielding = true → (r.loaded = true → r.ramped = false) → r.strips = [] → r.flying = 0 →
      (2048 < k.toNat → exec (.yieldTake g k) s = .next s) ∧
      (k.toNat ≤ 2048 → Completes (.yieldTake g k) s fun t =>
        t = { s with dev := { s.dev with regs := t.dev.regs, cp := { s.dev.cp with thr := t.dev.cp.thr } } } ∧
        t.dev.cp.thr.runs = s.dev.cp.thr.runs.filter (fun x => x.leader ≠ r.leader) ∧
        t.dev.cp.thr.yielded = s.dev.cp.thr.yielded ++ [{ r with
          yielding := false, ramped := false, loaded := false, image := none, spilling := r.partially && r.refilled
          refilled := !r.partially, slot := some sl }] ∧
        ∀ b ∈ r.bays, t.dev.rd (R.THR_YIELD_COUNT b) = min (s.dev.rd (R.THR_YIELD_COUNT b) + 1) maxWord ∧
          t.dev.rd (R.THR_YIELD_LAT_MAX_CYC b) = max k.toNat (s.dev.rd (R.THR_YIELD_LAT_MAX_CYC b)) ∧
          t.dev.rd (R.THR_GANG_SHAPE b) = 0)) ∧
    (∀ (sl : Fin 32) (r : TileRun) (d : Dev), s.dev.coreOn = true → (hostBase ≤ r.tile.saveBase → s.dev.egress r.stall 0 = true) →
      s.dev.cp.thr.yielded.find? (fun r => r.slot == some sl.val && r.spilling) = some r →
      s.dev.pathWrite r.stall none r.tile.saveBase ((List.range r.tile.np).flatMap (fun j => spillLine (r.acc.getD j []))) = .done false d →
      Completes (.spillDone sl) s fun t => t.pending = s.pending ∧ t.dev.mem = d.mem ∧ t.dev.cp.thr.runs = s.dev.cp.thr.runs ∧
        t.dev.cp.thr.yielded =
          s.dev.cp.thr.yielded.map (fun x => if x.slot = some sl.val then { r with spilling := false, acc := [] } else x)) ∧
    (∀ (sl : Fin 32) (r : TileRun) (l : Nat), s.dev.cp.thr.yielded.find? (fun r => r.slot == some sl.val && !r.spilling) = some r →
      (s.dev.paused = true → exec (.tileResume sl) s = .next s) ∧
      (s.dev.coreOn = true → s.dev.paused = false → s.dev.tileDisabled r.trough r.tile = false →
        s.dev.pickGang r.trough r.tile = some l → s.dev.behind r.trough r.order (gangBays r.shape l) = false →
        Completes (.tileResume sl) s fun t =>
          t = { s with dev := { s.dev with regs := t.dev.regs, cp := { s.dev.cp with thr := t.dev.cp.thr }, free := t.dev.free } } ∧
          t.dev.cp.thr.yielded = s.dev.cp.thr.yielded.filter (fun x => x.slot ≠ some sl.val) ∧
          ∃ n, t.dev.cp.thr.runs = s.dev.cp.thr.runs ++ [{ r with
            leader := l, slot := none, refilled := !r.partially, loaded := false, rampCyc := n, lead := some n
            ramped := s.dev.cp.thr.warm.any (fun g => g.1 == gangBays r.shape l) }])) ∧
    (∀ (g : Fin 16) (r : TileRun) (bs : List Byte) (d : Dev), s.dev.coreOn = true → s.dev.runAt g = some r → r.refilled = false →
      s.dev.pathRead r.stall none r.tile.saveBase (r.tile.np * 1056) = .data bs false d → Completes (.refillDone g) s fun t =>
        t.pending = s.pending ∧ t.dev.mem = d.mem ∧ t.dev.runAt g = some { r with
          refilled := true, acc := (cutUp 1056 r.tile.np bs).map (refillLine (r.tile.rows r.mf)) }) ∧
    (∀ q : Req, s.dev.permits q A.THR_BATCH_CTL 2 → Completes (.batchRelease q) s fun t =>
      t.pending = s.pending ∧ t.dev.mem = s.dev.mem ∧ t.dev.tn = s.dev.tn ∧ t.dev.cp.thr.runs = s.dev.cp.thr.runs ∧
      t.dev.cp.thr.yielded = s.dev.cp.thr.yielded ∧
      (s.dev.cp.thr.warm = [] → (∀ p < 4, (s.dev.link p).txq = []) → OnlyRegs s t [A.THR_BATCH_CTL]) ∧
      t.dev.rd R.THR_BATCH_CTL_RELEASE = 1 ∧ t.dev.rd R.THR_BATCH_CTL_CAUSE_STEWARD = 0 ∧
      t.dev.rd R.THR_BATCH_CTL_CAUSE_THERMAL = s.dev.rd R.THR_BATCH_CTL_CAUSE_THERMAL ∧
      t.dev.rd R.THR_BATCH_CTL_PAUSED = s.dev.rd R.THR_BATCH_CTL_CAUSE_THERMAL)

/-- A SIFT takes its oldest matching strip or parks; batch work stands back and resumes; HOP.CFG and MBOX_TAIL keep their
ranges (spec/08_hoppers_and_sifters.md R148, spec/08_hoppers_and_sifters.md R150, spec/08_hoppers_and_sifters.md R163,
spec/08_hoppers_and_sifters.md R165, spec/08_hoppers_and_sifters.md R166, spec/08_hoppers_and_sifters.md R167,
spec/08_hoppers_and_sifters.md R171). -/
def Obligations.HoppersAndSifters : Prop :=
  ∀ (s : State) (k : Fin 4), s.dev.sy.coldHold = false →
    (∀ r, (s.dev.sifter k).cur = some r → s.dev.siftRuns k r = true → r.sift.hopper = true → r.strip = none → r.finished = false →
      (∀ x, (r.queue (s.dev.hopper k)).find? r.takes = some x → Completes (.stripTake k) s fun t => t.pending = s.pending ∧
        (t.dev.sifter k).cur = some { r with strip := some x, chain := none, elem := 0 } ∧
        r.queue (t.dev.hopper k) = dropFirst r.takes (r.queue (s.dev.hopper k)) ∧
        t.dev.rd (R.HOP_CREDIT_FREE k) = (s.dev.rd (R.HOP_CREDIT_FREE k) + 1) % 128 ∧
        t.dev.rd (R.HOP_STRIPS_OUT k) = (s.dev.rd (R.HOP_STRIPS_OUT k) + 1) % 2 ^ 64 ∧ t.dev.mem = s.dev.mem) ∧
      ((r.queue (s.dev.hopper k)).find? r.takes = none →
        (r.rt = false → (s.dev.sifter k).parked.length < 8 → Completes (.stripTake k) s fun t =>
          t = { s with dev := { s.dev with regs := t.dev.regs, cp := t.dev.cp } } ∧
          t.dev.sifter k = { s.dev.sifter k with cur := none, parked := (s.dev.sifter k).parked ++ [r] }) ∧
        (r.rt = true ∨ 8 ≤ (s.dev.sifter k).parked.length → exec (.stripTake k) s = .next s))) ∧
    (s.dev.coreOn = true → (s.dev.sifter k).cur = none → (s.dev.sifter k).saved = none → s.dev.rtPressing k = false →
      s.dev.paused = false →
      ((∀ r ∈ (s.dev.sifter k).parked, (s.dev.hopper k).batch.any r.takes = false) → exec (.siftUnpark k) s = .next s) ∧
      (∀ r ∈ (s.dev.sifter k).parked, (s.dev.hopper k).batch.any r.takes = true →
        (∀ q ∈ (s.dev.sifter k).parked, (s.dev.hopper k).batch.any q.takes = true → q = r ∨ r.order < q.order) →
        Completes (.siftUnpark k) s fun t => t = { s with dev := { s.dev with regs := t.dev.regs, cp := t.dev.cp } } ∧
          t.dev.sifter k = { s.dev.sifter k with cur := some r, parked := (s.dev.sifter k).parked.filter (· ≠ r) })) ∧
    (∀ (q : Req) (v : BitVec 32), s.dev.permits q (A.HOP_CFG k) v.toNat →
      (bits v.toNat 0 7 ≤ 64 → s.dev.reserveNeed k ≤ bits v.toNat 0 7 → Completes (.hopCfgWrite q k v) s fun t =>
        OnlyRegs s t [A.HOP_CFG k] ∧ t.dev.rd (R.HOP_CFG_RT_RESERVE k) = bits v.toNat 0 7) ∧
      (64 < bits v.toNat 0 7 ∨ bits v.toNat 0 7 < s.dev.reserveNeed k → Completes (.hopCfgWrite q k v) s fun t =>
        Counted s t (0x40 + k.val) (0x40 + k.val) 0x40 q causeValue)) ∧
    (∀ (r : SiftRun) (l : BitVec 16), s.dev.coreOn = true → (s.dev.sifter k).cur = some r → r.rt = false → r.finished = false →
      (s.dev.sifter k).saved = none → (s.dev.rtPressing k = true ∨ s.dev.paused = true) →
      (256 < l.toNat → exec (.sifterYield k l) s = .next s) ∧
      (l.toNat ≤ 256 → Completes (.sifterYield k l) s fun t =>
        t = { s with dev := { s.dev with regs := t.dev.regs, cp := t.dev.cp } } ∧
        t.dev.sifter k = { s.dev.sifter k with cur := none, saved := some r } ∧
        t.dev.rd (R.SFT_YIELD_LAT_MAX_CYC k) = max l.toNat (s.dev.rd (R.SFT_YIELD_LAT_MAX_CYC k)))) ∧
    (∀ r : SiftRun, s.dev.coreOn = true → (s.dev.sifter k).saved = some r → (s.dev.sifter k).cur = none →
      s.dev.rtPressing k = false → s.dev.paused = false → Completes (.sifterResume k) s fun t =>
        t = { s with dev := { s.dev with regs := t.dev.regs, cp := t.dev.cp } } ∧
        t.dev.sifter k = { s.dev.sifter k with cur := some r, saved := none }) ∧
    (∀ (q : Req) (v : BitVec 32), s.dev.permits q A.SFT_MBOX_TAIL v.toNat →
      let n := (v.toNat + 2 ^ 32 - s.dev.rd R.SFT_MBOX_TAIL) % 2 ^ 32
      (n ≤ s.dev.mboxUsed → Completes (.mboxTailWrite q v) s fun t =>
        t = { s with dev := { s.dev with regs := t.dev.regs, wn := t.dev.wn } } ∧ SameWords s t [A.SFT_MBOX_TAIL] ∧
        t.dev.rd R.SFT_MBOX_TAIL = v.toNat ∧ t.dev.mboxUsed = s.dev.mboxUsed - n ∧
        t.dev.wn.drained.length = s.dev.wn.drained.length + n) ∧
      (s.dev.mboxUsed < n → Completes (.mboxTailWrite q v) s fun t => Counted s t 0x44 0x44 0x64 q causeValue))

/-- Each integer instruction of the sifters gives its result in every lane of a lane SIFT and in the temporary of a tine
(spec/08_hoppers_and_sifters.md R156, spec/08_hoppers_and_sifters.md Table 08-6, spec/08_hoppers_and_sifters.md R153). -/
def Obligations.SifterIntegerResults : Prop :=
  ∀ (s : State) (k : Fin 4) (d a b c : BitVec 5) (r : SiftRun), s.dev.sy.coldHold = false →
    (s.dev.sifter k).cur = some r → r.finished = false → s.dev.siftRuns k r = true →
    ∀ e ∈ ([(.sifterNop k d, fun D _ _ _ => D), (.mov k d a, fun _ A _ _ => A), (.add k d a b, fun _ A B _ => A + B),
        (.sub k d a b, fun _ A B _ => A - B), (.mul k d a b, fun _ A B _ => A * B),
        (.mulh k d a b, fun _ A B _ => BitVec.ofInt 32 (A.toInt * B.toInt / 2 ^ 32)), (.and k d a b, fun _ A B _ => A &&& B),
        (.or k d a b, fun _ A B _ => A ||| B), (.xor k d a b, fun _ A B _ => A ^^^ B),
        (.shl k d a b, fun _ A B _ => A <<< (B.toNat % 32)), (.shr k d a b, fun _ A B _ => A >>> (B.toNat % 32)),
        (.sra k d a b, fun _ A B _ => A.sshiftRight (B.toNat % 32)),
        (.min k d a b, fun _ A B _ => if A.toInt ≤ B.toInt then A else B),
        (.max k d a b, fun _ A B _ => if A.toInt ≤ B.toInt then B else A),
        (.abs k d a, fun _ A _ _ => if A = 0x80000000#32 then 0x7FFFFFFF#32 else if A.toInt < 0 then -A else A),
        (.adds k d a b, fun _ A B _ => BitVec.ofInt 32 (max (-2 ^ 31) (min (2 ^ 31 - 1) (A.toInt + B.toInt)))),
        (.subs k d a b, fun _ A B _ => BitVec.ofInt 32 (max (-2 ^ 31) (min (2 ^ 31 - 1) (A.toInt - B.toInt)))),
        (.cmpeq k d a b, fun _ A B _ => if A = B then 1#32 else 0#32),
        (.cmplt k d a b, fun _ A B _ => if A.toInt < B.toInt then 1#32 else 0#32),
        (.sel k d a b c, fun _ A B C => if A = 0#32 then C else B)] :
        List (Instr × (BitVec 32 → BitVec 32 → BitVec 32 → BitVec 32 → BitVec 32))),
      (r.sift.kind = 0 → Completes e.1 s fun t =>
        let L := fun (n : BitVec 5) l => BitVec.ofNat 32 (r.lane n.toNat l)
        t = { s with dev := { s.dev with regs := t.dev.regs, cp := t.dev.cp, ta := t.dev.ta } } ∧
        t.dev.rd (R.SFT_FP_FLAGS k) = s.dev.rd (R.SFT_FP_FLAGS k) ∧
        ∃ q, (t.dev.sifter k).cur = some q ∧ q = { r.advance 3 with v := q.v } ∧
          (∀ l < 64, BitVec.ofNat 32 (q.lane d.toNat l) = e.2 (L d l) (L a l) (L b l) (L c l)) ∧
          ∀ n < 32, n ≠ d.toNat → ∀ l < 64, q.lane n l = r.lane n l) ∧
      (r.sift.kind = 2 → d.toNat ≤ 15 → a.toNat ≤ 29 → b.toNat ≤ 29 → c.toNat ≤ 29 → Completes e.1 s fun t =>
        let T := fun (n : BitVec 5) => BitVec.ofNat 32 (tineOperand r.block ((List.range 16).map r.temp) r.scal r.elem n.toNat)
        t = { s with dev := { s.dev with regs := t.dev.regs, cp := t.dev.cp } } ∧
        t.dev.rd (R.SFT_FP_FLAGS k) = s.dev.rd (R.SFT_FP_FLAGS k) ∧
        ∃ q, (t.dev.sifter k).cur = some q ∧ q = { r with t := q.t } ∧
          BitVec.ofNat 32 (q.temp d.toNat) = e.2 (T d) (T a) (T b) (T c) ∧ ∀ n < 16, n ≠ d.toNat → q.temp n = r.temp n)

/-- Each floating-point, conversion and table instruction of the sifters gives its rounded result and adds its flags to
FP_FLAGS (spec/08_hoppers_and_sifters.md R156, spec/09_number_formats.md R174, spec/09_number_formats.md R175,
spec/09_number_formats.md R176, spec/09_number_formats.md R178, spec/09_number_formats.md R179, spec/09_number_formats.md
R180, spec/09_number_formats.md R181, spec/09_number_formats.md R182, spec/09_number_formats.md R183,
spec/08_hoppers_and_sifters.md R446). -/
def Obligations.SifterFloatResults : Prop :=
  ∀ (s : State) (k : Fin 4) (d a b c : BitVec 5) (rnd : BitVec 3), s.dev.sy.coldHold = false →
    (∀ r : SiftRun, (s.dev.sifter k).cur = some r → r.finished = false → s.dev.siftRuns k r = true →
      let m := r.sift.strict
      let T := tineOperand r.block ((List.range 16).map r.temp) r.scal r.elem
      let rn := decide (rnd.toNat ≤ 4 ∧ (m = true ∨ rnd = 0))
      let toInt := decide (4 ≤ c.toNat % 8 ∧ c.toNat % 8 ≤ 6)
      let a1 := decide (d.toNat ≤ 15 ∧ a.toNat ≤ 29)
      let a2 := a1 && decide (b.toNat ≤ 29)
      (∀ e ∈ ([(.fadd k d a b rnd, rn, a2, fun A B _ => fAdd m rnd.toNat A B), (.fsub k d a b rnd, rn, a2, fun A B _ => fSub m rnd.toNat A B),
            (.fmul k d a b rnd, rn, a2, fun A B _ => fMul m rnd.toNat A B),
            (.fma k d a b c rnd, rn, a2 && decide (c.toNat ≤ 29), fun A B C => fMa m rnd.toNat A B C),
            (.fmin k d a b, true, a2, fun A B _ => fMin m A B), (.fmax k d a b, true, a2, fun A B _ => fMax m A B),
            (.fabs k d a, true, a1, fun A _ _ => fAbs m A), (.fneg k d a, true, a1, fun A _ _ => fNeg m A),
            (.fdiv k d a b rnd, rn, a2, fun A B _ => fDiv m rnd.toNat A B), (.fsqrt k d a rnd, rn, a1, fun A _ _ => fSqrt m rnd.toNat A),
            (.fcmplt k d a b, true, a2, fun A B _ => fCmpLt m A B), (.fcmpeq k d a b, true, a2, fun A B _ => fCmpEq m A B),
            (.ffin k d a, true, a1, fun A _ _ => ⟨fFin A, 0⟩),
            (.cvt k d a b c rnd, rn && decide (b.toNat % 8 ≤ 6 ∧ c.toNat % 8 ≤ 6), a1,
              fun A _ _ => cvt m rnd.toNat (b.toNat % 8) (c.toNat % 8) A),
            (.qnt k d a b c rnd, rn && toInt, a2, fun A B _ => qnt m rnd.toNat (c.toNat % 8) A B),
            (.dqnt k d a b c rnd, rn && toInt, a2, fun A B _ => dqnt m rnd.toNat (c.toNat % 8) A B)] :
            List (Instr × Bool × Bool × (Nat → Nat → Nat → FRes))),
          (e.2.1 = true → r.sift.kind = 0 → Completes e.1 s fun t =>
            let f := fun l => e.2.2.2 (r.lane a.toNat l) (r.lane b.toNat l) (r.lane c.toNat l)
            t = { s with dev := { s.dev with regs := t.dev.regs, cp := t.dev.cp, ta := t.dev.ta } } ∧
            t.dev.rd (R.SFT_FP_FLAGS k) = (s.dev.rd (R.SFT_FP_FLAGS k) ||| flagsOf (lanes.map f)) % 32 ∧
            (m = false → flagsOf (lanes.map f) = 0) ∧
            ∃ q, (t.dev.sifter k).cur = some q ∧ q = { r.advance 3 with v := q.v } ∧
              (∀ l < 64, q.lane d.toNat l = (f l).val % 2 ^ 32) ∧ ∀ n < 32, n ≠ d.toNat → ∀ l < 64, q.lane n l = r.lane n l) ∧
          (e.2.1 = true → e.2.2.1 = true → r.sift.kind = 2 → Completes e.1 s fun t =>
            let f := e.2.2.2 (T a.toNat) (T b.toNat) (T c.toNat)
            t = { s with dev := { s.dev with regs := t.dev.regs, cp := t.dev.cp } } ∧
            t.dev.rd (R.SFT_FP_FLAGS k) = (s.dev.rd (R.SFT_FP_FLAGS k) ||| f.flags) % 32 ∧ (m = false → f.flags = 0) ∧
            ∃ q, (t.dev.sifter k).cur = some q ∧ q = { r with t := q.t } ∧ q.temp d.toNat = f.val % 2 ^ 32 ∧
              ∀ n < 16, n ≠ d.toNat → q.temp n = r.temp n) ∧
          (r.sift.kind = 0 ∧ e.2.1 = false ∨ r.sift.kind = 2 ∧ (e.2.1 && e.2.2.1) = false →
            exec e.1 s = .next { s with dev := s.dev.failDesc r.trough r.pos stDesc }) ∧
          (r.sift.kind = 1 → exec e.1 s = .next s ∧ exec (.lut k d a b c) s = .next s)) ∧
      (r.sift.kind = 0 ∨ r.sift.kind = 2 ∧ (a2 && decide (c.toNat ≤ 29)) = false →
        exec (.lut k d a b c) s = .next { s with dev := s.dev.failDesc r.trough r.pos stDesc }) ∧
      (∀ o, r.sift.kind = 2 → (a2 && decide (c.toNat ≤ 29)) = true → lutOffset (T a.toNat) (T b.toNat) (T c.toNat) = some o →
        Completes (.lut k d a b c) s fun t => t.pending = s.pending ∧ t.dev.mem = (s.dev.claimLoft k r.stall).mem ∧
          ∃ q, (t.dev.sifter k).cur = some q ∧ q = { r with t := q.t } ∧
            q.temp d.toNat = leNat ((s.dev.claimLoft k r.stall).loftRead k o 4) ∧ ∀ n < 16, n ≠ d.toNat → q.temp n = r.temp n) ∧
      (r.sift.kind = 2 → (a2 && decide (c.toNat ≤ 29)) = true → lutOffset (T a.toNat) (T b.toNat) (T c.toNat) = none →
        exec (.lut k d a b c) s = .next { s with dev := (s.dev.claimLoft k r.stall).failDesc r.trough r.pos stDesc })) ∧
    (∀ (n p q : Nat) (u : Dev), u.jobState n = jobOpen → n < 9 → p < 4 → (u.failDesc (.batch n p) q stDesc).jobState n = jobFaulted ∧
      (u.failDesc (.batch n p) q stDesc).rd (R.STL_JOB_STAT_STATUS n) = stDesc) ∧
    ((∀ r, (s.dev.sifter k).cur = some r → r.finished = true ∨ s.dev.siftRuns k r = false) →
      ∀ e ∈ ([.fadd k d a b rnd, .fsub k d a b rnd, .fmul k d a b rnd, .fma k d a b c rnd, .fmin k d a b, .fmax k d a b, .fabs k d a,
        .fneg k d a, .fdiv k d a b rnd, .fsqrt k d a rnd, .fcmplt k d a b, .fcmpeq k d a b, .ffin k d a, .cvt k d a b c rnd,
        .qnt k d a b c rnd, .dqnt k d a b c rnd, .lut k d a b c] : List Instr), exec e s = .next s) ∧
    ∀ (m : Bool) (g A B C : Nat), g ≤ 4 → A < 2 ^ 32 → B < 2 ^ 32 →
      let V := operand m
      let nv := if m then flagNV else 0
      (∀ s1 m1 e1 s2 m2 e2, V A = .fin s1 m1 e1 → V B = .fin s2 m2 e2 →
        let e := min e1 e2
        let n1 := sgn s1 (m1 * 2 ^ (e1 - e).toNat)
        let n2 := sgn s2 (m2 * 2 ^ (e2 - e).toNat)
        (n1 + n2 ≠ 0 → Delivers m g (decide (n1 + n2 < 0)) (n1 + n2).natAbs e (fAdd m g A B)) ∧
        (n1 - n2 ≠ 0 → Delivers m g (decide (n1 - n2 < 0)) (n1 - n2).natAbs e (fSub m g A B)) ∧
        (m1 * m2 ≠ 0 → Delivers m g (s1 != s2) (m1 * m2) (e1 + e2) (fMul m g A B)) ∧
        (m1 * m2 ≠ 0 → Delivers m g (s1 != s2) (2 * (m1 * 2 ^ 64 / m2) + if m1 * 2 ^ 64 % m2 = 0 then 0 else 1) (e1 - e2 - 65)
          (fDiv m g A B)) ∧
        (m2 = 0 → fDiv m g A B = if m1 = 0 then ⟨0x7FC00000, nv⟩ else ⟨fp32.infPat (s1 != s2), if m then flagDZ else 0⟩) ∧
        (m1 * m2 ≠ 0 → ∀ s3 m3 e3, V C = .fin s3 m3 e3 →
          let e := min (e1 + e2) e3
          let n := sgn (s1 != s2) (m1 * m2 * 2 ^ (e1 + e2 - e).toNat) + sgn s3 (m3 * 2 ^ (e3 - e).toNat)
          n ≠ 0 → Delivers m g (decide (n < 0)) n.natAbs e (fMa m g A B C)) ∧
        (∀ ty, 4 ≤ ty → ty ≤ 6 → ∃ q : Nat, (if e1 + e2 < 0 then RoundsTo g (s1 != s2) (m1 * m2) (-(e1 + e2)).toNat q
            else q = m1 * m2 * 2 ^ (e1 + e2).toNat) ∧
          (qnt m g ty A B).val = ofSigned 32 (clampSigned (tyBits ty) (sgn (s1 != s2) q)))) ∧
      (∀ m1 e1, V A = .fin false m1 e1 → m1 ≠ 0 →
        let h : Nat := if e1 % 2 = 0 then 64 else 65
        ∃ x : Nat, x * x ≤ m1 * 2 ^ h ∧ m1 * 2 ^ h < (x + 1) * (x + 1) ∧
          Delivers m g false (2 * x + if x * x = m1 * 2 ^ h then 0 else 1) ((e1 - (h : Int)) / 2 - 1) (fSqrt m g A)) ∧
      (∀ m1 e1, V A = .fin true m1 e1 → m1 ≠ 0 → fSqrt m g A = ⟨0x7FC00000, nv⟩) ∧
      (∀ s1 m1 e1, V A = .fin s1 m1 e1 → ∃ q : Nat, (if e1 < 0 then RoundsTo g s1 m1 (-e1).toNat q else q = m1 * 2 ^ e1.toNat) ∧
        (cvt m g tyFP32 tyI32 A).val = ofSigned 32 (clampSigned 32 (sgn s1 q))) ∧
      (toSigned 32 A ≠ 0 → Delivers m g (decide (toSigned 32 A < 0)) (toSigned 32 A).natAbs 0 (cvt m g tyI32 tyFP32 A)) ∧
      (∀ ty s2 m2 e2, 4 ≤ ty → ty ≤ 6 → V B = .fin s2 m2 e2 → m2 * (toSigned (tyBits ty) A).natAbs ≠ 0 →
        Delivers m g (s2 != decide (toSigned (tyBits ty) A < 0)) (m2 * (toSigned (tyBits ty) A).natAbs) e2 (dqnt m g ty A B)) ∧
      (∀ s1 s2, V A = .inf s1 → V B = .inf s2 → (s1 ≠ s2 → fAdd m g A B = ⟨0x7FC00000, nv⟩) ∧ fDiv m g A B = ⟨0x7FC00000, nv⟩) ∧
      ((V A).isNan = true ∨ (V B).isNan = true → (fCmpLt m A B).val = 0 ∧ (fCmpEq m A B).val = 0 ∧
        (m = false → ∀ x ∈ [fAdd m g A B, fSub m g A B, fMul m g A B, fDiv m g A B, fMa m g A B C], x = ⟨0x7FC00000, 0⟩)) ∧
      (m = true → fAbs m A = ⟨A % 2 ^ 31, 0⟩ ∧ fNeg m A = ⟨(A + 2 ^ 31) % 2 ^ 32, 0⟩ ∧
        ((V A).isNan = true → (V B).isNan = false → (fMin m A B).val = B ∧ (fMax m A B).val = B) ∧
        ((V A).isNan = false → (V B).isNan = false →
          let less := decide (cmpVals (V A) (V B) = .lt ∨ cmpVals (V A) (V B) = .eq ∧ A.testBit 31 = true)
          fMin m A B = ⟨if less then A else B, 0⟩ ∧ fMax m A B = ⟨if less then B else A, 0⟩)) ∧
      fFin A = if A / 2 ^ 23 % 256 = 255 then 0 else 1

/-- The lane instructions: loads and stores, Loft copies, reductions, permutes, packing, summaries, loops, immediates and
the end (spec/08_hoppers_and_sifters.md R157, spec/08_hoppers_and_sifters.md R158, spec/08_hoppers_and_sifters.md R159,
spec/08_hoppers_and_sifters.md Table 08-7, spec/08_hoppers_and_sifters.md R165). -/
def Obligations.SifterLaneInstructions : Prop :=
  ∀ (s : State) (k : Fin 4) (d a b c : BitVec 5) (r : SiftRun), s.dev.sy.coldHold = false →
    (s.dev.sifter k).cur = some r → r.finished = false → s.dev.siftRuns k r = true → r.sift.kind = 0 →
    let goesOn := fun (t : State) (P : SiftRun → Prop) => t.pending = s.pending ∧ t.dev.tn.rick = s.dev.tn.rick ∧
      ∃ q, (t.dev.sifter k).cur = some q ∧ P q
    (∀ (ty : BitVec 3) (sp : BitVec 1) (bs : List Byte) (e : Dev),
      let i : Ins := ⟨0x40, d.toNat, a.toNat, b.toNat, c.toNat, ty.toNat, sp.toNat⟩
      let n := elemBytes ty.toNat
      ty ≠ 7 → laneRead k i r (r.laneBytes i) s.dev = .ok bs e → Completes (.vld k d a b c ty sp) s fun t => t.dev.mem = e.mem ∧
        goesOn t fun q => q = { r.advance 3 with v := q.v } ∧ (∀ l < 64, q.lane d.toNat l =
          widen ty.toNat (leNat ((bs.drop (n * l)).take n) >>> (r.laneElem i l).2)) ∧
          ∀ m < 32, m ≠ d.toNat → ∀ l < 64, q.lane m l = r.lane m l) ∧
    (∀ (ty : BitVec 3) (sp : BitVec 1) (e : Dev),
      let i : Ins := ⟨0x41, d.toNat, a.toNat, b.toNat, c.toNat, ty.toNat, sp.toNat⟩
      ty ≠ 7 → ty ≠ 6 →
      laneWrite k i r (r.laneBytes i) (lanes.flatMap (fun l => leBytes (elemBytes ty.toNat) (r.lane d.toNat l))) s.dev = .ok () e →
      Completes (.vst k d a b c ty sp) s fun t => t.dev.mem = e.mem ∧ goesOn t fun q => q = r.advance 3) ∧
    (∀ (sp : BitVec 1) (q : SiftRun) (e : Dev), laneVst k ⟨0x41, d.toNat, a.toNat, b.toNat, c.toNat, 6, sp.toNat⟩ r s.dev = .ok q e →
      Completes (.vst k d a b c 6 sp) s fun t => t.dev.mem = e.mem ∧ goesOn t fun q => q = r.advance 3) ∧
    (let len := r.scal c.toNat
     let n := min 256 (len - r.copied)
     let src := progBase r.block (a.toNat % 4) + r.scal b.toNat + r.copied
     let after := { r with copied := if r.copied + n < len then r.copied + n else 0 }
     let goes := fun q => q = if len ≤ r.copied + n then after.advance 3 else after
     len % 64 = 0 → (progBase r.block (a.toNat % 4) + r.scal b.toNat) % 64 = 0 → r.scal d.toNat % 64 = 0 →
      r.scal d.toNat + len ≤ loftEnd →
      (∀ bs e, (s.dev.claimLoft k r.stall).getBytes r.trough src n = .ok bs e → bs.length = n → Completes (.lfill k d a b c) s fun t =>
        goesOn t goes ∧ t.dev.mem.silo = e.mem.silo ∧ t.dev.mem.cellar = e.mem.cellar ∧ t.dev.mem.host = e.mem.host ∧
        (r.copied ≤ len → t.dev.loftRead k (r.scal d.toNat + r.copied) n = bs)) ∧
      (∀ e, (s.dev.claimLoft k r.stall).putBytes r.trough src
          ((s.dev.claimLoft k r.stall).loftRead k (r.scal d.toNat + r.copied) n) = .ok () e →
        Completes (.lspill k d a b c) s fun t => goesOn t goes ∧ t.dev.mem = e.mem)) ∧
    (Completes (.vred k d a 0) s fun t => goesOn t fun q => q = { r.advance 3 with s := q.s } ∧
      q.scal d.toNat = ((lanes.map (r.lane a.toNat)).foldl (· + ·) 0) % 2 ^ 32) ∧
    (∀ big : Bool, Completes (.vred k d a (if big then 1 else 2)) s fun t => goesOn t fun q => q = { r.advance 3 with s := q.s } ∧
      (∃ l < 64, q.scal d.toNat = r.lane a.toNat l) ∧ ∀ l < 64, if big then
        toSigned 32 (r.lane a.toNat l) ≤ toSigned 32 (q.scal d.toNat) else toSigned 32 (q.scal d.toNat) ≤ toSigned 32 (r.lane a.toNat l)) ∧
    (∀ x ∈ ([(3, sumToF r.sift.strict 149 ((lanes.map (fun l => if fpFinite (r.lane a.toNat l) then
            fpUnits r.sift.strict (r.lane a.toNat l) else 0)).foldl (· + ·) 0)),
        (4, lanes.tail.foldl (fun y l => (fMax r.sift.strict y (r.lane a.toNat l)).val) (r.lane a.toNat 0)),
        (5, lanes.tail.foldl (fun y l => (fMin r.sift.strict y (r.lane a.toNat l)).val) (r.lane a.toNat 0))] : List (BitVec 5 × Nat)),
      Completes (.vred k d a x.1) s fun t => goesOn t fun q => q = { r.advance 3 with s := q.s } ∧ q.scal d.toNat = x.2 % 2 ^ 32 ∧
        (r.sift.strict = false → t.dev.rd (R.SFT_FP_FLAGS k) = s.dev.rd (R.SFT_FP_FLAGS k)) ∧
        (r.sift.strict = true → (∃ l < 64, (operand true (r.lane a.toNat l)).signaling = true) → (t.dev.rd (R.SFT_FP_FLAGS k)).testBit 0 = true)) ∧
    (∀ n p, r.trough = .batch n p → n < 9 → s.dev.jobState n = jobOpen → ∀ x ∈ ([(.vred k d a c, decide (5 < c.toNat)),
        (.shuf k d a b c, decide (5 < c.toNat)), (.pack k d a b c, decide (c.toNat % 8 = 7)), (.unpack k d a b c, decide (c.toNat % 8 = 7)),
        (.vld k d a b c 7 0, true), (.vst k d a b c 7 0, true), (.summ k a c 0, decide (c = 0 ∨ 5 < c.toNat))] : List (Instr × Bool)),
      x.2 = true → Completes x.1 s fun t => t.dev.jobState n = jobFaulted ∧ t.dev.rd (R.STL_JOB_STAT_STATUS n) = stDesc) ∧
    (∀ x ∈ ([(.perm k d a b, fun l => r.lane a.toNat (r.lane b.toNat l % 64)),
        (.shuf k d a b 0, fun l => if l % 2 = 0 then r.lane a.toNat (l / 2) else r.lane b.toNat (l / 2)),
        (.shuf k d a b 1, fun l => if l % 2 = 0 then r.lane a.toNat (32 + l / 2) else r.lane b.toNat (32 + l / 2)),
        (.shuf k d a b 2, fun l => if l < 32 then r.lane a.toNat (2 * l) else r.lane b.toNat (2 * (l - 32))),
        (.shuf k d a b 3, fun l => if l < 32 then r.lane a.toNat (2 * l + 1) else r.lane b.toNat (2 * (l - 32) + 1)),
        (.shuf k d a b 4, fun l => r.lane a.toNat (63 - l)), (.shuf k d a b 5, fun l => r.lane a.toNat ((l + b.toNat) % 64)),
        (.pack k d a b c, fun l =>
          let w := tyBits (c.toNat % 8)
          let x := fun j => if j < 64 then r.lane a.toNat j else if j < 128 then r.lane b.toNat (j - 64) else 0
          (List.range (32 / w)).foldr (fun j acc => x (l * (32 / w) + j) % 2 ^ w + 2 ^ w * acc) 0),
        (.unpack k d a b c, fun l =>
          let w := tyBits (c.toNat % 8)
          let j := 64 * b.toNat + l
          if (j + 1) * w ≤ 2048 then widen (c.toNat % 8) (r.lane a.toNat (j * w / 32) >>> (j * w % 32))
          else (Config.freeValue (s.dev.free + l)).toNat % 2 ^ 32)] :
        List (Instr × (Nat → Nat))), c.toNat % 8 ≠ 7 → Completes x.1 s fun t => t.dev.mem = s.dev.mem ∧
      goesOn t fun q => q = { r.advance 3 with v := q.v } ∧ (∀ l < 64, q.lane d.toNat l = x.2 l) ∧
        ∀ m < 32, m ≠ d.toNat → ∀ l < 64, q.lane m l = r.lane m l) ∧
    (∀ f : BitVec 3, f.toNat ≤ 1 → c ≠ 0 → c.toNat ≤ 5 →
      (s.dev.mboxFull = true → exec (.summ k a c f) s = .next s) ∧
      (s.dev.mboxFull = false → Completes (.summ k a c f) s fun t => goesOn t (· = r.advance 3) ∧
        t.dev.rd R.SFT_MBOX_HEAD = (s.dev.rd R.SFT_MBOX_HEAD + 1) % 2 ^ 32 ∧
        t.dev.rd (R.SFT_MBOX (s.dev.rd R.SFT_MBOX_HEAD % 64 * 4)) = mboxWord c.toNat k r.stall f.toNat 0 r.sift.sumId % 2 ^ 32)) ∧
    (∀ (n : BitVec 8) (m : BitVec 16), r.loops.length < 2 → r.pc + n.toNat + 1 < progN r.block →
      (∀ j ≤ n.toNat, (Ins.of (progWord r.block (r.pc + 1 + j))).op ≠ opEnd) → Completes (.loop k n m) s fun t =>
        goesOn t (· = { r with loops := (r.pc + 1, r.pc + n.toNat + 1, m.toNat) :: r.loops, pc := r.pc + 1 })) ∧
    (∀ imm : BitVec 15, Completes (.saddi k d a imm) s fun t => goesOn t fun q => q = { r.advance 3 with s := q.s } ∧
      BitVec.ofNat 32 (q.scal d.toNat) = BitVec.ofNat 32 (r.scal a.toNat) + imm.signExtend 32) ∧
    (∀ y, s.dev.findDesc r.trough r.pos = some y → Completes (.endIns k) s fun t => t.pending = s.pending ∧
      (t.dev.sifter k).cur = none ∧ (t.dev.sifter k).ended = (s.dev.sifter k).ended ++ [{ r with finished := true }] ∧
      t.dev.findDesc r.trough r.pos = some { y with phase := .done } ∧ t.dev.mem = s.dev.mem)

/-- Enabling a loss-scale context, closing a step, and Winnow standing at a block boundary
(spec/10_adaptation_and_training.md R193, spec/10_adaptation_and_training.md R194, spec/10_adaptation_and_training.md R195,
spec/10_adaptation_and_training.md R196, spec/10_adaptation_and_training.md Table 10-4, spec/10_adaptation_and_training.md
R201). -/
def Obligations.LossScaling : Prop :=
  ∀ (s : State), s.dev.sy.coldHold = false →
    (∀ (q : Req) (i : Fin 8) (v : BitVec 32), s.dev.permits q (A.WIN_LS_CFG i) v.toNat →
      let n := i.val + 1
      let m := bits v.toNat 0 2
      let d := (s.dev.storeWord (A.WIN_LS_CFG i) v.toNat).wr (R.WIN_LS_CFG_MODE i) 0
      let w := ((((d.wr (R.WIN_LS_CFG_MODE i) m).wr (R.WIN_LS_EXP_E i) (d.rd (R.WIN_LS_EXP_E0 i))).wr (R.WIN_LS_GROW_CLEAN i) 0).wr
        (R.WIN_LS_STEP_COUNT i) 0).setLossScale n ⟨List.replicate (d.lsNT n) (toSigned 8 (d.rd (R.WIN_LS_EXP_E0 i))),
          List.replicate (d.lsNT n) (List.replicate 16 0), none⟩
      (s.dev.lsMode n ≠ 0 ∨ m = 3 → Completes (.lossScaleEnable q i v) s fun t =>
        Counted s t 6 6 (A.WIN_LS_CFG i % 4096) q causeValue) ∧
      (s.dev.lsMode n = 0 → m = 0 → Completes (.lossScaleEnable q i v) s fun t => OnlyRegs s t [A.WIN_LS_CFG i] ∧
        t.dev.rd (R.WIN_LS_CFG_MODE i) = 0 ∧ t.dev.rd (R.WIN_LS_CFG_HEADROOM i) = bits v.toNat 4 2 ∧
        t.dev.rd (R.WIN_LS_CFG_NT i) = bits v.toNat 16 11) ∧
      (s.dev.lsMode n = 0 → (m = 1 ∨ m = 2) → d.lsAccepts n = false → Completes (.lossScaleEnable q i v) s fun t =>
        OnlyRegs s t [A.WIN_LS_CFG i, A.WIN_LS_STAT i] ∧ t.dev.rd (R.WIN_LS_CFG_MODE i) = 0 ∧ t.dev.rd (R.WIN_LS_STAT_BAD i) = 1) ∧
      (∀ e : Dev, s.dev.lsMode n = 0 → (m = 1 ∨ m = 2) → d.lsAccepts n = true →
        w.writeLsTable n false = some e →
        Completes (.lossScaleEnable q i v) s fun t => t.pending = s.pending ∧ t.dev.mem = e.mem ∧
          t.dev.rd (R.WIN_LS_CFG_MODE i) = m ∧ t.dev.rd (R.WIN_LS_EXP_E i) = s.dev.rd (R.WIN_LS_EXP_E0 i) ∧
          t.dev.rd (R.WIN_LS_GROW_CLEAN i) = 0 ∧ t.dev.rd (R.WIN_LS_STEP_COUNT i) = 0 ∧
          (s.dev.wraps (s.dev.lsReady n) 1 = false → ∀ c, t.dev.ctr c = s.dev.ctr c + if c = s.dev.lsReady n then 1 else 0)) ∧
      (s.dev.lsMode n = 0 → (m = 1 ∨ m = 2) → d.lsAccepts n = true → w.writeLsTable n false = none →
        Completes (.lossScaleEnable q i v) s fun t => t = { s with dev := w.owe (.lossScale n) } ∧ t.dev.lsMode n = m)) ∧
    (∀ n : Fin 9, (s.dev.lossScale n).notice = none ∨ s.dev.sy.mode ≠ .image → exec (.stepClose n) s = .next s) ∧
    (∀ (n : Fin 9) (k : Nat), n ≠ 0 → (s.dev.lossScale n).notice = some k → s.dev.lsMode n ≠ 0 → s.dev.sy.mode = .image →
      let i := n.val - 1
      let d := if postedBefore (s.dev.rd R.SFT_MBOX_TAIL) k then s.dev.drainTo k else s.dev
      let skip := (d.stepEntries n k).any MEntry.bad
      ∀ e, ((d.dropEntries n k).closeStep n skip (d.stepEntries n k)).writeLsTable n skip = some e → Completes (.stepClose n) s fun t =>
        t.pending = s.pending ∧ t.dev.mem = e.mem ∧
        t.dev.rd (R.WIN_LS_STEP_COUNT i) = (s.dev.rd (R.WIN_LS_STEP_COUNT i) + 1) % 2 ^ 32 ∧
        t.dev.rd (R.WIN_LS_SKIP_COUNT i) = (if skip then min (s.dev.rd (R.WIN_LS_SKIP_COUNT i) + 1) maxWord
          else s.dev.rd (R.WIN_LS_SKIP_COUNT i)) ∧
        (s.dev.lsMode n = 1 →
          let grow := s.dev.rd (R.WIN_LS_GROW_CLEAN i) + 1 = s.dev.rd (R.WIN_LS_GROW_GROW_STEPS i)
          t.dev.lsE n = (if skip then max (s.dev.lsMin n) (s.dev.lsE n - 1)
            else if grow then min (s.dev.lsMax n) (s.dev.lsE n + 1) else s.dev.lsE n) ∧
          t.dev.rd (R.WIN_LS_GROW_CLEAN i) = if skip ∨ grow then 0 else (s.dev.rd (R.WIN_LS_GROW_CLEAN i) + 1) % 2 ^ 16) ∧
        (s.dev.wraps (s.dev.lsReady n) 1 = false → ∀ c, t.dev.ctr c = s.dev.ctr c + if c = s.dev.lsReady n then 1 else 0)) ∧
    (s.dev.paused = false → exec .winnowPause s = .next s) ∧
    (s.dev.paused = true → Completes .winnowPause s fun t => SameWords s t [A.WIN_STAT] ∧
      t.dev.wn.win = s.dev.wn.win.map (fun r => { r with held := true }) ∧
      t = { s with dev := { s.dev with regs := t.dev.regs, wn := { s.dev.wn with win := t.dev.wn.win } } })

/-- INTERLEAVE, a bank zeroing itself, the patrol scrubber, and a batch MOVE that yields and resumes
(spec/12_silo_turner_and_cellar.md R217, spec/12_silo_turner_and_cellar.md R219, spec/12_silo_turner_and_cellar.md R220,
spec/12_silo_turner_and_cellar.md R221, spec/12_silo_turner_and_cellar.md R224, spec/12_silo_turner_and_cellar.md R230). -/
def Obligations.SiloBanks : Prop :=
  ∀ (s : State), s.dev.sy.coldHold = false →
    (∀ (q : Req) (v : BitVec 32), s.dev.permits q A.SIL_INTERLEAVE v.toNat →
      let m := bits v.toNat 0 2
      (m = 3 ∨ s.dev.siloUnused = false → Completes (.interleaveWrite q v) s fun t =>
        Counted s t 0x60 0x60 (A.SIL_INTERLEAVE % 4096) q causeValue) ∧
      (m ≠ 3 → s.dev.siloUnused = true → m = s.dev.rd R.SIL_INTERLEAVE_MODE → exec (.interleaveWrite q v) s = .next s) ∧
      (m ≠ 3 → s.dev.siloUnused = true → m ≠ s.dev.rd R.SIL_INTERLEAVE_MODE → Completes (.interleaveWrite q v) s fun t =>
        t = { s with dev := { s.dev with regs := t.dev.regs, mem := { s.dev.mem with bankPend := List.range 16 } } } ∧
        SameWords s t [A.SIL_INTERLEAVE] ∧ t.dev.rd R.SIL_INTERLEAVE_MODE = m)) ∧
    (∀ b : Fin 16, (b.val ∉ s.dev.mem.bankPend → exec (.bankZeroDone b) s = .next { s with dev := s.dev.payOwed }) ∧
      (b.val ∈ s.dev.mem.bankPend → s.dev.coreOn = true → Completes (.bankZeroDone b) s fun t =>
        ∃ u : Dev, t = { s with dev := u.payOwed } ∧ u = { s.dev with mem := u.mem } ∧
        u.mem.bankPend = s.dev.mem.bankPend.filter (· ≠ b.val) ∧
        (∀ a, u.peek (.silo a) = if s.dev.bankOf a = b then 0 else s.dev.peek (.silo a)) ∧
        (∀ w, u.eccOf w = if s.dev.bankOf (8 * w) = b then none else s.dev.eccOf w) ∧
        u.mem.cellar = s.dev.mem.cellar ∧ u.mem.host = s.dev.mem.host ∧ u.mem.loft = s.dev.mem.loft)) ∧
    (∀ b : Fin 16, s.dev.rd (R.SIL_SCRUB_INT b) ≠ 0 → s.dev.coreOn = true → s.dev.domOn (24 + b.val) = true →
      b.val ∉ s.dev.mem.bankPend →
      let l := s.dev.mem.scrubLine.get (fun _ => 0) b
      let ws := (List.range 16).map (fun i => s.dev.bankAddr b (128 * l + 8 * i) / 8)
      Completes (.scrubLine b) s fun t =>
        t = { s with dev := { s.dev with regs := t.dev.regs, mem := t.dev.mem } } ∧
        t.dev.mem = { s.dev.mem with ecc := t.dev.mem.ecc, scrubLine := t.dev.mem.scrubLine } ∧
        t.dev.mem.scrubLine.get (fun _ => 0) b = (l + 1) % 32768 ∧
        ∀ w, t.dev.eccOf w = if w ∈ ws ∧ s.dev.eccOf w = some .ce then none else s.dev.eccOf w) ∧
    (∀ (c : Fin 4) (k : BitVec 16) (tr : TroughId) (p : Nat), s.dev.coreOn = true → (s.dev.channel c).cur = some (tr, p) →
      tr.rt = none → (s.dev.channel c).held = none → s.dev.moveHeldBack c = true →
      (∀ y, s.dev.findDesc tr p = some y → y.aux = 0) →
      (160 < k.toNat → exec (.moveYield c k) s = .next s) ∧
      (k.toNat ≤ 160 → Completes (.moveYield c k) s fun t =>
        t = { s with dev := { s.dev with regs := t.dev.regs, tr := t.dev.tr } } ∧ t.dev.channel c = ⟨none, some (tr, p)⟩ ∧
        t.dev.rd (R.TRN_CH_STAT_STATE c) = 2 ∧
        t.dev.rd (R.TRN_CH_YIELD_COUNT c) = min (s.dev.rd (R.TRN_CH_YIELD_COUNT c) + 1) maxWord ∧
        t.dev.rd R.TRN_YIELD_LAT_MAX_CYC = max k.toNat (s.dev.rd R.TRN_YIELD_LAT_MAX_CYC))) ∧
    (∀ (c : Fin 4) (tr : TroughId) (p : Nat) (y : Desc), (s.dev.channel c).held = some (tr, p) → (s.dev.channel c).cur = none →
      s.dev.findDesc tr p = some y →
      (s.dev.moveHeldBack c = true → exec (.moveResume c) s = .next s) ∧
      (s.dev.moveHeldBack c = false → s.dev.coreOn = true → s.dev.domOn 61 = true → Completes (.moveResume c) s fun t =>
        t = { s with dev := { s.dev with regs := t.dev.regs, tr := t.dev.tr } } ∧ t.dev.channel c = ⟨some (tr, p), none⟩ ∧
        t.dev.rd (R.TRN_CH_STAT_STATE c) = 1 ∧ t.dev.rd (R.TRN_CH_DONE c) = y.prog % 2 ^ 64))

/-- An extent is written if it fits, and exactly the granules whose owner changes wait to be zeroed; CEL.CFG and training
(spec/12_silo_turner_and_cellar.md R222, spec/12_silo_turner_and_cellar.md R223, spec/12_silo_turner_and_cellar.md R233,
spec/12_silo_turner_and_cellar.md R236, spec/12_silo_turner_and_cellar.md Table 12-5). -/
def Obligations.ExtentsAndCellar : Prop :=
  ∀ (s : State), s.dev.sy.coldHold = false →
    (∀ (q : Req) (n x : Fin 8) (v : BitVec 32),
      let i := n.val * 8 + x.val
      (s.dev.permits q (A.SIL_EXTENT i) v.toNat →
        let e := (bits v.toNat 0 10, bits v.toNat 16 11)
        (s.dev.extentFits false (n.val + 1) x e = false → Completes (.extentWrite q false n x v) s fun t =>
          Counted s t 0x60 0x60 (A.SIL_EXTENT i % 4096) q causeValue) ∧
        (s.dev.extentFits false (n.val + 1) x e = true → Completes (.extentWrite q false n x v) s fun t =>
          t = { s with dev := { s.dev with regs := t.dev.regs, mem := { s.dev.mem with siloPend := t.dev.mem.siloPend } } } ∧
          SameWords s t [A.SIL_EXTENT i, A.SIL_ZERO_PEND] ∧ t.dev.rd (R.SIL_EXTENT_BASE i) = e.1 ∧ t.dev.rd (R.SIL_EXTENT_COUNT i) = e.2 ∧
          (∀ g, g ∈ t.dev.mem.siloPend ↔ g ∈ s.dev.mem.siloPend ∨ t.dev.siloOwner g ≠ s.dev.siloOwner g) ∧
          t.dev.rd R.SIL_ZERO_PEND_COUNT = t.dev.mem.siloPend.length % 2 ^ 11)) ∧
      (s.dev.permits q (A.CEL_EXTENT i) v.toNat →
        let e := (bits v.toNat 0 16, bits v.toNat 16 16)
        (s.dev.extentFits true (n.val + 1) x e = false → Completes (.extentWrite q true n x v) s fun t =>
          Counted s t 8 8 (A.CEL_EXTENT i % 4096) q causeValue) ∧
        (s.dev.extentFits true (n.val + 1) x e = true → Completes (.extentWrite q true n x v) s fun t =>
          t = { s with dev := { s.dev with regs := t.dev.regs, mem := { s.dev.mem with celPend := t.dev.mem.celPend } } } ∧
          SameWords s t [A.CEL_EXTENT i, A.CEL_ZERO_PEND] ∧ t.dev.rd (R.CEL_EXTENT_BASE i) = e.1 ∧ t.dev.rd (R.CEL_EXTENT_COUNT i) = e.2 ∧
          (∀ g, g ∈ t.dev.mem.celPend ↔ g ∈ s.dev.mem.celPend ∨ t.dev.celOwner g ≠ s.dev.celOwner g)))) ∧
    (∀ g : BitVec 16,
      let same := fun u : Dev => { s with dev := u }
      (g.toNat ∉ s.dev.mem.siloPend → exec (.granuleZeroDone false g) s = .next (same s.dev.payOwed)) ∧
      (g.toNat ∈ s.dev.mem.siloPend → s.dev.coreOn = true → Completes (.granuleZeroDone false g) s fun t => ∃ u, t = same u.payOwed ∧
        u = { s.dev with regs := u.regs, mem := u.mem } ∧ SameWords s (same u) [A.SIL_ZERO_PEND] ∧
        u.mem.siloPend = s.dev.mem.siloPend.filter (· ≠ g.toNat) ∧
        (∀ a, u.peek (.silo a) = if a / siloGranule = g.toNat then 0 else s.dev.peek (.silo a)) ∧
        u.mem.cellar = s.dev.mem.cellar ∧ u.mem.host = s.dev.mem.host ∧ u.mem.celPend = s.dev.mem.celPend) ∧
      (g.toNat ∉ s.dev.mem.celPend → exec (.granuleZeroDone true g) s = .next (same s.dev.payOwed)) ∧
      (g.toNat ∈ s.dev.mem.celPend → s.dev.on R.CEL_STAT_TRAINED = true → Completes (.granuleZeroDone true g) s fun t =>
        ∃ u, t = same u.payOwed ∧ u = { s.dev with regs := u.regs, mem := u.mem } ∧ SameWords s (same u) [A.CEL_ZERO_PEND] ∧
        u.mem.celPend = s.dev.mem.celPend.filter (· ≠ g.toNat) ∧
        (∀ a, u.peek (.cellar a) = if a / cellarGranule = g.toNat then 0 else s.dev.peek (.cellar a)) ∧
        u.mem.silo = s.dev.mem.silo ∧ u.mem.host = s.dev.mem.host ∧ u.mem.siloPend = s.dev.mem.siloPend)) ∧
    (s.dev.pairOn = true → Completes .cellarTrained s fun t => SameWords s t [A.CEL_STAT] ∧ t.dev.rd R.CEL_STAT_TRAINED = 1 ∧
      t = { s with dev := { s.dev with
        regs := t.dev.regs, free := s.dev.free + 8, mem := { s.dev.mem with training := t.dev.mem.training } } } ∧
      t.dev.mem.training.length = 8) ∧
    (s.dev.pairOn = false → exec .cellarTrained s = .next s) ∧
    (∀ (q : Req) (v : BitVec 32), s.dev.permits q A.CEL_CFG v.toNat →
      let bad := s.dev.on R.CEL_STAT_TRAINED = true ∨ 4 < bits v.toNat 0 3 ∨ bits v.toNat 4 2 = 3
      (bad → Completes (.celCfgWrite q v) s fun t => Counted s t 8 8 (A.CEL_CFG % 4096) q causeValue) ∧
      (¬bad → Completes (.celCfgWrite q v) s fun t => OnlyRegs s t [A.CEL_CFG, A.CEL_SIZE] ∧
        t.dev.rd R.CEL_CFG_DENS = bits v.toNat 0 3 ∧ t.dev.rd R.CEL_CFG_RATE = bits v.toNat 4 2 ∧
        t.dev.rd R.CEL_SIZE_MIB = 8 * bits v.toNat 0 3))

/-- Each GSR call checks its arguments in the order of R242 and returns its code and result
(spec/19_faults_resets_and_restart.md R391, spec/13_granary_flash.md R240, spec/13_granary_flash.md R242,
spec/13_granary_flash.md R243, spec/13_granary_flash.md R244, spec/13_granary_flash.md R245, spec/13_granary_flash.md R247,
spec/13_granary_flash.md R248, spec/13_granary_flash.md R251, spec/13_granary_flash.md R253, spec/13_granary_flash.md Table
13-2, spec/13_granary_flash.md Table 13-3). -/
def Obligations.GranaryCalls : Prop :=
  ∀ (s : State), s.dev.sy.coldHold = false →
    (s.dev.gsrRuns = false → (s.dev.sy.mode = .inReset ∨ s.dev.sy.priv = 3) → ∀ i (c : Instr), (c = .info i ∨ c = .erasePoll i ∨ (∃ a x f k p, c = .program a x f k p i) ∨
      (∃ a n, c = .eraseStart a n i) ∨ (∃ a, c = .verifyErased a i) ∨ (∃ x a n f, c = .xoSet x a n f i) ∨
      (∃ w a p l f, c = .winSet w a p l f i)) → exec c s = .next s) ∧
    (s.dev.sy.mode ≠ .inReset → s.dev.sy.priv ≠ 3 → ∀ i (c : Instr), (c = .info i ∨ c = .erasePoll i ∨
      (∃ a x f k p, c = .program a x f k p i) ∨ (∃ a n, c = .eraseStart a n i) ∨ (∃ a, c = .verifyErased a i) ∨
      (∃ x a n f, c = .xoSet x a n f i) ∨ (∃ w a p l f, c = .winSet w a p l f i)) → Completes c s fun t =>
        t = { s with dev := { s.dev with sy := t.dev.sy } } ∧ t.dev.csr 0x341 = 0x100 ∧ t.dev.csr 0x342 = 1 ∧
        t.dev.csr 0x343 = 0x100 ∧ t.dev.sy.pc = s.dev.csr 0x305 / 4 * 4 ∧ t.dev.sy.priv = 3 ∧ t.dev.sy.x = s.dev.sy.x) ∧
    (s.dev.gsrRuns = true → ∀ c : Instr, (c = .info false ∨ c = .erasePoll false ∨ (∃ a x f k p, c = .program a x f k p false) ∨
      (∃ a n, c = .eraseStart a n false) ∨ (∃ a, c = .verifyErased a false) ∨ (∃ x a n f, c = .xoSet x a n f false) ∨
      (∃ w a p l f, c = .winSet w a p l f false)) → Completes c s fun t =>
        t = { s with dev := s.dev.warmReset 4 } ∧ t.dev.rd R.SYS_RESET_CAUSE = 4) ∧
    (s.dev.gsrRuns = true →
      (Completes (.info true) s fun t => SameFlash s t ∧
        if s.dev.gOn then CallReturns s t gOk (Config.gsrEpoch.toNat + 32752 * 65536) else CallReturns s t gBusy 0) ∧
      (∀ (addr : BitVec 32) (x : BitVec 64) (fails : Bool) (corr : Fin 3) (partner : GPartner),
        Completes (.program addr x fails corr partner true) s fun t =>
          match s.dev.gPhys addr.toNat with
          | none => CallReturns s t gBadArg 0 ∧ SameFlash s t
          | some p =>
            let w := p / 8
            let q := gPartner w
            if addr.toNat % 8 ≠ 0 then CallReturns s t gBadArg 0 ∧ SameFlash s t
            else if s.dev.gForbidden (p / 4096) then CallReturns s t gProtected 0 ∧ SameFlash s t
            else if s.dev.erasing ∨ s.dev.gOn = false then CallReturns s t gBusy 0 ∧ SameFlash s t
            else if (s.dev.gword w).isErased = false then CallReturns s t gNotErased 0 ∧ SameFlash s t
            else if gUpper w = false ∧ (s.dev.gword q).isErased = false then CallReturns s t gPairOrder 0 ∧ SameFlash s t
            else if x.toNat = 2 ^ 64 - 1 then
              CallReturns s t gOk (if gUpper w then (s.dev.gword q).corr else 0) ∧ SameFlash s t
            else
              CallReturns s t (if fails then gProgramFail
                else if gUpper w ∧ (t.dev.gword q).isBad then gPairLost
                else if gUpper w ∧ s.dev.rd R.GRN_CFG_ECC_WARN_THRESH < (t.dev.gword q).corr then gWarnPair
                else gOk) (if gUpper w then (t.dev.gword q).corr else 0) ∧
              t.dev.regs = s.dev.regs ∧ t.dev.ta = s.dev.ta ∧
              (fails = false → t.dev.gword w = .prog x corr.val) ∧
              (fails = true → (t.dev.gword w).isErased = false ∧ ∀ k, t.dev.gword w ≠ .prog x k) ∧
              t.dev.gword q = (if gUpper w then (s.dev.gword q).disturb partner else s.dev.gword q) ∧
              (∀ y, y ≠ w → y ≠ q → t.dev.gword y = s.dev.gword y) ∧
              (∀ l, (l ∈ t.dev.gr.prefetch ↔ l ∈ s.dev.gr.prefetch ∧ l / 128 ≠ p / 4096) ∧
                (l ∈ t.dev.gr.bcache ↔ l ∈ s.dev.gr.bcache ∧ l / 128 ≠ p / 4096))) ∧
      (∀ addr n : BitVec 32, Completes (.eraseStart addr n true) s fun t =>
        match s.dev.gPhys addr.toNat with
        | none => CallReturns s t gBadArg 0 ∧ SameFlash s t
        | some p =>
          if addr.toNat % 4096 ≠ 0 ∨ 8 < n.toNat then CallReturns s t gBadArg 0 ∧ SameFlash s t
          else if s.dev.gForbidden (p / 4096) then CallReturns s t gProtected 0 ∧ SameFlash s t
          else if s.dev.erasing ∨ s.dev.gOn = false then CallReturns s t gBusy 0 ∧ SameFlash s t
          else
            CallReturns s t gOk (p / 4096) ∧ SameWords s t [A.GRN_ERASE_STAT, A.GRN_ERASE_SUSP] ∧
            t.dev.rd R.GRN_ERASE_STAT_SECTOR = p / 4096 ∧ t.dev.rd R.GRN_ERASE_STAT_STATE = 1 ∧
            t.dev.rd R.GRN_ERASE_STAT_SUSPENDED = 0 ∧ t.dev.rd R.GRN_ERASE_SUSP_US = 0 ∧
            t.dev.rd R.GRN_ERASE_STAT_ABORTED = s.dev.rd R.GRN_ERASE_STAT_ABORTED ∧ t.dev.gr.words = s.dev.gr.words ∧
            t.dev.gr.eraseStall = n.toNat ∧
            t.dev.gr.eraseWin = (if gView addr.toNat ∧ (gWindow addr.toNat).2 = 0 then some (gWindow addr.toNat).1 else none) ∧
            t.dev.ta = { s.dev.ta with pend := t.dev.ta.pend } ∧
            ∀ k, t.dev.ta.pend.get (fun _ => 0) k =
              s.dev.ta.pend.get (fun _ => 0) k + if k = n.toNat * 4 + cntErase then 1 else 0) ∧
      (Completes (.erasePoll true) s fun t => t.dev.gr = s.dev.gr ∧ t.dev.ta = s.dev.ta ∧
        if s.dev.gOn then
          CallReturns s t gOk (s.dev.rd R.GRN_ERASE_STAT_STATE) ∧ SameWords s t [A.GRN_ERASE_STAT] ∧
          t.dev.rd R.GRN_ERASE_STAT_STATE = (if s.dev.rd R.GRN_ERASE_STAT_STATE = 1 then 1 else 0) ∧
          t.dev.rd R.GRN_ERASE_STAT_SECTOR = s.dev.rd R.GRN_ERASE_STAT_SECTOR ∧
          t.dev.rd R.GRN_ERASE_STAT_ABORTED = s.dev.rd R.GRN_ERASE_STAT_ABORTED
        else CallReturns s t gBusy 0 ∧ t.dev.regs = s.dev.regs) ∧
      (∀ addr : BitVec 32, Completes (.verifyErased addr true) s fun t => SameFlash s t ∧
        match s.dev.gPhys addr.toNat with
        | none => CallReturns s t gBadArg 0
        | some p =>
          if addr.toNat % 4096 ≠ 0 then CallReturns s t gBadArg 0
          else if gReserved ≤ p / 4096 then CallReturns s t gProtected 0
          else if s.dev.erasing ∨ s.dev.gOn = false then CallReturns s t gBusy 0
          else CallReturns s t gOk
            ((List.range 512).countP (fun i => !(s.dev.gword (512 * (p / 4096) + i)).isErased))) ∧
      (∀ x first count flags : BitVec 32, Completes (.xoSet x first count flags true) s fun t =>
        t.dev.gr = s.dev.gr ∧ t.dev.ta = s.dev.ta ∧
        if 7 < x.toNat ∨ 32768 < first.toNat + count.toNat ∨ 32768 ≤ first.toNat ∨ 7 < flags.toNat then
          CallReturns s t gBadArg 0 ∧ t.dev.regs = s.dev.regs
        else if 32752 < first.toNat + count.toNat ∨ s.dev.on (R.GRN_XO_COUNT_LOCK x.toNat) then
          CallReturns s t gProtected 0 ∧ t.dev.regs = s.dev.regs
        else if s.dev.gOn = false then CallReturns s t gBusy 0 ∧ t.dev.regs = s.dev.regs
        else
          CallReturns s t gOk 0 ∧ SameWords s t [A.GRN_XO_BASE x.toNat, A.GRN_XO_COUNT x.toNat] ∧
          t.dev.rd (R.GRN_XO_BASE_SECTOR x.toNat) = first.toNat ∧ t.dev.rd (R.GRN_XO_COUNT x.toNat) = count.toNat ∧
          t.dev.on (R.GRN_XO_COUNT_EN x.toNat) = flags.toNat.testBit 0 ∧
          t.dev.on (R.GRN_XO_COUNT_WRITABLE x.toNat) = flags.toNat.testBit 1 ∧
          t.dev.on (R.GRN_XO_COUNT_LOCK x.toNat) = flags.toNat.testBit 2) ∧
      (∀ w first phys l flags : BitVec 32, Completes (.winSet w first phys l flags true) s fun t =>
        t.dev.gr = s.dev.gr ∧ t.dev.ta = s.dev.ta ∧
        let n := w.toNat
        if 3 < n ∨ 1 < flags.toNat then CallReturns s t gBadArg 0 ∧ t.dev.regs = s.dev.regs
        else if flags = 1 ∧ (l = 0 ∨ 8191 < l.toNat ∨ phys.toNat < l.toNat + 1 ∨ 8192 < phys.toNat ∨
            32768 < first.toNat + phys.toNat ∨ s.dev.on (R.GRN_WIN_L_EN n) ∨
            gWindows.any (fun v => s.dev.winMeets v first.toNat phys.toNat)) then
          CallReturns s t gBadArg 0 ∧ t.dev.regs = s.dev.regs
        else if flags = 1 ∧ (32752 < first.toNat + phys.toNat ∨
            xoRegions.any (fun x => s.dev.xoMeets x first.toNat phys.toNat && s.dev.on (R.GRN_XO_COUNT_LOCK x))) then
          CallReturns s t gProtected 0 ∧ t.dev.regs = s.dev.regs
        else if s.dev.erasing ∨ s.dev.gOn = false then CallReturns s t gBusy 0 ∧ t.dev.regs = s.dev.regs
        else
          CallReturns s t gOk 0 ∧ SameWords s t [A.GRN_WIN_FIRST n, A.GRN_WIN_P n, A.GRN_WIN_L n, A.GRN_WIN_BASE n] ∧
          t.dev.rd (R.GRN_WIN_FIRST_SECTOR n) = (if flags = 1 then first.toNat else 0) ∧
          t.dev.rd (R.GRN_WIN_P n) = (if flags = 1 then phys.toNat else 0) ∧
          t.dev.rd (R.GRN_WIN_L n) = (if flags = 1 then l.toNat else 0) ∧
          t.dev.on (R.GRN_WIN_L_EN n) = decide (flags = 1) ∧ t.dev.rd (R.GRN_WIN_BASE n) = 0))

/-- How an erase ends, what a read returns and counts, and what a loss of the supply leaves (spec/13_granary_flash.md R238,
spec/13_granary_flash.md R247, spec/13_granary_flash.md R249, spec/13_granary_flash.md R252, spec/13_granary_flash.md R253,
spec/13_granary_flash.md R255, spec/13_granary_flash.md R256, spec/13_granary_flash.md R258, spec/13_granary_flash.md Table
13-7). -/
def Obligations.GranaryEraseReadLoss : Prop :=
  ∀ (s : State),
    (s.dev.sy.coldHold = false →
      (∀ done : Bool,
        (s.dev.erasing = false ∨ s.dev.on R.GRN_ERASE_STAT_SUSPENDED = true ∨ s.dev.gOn = false →
          exec (.eraseEnd done) s = .next { s with dev := s.dev.settleEntry }) ∧
        (s.dev.erasing = true → s.dev.on R.GRN_ERASE_STAT_SUSPENDED = false → s.dev.gOn = true →
          let sec := s.dev.rd R.GRN_ERASE_STAT_SECTOR
          let moves := if done then s.dev.gr.eraseWin else none
          Completes (.eraseEnd done) s fun t => ∃ u : Dev, t = { s with dev := u.settleEntry } ∧
            u = { s.dev with regs := u.regs, gr := u.gr, free := u.free } ∧
            u.rd R.GRN_ERASE_STAT_STATE = (if done then 2 else 3) ∧ u.rd R.GRN_ERASE_STAT_SECTOR = sec ∧
            (u.rd (R.PIRQ_RAW 9)).testBit 3 = true ∧
            (∀ w, w / 512 = sec → done = true → u.gword w = .erased 0) ∧
            (∀ w, w / 512 = sec → done = false → u.gword w = .erased 0 ∨ u.gword w = s.dev.gword w ∨ u.gword w = .bad) ∧
            (∀ w, w / 512 ≠ sec → u.gword w = s.dev.gword w) ∧
            (∀ x : Fin 4, u.rd (R.GRN_WIN_BASE x) = if moves = some x.val then
              (s.dev.rd (R.GRN_WIN_BASE x) + 1) % max 1 (s.dev.rd (R.GRN_WIN_P x)) % 2 ^ 13 else s.dev.rd (R.GRN_WIN_BASE x)))) ∧
      (∀ us : BitVec 32,
        (s.dev.erasing = false ∨ s.dev.on R.GRN_ERASE_STAT_SUSPENDED = false ∨ s.dev.gOn = false →
          exec (.eraseResume us) s = .next s) ∧
        (s.dev.erasing = true → s.dev.on R.GRN_ERASE_STAT_SUSPENDED = true → s.dev.gOn = true →
          Completes (.eraseResume us) s fun t => OnlyRegs s t [A.GRN_ERASE_STAT, A.GRN_ERASE_SUSP] ∧ t.dev.erasing = true ∧
            t.dev.rd R.GRN_ERASE_STAT_SUSPENDED = 0 ∧
            t.dev.rd R.GRN_ERASE_SUSP_US = min (s.dev.rd R.GRN_ERASE_SUSP_US + us.toNat) maxWord)) ∧
      (∀ (who : GReader) (addr : BitVec 32),
        let a := addr.toNat / 32 * 32
        (s.dev.gOn = false → (who = .load ∨ ∃ b, who = .fetch b) → Completes (.granaryRead who addr) s fun t =>
          t = { s with dev := { s.dev with sy := t.dev.sy } } ∧ t.dev.csr 0x341 = s.dev.sy.pc % 2 ^ 64 ∧
          t.dev.csr 0x342 = (if who = .load then 5 else 1) ∧ t.dev.csr 0x343 = 0x20000000 + a ∧
          t.dev.sy.pc = s.dev.csr 0x305 / 4 * 4 ∧ t.dev.sy.priv = 3) ∧
        (s.dev.gOn = false → who = .loop → s.dev.loopRun = none → exec (.granaryRead who addr) s = .next s) ∧
        (∀ tr pos, s.dev.gOn = false → who = .loop → s.dev.loopRun = some (tr, pos) → Completes (.granaryRead who addr) s fun t =>
          t = { s with dev := s.dev.failDesc tr pos stEcc }) ∧
        (s.dev.gOn = true → s.dev.gr.ready = false → exec (.granaryRead who addr) s = .next s) ∧
        (s.dev.gOn = true → s.dev.gr.ready = true →
          (match s.dev.gPhys a with
            | none => True
            | some p => s.dev.gReadable who a (p / 4096) = false) → Completes (.granaryRead who addr) s fun t =>
          t = { s with dev := { s.dev with regs := t.dev.regs, bus := { s.dev.bus with rdata := 0 } } } ∧
          t.dev.rd R.GRN_PROT_COUNT = min (s.dev.rd R.GRN_PROT_COUNT + 1) maxWord ∧ t.dev.rd R.GRN_PROT_ADDR = a ∧
          (t.dev.rd (R.PIRQ_RAW 9)).testBit 2 = true) ∧
        (∀ p, s.dev.gOn = true → s.dev.gr.ready = true → s.dev.gPhys a = some p → s.dev.gReadable who a (p / 4096) = true →
          s.dev.erasing = false →
          let xs := [0, 1, 2, 3].map (fun i => s.dev.gword (4 * (p / 32) + i))
          (∀ x ∈ xs, x.isBad = false) → Completes (.granaryRead who addr) s fun t =>
            t = { s with dev := { s.dev with regs := t.dev.regs, gr := t.dev.gr, bus := { s.dev.bus with rdata := t.dev.bus.rdata } } } ∧
            t.dev.bus.rdata = leNat (xs.flatMap (fun x => leBytes 8 x.value)) ∧ t.dev.gr.words = s.dev.gr.words ∧
            (who = .load ∨ who = .loop → t.dev.gr = s.dev.gr ∧
            t.dev.rd R.GRN_CORR_BITS = (s.dev.rd R.GRN_CORR_BITS + (xs.map GWord.corr).sum) % 2 ^ 64 ∧
            t.dev.rd R.GRN_WARN_COUNT = min (s.dev.rd R.GRN_WARN_COUNT +
              (xs.filter (fun x => decide (s.dev.rd R.GRN_CFG_ECC_WARN_THRESH < x.corr))).length) maxWord ∧
            t.dev.rd R.GRN_UE_COUNT = s.dev.rd R.GRN_UE_COUNT ∧
            t.dev.rd (if who = .load then R.GRN_STW_LAST_LINE else R.GRN_LOOP_LAST_LINE) = a / 32 % 2 ^ 24))) ∧
      (s.dev.gOn = true → Completes .granaryReady s fun t =>
        t = { s with dev := { s.dev with gr := { s.dev.gr with ready := true } } }) ∧
      (s.dev.gOn = false → exec .granaryReady s = .next s)) ∧
    (∀ op : GOp, Completes (.powerLoss op) s fun t =>
      t = { s with dev := { s.dev with regs := t.dev.regs, gr := t.dev.gr, free := t.dev.free } } ∧
      SameWords s t [A.GRN_ERASE_STAT] ∧ t.dev.erasing = false ∧
      (∀ w, (s.dev.erasing = true ∧ w / 512 = s.dev.rd R.GRN_ERASE_STAT_SECTOR) ∨
        t.dev.gword w = s.dev.gword w ∨
        (match op with
          | .none => False
          | .program u x => (w = u ∧ (s.dev.gword w).isErased = true ∧ (t.dev.gword w = .prog x 0 ∨ t.dev.gword w = .bad)) ∨
            (w = gPartner u ∧ gUpper u = true ∧ t.dev.gword w = .bad)
          | .registry v => s.dev.on (R.GRN_WIN_L_EN v) = true ∧ t.dev.gword w = .erased 0 ∧
            w / 512 = s.dev.rd (R.GRN_WIN_FIRST_SECTOR v) + s.dev.rd (R.GRN_WIN_BASE v))) ∧
      (op = .none → s.dev.erasing = true → ∀ w, w / 512 = s.dev.rd R.GRN_ERASE_STAT_SECTOR →
        t.dev.gword w = .erased 0 ∨ t.dev.gword w = s.dev.gword w ∨ t.dev.gword w = .bad))

/-- Writing a slot, pausing the Baler, writing a key generation, and the two operations of KEY.CMD
(spec/14_baler_checkpoints.md R273, spec/14_baler_checkpoints.md R274, spec/14_baler_checkpoints.md R275,
spec/18_steward_firmware_and_management.md R366, spec/18_steward_firmware_and_management.md R384,
spec/18_steward_firmware_and_management.md R385, spec/18_steward_firmware_and_management.md Table 18-8). -/
def Obligations.SlotsAndKeys : Prop :=
  ∀ (s : State), s.dev.sy.coldHold = false →
    (∀ (q : Req) (x : Fin 16) (v : BitVec 32),
      (s.dev.permits q (A.BAL_SLOT_B x) v.toNat →
        (8 < bits v.toNat 0 4 ∨ s.dev.slotNamed x = true → Completes (.slotWrite q x true v) s fun t =>
          Counted s t 10 10 (A.BAL_SLOT_B x % 4096) q causeValue) ∧
        (bits v.toNat 0 4 ≤ 8 → s.dev.slotNamed x = false → Completes (.slotWrite q x true v) s fun t =>
          OnlyRegs s t [A.BAL_SLOT_B x] ∧ t.dev.rd (R.BAL_SLOT_B_OWNER x) = bits v.toNat 0 4 ∧
          t.dev.rd (R.BAL_SLOT_B_VALID x) = s.dev.rd (R.BAL_SLOT_B_VALID x) ∧
          t.dev.rd (R.BAL_SLOT_B_COMMITS x) = s.dev.rd (R.BAL_SLOT_B_COMMITS x))) ∧
      (s.dev.permits q (A.BAL_SLOT_A x) v.toNat →
        let fits := s.dev.slotFits x (bits v.toNat 0 15) (bits v.toNat 16 15) && !s.dev.slotNamed x
        (fits = false → Completes (.slotWrite q x false v) s fun t =>
          Counted s t 10 10 (A.BAL_SLOT_A x % 4096) q causeValue) ∧
        (fits = true → Completes (.slotWrite q x false v) s fun t =>
          OnlyRegs s t [A.BAL_SLOT_A x, A.BAL_SLOT_B x] ∧ t.dev.rd (R.BAL_SLOT_A_FIRST x) = bits v.toNat 0 15 ∧
          t.dev.rd (R.BAL_SLOT_A_COUNT x) = bits v.toNat 16 15 ∧
          t.dev.rd (R.BAL_SLOT_B_OWNER x) = s.dev.rd (R.BAL_SLOT_B_OWNER x) ∧
          (t.dev.rd (R.BAL_SLOT_B_VALID x) = 1 ↔ bits v.toNat 16 15 ≠ 0 ∧ ∃ b, t.dev.commitBytes x = some b ∧
            leAt b 24 4 = crc32c (b.take 24)) ∧
          ∀ b, t.dev.rd (R.BAL_SLOT_B_VALID x) = 1 → t.dev.commitBytes x = some b →
            t.dev.rd (R.BAL_SLOT_B_COMMITS x) = leAt b 16 8 % 2 ^ 16))) ∧
    (s.dev.paused = false → exec .balerPause s = .next s) ∧
    (s.dev.paused = true → Completes .balerPause s fun t =>
      t = { s with dev := { s.dev with regs := t.dev.regs, ba := t.dev.ba } } ∧ SameWords s t [A.BAL_STAT] ∧
      t.dev.ba.bale = s.dev.ba.bale.map (fun r => { r with held := true }) ∧
      (∀ k : Fin 7, t.dev.path k = (s.dev.path k).map (fun r => { r with held := true })) ∧
      t.dev.on R.BAL_STAT_BUSY = s.dev.ba.bale.isSome ∧
      ∀ k : Fin 7, (t.dev.rd R.BAL_STAT_PATHS).testBit k = (s.dev.path k).isSome) ∧
    (∀ (q : Req) (n : Fin 9) (v : BitVec 32), s.dev.permits q (A.KEY_GEN n) v.toNat →
      (s.dev.jobState n = jobClosed → Completes (.keyGenWrite q n v) s fun t =>
        OnlyRegs s t [A.KEY_GEN n] ∧ t.dev.rd (R.KEY_GEN n) = v.toNat) ∧
      (s.dev.jobState n ≠ jobClosed → Completes (.keyGenWrite q n v) s fun t =>
        Counted s t 13 13 (A.KEY_GEN n % 4096) q causeValue)) ∧
    (∀ (q : Req) (c : Instr) (op : Nat), (c = .keySha256 q ∧ op = 1) ∨ (c = .keyVerify q ∧ op = 2) →
      s.dev.permits q A.KEY_CMD op →
      (s.dev.on R.KEY_RESULT_BUSY = true → Completes c s fun t => Counted s t 13 13 (A.KEY_CMD % 4096) q causeValue) ∧
      (s.dev.on R.KEY_RESULT_BUSY = false → Completes c s fun t =>
        t = { s with dev := { s.dev with regs := t.dev.regs, sy := { s.dev.sy with keyCmd := t.dev.sy.keyCmd } } } ∧
        SameWords s t [A.KEY_RESULT] ∧ t.dev.rd R.KEY_RESULT_BUSY = 1 ∧
        t.dev.rd R.KEY_RESULT_CODE = s.dev.rd R.KEY_RESULT_CODE ∧
        t.dev.sy.keyCmd = some (op, s.dev.rd R.KEY_SRC, s.dev.rd R.KEY_LEN_BYTES))) ∧
    (s.dev.sy.keyCmd = none → exec .keyCmdDone s = .next s) ∧
    (∀ op src len, s.dev.sy.keyCmd = some (op, src, len) → Completes .keyCmdDone s fun t => t.pending = s.pending ∧
      t.dev.rd R.KEY_RESULT_BUSY = 0 ∧ t.dev.sy.keyCmd = none ∧ (t.dev.rd (R.PIRQ_RAW 13)).testBit 0 = true ∧
      (op = 1 → s.dev.stwBytes src len = none → t.dev.rd R.KEY_RESULT_CODE = 3 ∧ SameWords s t [A.KEY_RESULT, A.PIRQ_RAW 13]) ∧
      (∀ bs bad e, op = 1 → s.dev.stwBytes src len = some (bs, bad, e) → t.dev.rd R.KEY_RESULT_CODE = 0 ∧
        t.dev.rd R.KEY_DIGEST = leNat (sha256 bs) % 2 ^ 256 ∧
        t = { s with dev := { e with regs := t.dev.regs, sy := { e.sy with keyCmd := none } } }) ∧
      (op ≠ 1 → s.dev.stwBytes src 256 = none → t.dev.rd R.KEY_RESULT_CODE = 3) ∧
      (∀ h bad e, op ≠ 1 → s.dev.stwBytes src 256 = some (h, bad, e) → bad = true ∨ ¬(leAt h 4 1 = 1 ∨ leAt h 4 1 = 2) ∨
        imageHeaderOk h (leAt h 4 1) (if leAt h 4 1 = 1 then 0x100000 else 0x40000) = false → t.dev.rd R.KEY_RESULT_CODE = 3) ∧
      (∀ h e body e', op ≠ 1 → s.dev.stwBytes src 256 = some (h, false, e) → (leAt h 4 1 = 1 ∨ leAt h 4 1 = 2) →
        imageHeaderOk h (leAt h 4 1) (if leAt h 4 1 = 1 then 0x100000 else 0x40000) = true →
        e.stwBytes (src + 256) (leAt h 8 4) = some (body, false, e') →
        t.dev.rd R.KEY_RESULT_CODE = imageCheck h body (leAt h 4 1) (if leAt h 4 1 = 1 then 0x100000 else 0x40000)))

/-- A Furrow port trains, aligns, is lost and knocks, state by state (spec/15_links_furrow_and_pcie.md R280,
spec/15_links_furrow_and_pcie.md R282, spec/15_links_furrow_and_pcie.md R283, spec/15_links_furrow_and_pcie.md Table 15-3,
spec/15_links_furrow_and_pcie.md R287, spec/15_links_furrow_and_pcie.md R288, spec/15_links_furrow_and_pcie.md R302,
spec/15_links_furrow_and_pcie.md R304, spec/15_links_furrow_and_pcie.md Table 15-9). -/
def Obligations.FurrowTraining : Prop :=
  ∀ (s : State) (p : Fin 4), s.dev.sy.coldHold = false →
    let l := s.dev.link p
    let st := s.dev.rd (R.FUR_STAT_STATE p)
    let keeps : State → List Nat → List Out → Link → Prop := fun t ws os x =>
      t = { s with dev := { s.dev with regs := t.dev.regs, fu := t.dev.fu, outs := t.dev.outs } } ∧ SameWords s t ws ∧
      t.dev.outs = s.dev.outs ++ os ∧ t.dev.link p = x ∧ t.dev.fu.loop = s.dev.fu.loop ∧
      ∀ k, k ≠ p.val → t.dev.link k = s.dev.link k
    let ts : Nat → Bool → List Out := fun type locked => [.block p hdrControl ((s.dev.tsBytes p type locked).map BitVec.toNat)]
    let fresh : Link → Link := fun x => { x with lock := noErrors, framing := noErrors, ts1 := 0, ts2 := 0 }
    let hears := s.dev.domOn (46 + p.val) = true ∧ l.idleHold = false ∧ (s.dev.furUp p = true ∨ s.dev.furTraining p = true)
    let mayTrain := s.dev.on (R.FUR_CTL_EN p) && s.dev.domOn (46 + p.val) && nodeValid s.dev.node
    let trains : State → List Nat → Link → Prop := fun t ws x =>
      if mayTrain && !x.idleHold then keeps t ws (ts typeTs1 false) (fresh x) ∧
        t.dev.rd (R.FUR_STAT_STATE p) = furDetect
      else keeps t ws [] x ∧ t.dev.rd (R.FUR_STAT_STATE p) = furDown
    (∀ (q : Req) (v : BitVec 32), s.dev.permits q (A.FUR_CTL p) v.toNat →
      let bad := bits v.toNat 1 3 = 7 ∨ (v.toNat.testBit 0 = true ∧ nodeValid s.dev.node = false)
      let was := s.dev.on (R.FUR_CTL_EN p)
      (bad → Completes (.furrowEnable q p v) s fun t => Counted s t (0x48 + p.val) (0x48 + p.val) (A.FUR_CTL p % 4096) q causeValue) ∧
      (¬bad → Completes (.furrowEnable q p v) s fun t =>
        t.dev.on (R.FUR_CTL_EN p) = v.toNat.testBit 0 ∧ t.dev.rd (R.FUR_CTL_DEEMPH p) = bits v.toNat 1 3 ∧
        (v.toNat.testBit 0 = was ∨ l.knocking = true ∨ (v.toNat.testBit 0 = true ∧ l.idleHold = true) →
          keeps t [A.FUR_CTL p] [] l) ∧
        (v.toNat.testBit 0 = true → was = false → l.knocking = false → l.idleHold = false → s.dev.domOn (46 + p.val) = true →
          keeps t [A.FUR_CTL p, A.FUR_STAT p] (ts typeTs1 false) (fresh l) ∧ t.dev.rd (R.FUR_STAT_STATE p) = furDetect) ∧
        (v.toNat.testBit 0 = true → was = false → l.knocking = false → l.idleHold = false → s.dev.domOn (46 + p.val) = false →
          keeps t [A.FUR_CTL p, A.FUR_STAT p] [] l ∧ t.dev.rd (R.FUR_STAT_STATE p) = furDown) ∧
        (v.toNat.testBit 0 = false → was = true → l.knocking = false →
          keeps t [A.FUR_CTL p, A.FUR_STAT p] [] l.cut ∧ t.dev.rd (R.FUR_STAT_STATE p) = furDown))) ∧
    (∀ x : Ts,
      let bad := badHeaders x.headers.toNat
      let l := l.heardBlock bad
      let good := x.locked = true ∧ x.lanes = 0x03020100#32 ∧ x.version = 1 ∧ bad.any id = false
      (¬hears → exec (.ts1Receive p x) s = .next s) ∧
      (hears → st = furDetect → Completes (.ts1Receive p x) s fun t => t.dev.rd (R.FUR_STAT_POL p) = x.inv.toNat ∧
        (l.locksLost = true → keeps t [A.FUR_STAT p] [] { l with lock := noErrors, framing := noErrors, ts1 := 0 } ∧
          t.dev.rd (R.FUR_STAT_STATE p) = furDetect) ∧
        (l.locksLost = false → l.lock ≠ [8, 8, 8, 8] → keeps t [A.FUR_STAT p] [] l ∧ t.dev.rd (R.FUR_STAT_STATE p) = furDetect) ∧
        (l.locksLost = false → l.lock = [8, 8, 8, 8] → keeps t [A.FUR_STAT p] (ts typeTs1 true) { l with ts1 := 0 } ∧
          t.dev.rd (R.FUR_STAT_STATE p) = furTrain1)) ∧
      (hears → st = furTrain1 → l.locksLost = false → Completes (.ts1Receive p x) s fun t =>
        (good → l.ts1 + 1 < 16 → keeps t [] [] { l with ts1 := l.ts1 + 1 }) ∧
        (good → 16 ≤ l.ts1 + 1 → keeps t [A.FUR_STAT p] (ts typeTs2 true) { l with ts1 := 16, ts2 := 0 } ∧
          t.dev.rd (R.FUR_STAT_STATE p) = furTrain2) ∧
        (¬good → keeps t [] [] { l with ts1 := 0 })) ∧
      (hears → st = furTrain1 → l.locksLost = true → bad.any id = true → Completes (.ts1Receive p x) s fun t =>
        keeps t [] [] { l with lock := noErrors, framing := noErrors, ts1 := 0 }) ∧
      (hears → st = furTrain2 ∨ st = furActive → l.locksLost = false → Completes (.ts1Receive p x) s fun t => keeps t [] [] l)) ∧
    (∀ (x : Ts) (sent : BitVec 8),
      let bad := badHeaders x.headers.toNat
      let l := l.heardBlock bad
      (¬hears → st ≠ furTrain2 → exec (.ts2Receive p x sent) s = .next s) ∧
      (hears → l.locksLost = false → ((st = furTrain2 ∧ bad.any id = true) ∨ st = furTrain1 ∨ st = furActive) →
        Completes (.ts2Receive p x sent) s fun t => keeps t [] [] l) ∧
      (hears → l.locksLost = false → bad.any id = false → st = furTrain2 → (l.ts2 + 1 < 8 ∨ sent.toNat < 16) →
        Completes (.ts2Receive p x sent) s fun t => keeps t [] [] { l with ts2 := l.ts2 + 1 }) ∧
      (hears → l.locksLost = false → bad.any id = false → st = furTrain2 → 8 ≤ l.ts2 + 1 → 16 ≤ sent.toNat →
        Completes (.ts2Receive p x sent) s fun t =>
          t = { s with dev := { s.dev with regs := t.dev.regs, fu := t.dev.fu, outs := t.dev.outs } } ∧
          t.dev.rd (R.FUR_STAT_STATE p) = furActive ∧ t.dev.rd (R.FUR_STAT_PARTNER p) = x.node.toNat ∧
          (t.dev.rd (R.PIRQ_RAW (0x48 + p.val))).testBit 1 = true ∧
          (∀ v : Fin 8, t.dev.rd (R.FUR_PVC_PDEPTH p v) = bits x.depths.toNat (10 * v.val) 10) ∧
          (l.txq = [] → s.dev.tn.rsigs = [] → t.dev.link p = { Link.down with gone := l.gone, heard := tsDepths x, heardNode := x.node.toNat } ∧
            t.dev.outs = s.dev.outs ∧ ∀ v : Fin 8, t.dev.rd (R.FUR_VC_AVAIL p v) = bits x.depths.toNat (10 * v.val) 10))) ∧
    (∀ hs : BitVec 16,
      let bad := badHeaders hs.toNat
      let l := l.heardBlock bad
      (¬hears → s.dev.furUp p = false → exec (.alignReceive p hs) s = .next s) ∧
      (hears → l.locksLost = false → s.dev.furUp p = true → Completes (.alignReceive p hs) s fun t =>
        keeps t [] [] (if bad.any id then l else { l with scrRx := scrSeeds }))) ∧
    (s.dev.furUp p = true → Completes (.alignSend p) s fun t =>
      keeps t [] [.block p hdrControl ((laneBytes fun _ => leBytes 16 typeAlign).map BitVec.toNat)] { l with scrTx := scrSeeds }) ∧
    (s.dev.furUp p = false → exec (.alignSend p) s = .next s ∧ exec (.linkSilenceTimeout p) s = .next s ∧
      Completes (.blockLockLoss p) s fun t => keeps t [] [] { l with lock := noErrors, framing := noErrors, ts1 := 0 }) ∧
    (st = furDetect ∨ st = furTrain1 ∨ st = furTrain2 → Completes (.trainTimeout p) s fun t =>
      (if l.knocking ∨ l.idleHold then keeps t [A.FUR_TRAIN_FAIL p] [] l
        else trains t [A.FUR_STAT p, A.FUR_TRAIN_FAIL p] l) ∧
      t.dev.rd (R.FUR_TRAIN_FAIL_COUNT p) = min (s.dev.rd (R.FUR_TRAIN_FAIL_COUNT p) + 1) maxWord) ∧
    (¬(st = furDetect ∨ st = furTrain1 ∨ st = furTrain2) → exec (.trainTimeout p) s = .next s) ∧
    (∀ c : Instr, (c = .linkSilenceTimeout p ∨ c = .blockLockLoss p) → s.dev.furUp p = true →
      (∀ n : Fin 9, s.dev.jobState n = jobOpen → s.dev.dependsOn n p = true →
        (∀ m : Fin 9, m ≠ n → s.dev.jobState m = jobOpen → s.dev.dependsOn m p = false) → Completes c s fun t =>
          t.dev.jobState n = jobFaulted ∧ t.dev.rd (R.STL_JOB_STAT_STATUS n) = stLink) ∧
      ((∀ n : Fin 9, s.dev.jobState n = jobOpen → s.dev.dependsOn n p = false) → s.dev.path (2 + p.val) = none →
        Completes c s fun t =>
          keeps t [A.FUR_STAT p, A.FUR_LOST_COUNT p, A.FUR_DROP_COUNT p, A.PIRQ_RAW (0x48 + p.val)] []
            { l.cut with idleHold := true } ∧
          t.dev.rd (R.FUR_STAT_STATE p) = furDown ∧ t.dev.rd (R.FUR_STAT_LOST p) = 1 ∧
          t.dev.rd (R.FUR_LOST_COUNT p) = min (s.dev.rd (R.FUR_LOST_COUNT p) + 1) maxWord ∧
          t.dev.rd (R.FUR_DROP_COUNT p) = min (s.dev.rd (R.FUR_DROP_COUNT p) + (l.replay.length + l.buffered)) maxWord ∧
          (t.dev.rd (R.PIRQ_RAW (0x48 + p.val))).testBit 0 = true)) ∧
    (l.idleHold = false → exec (.idleHoldEnd p) s = .next s) ∧
    (l.idleHold = true → Completes (.idleHoldEnd p) s fun t =>
      if l.knocking then keeps t [] [] { l with idleHold := false } else trains t [A.FUR_STAT p] { l with idleHold := false }) ∧
    (∀ q : Req, s.dev.permits q (A.FUR_KNOCK_CTL p) 1 →
      (s.dev.furUp p = true ∨ l.knocking = true → Completes (.knockSend q p) s fun t =>
        Counted s t (0x48 + p.val) (0x48 + p.val) (A.FUR_KNOCK_CTL p % 4096) q causeValue) ∧
      (s.dev.furUp p = false → l.knocking = false → Completes (.knockSend q p) s fun t =>
        keeps t [A.FUR_STAT p, A.FUR_KNOCK_STAT p] [.knock p (knockCells (s.dev.rd R.FUR_KNOCK_PAT) (s.dev.rd (R.FUR_KNOCK_MASK p)))] { l with knocking := true } ∧
        t.dev.rd (R.FUR_STAT_STATE p) = furKnocking ∧ t.dev.rd (R.FUR_KNOCK_STAT_BUSY p) = 1 ∧
        t.dev.rd (R.FUR_KNOCK_STAT_TRIES p) = 1)) ∧
    (l.knocking = false → exec (.knockEchoTimeout p) s = .next s ∧ exec (.knockEchoReceive p) s = .next s) ∧
    (l.knocking = true → s.dev.rd (R.FUR_KNOCK_STAT_TRIES p) < s.dev.rd (R.FUR_KNOCK_RETRY_COUNT p) →
      Completes (.knockEchoTimeout p) s fun t =>
        keeps t [A.FUR_KNOCK_STAT p] [.knock p (knockCells (s.dev.rd R.FUR_KNOCK_PAT) (s.dev.rd (R.FUR_KNOCK_MASK p)))] l ∧
        t.dev.rd (R.FUR_KNOCK_STAT_TRIES p) = s.dev.rd (R.FUR_KNOCK_STAT_TRIES p) + 1) ∧
    (l.knocking = true → s.dev.rd (R.FUR_KNOCK_RETRY_COUNT p) ≤ s.dev.rd (R.FUR_KNOCK_STAT_TRIES p) →
      Completes (.knockEchoTimeout p) s fun t =>
        trains t [A.FUR_STAT p, A.FUR_KNOCK_STAT p, A.PIRQ_RAW (0x48 + p.val)] { l with knocking := false } ∧
        t.dev.rd (R.FUR_KNOCK_STAT_FAIL p) = 1 ∧ t.dev.rd (R.FUR_KNOCK_STAT_BUSY p) = 0 ∧
        (t.dev.rd (R.PIRQ_RAW (0x48 + p.val))).testBit 3 = true) ∧
    (l.knocking = true → Completes (.knockEchoReceive p) s fun t =>
      trains t [A.FUR_STAT p, A.FUR_KNOCK_STAT p, A.PIRQ_RAW (0x48 + p.val)] { l with knocking := false } ∧
      t.dev.rd (R.FUR_KNOCK_STAT_ECHO p) = 1 ∧ t.dev.rd (R.FUR_KNOCK_STAT_BUSY p) = 0 ∧
      (t.dev.rd (R.PIRQ_RAW (0x48 + p.val))).testBit 2 = true) ∧
    (∀ bursts : List Byte, s.dev.heardKnock (bursts.map BitVec.toNat) = none → exec (.knockAccept p bursts) s = .next s) ∧
    (∀ (bursts : List Byte) (mask : Nat), s.dev.heardKnock (bursts.map BitVec.toNat) = some mask →
      (s.dev.pwState = pwRun ∨ s.dev.pwState = pwIdle ∨ s.dev.pwState = pwWaking) →
      Completes (.knockAccept p bursts) s fun t =>
        keeps t [A.BARN_KNOCK_MASK, A.BARN_KNOCK_MASK + 4, A.PIRQ_RAW 1] [.echo p] l ∧
        t.dev.rd R.BARN_KNOCK_MASK = mask ∧ (t.dev.rd (R.PIRQ_RAW 1)).testBit 1 = true)

/-- Sequenced and NULL flits, credit returns and replays on an ACTIVE port (spec/15_links_furrow_and_pcie.md R280,
spec/15_links_furrow_and_pcie.md R284, spec/15_links_furrow_and_pcie.md R285, spec/15_links_furrow_and_pcie.md R286,
spec/15_links_furrow_and_pcie.md R289, spec/15_links_furrow_and_pcie.md R290, spec/15_links_furrow_and_pcie.md Table 15-4).
-/
def Obligations.FurrowFlits : Prop :=
  ∀ (s : State) (p : Fin 4), s.dev.sy.coldHold = false →
    let l := s.dev.link p
    let keeps : State → List Nat → Prop := fun t ws =>
      t = { s with dev := { s.dev with regs := t.dev.regs, fu := t.dev.fu, outs := t.dev.outs } } ∧ SameWords s t ws ∧
      t.dev.fu.loop = s.dev.fu.loop ∧ ∀ k, k ≠ p.val → t.dev.link k = s.dev.link k
    (s.dev.furUp p = false → exec (.creditReturn p) s = .next s ∧ exec (.replayTimeout p) s = .next s ∧
      (s.dev.furTraining p = false → ∀ (hs : BitVec 16) (raw : List Byte),
        exec (.sequencedFlitReceive p raw hs) s = .next s ∧ exec (.nullFlitReceive p raw hs) s = .next s)) ∧
    (∀ (hs : BitVec 16) (raw : List Byte), s.dev.furUp p = true → s.dev.domOn (46 + p.val) = true → l.idleHold = false →
      (l.heardBlock (s.dev.badLanes p hs.toNat raw)).locksLost = true →
      ∀ c : Instr, (c = .sequencedFlitReceive p raw hs ∨ c = .nullFlitReceive p raw hs) →
        exec c s = exec (.blockLockLoss p) { s with dev := s.dev.setLink p (l.heardBlock (s.dev.badLanes p hs.toNat raw)) }) ∧
    (∀ (hs : BitVec 16) (raw : List Byte), s.dev.furUp p = true → s.dev.domOn (46 + p.val) = true → l.idleHold = false →
      (l.heardBlock (s.dev.badLanes p hs.toNat raw)).locksLost = false →
      let bad := (s.dev.badLanes p hs.toNat raw).any id
      let bs := (scramble l.scrRx (s.dev.corrected p raw)).1
      let l := { l.heardBlock (s.dev.badLanes p hs.toNat raw) with scrRx := (scramble l.scrRx (s.dev.corrected p raw)).2 }
      let good := bad = false ∧ flitGood bs = true
      let freed : Link → Nat → Nat → Link := fun l v k => if k = 0 then l else { l with freedOut := addAt l.freedOut v k }
      let w := leAt bs 0 2
      let h := leAt bs 2 2
      let v := h % 8
      let quiet := h.testBit 3 = false ∧ l.txq = []
      (¬good → ∀ c : Instr, (c = .sequencedFlitReceive p raw hs ∨ c = .nullFlitReceive p raw hs) → Completes c s fun t =>
        keeps t [A.FUR_CRC_ERR p] ∧ t.dev.outs = s.dev.outs ∧ t.dev.link p = { l with nak := true, returnDue := true } ∧
        t.dev.rd (R.FUR_CRC_ERR_COUNT p) = min (s.dev.rd (R.FUR_CRC_ERR_COUNT p) + 1) maxWord) ∧
      (good → w % 16 = ftNull → exec (.sequencedFlitReceive p raw hs) s = .next s) ∧
      (good → w % 16 ≠ ftNull → exec (.nullFlitReceive p raw hs) s = .next s) ∧
      (good → w % 16 ≠ ftNull → w / 16 ≠ (l.rxSeq + 1) % 4096 → quiet →
        Completes (.sequencedFlitReceive p raw hs) s fun t => keeps t [] ∧ t.dev.outs = s.dev.outs ∧
          t.dev.link p = { l with nak := true, returnDue := true, replay := acked (h / 16) l.replay }) ∧
      (good → w % 16 ≠ ftNull → w / 16 = (l.rxSeq + 1) % 4096 → quiet →
        let l := { l with rxSeq := w / 16, nak := false, returnDue := true, replay := acked (h / 16) l.replay }
        let drops : Packet → Prop := fun x => v = 7 ∨ vcOk x.cls v = false
        let got : Link → Packet → State → Prop := fun l x t =>
          (drops x → t.dev.link p = freed { l with staged := l.staged.set v 0 } v (x.size - l.staged.getD v 0) ∧
            t.dev.rd (R.FUR_DROP_COUNT p) = min (s.dev.rd (R.FUR_DROP_COUNT p) + 1) maxWord) ∧
          (¬drops x → t.dev.rd (R.FUR_DROP_COUNT p) = s.dev.rd (R.FUR_DROP_COUNT p)) ∧
          (¬drops x → x.dst = s.dev.node → (x.cls = pkRegRsp ∨ x.cls = pkNotify) →
            t.dev.link p = freed { l with staged := l.staged.set v 0 } v (x.size - l.staged.getD v 0)) ∧
          (¬drops x → ¬(x.dst = s.dev.node ∧ (x.cls = pkRegRsp ∨ x.cls = pkNotify)) →
            t.dev.link p = { l with rxq := l.rxq ++ [(v, x)] })
        let put : Option (Packet × Nat) → Link := fun x => { l with partly := l.partly.set (fun _ => none) v x }
        let stays : Packet → Nat → Link := fun x due =>
          if l.rxq.any (fun e => e.1 == v) || !s.dev.mayStage p x then put (some (x, due))
          else freed { put (some (x, due)) with staged := l.staged.set v x.size } v (x.size - l.staged.getD v 0)
        Completes (.sequencedFlitReceive p raw hs) s fun t =>
          keeps t [A.FUR_RX_FLITS p, A.FUR_RX_FLITS p + 4, A.FUR_DROP_COUNT p] ∧ t.dev.outs = s.dev.outs ∧
          t.dev.rd (R.FUR_RX_FLITS p) = (s.dev.rd (R.FUR_RX_FLITS p) + 1) % 2 ^ 64 ∧
          (w % 16 = ftHead →
            let y := Packet.ofHead (slice bs 4 56)
            (y.2 = 0 → got l y.1 t) ∧ (y.2 ≠ 0 → t.dev.link p = stays y.1 y.2)) ∧
          (w % 16 ≠ ftHead → l.partly.get (fun _ => none) v = none →
            t.dev.link p = { l with freedOut := addAt l.freedOut v 1 } ∧
            t.dev.rd (R.FUR_DROP_COUNT p) = min (s.dev.rd (R.FUR_DROP_COUNT p) + 1) maxWord) ∧
          ∀ x left, w % 16 ≠ ftHead → l.partly.get (fun _ => none) v = some (x, left) →
            let y := { x with data := x.data ++ (slice bs 4 56).take (min 56 left) }
            (left ≤ 56 → got (put none) y t) ∧ (56 < left → t.dev.link p = stays y (left - 56))) ∧
      (good → w % 16 = ftNull → quiet → Completes (.nullFlitReceive p raw hs) s fun t =>
        keeps t ((List.range 8).map (A.FUR_VC p)) ∧ t.dev.outs = s.dev.outs ∧
        t.dev.link p = { l with freedIn := (List.range 8).map (fun v => leAt bs (4 + 2 * v) 2), replay := acked (h / 16) l.replay } ∧
        ∀ v : Fin 8, t.dev.rd (R.FUR_VC_AVAIL p v) = (s.dev.rd (R.FUR_PVC_PDEPTH p v) + 65536 -
          (l.sent.getD v 0 + 65536 - leAt bs (4 + 2 * v.val) 2) % 65536) % 65536 % 2 ^ 10)) ∧
    (s.dev.furUp p = true →
      (l.returnDue = false → exec (.creditReturn p) s = .next s) ∧
      (l.returnDue = true → Completes (.creditReturn p) s fun t =>
        let out := scramble l.scrTx (flitBytes l ftNull 0 0 (l.freedOut.flatMap (leBytes 2)))
        keeps t [] ∧ t.dev.outs = s.dev.outs ++ [.block p hdrData (out.1.map BitVec.toNat)] ∧
        t.dev.link p = { l with returnDue := false, nak := false, scrTx := out.2 }) ∧
      (l.replay = [] → exec (.replayTimeout p) s = .next s) ∧
      (l.replay ≠ [] → (∀ r ∈ l.replay, r.2.2 < 15) → Completes (.replayTimeout p) s fun t =>
        keeps t [A.FUR_REPLAY_COUNT p] ∧ t.dev.outs.length = s.dev.outs.length + l.replay.length ∧
        t.dev.link p = { l with replay := l.replay.map (fun r => (r.1, r.2.1, r.2.2 + 1)), nak := false,
                                scrTx := (t.dev.link p).scrTx } ∧
        t.dev.rd (R.FUR_REPLAY_COUNT p) = min (s.dev.rd (R.FUR_REPLAY_COUNT p) + 1) maxWord) ∧
      (∀ r ∈ l.replay, 15 ≤ r.2.2 → (∀ n : Fin 9, s.dev.jobState n = jobOpen → s.dev.dependsOn n p = false) →
        s.dev.path (2 + p.val) = none → Completes (.replayTimeout p) s fun t =>
          t.dev.rd (R.FUR_STAT_LOST p) = 1 ∧ t.dev.rd (R.FUR_STAT_STATE p) = furDown ∧ (t.dev.link p).replay = []))

/-- Data, checkpoint and REG packets are taken or refused; a packet for another node is forwarded; LINK_PAUSE
(spec/15_links_furrow_and_pcie.md R285, spec/15_links_furrow_and_pcie.md R291, spec/15_links_furrow_and_pcie.md R292,
spec/15_links_furrow_and_pcie.md R296, spec/15_links_furrow_and_pcie.md R298, spec/15_links_furrow_and_pcie.md R301,
spec/15_links_furrow_and_pcie.md Table 15-6). -/
def Obligations.FurrowPackets : Prop :=
  ∀ (s : State) (p : Fin 5), s.dev.sy.coldHold = false →
    let next := fun (cls : Nat) => firstRx (fun x => x.dst == s.dev.node && x.cls == cls) [] [] (s.dev.rxList p)
    let popped : Nat → Packet → List (Nat × Packet) → Furrow := fun v x rest => (s.dev.popRx p v x rest).fu
    (∀ c : Instr, (c = .actReceive p ∨ c = .gradReceive p ∨ c = .ckptReceive p ∨ c = .regReceive p ∨ c = .packetForward p) →
      s.dev.coreOn = false → exec c s = .next s) ∧
    (∀ v x rest, (p = 4 → (s.dev.popRx p v x rest).fu = { s.dev.fu with loop := rest }) ∧
      (p ≠ 4 → (s.dev.link p).partly.get (fun _ => none) v = none → (s.dev.popRx p v x rest).fu.loop = s.dev.fu.loop ∧ ∀ k, (s.dev.popRx p v x rest).link k = if k = p then
          let l := s.dev.link p
          let k := x.size - l.staged.getD v 0
          if k = 0 then { l with rxq := rest, staged := l.staged.set v 0 }
          else { l with rxq := rest, staged := l.staged.set v 0, freedOut := addAt l.freedOut v k, returnDue := true }
        else s.dev.link k)) ∧
    (∀ (c : Instr) (cls : Nat), (c = .actReceive p ∧ cls = pkAct) ∨ (c = .gradReceive p ∧ cls = pkGrad) → s.dev.coreOn = true →
      (next cls = none → exec c s = .next s) ∧
      (∀ v x rest, next cls = some (v, x, rest) →
        let a := x.fld 16 8
        let takes := s.dev.takesData x.dstall x.src a x.data.length
        let got := s.dev.reachSpan x.dstall none a x.data.length
        (takes = true → got = .error .wait → exec c s = .next s) ∧
        (∀ ls, takes = true → got = .ok ls → (s.dev.writeLocs ls x.data).1 = false → Completes c s fun t =>
          t = { s with dev := { (s.dev.writeLocs ls x.data).2 with fu := popped v x rest } }) ∧
        (takes = false ∨ got = .error .quota → Completes c s fun t =>
          t = { s with dev := { s.dev with regs := t.dev.regs, fu := t.dev.fu, outs := t.dev.outs } } ∧
          t.dev = (Dev.bumpPort { s.dev with fu := popped v x rest } p R.FUR_RX_REFUSE_COUNT).rack x 0 stDesc 1))) ∧
    (s.dev.coreOn = true → (s.dev.link p).partly.get (fun _ => none) 5 = none → (next pkCkpt = none → exec (.ckptReceive p) s = .next s) ∧
      (∀ v x rest, next pkCkpt = some (v, x, rest) →
        let first := (x.fld 16 1).testBit 0
        let last := (x.fld 16 1).testBit 1
        let keeps : State → Prop := fun t =>
          t = { s with dev := { s.dev with regs := t.dev.regs, ba := t.dev.ba, tn := t.dev.tn, fu := popped v x rest } }
        (first = true → (s.dev.paused = true ∨ (s.dev.ckptRun p x.src).isSome = true ∨ s.dev.ckptTaker p x.src = none) →
          exec (.ckptReceive p) s = .next s) ∧
        (∀ k y, first = true → s.dev.paused = false → s.dev.ckptRun p x.src = none → s.dev.ckptTaker p x.src = some (k, y) →
          Completes (.ckptReceive p) s fun t => keeps t ∧ SameWords s t [A.BAL_STAT] ∧
            t.dev.path k = some ⟨y.trough, y.pos, x.data, last, none, 0, 0, [], false, false⟩ ∧
            t.dev.findDesc y.trough y.pos = some { y with phase := .working }) ∧
        (∀ k r, first = false → s.dev.ckptRun p x.src = some (k, r) →
          (s.dev.paused = true → exec (.ckptReceive p) s = .next s) ∧
          (s.dev.paused = false → Completes (.ckptReceive p) s fun t => keeps t ∧ SameWords s t [A.BAL_STAT] ∧
            t.dev.path k = some { r with raw := r.raw ++ x.data, last := last } ∧ t.dev.tn = s.dev.tn)) ∧
        (first = false → s.dev.ckptRun p x.src = none → Completes (.ckptReceive p) s fun t => keeps t ∧ t.dev.ba = s.dev.ba ∧
          t.dev.tn = s.dev.tn ∧ SameWords s t (if p = 4 then [] else [A.FUR_DROP_COUNT p]) ∧
          (p ≠ 4 → t.dev.rd (R.FUR_DROP_COUNT p) = min (s.dev.rd (R.FUR_DROP_COUNT p) + 1) maxWord)))) ∧
    (s.dev.coreOn = true → (next pkReg = none → exec (.regReceive p) s = .next s) ∧
      (∀ v x rest, next pkReg = some (v, x, rest) →
        let e := { s.dev with fu := popped v x rest }
        let write := (x.fld 16 1).testBit 0
        let space := bits (x.fld 16 1) 1 2
        (s.dev.stallOfNode x.src = none → write = true → Completes (.regReceive p) s fun t =>
          t = { s with dev := { e with regs := t.dev.regs } } ∧ SameWords s t [A.STL_UNBOUND_COUNT 0] ∧
          t.dev.rd (R.STL_UNBOUND_COUNT 0) = min (s.dev.rd (R.STL_UNBOUND_COUNT 0) + 1) maxWord) ∧
        (s.dev.stallOfNode x.src = none → write = false → Completes (.regReceive p) s fun t =>
          t = { s with dev := e.regRsp x 1 (List.replicate (min 3584 (x.fld 28 4)) 0) }) ∧
        (∀ n : Fin 9, s.dev.stallOfNode x.src = some n.val → write = true → space ≤ 1 →
          (x.data.length = 4 ∨ x.data.length = 8) → Completes (.regReceive p) s fun t =>
            t = { s with dev := e.busWrite (.stall n) (if space = 0 then .bar0 else .bar2) (x.fld 20 8) x.data.length (leNat x.data) }) ∧
        (∀ (n : Fin 9) (ls : List Loc), s.dev.stallOfNode x.src = some n.val → write = true → space = 2 →
          (x.fld 20 8 < siloBytes ∨ (cellarBase ≤ x.fld 20 8 ∧ x.fld 20 8 < cellarEnd)) →
          s.dev.reachSpan n none (x.fld 20 8) x.data.length = .ok ls → (s.dev.writeLocs ls x.data).1 = false →
          Completes (.regReceive p) s fun t =>
            t = { s with dev := { (s.dev.writeLocs ls x.data).2 with fu := popped v x rest } }))) ∧
    (s.dev.coreOn = true → p ≠ 4 →
      let next := firstRx (fun x => x.dst != s.dev.node) [] [] (s.dev.link p).rxq
      (next = none → exec (.packetForward p) s = .next s) ∧
      (∀ v x rest, next = some (v, x, rest) →
        (x.ttl ≤ 1 ∨ s.dev.route x.dst = none ∨ s.dev.route x.dst = some p.val → Completes (.packetForward p) s fun t =>
          t = { s with dev := { s.dev with regs := t.dev.regs, fu := popped v x rest } } ∧ SameWords s t [A.FUR_DROP_COUNT p] ∧
          t.dev.rd (R.FUR_DROP_COUNT p) = min (s.dev.rd (R.FUR_DROP_COUNT p) + 1) maxWord) ∧
        (∀ q, 1 < x.ttl → s.dev.route x.dst = some q → q ≠ p.val → Completes (.packetForward p) s fun t =>
          let e := { s.dev with fu := popped v x rest }
          t = { s with dev := (e.setLink q { e.link q with
            txq := (e.link q).txq ++ { x with ttl := x.ttl - 1 }.flits v none }).pumpAll q } ∧ t.dev.mem = s.dev.mem))) ∧
    (s.dev.paused = false → exec .linkPause s = .next s) ∧
    (s.dev.paused = true → Completes .linkPause s fun t =>
      t = { s with dev := { s.dev with tn := { s.dev.tn with live := t.dev.tn.live } } } ∧
      t.dev.tn.live = s.dev.tn.live.map (fun y => if y.opcode = 9 ∧ y.phase = .working then { y with aux := 1 } else y))

/-- A sample bills 65 readings; a settlement converts, shares and adds them; START, RESTORE, FINAL, PERSIST_ACK
(spec/16_tally_metering.md R312, spec/16_tally_metering.md R313, spec/16_tally_metering.md R314, spec/16_tally_metering.md
R315, spec/16_tally_metering.md R316, spec/16_tally_metering.md R317, spec/16_tally_metering.md R318,
spec/16_tally_metering.md R319, spec/16_tally_metering.md R321, spec/16_tally_metering.md R323, spec/16_tally_metering.md
R325, spec/16_tally_metering.md Table 16-2). -/
def Obligations.TallySampleAndSettlement : Prop :=
  ∀ (s : State), s.dev.sy.coldHold = false →
    let run := s.dev.on R.TLY_STAT_RUN
    let can := s.dev.recordOwed = false ∧ s.dev.siloReadyRun (s.dev.rd R.TLY_PERSIST_ADDR) 704 = true
    (∀ (ma : List (BitVec 16)) (grants : List (Option (Fin 9))) (vout : Option (Fin 4 × BitVec 16)),
      (s.dev.stc % 20 ≠ 0 ∨ s.dev.ta.last = some s.dev.stc ∨ s.dev.domOn 59 = false ∨ s.dev.on R.CLK_REF_STAT_PRESENT = false ∨
          s.dev.on R.CLK_REF_STAT_MISMATCH = true →
        exec (.tallySample ma grants vout) s = .next s) ∧
      (s.dev.stc % 20 = 0 → s.dev.ta.last ≠ some s.dev.stc → s.dev.domOn 59 = true → s.dev.on R.CLK_REF_STAT_PRESENT = true →
        s.dev.on R.CLK_REF_STAT_MISMATCH = false →
        let k := s.dev.stc / 24576
        let turns := decide (s.dev.ta.interval ≠ k)
        let lost := match s.dev.ta.closed with
          | some (_, _, n) => n
          | none => 0
        let read : Nat → Option Nat := fun r => match s.dev.ta.voltNext.get (fun _ => none) r with
          | some v => some v
          | none => match vout with
            | some (g, v) => if g.val = r then some v.toNat else none
            | none => none
        let grant : Nat → Option Nat := fun x => if x < 24 then none else (grants.getD (x - 24) none).map Fin.val
        let amps : Nat → Nat := fun x => (ma.getD x 0).toNat
        let pick : Nat → Option Nat := fun x => if alwaysShared x then none else
          nextTurn (s.dev.ta.turn.get (fun _ => none) x) (s.dev.ownersOf (grant x) x)
        let bin : Nat → Nat := fun x => (pick x).getD
          (if alwaysShared x || (s.dev.rd R.TLY_SHARE_MASK).testBit x then binShared else binUnattr)
        Completes (.tallySample ma grants vout) s fun t =>
          t = { s with dev := { s.dev with regs := t.dev.regs, ta := t.dev.ta } } ∧
          SameWords s t ([A.TLY_MISSED, A.TLY_MISSED + 4, A.TLY_VSTALE_COUNT, A.PIRQ_RAW 12] ++ sensors.map A.TLY_SENSOR) ∧
          t.dev.ta.last = some s.dev.stc ∧ t.dev.ta.rem = s.dev.ta.rem ∧ t.dev.ta.pend = s.dev.ta.pend ∧
          (∀ x < 65, t.dev.rd (R.TLY_SENSOR_OWNER x) = bin x % 16 ∧ t.dev.rd (R.TLY_SENSOR_MA x) = amps x ∧
            t.dev.ta.turn.get (fun _ => none) x = (pick x).or (s.dev.ta.turn.get (fun _ => none) x)) ∧
          (∀ a, t.dev.ta.sums.get (fun _ => 0) a = (if turns then 0 else s.dev.ta.sums.get (fun _ => 0) a) + if run then
            ((sensors.filter (fun x => bin x == a)).map (fun x => amps x * t.dev.railMv (sensorRail x))).sum else 0) ∧
          (∀ a, t.dev.ta.acts.get (fun _ => 0) a = (if turns then 0 else s.dev.ta.acts.get (fun _ => 0) a) +
            if run ∧ a ≤ 8 then sensors.countP (fun x => bin x == a) else 0) ∧
          t.dev.ta.samples = (if turns then 0 else s.dev.ta.samples) + (if run then 1 else 0) ∧
          t.dev.rd R.TLY_MISSED = (s.dev.rd R.TLY_MISSED + (if turns then lost else 0) + (if run then 0 else 1)) % 2 ^ 64 ∧
          t.dev.ta.interval = k ∧
          (turns = false → t.dev.ta.closed = s.dev.ta.closed ∧ t.dev.ta.volt = s.dev.ta.volt ∧
            ∀ r, t.dev.ta.voltNext.get (fun _ => none) r = read r) ∧
          (turns = true → t.dev.ta.closed = (if s.dev.ta.samples = 0 then none else
              some (s.dev.ta.sums, s.dev.ta.acts, s.dev.ta.samples)) ∧
            ∀ r < 5, t.dev.ta.volt.get railReset r = if s.dev.rd (R.TLY_RAIL_REG r) = 7 then s.dev.rd (R.TLY_RAIL_VNOM r)
              else (read (s.dev.rd (R.TLY_RAIL_REG r))).getD (s.dev.ta.volt.get railReset r)))) ∧
    (let cur := match s.dev.ta.closed with
        | some (x, y, _) => some (x, y)
        | none => if s.dev.ta.interval < s.dev.stc / 24576 ∧ s.dev.ta.samples ≠ 0 then some (s.dev.ta.sums, s.dev.ta.acts) else none
      (run = false ∨ s.dev.domOn 59 = false ∨ s.dev.coreOn = false ∨ cur = none → exec .settlement s = .next s) ∧
      (∀ sums acts, run = true → s.dev.domOn 59 = true → s.dev.coreOn = true → cur = some (sums, acts) →
        let num := if s.dev.on R.CLK_REF_STAT_FAMILY then 390625 else 78125
        let den := if s.dev.on R.CLK_REF_STAT_FAMILY then 441 else 96
        let raw : Nat → Nat := fun a => sums.get (fun _ => 0) a * num + s.dev.ta.rem.get (fun _ => 0) a
        let upTo : Nat → Nat := fun n => ((List.range n).map (fun i => acts.get (fun _ => 0) (i + 1))).sum
        let pool := raw binShared / den
        let share : Nat → Nat := fun n => if n = 0 ∨ upTo 8 = 0 then 0 else pool * upTo n / upTo 8 - pool * upTo (n - 1) / upTo 8
        let slept := (s.dev.ta.sleepD * s.dev.rd R.TLY_SLEEP_RATE_D_UW + s.dev.ta.sleepF * s.dev.rd R.TLY_SLEEP_RATE_F_UW) * 15625 +
          s.dev.ta.remSleep
        let gain : Nat → Nat := fun a => if a ≤ 8 then raw a / den + share a
          else if a = binShared then (if upTo 8 = 0 then pool else 0) else raw a / den + slept / 48
        Completes .settlement s fun t =>
          t = { s with dev := { s.dev with
            regs := t.dev.regs, mem := t.dev.mem, ta := t.dev.ta, tn := { s.dev.tn with owed := t.dev.tn.owed } } } ∧
          (∀ a < 11, t.dev.rd (R.TLY_ENERGY a) = (s.dev.rd (R.TLY_ENERGY a) + gain a) % 2 ^ 96 ∧
            t.dev.ta.rem.get (fun _ => 0) a = raw a % den) ∧
          t.dev.rd (R.TLY_ENERGY 11) = (s.dev.rd (R.TLY_ENERGY 11) + ((List.range 11).map gain).sum) % 2 ^ 96 ∧
          t.dev.rd R.TLY_SLEEP_FJ = (s.dev.rd R.TLY_SLEEP_FJ + slept / 48) % 2 ^ 96 ∧ t.dev.ta.remSleep = slept % 48 ∧
          t.dev.ta.sleepD = 0 ∧ t.dev.ta.sleepF = 0 ∧
          t.dev.rd R.TLY_SETTLE_SEQ = (s.dev.rd R.TLY_SETTLE_SEQ + 1) % 2 ^ 64 ∧
          (∀ n : Fin 9, t.dev.rd (R.TLY_SHARE n) = (s.dev.rd (R.TLY_SHARE n) + share n) % 2 ^ 96 ∧
            t.dev.rd (R.TLY_MAC n) = (s.dev.rd (R.TLY_MAC n) + s.dev.ta.pend.get (fun _ => 0) (n * 4)) % 2 ^ 96 ∧
            t.dev.rd (R.TLY_ELEM n) = (s.dev.rd (R.TLY_ELEM n) + s.dev.ta.pend.get (fun _ => 0) (n * 4 + 1)) % 2 ^ 96 ∧
            t.dev.rd (R.TLY_WINB n) = (s.dev.rd (R.TLY_WINB n) + s.dev.ta.pend.get (fun _ => 0) (n * 4 + 2)) % 2 ^ 96 ∧
            t.dev.rd (R.TLY_ERASE n) = (s.dev.rd (R.TLY_ERASE n) + s.dev.ta.pend.get (fun _ => 0) (n * 4 + 3)) % 2 ^ 64) ∧
          t.dev.ta.pend = .empty ∧
          (let due := s.dev.rd R.TLY_PERSIST_PERIOD_N ≠ 0 ∧ t.dev.rd R.TLY_SETTLE_SEQ % s.dev.rd R.TLY_PERSIST_PERIOD_N = 0
           (due → can → t.dev.rd R.TLY_STAT_PEND = 1 ∧ (t.dev.rd (R.PIRQ_RAW 12)).testBit 0 = true ∧ t.dev.tn.owed = s.dev.tn.owed) ∧
           (due → ¬can → (∃ bs, t.dev.tn.owed = s.dev.tn.owed ++ [.record (s.dev.rd R.TLY_PERSIST_ADDR) bs]) ∧
             t.dev.mem = s.dev.mem ∧ t.dev.rd R.TLY_STAT_PEND = s.dev.rd R.TLY_STAT_PEND) ∧
           (¬due → t.dev.mem = s.dev.mem ∧ t.dev.rd R.TLY_STAT_PEND = s.dev.rd R.TLY_STAT_PEND ∧ t.dev.tn.owed = s.dev.tn.owed)))) ∧
    (∀ q : Req,
      (∀ (c : Instr) (v : Nat), (c = .tallyStart q ∧ v = 1 ∧ run = true) ∨ (c = .tallyRestore q ∧ v = 2 ∧ run = true) ∨
        (c = .tallyFinal q ∧ v = 4 ∧ run = false) → s.dev.permits q A.TLY_CTL v → Completes c s fun t =>
          Counted s t 12 12 (A.TLY_CTL % 4096) q causeValue) ∧
      (run = false → s.dev.permits q A.TLY_CTL 1 → Completes (.tallyStart q) s fun t =>
        t = { s with dev := { s.dev with regs := t.dev.regs, ta := t.dev.ta } } ∧ t.dev.rd R.TLY_STAT_RUN = 1 ∧
        t.dev.rd R.TLY_STAT_BLANK = 1 ∧ (∀ f ∈ recordFields, t.dev.rd f.1 = 0) ∧ t.dev.ta.rem = .empty ∧ t.dev.ta.pend = .empty) ∧
      (run = false → s.dev.permits q A.TLY_CTL 2 → s.dev.siloReadyRun (s.dev.rd R.TLY_PERSIST_ADDR) 704 = false →
        exec (.tallyRestore q) s = .next { s with dev := s.dev.owe (.access true .bar0 A.TLY_CTL 4 2) }) ∧
      (run = false → s.dev.permits q A.TLY_CTL 2 → s.dev.siloReadyRun (s.dev.rd R.TLY_PERSIST_ADDR) 704 = true →
        let r := s.dev.siloRead (s.dev.rd R.TLY_PERSIST_ADDR) 704
        let bs := r.1
        let good := r.2.1 = false ∧ leAt bs 0 4 = 0x59544C54 ∧ leAt bs 4 1 = 1 ∧ leAt bs 692 4 = crc32c (bs.take 692)
        (¬good → Completes (.tallyRestore q) s fun t => Counted { s with dev := r.2.2 } t 12 12 (A.TLY_CTL % 4096) q causeValue ∧
          t.dev.rd R.TLY_STAT_RUN = 0) ∧
        (good → Completes (.tallyRestore q) s fun t => t = { s with dev := { r.2.2 with regs := t.dev.regs } } ∧
          t.dev.rd R.TLY_STAT_RUN = 1 ∧ t.dev.rd R.TLY_SETTLE_SEQ = leAt bs 8 8 ∧
          (∀ i < 12, t.dev.rd (R.TLY_ENERGY i) = leAt bs (24 + 12 * i) 12) ∧
          (∀ n : Fin 9, t.dev.rd (R.TLY_MAC n) = leAt bs (168 + 36 * n.val) 12 ∧ t.dev.rd (R.TLY_ELEM n) = leAt bs (180 + 36 * n.val) 12 ∧
            t.dev.rd (R.TLY_WINB n) = leAt bs (192 + 36 * n.val) 12 ∧ t.dev.rd (R.TLY_SHARE n) = leAt bs (492 + 12 * n.val) 12 ∧
            t.dev.rd (R.TLY_ERASE n) = leAt bs (600 + 8 * n.val) 8) ∧
          t.dev.rd R.TLY_SLEEP_FJ = leAt bs 672 12 ∧
          ((leAt bs 5 1).testBit 0 = false → t.dev.rd R.TLY_STAT_LOSS_FLAG = 1 ∧ (t.dev.rd (R.PIRQ_RAW 12)).testBit 1 = true ∧
            t.dev.rd R.TLY_LOSS_BOUND = leAt bs 684 8 * (s.dev.rd R.TLY_PERSIST_PERIOD_N + 5) % 2 ^ 96) ∧
          ((leAt bs 5 1).testBit 0 = true → t.dev.rd R.TLY_STAT_LOSS_FLAG = s.dev.rd R.TLY_STAT_LOSS_FLAG))) ∧
      (run = true → s.dev.permits q A.TLY_CTL 4 → Completes (.tallyFinal q) s fun t =>
        t = { s with dev := { s.dev with
          regs := t.dev.regs, mem := t.dev.mem, ta := t.dev.ta, tn := { s.dev.tn with owed := t.dev.tn.owed } } } ∧
        t.dev.rd R.TLY_STAT_RUN = 0 ∧
        (can → t.dev.rd R.TLY_STAT_PEND = 1 ∧ (t.dev.rd (R.PIRQ_RAW 12)).testBit 0 = true ∧ t.dev.tn.owed = s.dev.tn.owed) ∧
        (¬can → t.dev.recordOwed = true) ∧ t.dev.ta.closed = none ∧ t.dev.ta.samples = 0 ∧
        t.dev.rd R.TLY_SETTLE_SEQ = (s.dev.rd R.TLY_SETTLE_SEQ + if s.dev.ta.closed.isSome then 2 else 1) % 2 ^ 64) ∧
      (s.dev.permits q A.TLY_PERSIST_ACK 1 → Completes (.persistAck q) s fun t => OnlyRegs s t [A.TLY_STAT, A.TLY_PERSIST_ACK] ∧
        t.dev.rd R.TLY_PERSIST_ACK = 1 ∧ t.dev.rd R.TLY_STAT_PEND = 0 ∧ t.dev.rd R.TLY_STAT_RUN = s.dev.rd R.TLY_STAT_RUN))

/-- The way into DORMANT and FALLOW and back: commands, the entry, every wake source, the retry, the save list
(spec/17_power_and_thermal.md R334, spec/17_power_and_thermal.md R335, spec/17_power_and_thermal.md R336,
spec/17_power_and_thermal.md Table 17-3, spec/17_power_and_thermal.md R337, spec/17_power_and_thermal.md R338,
spec/17_power_and_thermal.md R339, spec/17_power_and_thermal.md R340, spec/17_power_and_thermal.md R341,
spec/17_power_and_thermal.md R342, spec/17_power_and_thermal.md R344, spec/17_power_and_thermal.md R345). -/
def Obligations.PowerStates : Prop :=
  ∀ (s : State), s.dev.sy.coldHold = false →
    let st := s.dev.pwState
    let lives : List Nat := (List.range 9).filter (fun n => s.dev.jobState n != jobClosed)
    let refused : State → Nat → Prop := fun t c =>
      OnlyRegs s t [A.PWR_STAT, A.PWR_REFUSE_COUNT, A.PIRQ_RAW 2] ∧ t.dev.rd R.PWR_STAT_STATE = st ∧
      t.dev.rd R.PWR_STAT_REFUSE = c ∧ t.dev.rd R.PWR_REFUSE_COUNT = min (s.dev.rd R.PWR_REFUSE_COUNT + 1) maxWord ∧
      (t.dev.rd (R.PIRQ_RAW 2)).testBit 1 = true
    let enabled : Nat → Prop := fun b => (s.dev.word A.BARN_WAKE_EN).testBit b = true
    let latched : State → Prop := fun t => ∀ b < 16, (t.dev.rd R.BARN_PENDING_EVENTS).testBit b = true ↔
      (s.dev.rd R.BARN_PENDING_EVENTS).testBit b = true ∨ (enabled b ∧ ∃ x ∈ s.dev.pw.levels, wakeBit x.1 x.2 = b)
    let begins : State → Bool → Prop := fun t fallow =>
      t = { s with dev := { s.dev with
              regs := t.dev.regs
              pw := { s.dev.pw with entry := some ⟨fallow, false, false⟩, committed := false, armed := false, wake := none, tries := 0 } } } ∧
      SameWords s t [A.PWR_STAT, A.PWR_DOM_GATED, A.PWR_DOM_GATED + 4, A.PIRQ_RAW 2, A.BARN_PENDING] ∧ latched t ∧
      t.dev.rd R.PWR_STAT_STATE = pwEntering ∧
      t.dev.rd R.PWR_DOM_GATED = 0 ∧ (t.dev.rd (R.PIRQ_RAW 2)).testBit 0 = true
    let right : Req → Prop := fun q => match q with
      | .stall n => n ≠ 0 ∧ (s.dev.rd R.PWR_HOST_PWR_STALLS).testBit (n.val - 1) = true
      | _ => True
    let tenant : Req → Prop := fun q => match q with
      | .stall _ => True
      | _ => False
    let owed : List Vout := ([0, 1, 2, 3].filter (s.dev.pw.slept.contains ·)).map s.dev.runAction
    let woken : State → Nat → Nat → Nat → Prop := fun t cause port doms =>
      t.dev.rd R.PWR_STAT_STATE = pwWaking ∧ t.dev.rd R.BARN_WAKE_STAT_CAUSE = cause ∧ t.dev.rd R.BARN_WAKE_STAT_PORT = port ∧
      t.dev.rd R.BARN_WAKE_COUNT = min (s.dev.rd R.BARN_WAKE_COUNT + 1) maxWord ∧ t.dev.rd R.BARN_PENDING_EVENTS = 0 ∧
      (t.dev.rd (R.PIRQ_RAW 1)).testBit 0 = true ∧ (t.dev.word A.SYS_MGMT_IRQ_STAT).testBit 3 = true ∧
      t.dev.pw.wake = some (cause, port, doms) ∧ t.pending = s.pending ∧ t.dev.mem = s.dev.mem ∧ t.dev.tn = s.dev.tn ∧
      (s.dev.pw.vout = none → match owed with
        | [] => t.dev.pw.vout = none ∧ t.dev.pw.queue = [] ∧
            ∀ x ∈ [62, 63, 60, 52, 59, 58], t.dev.domOn x = true ∨ x ∈ t.dev.pw.rising
        | v :: vs => t.dev.pw.vout = some v ∧ t.dev.pw.queue = vs ∧ t.dev.pw.rising = s.dev.pw.rising) ∧
      (s.dev.pw.vout ≠ none → t.dev.pw.vout = s.dev.pw.vout ∧ t.dev.pw.queue = owed)
    (∀ q : Req, s.dev.permits q A.SYS_PWR_CMD 1 →
      (¬right q → Completes (.pwrCmdRun q) s (refused · 1)) ∧
      (right q → st ≠ pwWaking → Completes (.pwrCmdRun q) s (refused · 2)) ∧
      (right q → st = pwWaking → s.dev.coreOn = false → Completes (.pwrCmdRun q) s (refused · 4)) ∧
      (right q → st = pwWaking → s.dev.coreOn = true → Completes (.pwrCmdRun q) s fun t =>
        t = { s with dev := { s.dev with
                regs := t.dev.regs
                pw := { s.dev.pw with entry := none, committed := false, armed := false, wake := none, slept := [] } } } ∧
        SameWords s t [A.PWR_STAT] ∧ t.dev.rd R.PWR_STAT_STATE = pwRun)) ∧
    (∀ (q : Req) (fallow force : Bool) (c : Instr), c = (if fallow then .pwrCmdFallow q force else .pwrCmdDormant q force) →
      s.dev.permits q A.SYS_PWR_CMD ((if fallow then 3 else 2) + 256 * b2n force) →
      (¬right q → Completes c s (refused · 1)) ∧
      (right q → st ≠ pwRun → st ≠ pwIdle → Completes c s (refused · 2)) ∧
      (right q → (st = pwRun ∨ st = pwIdle) → lives ≠ [] → (force = false ∨ tenant q) → Completes c s (refused · 3)) ∧
      (right q → (st = pwRun ∨ st = pwIdle) → lives = [] → Completes c s (begins · fallow)) ∧
      (right q → (st = pwRun ∨ st = pwIdle) → lives ≠ [] → force = true → ¬tenant q → Completes c s fun t =>
        t = { s with dev := (lives.foldl Dev.stallReset s.dev).beginEntry fallow false } ∧ t.dev.rd R.PWR_STAT_STATE = pwEntering ∧
        t.dev.pw.entry = some ⟨fallow, false, false⟩ ∧ t.dev.pw.committed = false)) ∧
    (
      let idle := s.dev.on R.PWR_CTL_AUTO_DORMANT = true ∧ st ≤ pwIdle ∧ (∀ n < 9, s.dev.jobState n ≠ jobOpen) ∧
        (∀ x < 32, s.dev.on (R.SEQ_STRM_CFG_EN x) = false) ∧ s.dev.tn.live = [] ∧ s.dev.erasing = false
      (¬idle → exec .deviceIdleTimeout s = .next s) ∧
      (idle → lives = [] → Completes .deviceIdleTimeout s (begins · false)) ∧
      (idle → lives ≠ [] → Completes .deviceIdleTimeout s (refused · 3))) ∧
    (∀ (c : Instr) (ws : List Nat), (c = .entryAckTimeout ∧ ws = [A.PWR_ACK_LATE_COUNT]) ∨
        (∃ q, c = .entryAck q ∧ ws = [] ∧ s.dev.permits q A.PWR_CTL (setBit (s.dev.word A.PWR_CTL) 0)) →
      ((s.dev.pw.entry = none ∨ st ≠ pwEntering ∨ ∃ e, s.dev.pw.entry = some e ∧ e.acked = true) →
        Completes c s (OnlyRegs s · [])) ∧
      (∀ e, s.dev.pw.entry = some e → e.acked = false → st = pwEntering →
        let late : State → Prop := fun t => c = .entryAckTimeout →
          t.dev.rd R.PWR_ACK_LATE_COUNT = min (s.dev.rd R.PWR_ACK_LATE_COUNT + 1) maxWord
        (e.fallow = false → s.dev.erasing = true → Completes c s fun t => late t ∧ SameWords s t ws ∧
          t = { s with dev := { s.dev with regs := t.dev.regs, pw := { s.dev.pw with entry := some { e with acked := true } } } }) ∧
        (s.dev.pw.committed = false → s.dev.entryHeld e.fallow = false →
          (e.fallow = false ∨ ∀ x < 32, s.dev.on (R.SEQ_STRM_CFG_EN x) = false) → Completes c s fun t => late t ∧
            t.pending = s.pending ∧ t.dev.pw.entry = some { e with acked := true } ∧ t.dev.pw.committed = true ∧
            t.dev.pw.armed = false ∧ t.dev.pw.save ≠ none ∧ t.dev.rd R.PWR_STAT_STATE = pwEntering ∧
            t.dev.rd R.BARN_SAVE_STAT_VALID = 1 ∧ t.dev.rd R.BARN_SAVE_STAT_RESTORED = 0 ∧ t.dev.coreOn = false ∧
            t.dev.sy.mode = .inReset ∧ t.dev.sy.resume = s.dev.sy.mode ∧ t.dev.sy.update = none ∧ t.dev.tn.live = [] ∧
            (∀ k, t.dev.ctr k = 0) ∧ (∀ x < 64, x < 53 ∨ 57 < x ∨ e.fallow = true → t.dev.domOn x = false) ∧
            (e.fallow = true → t.dev.au.muteLow = true) ∧
            (s.dev.pw.dvfs ≠ none → t.dev.pw.dvfs = none ∧ t.dev.rd R.PWR_DVFS_STAT_BUSY = 0 ∧ t.dev.rd R.PWR_DVFS_STAT_FAIL = 1)))) ∧
    (s.dev.pw.entry = none → exec .wakeArmed s = .next s) ∧
    (∀ e, s.dev.pw.entry = some e →
      ((s.dev.pw.committed = false ∧ (e.acked = false ∨ s.dev.entryHeld e.fallow = true ∨ st ≠ pwEntering)) ∨
          (s.dev.pw.committed = true ∧ s.dev.pw.armed = true) → exec .wakeArmed s = .next s) ∧
      (s.dev.pw.committed = true → s.dev.pw.armed = false →
        (∀ x, e.crit = false → s.dev.latchLevels.pendingWake = some x → Completes .wakeArmed s fun t => t.dev.pw.armed = true ∧
          woken t x.1 x.2 (if x.1 = 1 then s.dev.rd R.BARN_KNOCK_MASK else s.dev.rd R.BARN_WAKE_MASK)) ∧
        ((e.crit = true ∨ s.dev.latchLevels.pendingWake = none) →
          (e.fallow = false ∨ s.dev.liveRegs = [] ∧ s.dev.pw.queue = [] → Completes .wakeArmed s fun t =>
            t = { s with dev := { s.dev with
                    regs := t.dev.regs
                    pw := { s.dev.pw with armed := true, timer := 0, critHold := e.crit } } } ∧
            SameWords s t [A.PWR_STAT, A.BARN_PENDING] ∧ latched t ∧ t.dev.rd R.PWR_STAT_STATE = if e.fallow then pwFallow else pwDormant) ∧
          (∀ r rs, e.fallow = true → s.dev.liveRegs = r :: rs → s.dev.pw.vout = none → s.dev.pw.queue = [] →
            let mv := s.dev.rd (R.PWR_REG_MV_FALLOW_MV r)
            Completes .wakeArmed s fun t => t.dev.rd R.PWR_STAT_STATE = pwFallow ∧
              SameWords s t [A.PWR_STAT, A.PWR_REG_ACK r, A.BARN_PENDING] ∧ latched t ∧ t.dev.rd (R.PWR_REG_ACK_STAT r) = 1 ∧
              t.dev.rd (R.PWR_REG_ACK_VOUT_ACK r) = min (s.dev.rd (R.PWR_REG_ACK_VOUT_ACK r)) mv ∧
              t = { s with dev := { s.dev with
                      regs := t.dev.regs
                      outs := s.dev.outs ++ [if mv = 0 then .pmbus r 0x01 0 else .pmbus r 0x21 (s.dev.voutWord r mv)]
                      pw := { s.dev.pw with
                        armed := true
                        timer := 0
                        critHold := e.crit
                        vout := some ⟨r, mv, .fallow⟩
                        queue := rs.map s.dev.fallowAction
                        slept := if s.dev.pw.slept.contains r then s.dev.pw.slept else s.dev.pw.slept ++ [r] } } })))) ∧
    (
      let asleep := st = pwDormant ∨ st = pwFallow
      let held : Nat → Nat → List (Nat × Nat) := fun c p =>
        if c = 5 ∨ (c, p) ∈ s.dev.pw.levels then s.dev.pw.levels else s.dev.pw.levels ++ [(c, p)]
      let lost : State → Prop := fun t =>
        SameWords s t [A.BARN_WIN_LOST_COUNT, A.PIRQ_RAW 1] ∧ (t.dev.rd (R.PIRQ_RAW 1)).testBit 2 = true ∧
        t.dev.rd R.BARN_WIN_LOST_COUNT = min (s.dev.rd R.BARN_WIN_LOST_COUNT + 1) maxWord
      let due := asleep ∧ s.dev.pw.armed = true ∧ s.dev.rd R.BARN_TIMER_CYC ≠ 0 ∧ s.dev.rd R.BARN_TIMER_CYC ≤ s.dev.pw.timer
      (∀ p : Fin 4, s.dev.domOn (53 + p.val) = true → exec (.audioFrameWake p) s = .next s) ∧
      (¬due → exec .barnTimerExpiry s = .next s) ∧
      (∀ p n, n.toNat < 16 → exec (.laneActivity p n) s = .next s) ∧
      (∀ (c : Instr) (cause port : Nat), (∃ p n, c = .laneActivity p n ∧ 16 ≤ n.toNat ∧ cause = 0 ∧ port = p.val) ∨
          (∃ p, c = .pcieTrainingDetect p ∧ cause = 2 ∧ port = p.val) ∨
          (∃ p : Fin 4, c = .audioFrameWake p ∧ cause = 3 ∧ port = p.val ∧ s.dev.domOn (53 + p.val) = false) ∨
          (c = .barnTimerExpiry ∧ cause = 5 ∧ port = 0 ∧ due) →
        (¬enabled (wakeBit cause port) ∨ ¬(st = pwEntering ∨ asleep) →
          exec c s = .next { s with dev := { s.dev with pw := { s.dev.pw with levels := held cause port } } }) ∧
        (enabled (wakeBit cause port) → (st = pwEntering ∨ (asleep ∧ s.dev.pw.critHold = true)) → Completes c s fun t =>
          t = { s with dev := { s.dev with regs := t.dev.regs, pw := { s.dev.pw with levels := held cause port } } } ∧
          SameWords s t [A.BARN_PENDING] ∧
          t.dev.rd R.BARN_PENDING_EVENTS = setBit (s.dev.rd R.BARN_PENDING_EVENTS) (wakeBit cause port)) ∧
        (enabled (wakeBit cause port) → asleep → s.dev.pw.critHold = false → Completes c s fun t =>
          woken t cause port (s.dev.rd R.BARN_WAKE_MASK) ∧ t.dev.pw.tries = 0 ∧ t.dev.pw.levels = held cause port)) ∧
      (¬enabled 14 ∨ st = pwWaking ∨ (s.dev.pw.committed = false ∧ ¬(st = pwEntering ∨ asleep)) →
        exec .i3cWakeHeader s = .next s) ∧
      (enabled 14 → s.dev.pw.committed = false → st = pwEntering → Completes .i3cWakeHeader s fun t =>
        OnlyRegs s t [A.BARN_PENDING] ∧ t.dev.rd R.BARN_PENDING_EVENTS = setBit (s.dev.rd R.BARN_PENDING_EVENTS) 14) ∧
      (enabled 14 → s.dev.pw.committed = true →
        (st = pwEntering → Completes .i3cWakeHeader s fun t =>
          t = { s with dev := { s.dev with regs := t.dev.regs, outs := s.dev.outs ++ [.i3cNack] } } ∧ lost t) ∧
        (asleep → s.dev.pw.critHold = true → Completes .i3cWakeHeader s fun t =>
          t = { s with dev := { s.dev with outs := s.dev.outs ++ [.i3cNack] } }) ∧
        (asleep → s.dev.pw.critHold = false → Completes .i3cWakeHeader s fun t =>
          woken t 4 0 (s.dev.rd R.BARN_WAKE_MASK) ∧ t.dev.outs.getLast? = some .i3cNack)) ∧
      (∀ (p : Fin 4) (bursts : List Byte) (mask : Nat), s.dev.heardKnock (bursts.map BitVec.toNat) = some mask →
        (¬enabled (4 + p.val) → (st = pwEntering ∨ asleep) → Completes (.knockAccept p bursts) s (OnlyRegs s · [])) ∧
        (asleep → s.dev.pw.critHold = true → Completes (.knockAccept p bursts) s (OnlyRegs s · [])) ∧
        (enabled (4 + p.val) → st = pwEntering → s.dev.pw.committed = true → Completes (.knockAccept p bursts) s fun t =>
          OnlyRegs s t [A.BARN_WIN_LOST_COUNT, A.PIRQ_RAW 1] ∧ lost t) ∧
        (enabled (4 + p.val) → st = pwEntering → s.dev.pw.committed = false → Completes (.knockAccept p bursts) s fun t =>
          t = { s with dev := { s.dev with regs := t.dev.regs, outs := s.dev.outs ++ [.echo p] } } ∧
          SameWords s t [A.BARN_KNOCK_MASK, A.BARN_KNOCK_MASK + 4, A.BARN_PENDING] ∧ t.dev.rd R.BARN_KNOCK_MASK = mask ∧
          t.dev.rd R.BARN_PENDING_EVENTS = setBit (s.dev.rd R.BARN_PENDING_EVENTS) (4 + p.val)) ∧
        (enabled (4 + p.val) → asleep → s.dev.pw.critHold = false → Completes (.knockAccept p bursts) s fun t =>
          woken t 1 p mask ∧ t.dev.rd R.BARN_KNOCK_MASK = mask ∧ t.dev.outs.getLast? = some (.echo p)))) ∧
    (
      let again := st = pwFallow ∧ s.dev.pw.vout = none ∧ s.dev.pw.queue = [] ∧ 0 < s.dev.pw.tries ∧ s.dev.pw.tries < 3
      (s.dev.pw.wake = none ∨ ¬again → exec .railFailRetry s = .next s) ∧
      (∀ c p m, s.dev.pw.wake = some (c, p, m) → c < 6 → p < 4 → again → Completes .railFailRetry s fun t =>
        t.dev.pw.tries = s.dev.pw.tries ∧
        woken t c p (if c = 1 then s.dev.rd R.BARN_KNOCK_MASK else s.dev.rd R.BARN_WAKE_MASK))) ∧
    (∀ ok : Bool,
      let due := st = pwWaking ∧ s.dev.domOn 62 = true ∧ s.dev.domOn 63 = true ∧ s.dev.on R.BARN_SAVE_STAT_RESTORED = false
      (¬due ∨ s.dev.pw.save = none → exec (.saveRestoreDone ok) s = .next { s with dev := s.dev.payOwed }) ∧
      (∀ x : Save, due → s.dev.pw.save = some x →
        (ok = false → Completes (.saveRestoreDone ok) s fun t => t.pending = s.pending ∧ t.dev.sy.mode = .rom ∧
          t.dev.rd R.SYS_RESET_CAUSE = 3 ∧ t.dev.rd R.BARN_SAVE_STAT_CRC_FAIL = 1) ∧
        (ok = true → x.regs.wf resetWord = true → Completes (.saveRestoreDone ok) s fun t => ∃ u : Dev,
          let off : Nat → Bool := fun a => domains.any (fun y => !s.dev.domOn y && (domainPages y).contains (a / 4096))
          t = { s with dev := u.payOwed } ∧
          u = { s.dev with
                  regs := u.regs
                  mem := { s.dev.mem with training := x.training }
                  tn := { s.dev.tn with rick := u.tn.rick }
                  pw := { s.dev.pw with restored := x.regs.keep off, rising := u.pw.rising } } ∧
          u.rd R.BARN_SAVE_STAT_RESTORED = 1 ∧
          (∀ a, a ≠ A.BARN_SAVE_STAT → (∀ b < 16, a ≠ A.THR_GANG b) → u.word a =
            if x.regs.cells.any (fun c => c.1 == a && saveMask c.1 != 0) && !off a then (x.regs.get resetWord a).toNat
            else s.dev.word a) ∧
          (∀ b < 16, ∀ y < 32, u.on (R.SEQ_STRM_CFG_EN y) = true →
            (u.rd (R.SEQ_STRM_BAYS_PINNED y) ||| u.rd (R.SEQ_STRM_BAYS_STANDBY y)).testBit b = true →
            u.on (R.THR_GANG_PINNED b) = true) ∧
          (∀ i, u.ctr i = if i < 256 then x.ctrs.getD i 0 % 2 ^ 32 else s.dev.ctr i) ∧
          ∀ y ∈ u.wakeSet, u.domOn y = true ∨ y ∈ u.pw.rising)))

/-- Domains gate, come on, drain and are forced off; pads are released; regulators and DVFS follow their acknowledgments
(spec/17_power_and_thermal.md R330, spec/17_power_and_thermal.md R331, spec/17_power_and_thermal.md Table 17-5,
spec/17_power_and_thermal.md R341, spec/17_power_and_thermal.md R347, spec/17_power_and_thermal.md R348,
spec/17_power_and_thermal.md R349, spec/17_power_and_thermal.md R350, spec/17_power_and_thermal.md R351,
spec/17_power_and_thermal.md R352, spec/18_steward_firmware_and_management.md R380,
spec/18_steward_firmware_and_management.md R381). -/
def Obligations.SupplyAndDomains : Prop :=
  ∀ (s : State), s.dev.sy.coldHold = false →
    let st := s.dev.pwState
    let pw := s.dev.pw
    let cleared : State → Nat → Prop := fun t x => t.pending = s.pending ∧ t.dev.domOn x = false ∧
      (t.dev.rd R.PWR_DOM_GATED).testBit x = false ∧
      ∀ a, a / 4096 ∈ domainPages x → survives a = false → t.dev.word a = (resetWord a).toNat
    let domEnWords : List Nat := [A.PWR_DOM_EN, A.PWR_DOM_EN + 4, A.SYS_MGMT_DIS, A.SYS_MGMT_DIS + 4]
    (∀ x : Fin 64,
      let busy : Nat → Prop := fun y => s.dev.dataView y = 1 ∨
        (53 ≤ y ∧ y ≤ 57 ∧ ∃ z < 32, s.dev.on (R.SEQ_STRM_CFG_EN z) = true)
      let blocked := s.dev.coreOn = false ∨ s.dev.domOn x = false ∨ busy x ∨ pwIdle < st
      let g := setBit (s.dev.rd R.PWR_DOM_GATED) x
      (blocked → exec (.domainGate x) s = .next s) ∧
      (¬blocked → Completes (.domainGate x) s fun t => OnlyRegs s t [A.PWR_DOM_GATED, A.PWR_DOM_GATED + 4, A.PWR_STAT] ∧
        t.dev.rd R.PWR_DOM_GATED = g ∧
        ((∀ y < 64, s.dev.domOn y = true → g.testBit y = true ∧ ¬busy y) → t.dev.rd R.PWR_STAT_STATE = pwIdle) ∧
        (¬(∀ y < 64, s.dev.domOn y = true → g.testBit y = true ∧ ¬busy y) → t.dev.rd R.PWR_STAT_STATE = st))) ∧
    (∀ x : Fin 64,
      let quiet := ∀ n : Fin 9, n ≠ 0 → (s.dev.rd (R.STL_Q_BAYS_MASK n)).testBit x = false
      (pw.rising.head? ≠ some x.val → (s.dev.sy.mode ≠ .inReset ∨ s.dev.domOn 58 = false) → exec (.domainOn x) s = .next s) ∧
      (pw.rising.head? = some x.val →
        (s.dev.sy.mode ≠ .inReset ∨ (s.dev.domOn 58 = false ∧ x ≠ 58) → Completes (.domainOn x) s fun t =>
          t.pending = s.pending ∧ t.dev.domOn x = true ∧ t.dev.pw.rising = pw.rising.tail ∧
          t.dev.pw.ret = pw.ret.filter (· != x.val) ∧
          ((24 ≤ x.val ∧ x.val < 40) → (x.val - 24 ∈ t.dev.mem.bankPend ↔ x.val ∉ pw.ret ∨ x.val - 24 ∈ s.dev.mem.bankPend)) ∧
          ((40 ≤ x.val ∧ x.val < 44) → (t.dev.rd R.CEL_STAT_SR).testBit (x.val - 40) = false) ∧
          ((53 ≤ x.val ∧ x.val < 57) → (3, x.val - 53) ∉ t.dev.pw.levels) ∧
          t.dev.pw.pads = pw.pads.filter (fun y => !(padDomain y == x.val && y.2.2 == .float)) ∧
          ((x.val < 16 → quiet) → (x.val ∉ pw.ret ∨ (24 ≤ x.val ∧ x.val < 44)) →
            ((46 ≤ x.val ∧ x.val < 50) → ∀ c ∈ pw.restored.cells, c.1 ≠ A.FUR_CTL (x.val - 46)) →
            pw.restored.wf resetWord = true →
            ∀ a, a ∉ [A.PWR_DOM_ON, A.PWR_DOM_ON + 4, A.BARN_PAD_STAT] → (a = A.CEL_STAT → x.val < 40 ∨ 44 ≤ x.val) →
              t.dev.word a = if x.val ∈ pw.ret ∨ a / 4096 ∉ domainPages x then s.dev.word a
                else if pw.restored.cells.any (fun c => c.1 == a) then (pw.restored.get resetWord a).toNat
                else if survives a = true then s.dev.word a
                else (resetWord a).toNat)) ∧
        (s.dev.sy.mode = .inReset → x = 58 → Completes (.domainOn x) s fun t => t.dev.domOn 58 = true ∧
          t.dev.sy.mode = s.dev.sy.resume ∧ t.dev.rd R.SYS_WDOG_CTL_EN = 1 ∧ t.dev.sy.priv = 3 ∧
          t.dev.sy.pc = if s.dev.sy.resume = .image then 0x38000000 + s.dev.sy.entry else 0))) ∧
    (∀ (q : Req) (g : BitVec 5), s.dev.permits q A.BARN_PAD_RELEASE g.toNat → Completes (.padRelease q g) s fun t =>
      let kept := pw.pads.filter (fun y => !(y.1 < 5 && g.toNat.testBit y.1 && s.dev.domOn (padDomain y)))
      let late := ∃ i < 5, g.toNat.testBit i = true ∧ (s.dev.groupOn i = false ∨ ∃ y ∈ kept, y.1 = i)
      t = { s with dev := { s.dev with
              regs := t.dev.regs
              outs := t.dev.outs
              pw := { pw with pads := kept }
              au := { s.dev.au with muteLow := t.dev.au.muteLow } } } ∧
      (∀ i < 5, (t.dev.rd R.BARN_PAD_STAT_HELD).testBit i = true ↔ ∃ y ∈ kept, y.1 = i ∧ y.2.2 ≠ .float) ∧
      (∀ y ∈ pw.pads, y ∉ kept → Out.pad y.1 y.2.1 none ∈ t.dev.outs) ∧
      (¬late → SameWords s t [A.BARN_PAD_STAT]) ∧
      (late → SameWords s t [A.BARN_PAD_STAT, A.PERR_COUNT 1, A.PERR_FIRST 1] ∧
        t.dev.rd (R.PERR_COUNT 1) = min (s.dev.rd (R.PERR_COUNT 1) + 1) maxWord)) ∧
    (∀ (q : Req) (r : Fin 4) (v : BitVec 32) (mode : BitVec 8) (raw : Option (BitVec 16)), s.dev.permits q (A.PWR_REG_CFG r) v.toNat →
      let new := v.toNat.testBit 7 = true ∧ s.dev.on (R.PWR_REG_CFG_EN r) = false
      (3 ≤ bits v.toNat 8 3 → Completes (.regulatorEnable q r v mode raw) s fun t =>
        Counted s t 2 2 (A.PWR_REG_CFG r % 4096) q causeValue) ∧
      (bits v.toNat 8 3 < 3 → Completes (.regulatorEnable q r v mode raw) s fun t =>
        t.dev.on (R.PWR_REG_CFG_EN r) = v.toNat.testBit 7 ∧ t.dev.rd (R.PWR_REG_CFG_RAIL r) = bits v.toNat 8 3 ∧
        t.dev.rd (R.PWR_REG_CFG_ADDR r) = bits v.toNat 0 7 ∧
        (¬new → OnlyRegs s t [A.PWR_REG_CFG r]) ∧
        (new → OnlyRegs s t [A.PWR_REG_CFG r, A.PWR_REG_ACK r] ∧ t.dev.rd (R.PWR_REG_CFG_VOUT_MODE r) = mode.toNat % 32 ∧
          (mode.toNat / 32 ≠ 0 → t.dev.rd (R.PWR_REG_ACK_STAT r) = 2 ∧
            t.dev.rd (R.PWR_REG_ACK_VOUT_ACK r) = s.dev.rd (R.PWR_REG_ACK_VOUT_ACK r)) ∧
          (mode.toNat / 32 = 0 → t.dev.rd (R.PWR_REG_ACK_STAT r) = 0 ∧
            t.dev.rd (R.PWR_REG_ACK_VOUT_ACK r) = match raw with
              | none => 0
              | some x => min (if 16 ≤ mode.toNat then x.toNat * 1000 / 2 ^ (32 - mode.toNat)
                  else x.toNat * 1000 * 2 ^ mode.toNat) 65535)))) ∧
    (pw.vout = none → (∀ a b, exec (.voutAcknowledged a b) s = .next s) ∧ exec .voutAckTimeout s = .next s) ∧
    (∀ v, pw.vout = some v → v.reg < 4 → v.mv < 65536 →
      let acked : State → Prop := fun t => t.dev.rd (R.PWR_REG_ACK_VOUT_ACK v.reg) = v.mv ∧ t.dev.rd (R.PWR_REG_ACK_STAT v.reg) = 0
      let failed : State → Prop := fun t => t.dev.rd (R.PWR_REG_ACK_STAT v.reg) = 3 ∧
        t.dev.rd (R.PWR_REG_FAIL_ACK_FAIL_COUNT v.reg) = min (s.dev.rd (R.PWR_REG_FAIL_ACK_FAIL_COUNT v.reg) + 1) maxWord ∧
        (t.dev.rd (R.PIRQ_RAW 2)).testBit 2 = true
      let confirms : BitVec 16 → BitVec 16 → Prop := fun a b =>
        if v.use = .fallow ∧ v.mv = 0 then b.getLsbD 6 = true
        else
          let e := toSigned 5 (s.dev.rd (R.PWR_REG_CFG_VOUT_MODE v.reg))
          let got := 1000 * (1000 * a.toNat * 2 ^ e.toNat)
          let want := v.mv * 2 ^ (-e).toNat
          985 * want ≤ got ∧ got ≤ 1015 * want ∧ b &&& 0xE8FE = 0
      (∀ a b, ¬confirms a b → exec (.voutAcknowledged a b) s = .next s) ∧
      let plain := v.use = .fallow ∨ v.use = .run ∨ pw.dvfs = none
      let e := (s.dev.wr (R.PWR_REG_ACK_VOUT_ACK v.reg) v.mv).wr (R.PWR_REG_ACK_STAT v.reg) 0
      (∀ a b, confirms a b → plain → pw.queue = [] → Completes (.voutAcknowledged a b) s fun t => acked t ∧ SameWords s t [A.PWR_REG_ACK v.reg] ∧
        t = { s with dev := { s.dev with regs := t.dev.regs, pw := { pw with vout := none, rising := t.dev.pw.rising } } } ∧
        (st = pwWaking → ∀ x ∈ [62, 63, 60, 52, 59, 58], t.dev.domOn x = true ∨ x ∈ t.dev.pw.rising) ∧
        (st ≠ pwWaking → t.dev.pw.rising = pw.rising)) ∧
      (∀ a b w ws, confirms a b → plain → pw.queue = w :: ws → w.reg < 4 → Completes (.voutAcknowledged a b) s fun t =>
        t.dev.pw.vout = some w ∧ t.dev.pw.queue = ws ∧ t.dev.rd (R.PWR_REG_ACK_STAT w.reg) = 1 ∧ t.dev.pw.rising = pw.rising ∧
        (w.reg ≠ v.reg → acked t) ∧ SameWords s t [A.PWR_REG_ACK v.reg, A.PWR_REG_ACK w.reg]) ∧
      (∀ a b, confirms a b → v.use = .lower → pw.dvfs ≠ none → pw.queue = [] → Completes (.voutAcknowledged a b) s fun t => acked t ∧ t.dev.pw.dvfs = none ∧
        t.dev.pw.vout = none ∧ t.dev.rd R.PWR_DVFS_STAT_BUSY = 0 ∧ t.dev.rd R.PWR_DVFS_STAT_DONE = 1 ∧
        (t.dev.rd (R.PIRQ_RAW 2)).testBit 3 = true ∧ SameWords s t [A.PWR_REG_ACK v.reg, A.PWR_DVFS_STAT, A.PIRQ_RAW 2]) ∧
      (∀ a b x, confirms a b → v.use = .raise → pw.dvfs = some x → pw.queue = [] → Completes (.voutAcknowledged a b) s fun t => acked t ∧
        t.dev.pw.vout = none ∧
        (e.divOk x.step = true → t.dev.rd R.CLK_TCLK_DIV_REQ = x.step ∧ t.dev.ck.divDue = true ∧ t.dev.pw.dvfs = some x ∧
          SameWords s t [A.PWR_REG_ACK v.reg, A.CLK_TCLK_DIV]) ∧
        (e.divOk x.step = false → t.dev.rd R.PWR_DVFS_STAT_BUSY = 0 ∧ t.dev.rd R.PWR_DVFS_STAT_FAIL = 1 ∧ t.dev.pw.dvfs = none ∧
          SameWords s t [A.PWR_REG_ACK v.reg, A.PWR_DVFS_STAT])) ∧
      (v.use = .raise ∨ v.use = .lower → pw.dvfs ≠ none → pw.queue = [] → Completes .voutAckTimeout s fun t => failed t ∧
        t.dev.rd R.PWR_DVFS_STAT_BUSY = 0 ∧ t.dev.rd R.PWR_DVFS_STAT_FAIL = 1 ∧
        SameWords s t [A.PWR_REG_ACK v.reg, A.PWR_REG_FAIL v.reg, A.PIRQ_RAW 2, A.PWR_DVFS_STAT] ∧
        t = { s with dev := { s.dev with regs := t.dev.regs, pw := { pw with vout := none, dvfs := none } } }) ∧
      ((v.use = .fallow ∧ st ≠ pwWaking) ∨ (v.use ≠ .fallow ∧ v.use ≠ .run ∧ pw.dvfs = none) → pw.queue = [] → Completes .voutAckTimeout s fun t => failed t ∧
        SameWords s t [A.PWR_REG_ACK v.reg, A.PWR_REG_FAIL v.reg, A.PIRQ_RAW 2] ∧
        t = { s with dev := { s.dev with regs := t.dev.regs, pw := { pw with vout := none } } }) ∧
      (v.use = .run → Completes .voutAckTimeout s fun t => t.dev.rd R.BARN_WAKE_STAT_RAIL_FAIL = 1 ∧
        t.dev.rd R.PWR_STAT_STATE = pwFallow ∧ t.dev.pw.tries = pw.tries + 1 ∧ t.dev.pw.wake = pw.wake ∧
        (t.dev.rd (R.PIRQ_RAW 2)).testBit 2 = true ∧
        match t.dev.liveRegs with
        | [] => t.dev.pw.vout = none ∧ t.dev.pw.queue = []
        | r :: rs => t.dev.pw.vout = some (s.dev.fallowAction r) ∧ t.dev.pw.queue = rs.map s.dev.fallowAction)) ∧
    (∀ (q : Req) (step : BitVec 2) (mv : BitVec 16), s.dev.permits q A.PWR_DVFS_CTL (step.toNat + mv.toNat * 65536) →
      let cur := s.dev.rd R.CLK_TCLK_DIV_CUR
      let faster := decide (step.toNat < cur ∨ (step.toNat = cur ∧ s.dev.coreMv < mv.toNat))
      let x : Dvfs := ⟨step.toNat, mv.toNat, faster⟩
      (s.dev.on R.PWR_DVFS_STAT_BUSY = true → Completes (.dvfsRequest q step mv) s fun t =>
        Counted s t 2 2 (A.PWR_DVFS_CTL % 4096) q causeValue) ∧
      (s.dev.on R.PWR_DVFS_STAT_BUSY = false →
        (∀ r rs, faster = true → s.dev.coreRegs = r :: rs → pw.vout = none → pw.queue = [] →
          Completes (.dvfsRequest q step mv) s fun t =>
            t = { s with dev := { s.dev with
                    regs := t.dev.regs
                    outs := s.dev.outs ++ [.pmbus r 0x21 (s.dev.voutWord r mv.toNat)]
                    pw := { pw with dvfs := some x, vout := some ⟨r, mv.toNat, .raise⟩ } } } ∧
            SameWords s t [A.PWR_DVFS_STAT, A.PWR_REG_ACK r] ∧ t.dev.rd R.PWR_DVFS_STAT_BUSY = 1 ∧
            t.dev.rd (R.PWR_REG_ACK_STAT r) = 1 ∧
            t.dev.rd (R.PWR_REG_ACK_VOUT_ACK r) = min (s.dev.rd (R.PWR_REG_ACK_VOUT_ACK r)) mv.toNat) ∧
        (faster = false ∨ s.dev.coreRegs = [] → s.dev.divOk step.toNat = true → Completes (.dvfsRequest q step mv) s fun t =>
          t = { s with dev := { s.dev with
                  regs := t.dev.regs
                  ck := { s.dev.ck with divDue := true }
                  pw := { pw with dvfs := some x } } } ∧
          SameWords s t [A.PWR_DVFS_STAT, A.CLK_TCLK_DIV] ∧ t.dev.rd R.PWR_DVFS_STAT_BUSY = 1 ∧
          t.dev.rd R.CLK_TCLK_DIV_REQ = step.toNat ∧ t.dev.rd R.CLK_TCLK_DIV_CUR = cur) ∧
        (faster = false ∨ s.dev.coreRegs = [] → s.dev.divOk step.toNat = false → Completes (.dvfsRequest q step mv) s fun t =>
          t = { s with dev := { s.dev with regs := t.dev.regs, pw := { pw with dvfs := none } } } ∧
          SameWords s t [A.PWR_DVFS_STAT] ∧ t.dev.rd R.PWR_DVFS_STAT_BUSY = 0 ∧ t.dev.rd R.PWR_DVFS_STAT_FAIL = 1))) ∧
    (∀ (q : Req) (x : Fin 64),
      let addr := A.PWR_DOM_EN + 4 * (x.val / 32)
      let takes : Nat → Bool := fun y => decide (q = .mgmt ∧ y / 32 = x.val / 32) && !s.dev.domEn y
      s.dev.permits q addr (clrBit (s.dev.word addr) (x.val % 32)) → (∀ y ∈ mandatory, s.dev.domEn y = true) →
      (x.val ∈ mandatory → (∀ y, takes y = false) → Completes (.domainDisable q x) s fun t =>
        Counted s t 2 2 (addr % 4096) q causeValue) ∧
      (x.val ∉ mandatory → Completes (.domainDisable q x) s fun t =>
        (∀ y < 64, t.dev.domEn y = (s.dev.domEn y && y != x.val)) ∧
        (∀ y < 64, t.dev.mgmtDis y = (s.dev.mgmtDis y || takes y || decide (q = .mgmt ∧ y = x.val))) ∧
        (s.dev.domEn x = false → OnlyRegs s t domEnWords) ∧
        (s.dev.domEn x = true →
          (s.dev.domOn x = false → SameWords s t domEnWords ∧
            t = { s with dev := { s.dev with regs := t.dev.regs, pw := { pw with rising := pw.rising.filter (· != x.val) } } }) ∧
          (s.dev.domOn x = true → s.dev.dataView x = 0 → cleared t x) ∧
          (s.dev.domOn x = true → s.dev.dataView x ≠ 0 → x.val ∈ t.dev.pw.draining ∧ t.dev.domOn x = true ∧
            (t.dev.word A.SYS_MGMT_IRQ_STAT).testBit 6 = true ∧
            (16 ≤ x.val → SameWords s t (A.SYS_MGMT_IRQ_STAT :: domEnWords) ∧
              t = { s with dev := { s.dev with
                      regs := t.dev.regs
                      outs := t.dev.outs
                      pw := { pw with draining := pw.draining ++ [x.val] } } }))))) ∧
    (∀ (q : Req) (x : Fin 64),
      let addr := A.PWR_DOM_EN + 4 * (x.val / 32)
      let takes : Nat → Bool := fun y => decide (q = .mgmt ∧ y / 32 = x.val / 32 ∧ y ≠ x.val) && !s.dev.domEn y
      s.dev.permits q addr (setBit (s.dev.word addr) (x.val % 32)) → (∀ y ∈ mandatory, y ≠ x.val → s.dev.domEn y = true) →
      (s.dev.domEn x = false → s.dev.mgmtDis x = true → q ≠ .mgmt → Completes (.domainEnable q x) s fun t =>
        Counted s t 2 2 (addr % 4096) q causeAccess) ∧
      (s.dev.domEn x = true ∨ s.dev.mgmtDis x = false ∨ q = .mgmt → Completes (.domainEnable q x) s fun t =>
        SameWords s t domEnWords ∧ (∀ y < 64, t.dev.domEn y = (s.dev.domEn y || y == x.val)) ∧
        (∀ y < 64, y ≠ x.val → t.dev.mgmtDis y = (s.dev.mgmtDis y || takes y)) ∧
        t.dev.mgmtDis x = (s.dev.domEn x && s.dev.mgmtDis x) ∧
        (s.dev.domEn x = true → t = { s with dev := { s.dev with regs := t.dev.regs } }) ∧
        (s.dev.domEn x = false → t = { s with dev := { s.dev with
            regs := t.dev.regs
            pw := { pw with
              draining := pw.draining.filter (· != x.val)
              rising := if x.val ∈ pw.forcing ∨ s.dev.domOn x = true ∨ x.val ∈ pw.rising then pw.rising
                else pw.rising ++ [x.val] } } }))) ∧
    (∀ x : Fin 64,
      (x.val ∉ pw.draining ∨ s.dev.dataView x ≠ 0 → exec (.drainDone x) s = .next s) ∧
      (x.val ∈ pw.draining → s.dev.dataView x = 0 → Completes (.drainDone x) s fun t => cleared t x ∧ x.val ∉ t.dev.pw.draining)) ∧
    (∀ (q : Req) (x : Fin 64),
      let addr := A.SYS_DOM_FORCE + 4 * (x.val / 32)
      let work := (s.dev.troughsIn x).map s.dev.stallOf ++ s.dev.holdersIn x
      let audio := 53 ≤ x.val ∧ x.val ≤ 57
      s.dev.permits q addr (2 ^ (x.val % 32)) →
      (x.val ∈ mandatory → Completes (.domainForceOff q x) s fun t => Counted s t 0 0 (addr % 4096) q causeValue) ∧
      (x.val ∉ mandatory → Completes (.domainForceOff q x) s fun t =>
        (∀ y < 64, t.dev.domEn y = (s.dev.domEn y && y != x.val)) ∧ (∀ y < 64, t.dev.mgmtDis y = (s.dev.mgmtDis y || y == x.val)) ∧
        (s.dev.domOn x = false → SameWords s t domEnWords ∧
          t = { s with dev := { s.dev with regs := t.dev.regs, pw := { pw with rising := pw.rising.filter (· != x.val) } } }) ∧
        (s.dev.domOn x = true → x.val ∈ t.dev.pw.forcing ∧ x.val ∉ t.dev.pw.draining ∧ t.dev.mgmtView x = 3 ∧
          (∀ n : Fin 9, ¬audio → n.val ∈ work → (∀ m ∈ work, m = n.val) → s.dev.jobState n = jobOpen →
            t.dev.jobState n = jobFaulted ∧ t.dev.rd (R.STL_JOB_STAT_STATUS n) = stForcedOff) ∧
          (¬audio → work = [] → ¬(20 ≤ x.val ∧ x.val < 24) →
            SameWords s t (A.SYS_MGMT_IRQ_STAT :: domEnWords) ∧
            (s.dev.dataView x ≠ 0 → (t.dev.word A.SYS_MGMT_IRQ_STAT).testBit 6 = true) ∧
            t = { s with dev := { s.dev with
                    regs := t.dev.regs
                    outs := t.dev.outs
                    pw := { pw with
                      draining := pw.draining.filter (· != x.val)
                      forcing := if pw.forcing.contains x.val then pw.forcing else pw.forcing ++ [x.val] } } })))) ∧
    (∀ x : Fin 64,
      let fading := 53 ≤ x.val ∧ x.val ≤ 57 ∧ (s.dev.streamsIn x ≠ [] ∨ (x.val ≠ 57 ∧ s.dev.portLive (x.val - 53) = true))
      (x.val ∉ pw.forcing ∨ fading → exec (.forcedOffDone x) s = .next s) ∧
      (x.val ∈ pw.forcing → ¬fading → Completes (.forcedOffDone x) s fun t => cleared t x ∧ x.val ∉ t.dev.pw.forcing ∧
        (x.val ∈ t.dev.pw.rising ↔ s.dev.domEn x = true)))

/-- Samples give the hot value and the dwells; thresholds cross and clear after 256 values; THROTTLE steps CAP; CRIT sleeps
(spec/17_power_and_thermal.md R353, spec/17_power_and_thermal.md R354, spec/17_power_and_thermal.md R355,
spec/17_power_and_thermal.md R356, spec/17_power_and_thermal.md R357, spec/17_power_and_thermal.md R358,
spec/19_faults_resets_and_restart.md Table 19-5). -/
def Obligations.Thermal : Prop :=
  ∀ (s : State), s.dev.sy.coldHold = false →
    let pw := s.dev.pw
    let cap := s.dev.rd R.THM_CAP_STEP
    let overload := s.dev.paused = false ∧
      s.dev.rd R.THM_LOAD_RT_LIMIT * stepDiv (s.dev.rd R.CLK_TCLK_DIV_CUR) < s.dev.rtLoad * stepDiv (cap + 1)
    let slower : State → Prop := fun t =>
      (3 ≤ cap → t.dev.rd R.THM_CAP_STEP = cap ∧ t.dev.rd R.THM_STEP_COUNT = s.dev.rd R.THM_STEP_COUNT ∧
        t.dev.word A.THR_BATCH_CTL = s.dev.word A.THR_BATCH_CTL ∧ t.dev.cp = s.dev.cp) ∧
      (cap < 3 → t.dev.rd R.THM_CAP_STEP = cap + 1 ∧
        t.dev.rd R.THM_STEP_COUNT = min (s.dev.rd R.THM_STEP_COUNT + 1) maxWord ∧
        (¬overload → t.dev.word A.THR_BATCH_CTL = s.dev.word A.THR_BATCH_CTL ∧ t.dev.cp = s.dev.cp) ∧
        (overload → t.dev.rd R.THR_BATCH_CTL_CAUSE_THERMAL = 1 ∧ t.dev.rd R.THR_BATCH_CTL_PAUSED = 1 ∧
          ∀ r ∈ s.dev.cp.thr.runs, r.trough.rt = none → r.folds + 1 < r.tile.folds →
            ∃ r' ∈ t.dev.cp.thr.runs, r'.leader = r.leader ∧ r'.yielding = true))
    let mine : Nat → Prop := fun n => 1 ≤ n ∧ n < 9 ∧ ∃ b < 16, (s.dev.rd (R.STL_Q_BAYS_MASK n)).testBit b = true
    let calm := s.dev.cp.thr.warm = [] ∧ (∀ p < 4, (s.dev.link p).txq = []) ∧ (overload → s.dev.cp.thr.runs = [])
    let raised : State → Prop := fun t => calm → ∀ n f, mine n → s.dev.funcOf n = some f →
      if (s.dev.bar4 f (16 * 7 + 12)).testBit 0 then (t.dev.bar4 f 0x1000).testBit 7 = true
      else s.dev.hostUp f = true → Out.msix f 7 (s.dev.bar4 f (16 * 7) + 2 ^ 32 * s.dev.bar4 f (16 * 7 + 4)) (s.dev.bar4 f (16 * 7 + 8)) ∈
        t.dev.outs
    let away : State → List Nat → Prop := fun t ws =>
      calm → ∀ a, a ∉ ws → a / 4096 ∉ [0x48, 0x49, 0x4A, 0x4B] → t.dev.word a = s.dev.word a
    let keeps : State → Power → Prop := fun t w =>
      t = { s with dev := { s.dev with
              regs := t.dev.regs
              outs := t.dev.outs
              cp := { s.dev.cp with thr := t.dev.cp.thr }
              fu := t.dev.fu
              bus := { s.dev.bus with bar4 := t.dev.bus.bar4 }
              pw := w } } ∧
      t.dev.cp.thr.yielded = s.dev.cp.thr.yielded
    let spent : Power := { pw with throttle := { pw.throttle with above := pw.throttle.above - 256 } }
    let told : State → Prop := fun t => (t.dev.word A.SYS_MGMT_IRQ_STAT).testBit 2 = true
    let flags : State → List Nat → Prop := fun t ws =>
      t = { s with dev := { s.dev with regs := t.dev.regs, outs := t.dev.outs } } ∧ SameWords s t (A.SYS_MGMT_IRQ_STAT :: ws) ∧ told t
    (∀ raw : List (BitVec 16),
      let vals : Nat → List Int := fun i => ((raw.getD i 0).toInt :: pw.temps.get (fun _ => []) i).take 32
      let mean : Nat → Int := fun i => (vals i).foldl (· + ·) 0 / ((vals i).length : Int)
      let good : Nat → Prop := fun i => i < 12 ∧ -1024 ≤ mean i ∧ mean i ≤ 2400
      let top : Nat → Prop := fun h => good h ∧ ∀ j, good j → mean j ≤ mean h ∧ (mean j = mean h → h ≤ j)
      let run : Dwell → Int → Int → Dwell := fun w hot deg =>
        ⟨if 16 * deg ≤ hot then w.above + 1 else 0, if hot ≤ 16 * deg - 64 then w.below + 1 else 0⟩
      Completes (.thermalSample raw) s fun t =>
        t = { s with dev := { s.dev with
                regs := t.dev.regs
                pw := { pw with temps := t.dev.pw.temps, warn := t.dev.pw.warn, throttle := t.dev.pw.throttle, crit := t.dev.pw.crit } } } ∧
        SameWords s t ([A.THM_STAT, A.THM_HOT] ++ (List.range 12).map A.THM_TEMP) ∧
        (∀ i, t.dev.pw.temps.get (fun _ => []) i = if i < 12 then vals i else pw.temps.get (fun _ => []) i) ∧
        (∀ i < 12, t.dev.rd (R.THM_TEMP_VALUE i) = (mean i % 65536).toNat) ∧
        ((∃ i < 12, ¬good i) → t.dev.rd R.THM_STAT_SENSOR_FAULT = 1) ∧
        ((∀ i < 12, good i) → t.dev.word A.THM_STAT = s.dev.word A.THM_STAT) ∧
        ((∀ i < 12, ¬good i) → t.dev.word A.THM_HOT = s.dev.word A.THM_HOT ∧ t.dev.pw.warn = ⟨0, 0⟩ ∧
          t.dev.pw.throttle = ⟨0, 0⟩ ∧ t.dev.pw.crit = ⟨0, 0⟩) ∧
        ∀ h, top h → t.dev.rd R.THM_HOT_SENSOR = h ∧ t.dev.rd R.THM_HOT_VALUE = (mean h % 65536).toNat ∧
          t.dev.pw.warn = run pw.warn (mean h) (s.dev.rd R.THM_THRESH_WARN) ∧
          t.dev.pw.throttle = run pw.throttle (mean h) (s.dev.rd R.THM_THRESH_THROTTLE) ∧
          t.dev.pw.crit = run pw.crit (mean h) (s.dev.rd R.THM_THRESH_CRIT)) ∧
    (pw.warn.above < 256 ∨ s.dev.on R.THM_STAT_WARN = true → exec (.thresholdCross 0) s = .next s) ∧
    (256 ≤ pw.warn.above → s.dev.on R.THM_STAT_WARN = false → Completes (.thresholdCross 0) s fun t =>
      flags t [A.THM_STAT, A.THM_WARN_SET, A.PIRQ_RAW 3] ∧ t.dev.rd R.THM_STAT_WARN = 1 ∧
      t.dev.rd R.THM_STAT_THROTTLE = s.dev.rd R.THM_STAT_THROTTLE ∧
      t.dev.rd R.THM_WARN_SET_COUNT = min (s.dev.rd R.THM_WARN_SET_COUNT + 1) maxWord ∧ (t.dev.rd (R.PIRQ_RAW 3)).testBit 0 = true) ∧
    (pw.throttle.above < 256 ∨ s.dev.on R.THM_STAT_THROTTLE = true → exec (.thresholdCross 1) s = .next s) ∧
    (256 ≤ pw.throttle.above → s.dev.on R.THM_STAT_THROTTLE = false → Completes (.thresholdCross 1) s fun t =>
      told t ∧ slower t ∧ raised t ∧ keeps t spent ∧
      away t [A.SYS_MGMT_IRQ_STAT, A.THM_STAT, A.THM_THR_SET, A.PIRQ_RAW 3, A.THM_CAP, A.THM_STEP_COUNT, A.THR_BATCH_CTL] ∧
      t.dev.rd R.THM_STAT_THROTTLE = 1 ∧ (t.dev.rd (R.PIRQ_RAW 3)).testBit 1 = true ∧
      t.dev.rd R.THM_THR_SET_COUNT = min (s.dev.rd R.THM_THR_SET_COUNT + 1) maxWord) ∧
    (pw.crit.above < 256 ∨ s.dev.on R.THM_STAT_CRIT = true → exec (.thresholdCross 2) s = .next s) ∧
    (256 ≤ pw.crit.above → s.dev.on R.THM_STAT_CRIT = false → Completes (.thresholdCross 2) s fun t => t.pending = s.pending ∧
      t.dev.au.muteLow = true ∧ t.dev.rd R.SYS_RESET_CAUSE = 5 ∧ t.dev.rd R.BARN_WAKE_STAT_CRIT = 1 ∧
      t.dev.rd R.SYS_FATAL_COUNT = min (s.dev.rd R.SYS_FATAL_COUNT + 1) (2 ^ R.SYS_FATAL_COUNT.width - 1) ∧
      t.dev.rd R.PWR_STAT_STATE = pwEntering ∧ t.dev.pw.entry = some ⟨true, true, true⟩ ∧ t.dev.pw.committed = true ∧
      t.dev.rd R.BARN_SAVE_STAT_VALID = 1 ∧ t.dev.sy.mode = .inReset ∧ (∀ n < 9, t.dev.jobState n = jobClosed) ∧
      ∀ x < 64, t.dev.domOn x = false) ∧
    (pw.warn.below < 256 ∨ s.dev.on R.THM_STAT_WARN = false → exec (.thresholdClear 0) s = .next s) ∧
    (256 ≤ pw.warn.below → s.dev.on R.THM_STAT_WARN = true → Completes (.thresholdClear 0) s fun t =>
      flags t [A.THM_STAT, A.THM_WARN_CLR] ∧ t.dev.rd R.THM_STAT_WARN = 0 ∧
      t.dev.rd R.THM_WARN_CLR_COUNT = min (s.dev.rd R.THM_WARN_CLR_COUNT + 1) maxWord) ∧
    (pw.throttle.below < 256 ∨ s.dev.on R.THM_STAT_THROTTLE = false → exec (.thresholdClear 1) s = .next s) ∧
    (256 ≤ pw.throttle.below → s.dev.on R.THM_STAT_THROTTLE = true → Completes (.thresholdClear 1) s fun t => told t ∧
      t.dev.rd R.THM_STAT_THROTTLE = 0 ∧ t.dev.rd R.THM_THR_CLR_COUNT = min (s.dev.rd R.THM_THR_CLR_COUNT + 1) maxWord ∧
      t.dev.rd R.THR_BATCH_CTL_CAUSE_THERMAL = 0 ∧
      t.dev.rd R.THR_BATCH_CTL_PAUSED = s.dev.rd R.THR_BATCH_CTL_CAUSE_STEWARD ∧
      raised t ∧ keeps t pw ∧ t.dev.cp.thr.runs = s.dev.cp.thr.runs ∧
      away t [A.SYS_MGMT_IRQ_STAT, A.THM_STAT, A.THM_THR_CLR, A.THR_BATCH_CTL]) ∧
    (pw.crit.below < 256 ∨ s.dev.on R.THM_STAT_CRIT = false → exec (.thresholdClear 2) s = .next s) ∧
    (256 ≤ pw.crit.below → s.dev.on R.THM_STAT_CRIT = true → Completes (.thresholdClear 2) s fun t =>
      flags t [A.THM_STAT] ∧ t.dev.rd R.THM_STAT_CRIT = 0) ∧
    (s.dev.on R.THM_STAT_THROTTLE = false ∨ pw.throttle.above < 256 → exec .throttleStep s = .next s) ∧
    (s.dev.on R.THM_STAT_THROTTLE = true → 256 ≤ pw.throttle.above → Completes .throttleStep s fun t => slower t ∧
      keeps t spent ∧ away t [A.THM_CAP, A.THM_STEP_COUNT, A.THR_BATCH_CTL] ∧ (cap < 3 → raised t) ∧
      (3 ≤ cap → t = { s with dev := { s.dev with pw := spent } })) ∧
    (s.dev.on R.THM_STAT_THROTTLE = true ∨ cap ≤ s.dev.rd R.CLK_TCLK_DIV_REQ → exec .capRelax s = .next s) ∧
    (s.dev.on R.THM_STAT_THROTTLE = false → s.dev.rd R.CLK_TCLK_DIV_REQ < cap → Completes .capRelax s fun t =>
      t.dev.rd R.THM_CAP_STEP = cap - 1 ∧ raised t ∧ keeps t pw ∧ t.dev.cp = s.dev.cp ∧ away t [A.THM_CAP] ∧
      ((∀ n, ¬mine n) → OnlyRegs s t [A.THM_CAP])) ∧
    (pw.critHold = false → exec .critHoldEnd s = .next s) ∧
    (pw.critHold = true → (s.dev.latchLevels.pendingWake = none ∨ s.dev.asleep = false) → Completes .critHoldEnd s fun t =>
      t = { s with dev := { s.dev with regs := t.dev.regs, pw := { pw with critHold := false } } } ∧ SameWords s t [A.BARN_PENDING] ∧
      ∀ b < 16, (t.dev.rd R.BARN_PENDING_EVENTS).testBit b = true ↔ (s.dev.rd R.BARN_PENDING_EVENTS).testBit b = true ∨
        ((s.dev.word A.BARN_WAKE_EN).testBit b = true ∧ ∃ x ∈ pw.levels, wakeBit x.1 x.2 = b)) ∧
    (∀ c p, pw.critHold = true → s.dev.latchLevels.pendingWake = some (c, p) → s.dev.asleep = true → Completes .critHoldEnd s fun t =>
      t.dev.pw.critHold = false ∧ t.dev.rd R.PWR_STAT_STATE = pwWaking ∧ t.dev.rd R.BARN_WAKE_STAT_CAUSE = c ∧
      t.dev.rd R.BARN_WAKE_STAT_PORT = p ∧ t.dev.rd R.BARN_PENDING_EVENTS = 0 ∧
      t.dev.rd R.BARN_WAKE_COUNT = min (s.dev.rd R.BARN_WAKE_COUNT + 1) maxWord ∧ (t.dev.rd (R.PIRQ_RAW 1)).testBit 0 = true ∧
      t.dev.mem = s.dev.mem ∧ t.dev.tn = s.dev.tn)

/-- PCIe resets and link states; the timer interrupt; LIMP_CTL; an image update from BEGIN to its end
(spec/15_links_furrow_and_pcie.md R308, spec/15_links_furrow_and_pcie.md R311, spec/04_stalls_troughs_commands.md R68,
spec/19_faults_resets_and_restart.md R396, spec/18_steward_firmware_and_management.md R362,
spec/18_steward_firmware_and_management.md R371, spec/18_steward_firmware_and_management.md R374,
spec/18_steward_firmware_and_management.md R366). -/
def Obligations.PcieAndSteward : Prop :=
  ∀ (s : State), s.dev.sy.coldHold = false →
    let fold : List Nat → Dev := fun ns => ns.foldl Dev.stallReset s.dev
    (∀ (p : Fin 2) (f : Fin 4),
      (s.dev.hostUp (4 * p.val + f.val) = false → exec (.flr p f) s = .next s) ∧
      (s.dev.hostUp (4 * p.val + f.val) = true →
        (s.dev.stallOfFunc (4 * p.val + f.val) = none → Completes (.flr p f) s fun t => OnlyRegs s t [A.PCI_FLR_COUNT p] ∧
          t.dev.rd (R.PCI_FLR_COUNT p) = min (s.dev.rd (R.PCI_FLR_COUNT p) + 1) maxWord) ∧
        (∀ n, s.dev.stallOfFunc (4 * p.val + f.val) = some n → Completes (.flr p f) s fun t =>
          t = { s with dev := (s.dev.wr (R.PCI_FLR_COUNT p) (min (s.dev.rd (R.PCI_FLR_COUNT p) + 1) maxWord)).stallReset n } ∧
          t.dev.jobState n = jobClosed))) ∧
    (∀ p : Fin 2,
      let ns := s.dev.stallsOfPort p
      (ns = [] → exec (.perstAssert p) s = exec (.pcieTrainingDetect p) s) ∧
      (Completes (.perstAssert p) s fun t => t = { s with dev := ((fold ns).wakeEvent 2 p true).2 } ∧
        ∀ n, ns = [n] → t.dev.jobState n = jobClosed) ∧
      (s.dev.on (R.PCI_LINK_STAT_UP p) = false → exec (.hotReset p) s = .next s ∧ exec (.pcieLinkDown p) s = .next s ∧
        ∀ v, exec (.sriovVfEnable p v) s = .next s) ∧
      (s.dev.on (R.PCI_LINK_STAT_UP p) = true →
        (Completes (.hotReset p) s fun t => t = { s with dev := fold ns } ∧ ∀ n, ns = [n] → t.dev.jobState n = jobClosed) ∧
        (∀ v, Completes (.sriovVfEnable p v) s fun t => OnlyRegs s t [A.PCI_LINK_STAT p] ∧
          t.dev.rd (R.PCI_LINK_STAT_NUM_VFS p) = v.val ∧ t.dev.rd (R.PCI_LINK_STAT_UP p) = s.dev.rd (R.PCI_LINK_STAT_UP p) ∧
          t.dev.rd (R.PCI_LINK_STAT_SPEED p) = s.dev.rd (R.PCI_LINK_STAT_SPEED p)) ∧
        (Completes (.pcieLinkDown p) s fun t => t.dev.rd (R.PCI_LINK_STAT_UP p) = 0 ∧ t.dev.rd (R.PCI_LINK_STAT_SPEED p) = 0 ∧
          t.dev.rd (R.PCI_LINK_STAT_WIDTH p) = 0 ∧ t.dev.rd (R.PCI_LINK_STAT_PM p) = 0 ∧
          t.dev.rd (R.PCI_DOWN_COUNT p) = min (s.dev.rd (R.PCI_DOWN_COUNT p) + 1) maxWord ∧
          (t.dev.rd (R.PIRQ_RAW (0x4C + p.val))).testBit 0 = true ∧
          (ns = [] → OnlyRegs s t [A.PCI_LINK_STAT p, A.PCI_DOWN_COUNT p, A.PIRQ_RAW (0x4C + p.val)]) ∧
          (∀ n, ns = [n] → s.dev.jobState n = jobOpen →
            t.dev.jobState n = jobFaulted ∧ t.dev.rd (R.STL_JOB_STAT_STATUS n) = stLink))) ∧
      (∀ (speed : BitVec 4) (width : BitVec 8),
        (s.dev.domOn (44 + p.val) = false ∨ s.dev.on (R.PCI_LINK_STAT_UP p) = true → exec (.pcieLinkUp p speed width) s = .next s) ∧
        (s.dev.domOn (44 + p.val) = true → s.dev.on (R.PCI_LINK_STAT_UP p) = false → speed.toNat < 8 → width.toNat < 16 →
          Completes (.pcieLinkUp p speed width) s fun t =>
            t = { s with dev := { s.dev with
                    regs := t.dev.regs
                    pw := { s.dev.pw with levels := s.dev.pw.levels.filter (· != (2, p.val)) } } } ∧
            SameWords s t [A.PCI_LINK_STAT p] ∧
            t.dev.rd (R.PCI_LINK_STAT_UP p) = 1 ∧ t.dev.rd (R.PCI_LINK_STAT_SPEED p) = speed.toNat ∧
            t.dev.rd (R.PCI_LINK_STAT_WIDTH p) = width.toNat ∧
            t.dev.rd (R.PCI_LINK_STAT_NUM_VFS p) = s.dev.rd (R.PCI_LINK_STAT_NUM_VFS p)))) ∧
    (s.dev.stc < s.dev.rd R.SYS_MTIMECMP → exec .mtimeInterrupt s = .next s) ∧
    (s.dev.rd R.SYS_MTIMECMP ≤ s.dev.stc → Completes .mtimeInterrupt s fun t =>
      let on := (s.dev.csr 0x304).testBit 7
      let taken := on = true ∧ ((s.dev.csr 0x300).testBit 3 = true ∨ s.dev.sy.priv ≠ 3) ∧ s.dev.sy.mode = .image
      t.dev.csr 0x344 = setBit (s.dev.csr 0x344) 7 ∧
      (¬taken → t = { s with dev := { s.dev with sy := { s.dev.sy with
          csrs := t.dev.sy.csrs
          wfi := s.dev.sy.wfi && !on } } } ∧ ∀ i, i ≠ 0x344 → t.dev.csr i = s.dev.csr i) ∧
      (taken → t.dev.csr 0x341 = s.dev.sy.pc % 2 ^ 64 ∧ t.dev.csr 0x342 = 2 ^ 63 + 7 ∧ t.dev.csr 0x343 = 0 ∧
        bits (t.dev.csr 0x300) 7 1 = bits (s.dev.csr 0x300) 3 1 ∧ (t.dev.csr 0x300).testBit 3 = false ∧
        bits (t.dev.csr 0x300) 11 2 = s.dev.sy.priv % 4 ∧
        (∀ i, i ∉ [0x300, 0x341, 0x342, 0x343, 0x344] → t.dev.csr i = s.dev.csr i) ∧
        t = { s with dev := { s.dev with sy := { s.dev.sy with
          csrs := t.dev.sy.csrs
          wfi := false
          priv := 3
          pc := s.dev.csr 0x305 / 4 * 4 + if s.dev.csr 0x305 % 4 = 1 then 28 else 0 } } })) ∧
    (∀ q : Req,
      let old := s.dev.rd R.SYS_LIMP_CAUSE
      (∀ c : BitVec 3, s.dev.permits q A.SYS_LIMP_CTL c.toNat →
        (c.toNat = 0 → Completes (.limpEnter q c) s (OnlyRegs s · [])) ∧
        (c.toNat = 1 ∨ (2 ≤ c.toNat ∧ 1 < old) → Completes (.limpEnter q c) s fun t =>
          Counted s t 0 0 (A.SYS_LIMP_CTL % 4096) q causeValue) ∧
        (2 ≤ c.toNat → old ≤ 1 → Completes (.limpEnter q c) s fun t => t.dev.rd R.SYS_LIMP_CAUSE = c.toNat ∧
          t = { s with dev := { s.dev with regs := t.dev.regs, outs := t.dev.outs } } ∧
          SameWords s t [A.SYS_LIMP_CAUSE, A.SYS_MGMT_IRQ_STAT] ∧ (t.dev.word A.SYS_MGMT_IRQ_STAT).testBit 0 = true)) ∧
      (s.dev.permits q A.SYS_LIMP_CTL 256 →
        (old = 1 → Completes (.limpReady q) s fun t => OnlyRegs s t [A.SYS_LIMP_CAUSE, A.SYS_RESET_CAUSE] ∧
          t.dev.rd R.SYS_LIMP_CAUSE = 0 ∧ t.dev.rd R.SYS_RESET_CAUSE_REPEAT = 0 ∧
          t.dev.rd R.SYS_RESET_CAUSE = s.dev.rd R.SYS_RESET_CAUSE) ∧
        (old ≠ 1 → Completes (.limpReady q) s fun t => Counted s t 0 0 (A.SYS_LIMP_CTL % 4096) q causeValue))) ∧
    (let ended : State → Nat → Prop := fun t r => t.dev.sy.update = none ∧ t.dev.rd R.SYS_UPD_STAT_STATE = 0 ∧
       t.dev.rd R.SYS_UPD_STAT_RESULT = r ∧ (t.dev.word A.SYS_MGMT_IRQ_STAT).testBit 5 = true ∧ t.pending = s.pending
     let serves := s.dev.sy.mode = .image ∨ s.dev.sy.mode = .serviceLoop
     (∀ (q : Req) (g : BitVec 2) (ok : Bool) (fail : Option (BitVec 16)) (op : Nat) (c : Instr),
        (op = 1 ∧ c = .updateBegin q g ok fail) ∨ (op = 2 ∧ c = .updateCommit q g ok fail) ∨ (op = 3 ∧ c = .updateAbort q g ok) →
        s.dev.permits q A.SYS_UPD_CTL (op + g.toNat * 4 + 256 * b2n ok) →
        let e := s.dev.wr R.SYS_UPD_CTL_HOST_OK (b2n ok)
        let sat : State := { s with dev := e }
        let held : State → Prop := fun t => OnlyRegs s t [A.SYS_UPD_CTL] ∧ t.dev.rd R.SYS_UPD_CTL_HOST_OK = b2n ok
        (g.toNat = 3 → Completes c s fun t => Counted s t 0 0 (A.SYS_UPD_CTL % 4096) q causeValue) ∧
        (g.toNat < 3 → ¬serves → Completes c s held) ∧
        (g.toNat < 3 → serves → op = 3 →
          (s.dev.sy.update = none → Completes c s held) ∧
          (s.dev.sy.update ≠ none → Completes c s fun t => ended t updAborted ∧
            SameWords s t [A.SYS_UPD_CTL, A.SYS_UPD_STAT, A.SYS_MGMT_IRQ_STAT] ∧
            t = { s with dev := { s.dev with regs := t.dev.regs, outs := t.dev.outs, sy := { s.dev.sy with update := none } } })) ∧
        (g.toNat < 3 → serves → op = 1 → s.dev.sy.update ≠ none → Completes c s fun t =>
          Counted sat t 0 0 (A.SYS_UPD_CTL % 4096) q causeValue) ∧
        (g.toNat < 3 → serves → op = 1 → s.dev.sy.update = none →
          let len := s.dev.rd R.SYS_UPD_LEN_BYTES
          let b := e.slotCheck 1
          let d := if g.toNat = 0 then b.2.2.2 else e
          let runs := s.dev.sy.mode = .image ∧ s.dev.rd R.SYS_BOOT_STAT_SLOT = g.toNat
          let size := if g.toNat = 2 then 0x40000 else 0x100000
          let w := (((d.setSy { d.sy with update := some ⟨g.toNat, len, 0, []⟩ }).wr R.SYS_UPD_STAT_STATE 1).wr
            R.SYS_UPD_STAT_CHUNKS 0).wr R.SYS_UPD_STAT_RESULT updOk
          let r := w.eraseRun (256 * g.toNat) (fail.map BitVec.toNat) (ceilDiv len 4096)
          (runs → Completes c s fun t => OnlyRegs s t [A.SYS_UPD_CTL, A.SYS_UPD_STAT] ∧ t.dev.rd R.SYS_UPD_STAT_RESULT = updTarget) ∧
          (¬runs → g.toNat = 0 → b.1 = false → Completes c s fun t => t.dev.rd R.SYS_UPD_STAT_RESULT = updTarget ∧
            t.dev.sy.update = none ∧ t.pending = s.pending) ∧
          (¬runs → (g.toNat = 0 → b.1 = true) → size < len → Completes c s fun t => t.dev.rd R.SYS_UPD_STAT_RESULT = updBadArg ∧
            t.dev.sy.update = none ∧ t.pending = s.pending) ∧
          (¬runs → (g.toNat = 0 → b.1 = true) → len ≤ size → r.1 = true → Completes c s fun t =>
            t = { s with dev := r.2 } ∧ t.dev.sy.update = some ⟨g.toNat, len, 0, []⟩ ∧ t.dev.rd R.SYS_UPD_STAT_STATE = 1 ∧
            t.dev.rd R.SYS_UPD_STAT_RESULT = updOk ∧ t.dev.rd R.SYS_UPD_STAT_CHUNKS = 0) ∧
          (¬runs → (g.toNat = 0 → b.1 = true) → len ≤ size → r.1 = false → Completes c s (ended · updFlash))) ∧
        (g.toNat < 3 → serves → op = 2 →
          (s.dev.sy.update = none → Completes c s held) ∧
          (∀ u, s.dev.sy.update = some u →
            (u.next < u.len → Completes c s held) ∧
            (u.len ≤ u.next →
              let a := slotSector u.target * 4096
              let x := e.gBytes (a + u.header.length) (u.len - u.header.length)
              let img := u.header ++ x.1
              let good := x.2.1 = false ∧ leAt img 8 4 + 256 = u.len ∧
                imageCheck (img.take 256) (img.drop 256) (slotKind u.target) (slotSize u.target) = imgOk
              (¬good → Completes c s (ended · updSig)) ∧
              (good → Completes c s (ended · (if (x.2.2.programHeader a u.header (fail.map BitVec.toNat)).1 then updOk
                else updFlash))))))) ∧
     (∀ (q : Req) (off : BitVec 32) (fail : Option (BitVec 16)), s.dev.permits q A.SYS_UPD_CHUNK off.toNat →
        (¬serves ∨ s.dev.sy.update = none → Completes (.updateChunk q off fail) s (OnlyRegs s · [])) ∧
        (∀ u, serves → s.dev.sy.update = some u →
          (off.toNat ≠ u.next ∨ u.len ≤ off.toNat → Completes (.updateChunk q off fail) s fun t => ended t updOrder ∧
            SameWords s t [A.SYS_UPD_STAT, A.SYS_MGMT_IRQ_STAT] ∧
            t = { s with dev := { s.dev with regs := t.dev.regs, outs := t.dev.outs, sy := { s.dev.sy with update := none } } }) ∧
          (off.toNat = u.next → off.toNat < u.len →
            let bs := s.dev.updWindow (min 2048 (u.len - off.toNat))
            let count := min (s.dev.rd R.SYS_UPD_STAT_CHUNKS + 1) 65535
            let w := s.dev.wr R.SYS_UPD_STAT_CHUNKS count
            let r := (w.setSy { s.dev.sy with update := some { u with next := off.toNat + 2048 } }).programRun
              (slotSector u.target * 4096 + off.toNat) bs (fail.map BitVec.toNat)
            (off.toNat = 0 → Completes (.updateChunk q off fail) s fun t => SameWords s t [A.SYS_UPD_STAT] ∧
              t.dev.rd R.SYS_UPD_STAT_CHUNKS = count ∧ t.dev.rd R.SYS_UPD_STAT_STATE = s.dev.rd R.SYS_UPD_STAT_STATE ∧
              t = { s with dev := { s.dev with
                      regs := t.dev.regs
                      sy := { s.dev.sy with update := some { u with next := 2048, header := bs } } } }) ∧
            (off.toNat ≠ 0 → r.1 = true → Completes (.updateChunk q off fail) s fun t => t = { s with dev := r.2 } ∧
              t.dev.sy.update = some { u with next := off.toNat + 2048 } ∧ t.dev.rd R.SYS_UPD_STAT_CHUNKS = count) ∧
            (off.toNat ≠ 0 → r.1 = false → Completes (.updateChunk q off fail) s (ended · updFlash))))))

/-- The common commands of the management bus, and its register messages with their status
(spec/18_steward_firmware_and_management.md R375, spec/18_steward_firmware_and_management.md R376,
spec/18_steward_firmware_and_management.md Table 18-5, spec/18_steward_firmware_and_management.md R377,
spec/18_steward_firmware_and_management.md R378). -/
def Obligations.ManagementBus : Prop :=
  ∀ (s : State), s.dev.sy.coldHold = false →
    let takes := s.dev.asleep = false ∨ s.dev.rd R.BARN_WAKE_EN_I3C = 0
    let mine : BitVec 7 → Prop := fun a => s.dev.sy.i3cDyn = some a.toNat
    let sets : Steward → Host.Outcome State Fault Refusal := fun x => .next { s with dev := { s.dev with sy := x } }
    let replies : List Out → Host.Outcome State Fault Refusal := fun os => .next { s with dev := { s.dev with outs := s.dev.outs ++ os } }
    let be2 : Nat → List Nat := fun v => [v / 256 % 256, v % 256]
    let pid := Config.i3cPid.toNat
    let pidBytes : List Nat := [pid / 2 ^ 40 % 256, pid / 2 ^ 32 % 256, pid / 2 ^ 24 % 256, pid / 2 ^ 16 % 256, pid / 256 % 256, pid % 256]
    (∀ (a : BitVec 7) (ev : BitVec 8) (len : BitVec 16) (dyn : BitVec 7) (c : Instr),
      (c = .enec (some a) ev ∨ c = .disec (some a) ev ∨ c = .setmwl (some a) len ∨ c = .setmrl (some a) len ∨
        c = .setnewda a dyn ∨ c = .getpid a ∨ c = .getbcr a ∨ c = .getdcr a ∨ c = .getstatus a ∨ c = .getmwl a ∨ c = .getmrl a) →
      (¬mine a → exec c s = .next s) ∧ (mine a → ¬takes → exec c s = replies [.i3cNack])) ∧
    (∀ (a : Option (BitVec 7)), (∀ x, a = some x → mine x ∧ takes) →
      (∀ ev : BitVec 8, exec (.enec a ev) s = sets { s.dev.sy with ibi := s.dev.sy.ibi || ev.toNat.testBit 0 } ∧
        exec (.disec a ev) s = sets { s.dev.sy with ibi := s.dev.sy.ibi && !ev.toNat.testBit 0 }) ∧
      (∀ len : BitVec 16, exec (.setmwl a len) s = sets { s.dev.sy with mwl := len.toNat } ∧
        exec (.setmrl a len) s = sets { s.dev.sy with mrl := len.toNat })) ∧
    (∀ a : BitVec 7, mine a → takes →
      (∀ dyn : BitVec 7, exec (.setnewda a dyn) s = sets { s.dev.sy with i3cDyn := some dyn.toNat }) ∧
      exec (.getpid a) s = replies [.i3c pidBytes] ∧ exec (.getbcr a) s = replies [.i3c [0x02]] ∧
      exec (.getdcr a) s = replies [.i3c [0x00]] ∧ exec (.getmwl a) s = replies [.i3c (be2 s.dev.sy.mwl)] ∧
      exec (.getmrl a) s = replies [.i3c (be2 s.dev.sy.mrl)] ∧
      (Completes (.getstatus a) s fun t => ∃ v, t = { s with dev := { s.dev with
        outs := s.dev.outs ++ [.i3c (be2 v)]
        free := s.dev.free + 1 } })) ∧
    (exec .rstdaa s = sets { s.dev.sy with i3cDyn := none }) ∧
    (∀ dyn : BitVec 7,
      (s.dev.sy.i3cDyn ≠ none ∨ ¬takes → exec (.entdaa dyn) s = .next s) ∧
      (s.dev.sy.i3cDyn = none → takes → Completes (.entdaa dyn) s fun t => t = { s with dev := { s.dev with
        outs := s.dev.outs ++ [.i3c (pidBytes ++ [0x02, 0x00])]
        sy := { s.dev.sy with i3cDyn := some dyn.toNat } } }) ∧
      (∀ static : BitVec 7,
        (s.dev.sy.i3cDyn ≠ none ∨ static.toNat ≠ 0x58 + s.dev.sy.i3cStrap → exec (.setdasa static dyn) s = .next s) ∧
        (s.dev.sy.i3cDyn = none → static.toNat = 0x58 + s.dev.sy.i3cStrap →
          (takes → exec (.setdasa static dyn) s = sets { s.dev.sy with i3cDyn := some dyn.toNat }) ∧
          (¬takes → exec (.setdasa static dyn) s = replies [.i3cNack])))) ∧
    (let reply : Nat → List Byte → Host.Outcome State Fault Refusal := fun st bs => sets { s.dev.sy with reply := some (st, bs) }
     let named : BitVec 32 → Prop := fun a => a.toNat % 4 = 0 ∧ a.toNat < 0x1000000
     (∀ (a : BitVec 32) (len : BitVec 8),
        let awake := s.dev.asleep = false ∨ 1 ≤ a.toNat / 4096 ∧ a.toNat / 4096 ≤ 3
        (¬takes → exec (.mgmtRead a len) s = replies [.i3cNack]) ∧
        (takes → ¬awake → exec (.mgmtRead a len) s = reply 4 []) ∧
        (takes → awake → len.toNat ≠ 4 → len.toNat ≠ 8 → exec (.mgmtRead a len) s = reply 3 []) ∧
        (takes → awake → (len.toNat = 4 ∨ len.toNat = 8) → ¬named a → exec (.mgmtRead a len) s = reply 2 []) ∧
        (takes → awake → (len.toNat = 4 ∨ len.toNat = 8) → named a → Completes (.mgmtRead a len) s fun t =>
          let r := s.dev.busRead .mgmt .bar0 a.toNat len.toNat
          t = { s with dev := { r.2 with sy := { s.dev.sy with reply := some (0, leBytes len.toNat r.1) } } }) ∧
        (∀ h, takes → awake → len.toNat = 4 → named a → regHit a.toNat = some h → h.row.words ≤ 1 →
          exec (.mgmtRead a len) s = reply 0 (leBytes 4 (s.dev.liveWord .mgmt a.toNat)))) ∧
     (∀ (a : BitVec 32) (bs : List Byte),
        (¬takes → exec (.mgmtWrite a bs) s = replies [.i3cNack]) ∧
        (takes → s.dev.asleep = true → exec (.mgmtWrite a bs) s = reply 4 []) ∧
        (takes → s.dev.asleep = false → bs.length ≠ 4 → exec (.mgmtWrite a bs) s = reply 3 []) ∧
        (takes → s.dev.asleep = false → bs.length = 4 → ¬named a → exec (.mgmtWrite a bs) s = reply 2 []) ∧
        (takes → s.dev.asleep = false → bs.length = 4 → named a →
          ∃ u, exec (.registerWrite .mgmt .bar0 (a.setWidth 24) 4 (BitVec.ofNat 64 (leNat bs))) s = .next u ∧
            exec (.mgmtWrite a bs) s = .next { u with dev := { u.dev with sy := { u.dev.sy with reply := some (0, []) } } })) ∧
     (¬takes → exec .mgmtResultRead s = replies [.i3cNack]) ∧
     (takes → s.dev.sy.reply = none → exec .mgmtResultRead s = replies [.i3c [1, 0, 0, 0, 0, 0, 0, 0, 0]]) ∧
     (∀ st bs, takes → s.dev.sy.reply = some (st, bs) → Completes .mgmtResultRead s fun t => t = { s with dev := { s.dev with
        outs := s.dev.outs ++ [.i3c (st :: (bs.map BitVec.toNat ++ List.replicate (8 - bs.length) 0))]
        sy := { s.dev.sy with reply := none } } }))
end

