-- ==== Sys2Proof/Laws/Bits.lean ====
section
/-! SUPPORT. The laws of bit fields: what a field reads as after it, or another, is replaced. -/
namespace Sys2Proof.Machine

theorem testBit_bits (v lo w i : Nat) : (bits v lo w).testBit i = (decide (i < w) && v.testBit (lo + i)) := by
  simp [bits, Nat.testBit_mod_two_pow, Nat.testBit_shiftRight]

theorem bits_lt (v lo w : Nat) : bits v lo w < 2 ^ w := Nat.mod_lt _ (Nat.two_pow_pos w)

/-- `setBits` is a bitwise or of three parts that do not meet. -/
theorem testBit_setBits (v lo w x i : Nat) :
    (setBits v lo w x).testBit i =
      if i < lo then v.testBit i else if i < lo + w then x.testBit (i - lo) else v.testBit i := by
  have hl : v % 2 ^ lo < 2 ^ lo := Nat.mod_lt _ (Nat.two_pow_pos lo)
  have h1 : (x % 2 ^ w) <<< lo + v % 2 ^ lo = 2 ^ lo * (x % 2 ^ w) + v % 2 ^ lo := by
    rw [Nat.shiftLeft_eq, Nat.mul_comm]
  have hm : (x % 2 ^ w) <<< lo + v % 2 ^ lo < 2 ^ (lo + w) := by
    rw [h1, Nat.pow_add]
    have hx : x % 2 ^ w < 2 ^ w := Nat.mod_lt _ (Nat.two_pow_pos w)
    calc 2 ^ lo * (x % 2 ^ w) + v % 2 ^ lo < 2 ^ lo * (x % 2 ^ w) + 2 ^ lo := by omega
      _ = 2 ^ lo * (x % 2 ^ w + 1) := by ring
      _ ≤ 2 ^ lo * 2 ^ w := Nat.mul_le_mul_left _ (by omega)
  have h2 : setBits v lo w x = 2 ^ (lo + w) * (v >>> (lo + w)) + ((x % 2 ^ w) <<< lo + v % 2 ^ lo) := by
    rw [setBits, Nat.shiftLeft_eq, Nat.mul_comm, Nat.add_assoc]
  rw [h2, Nat.testBit_two_pow_mul_add _ hm, h1, Nat.testBit_two_pow_mul_add _ hl]
  by_cases hi : i < lo
  · simp [hi, show i < lo + w by omega, Nat.testBit_mod_two_pow]
  · by_cases hj : i < lo + w
    · simp [hi, hj, Nat.testBit_mod_two_pow, show i - lo < w by omega]
    · simp [hi, hj, Nat.testBit_shiftRight, show lo + w + (i - (lo + w)) = i by omega]

/-- A field reads what was put in it, cut to its width. -/
@[simp] theorem bits_setBits_same (v lo w x : Nat) : bits (setBits v lo w x) lo w = x % 2 ^ w := by
  apply Nat.eq_of_testBit_eq
  intro i
  rw [testBit_bits, testBit_setBits, Nat.testBit_mod_two_pow]
  by_cases h : i < w <;> simp [h]

/-- A field that does not meet the one replaced reads as before. -/
theorem bits_setBits_ne (v x : Nat) {lo w lo' w' : Nat} (h : lo' + w' ≤ lo ∨ lo + w ≤ lo') :
    bits (setBits v lo w x) lo' w' = bits v lo' w' := by
  apply Nat.eq_of_testBit_eq
  intro i
  rw [testBit_bits, testBit_bits, testBit_setBits]
  by_cases hi : i < w'
  · rcases h with h | h
    · simp [hi, show lo' + i < lo by omega]
    · simp [hi, show ¬ lo' + i < lo by omega, show ¬ lo' + i < lo + w by omega]
  · simp [hi]

theorem setBits_lt {v lo w x n : Nat} (hv : v < 2 ^ n) (h : lo + w ≤ n) : setBits v lo w x < 2 ^ n := by
  apply Nat.lt_pow_two_of_testBit
  intro i hi
  rw [testBit_setBits, if_neg (by omega), if_neg (by omega)]
  exact Nat.testBit_lt_two_pow (lt_of_lt_of_le hv (Nat.pow_le_pow_right (by omega) hi))

@[simp] theorem bits_zero (lo w : Nat) : bits 0 lo w = 0 := by simp [bits]

theorem eq_setBits (v i : Nat) : v = setBits v i 1 (b2n (v.testBit i)) := by
  apply Nat.eq_of_testBit_eq
  intro j
  rw [testBit_setBits]
  by_cases h : j < i
  · simp [h]
  · by_cases h2 : j < i + 1
    · have : j = i := by omega
      subst this
      cases h3 : v.testBit j <;> simp [b2n]
    · simp [h, h2]

theorem setBits_one (v i : Nat) (x : Bool) :
    setBits v i 1 (b2n x) = 2 ^ (i + 1) * (v >>> (i + 1)) + (2 ^ i * b2n x + v % 2 ^ i) := by
  rw [setBits, Nat.shiftLeft_eq, Nat.shiftLeft_eq, Nat.mul_comm, Nat.add_assoc, Nat.mul_comm (b2n x % _)]
  cases x <;> simp [b2n]

/-- Setting a bit is replacing a field of width 1. -/
theorem setBit_eq (v i : Nat) : setBit v i = setBits v i 1 1 := by
  have h := eq_setBits v i
  have h1 := setBits_one v i true
  have h2 := setBits_one v i false
  unfold setBit
  cases hb : v.testBit i
  · rw [hb] at h
    simp only [b2n, Bool.false_eq_true, if_false, if_true] at *
    omega
  · rw [hb] at h; simpa [b2n] using h

/-- Clearing a bit is replacing a field of width 1. -/
theorem clrBit_eq (v i : Nat) : clrBit v i = setBits v i 1 0 := by
  have h := eq_setBits v i
  have h1 := setBits_one v i true
  have h2 := setBits_one v i false
  unfold clrBit
  cases hb : v.testBit i
  · rw [hb] at h; simpa [b2n] using h
  · rw [hb] at h
    simp only [b2n, Bool.false_eq_true, if_false, if_true] at *
    omega

theorem testBit_setBit (v i j : Nat) : (setBit v i).testBit j = (decide (i = j) || v.testBit j) := by
  rw [setBit_eq, testBit_setBits]
  by_cases h : j < i
  · simp [h, show i ≠ j by omega]
  · by_cases h2 : j < i + 1
    · simp [show j = i by omega]
    · simp [h, h2, show i ≠ j by omega]

theorem testBit_clrBit (v i j : Nat) : (clrBit v i).testBit j = (!decide (i = j) && v.testBit j) := by
  rw [clrBit_eq, testBit_setBits]
  by_cases h : j < i
  · simp [h, show i ≠ j by omega]
  · by_cases h2 : j < i + 1
    · simp [show j = i by omega]
    · simp [h, h2, show i ≠ j by omega]

end Sys2Proof.Machine
end

