-- ==== Sys2Proof/Laws/NMap.lean ====
section
/-! SUPPORT. The laws of the maps that hold registers and memories: a read after a write, and the canonical form. -/
namespace Sys2Proof.Machine

variable {α : Type}

theorem findCell_putCell_same (cs : List (Nat × α)) (k : Nat) (v : α) : findCell (putCell cs k v) k = some v := by
  induction cs with
  | nil => simp [putCell, findCell]
  | cons c cs ih =>
    obtain ⟨j, u⟩ := c
    simp only [putCell]
    split
    · simp [findCell]
    · split
      · simp [findCell]
      · simp_all [findCell]

theorem findCell_putCell_ne (cs : List (Nat × α)) {k l : Nat} (v : α) (h : l ≠ k) :
    findCell (putCell cs k v) l = findCell cs l := by
  induction cs with
  | nil => simp [putCell, findCell, h.symm]
  | cons c cs ih =>
    obtain ⟨j, u⟩ := c
    simp only [putCell]
    split
    · simp [findCell, h.symm]
    · split
      · subst_vars; simp [findCell, h.symm]
      · simp_all [findCell]

theorem findCell_filter (cs : List (Nat × α)) (p : Nat → Bool) (k : Nat) :
    findCell (cs.filter (fun c => p c.1)) k = if p k then findCell cs k else none := by
  induction cs with
  | nil => simp [findCell]
  | cons c cs ih =>
    obtain ⟨j, u⟩ := c
    by_cases hp : p j
    · by_cases hj : j = k
      · subst hj; simp [findCell, hp]
      · simp [findCell, hp, hj, ih]
    · by_cases hj : j = k
      · subst hj; simp [hp, ih]
      · simp [findCell, hp, hj, ih]

/-- Reading the key that was written gives the value written. -/
@[simp] theorem NMap.get_set_same [DecidableEq α] (f : Nat → α) (m : NMap α) (k : Nat) (v : α) :
    (m.set f k v).get f k = v := by
  unfold NMap.set NMap.get
  split
  · have h := findCell_filter m.cells (fun j => j != k) k
    simp only [bne_self_eq_false, Bool.false_eq_true, if_false] at h
    rw [show dropCell m.cells k = m.cells.filter (fun c => c.1 != k) from rfl, h]
    simp_all
  · simp [findCell_putCell_same]

/-- Reading another key gives what it gave. -/
theorem NMap.get_set_ne [DecidableEq α] (f : Nat → α) (m : NMap α) {k l : Nat} (v : α) (h : l ≠ k) :
    (m.set f k v).get f l = m.get f l := by
  unfold NMap.set NMap.get
  split
  · have h2 := findCell_filter m.cells (fun j => j != k) l
    rw [show dropCell m.cells k = m.cells.filter (fun c => c.1 != k) from rfl, h2]
    simp [h]
  · rw [findCell_putCell_ne _ _ h]

/-- A read of any key after a write of one. -/
theorem NMap.get_set [DecidableEq α] (f : Nat → α) (m : NMap α) (k l : Nat) (v : α) :
    (m.set f k v).get f l = if l = k then v else m.get f l := by
  by_cases h : l = k
  · subst h; simp
  · simp [h, NMap.get_set_ne]

/-- What is kept reads as before, the rest as unlisted. -/
theorem NMap.get_keep (f : Nat → α) (p : Nat → Bool) (m : NMap α) (k : Nat) :
    (m.keep p).get f k = if p k then m.get f k else f k := by
  unfold NMap.keep NMap.get
  rw [findCell_filter]
  by_cases h : p k <;> simp [h]

@[simp] theorem NMap.get_empty (f : Nat → α) (k : Nat) : (NMap.empty : NMap α).get f k = f k := rfl

theorem risingFrom_mono {cs : List (Nat × α)} {i j : Nat} (h : i ≤ j) (hr : risingFrom j cs = true) :
    risingFrom i cs = true := by
  cases cs with
  | nil => rfl
  | cons c cs => obtain ⟨k, v⟩ := c; simp_all [risingFrom]; omega

theorem risingFrom_filter (p : Nat × α → Bool) {cs : List (Nat × α)} {i : Nat} (h : risingFrom i cs = true) :
    risingFrom i (cs.filter p) = true := by
  induction cs generalizing i with
  | nil => rfl
  | cons c cs ih =>
    obtain ⟨k, v⟩ := c
    simp only [risingFrom, Bool.and_eq_true, decide_eq_true_eq] at h
    rw [List.filter_cons]
    split
    · simp [risingFrom, h.1, ih h.2]
    · exact risingFrom_mono (by omega) (ih h.2)

theorem risingFrom_putCell {cs : List (Nat × α)} {i k : Nat} (v : α) (hi : i ≤ k) (h : risingFrom i cs = true) :
    risingFrom i (putCell cs k v) = true := by
  induction cs generalizing i with
  | nil => simp [putCell, risingFrom, hi]
  | cons c cs ih =>
    obtain ⟨j, u⟩ := c
    simp only [risingFrom, Bool.and_eq_true, decide_eq_true_eq] at h
    simp only [putCell]
    split
    · simp only [risingFrom, Bool.and_eq_true, decide_eq_true_eq]
      exact ⟨hi, by omega, h.2⟩
    · split
      · subst_vars; simp [risingFrom, h]
      · simp only [risingFrom, Bool.and_eq_true, decide_eq_true_eq]
        exact ⟨h.1, ih (by omega) h.2⟩

theorem all_putCell (p : Nat × α → Bool) {cs : List (Nat × α)} {k : Nat} {v : α} (hv : p (k, v) = true)
    (h : cs.all p = true) : (putCell cs k v).all p = true := by
  induction cs with
  | nil => simp [putCell, hv]
  | cons c cs ih =>
    obtain ⟨j, u⟩ := c
    simp only [List.all_cons, Bool.and_eq_true] at h
    simp only [putCell]
    split
    · simp [hv, h]
    · split
      · simp [hv, h]
      · simp [h.1, ih h.2]

/-- A write keeps the canonical form. -/
theorem NMap.wf_set [DecidableEq α] {f : Nat → α} {m : NMap α} (h : m.wf f = true) (k : Nat) (v : α) :
    (m.set f k v).wf f = true := by
  simp only [NMap.wf, Bool.and_eq_true] at h
  unfold NMap.set
  split
  · simp only [NMap.wf, Bool.and_eq_true, dropCell]
    refine ⟨risingFrom_filter _ h.1, ?_⟩
    rw [List.all_eq_true] at *
    exact fun c hc => h.2 c (List.mem_of_mem_filter hc)
  · simp only [NMap.wf, Bool.and_eq_true]
    refine ⟨risingFrom_putCell _ (Nat.zero_le _) h.1, all_putCell _ ?_ h.2⟩
    simpa using ‹_›

/-- Dropping keys keeps the canonical form. -/
theorem NMap.wf_keep [DecidableEq α] {f : Nat → α} {m : NMap α} (h : m.wf f = true) (p : Nat → Bool) :
    (m.keep p).wf f = true := by
  simp only [NMap.wf, Bool.and_eq_true] at h
  simp only [NMap.wf, NMap.keep, Bool.and_eq_true]
  refine ⟨risingFrom_filter _ h.1, ?_⟩
  rw [List.all_eq_true] at *
  exact fun c hc => h.2 c (List.mem_of_mem_filter hc)

@[simp] theorem NMap.wf_empty [DecidableEq α] (f : Nat → α) : (NMap.empty : NMap α).wf f = true := rfl

end Sys2Proof.Machine
end

