-- ==== Sys2Proof/Laws/Regs.lean ====
section
/-! SUPPORT. The laws of the register bank: what a word and a field read as after a write, and what a write of a register
leaves alone. -/
namespace Sys2Proof.Machine

variable (d : Dev)

theorem word_lt (a : Nat) : d.word a < 2 ^ 32 := (d.regs.get resetWord a).isLt

@[simp] theorem word_setWord_same (a v : Nat) : (d.setWord a v).word a = v % 2 ^ 32 := by
  simp [Dev.word, Dev.setWord]

theorem word_setWord_ne {a b : Nat} (v : Nat) (h : b ≠ a) : (d.setWord a v).word b = d.word b := by
  simp [Dev.word, Dev.setWord, NMap.get_set_ne _ _ _ h]

theorem regs_setWord_ne {a b : Nat} (v : Nat) (h : b ≠ a) :
    (d.setWord a v).regs.get resetWord b = d.regs.get resetWord b := by
  simp [Dev.setWord, NMap.get_set_ne _ _ _ h]

/-- A write of `k` words leaves every word outside them alone. -/
theorem word_setWords_ne (a v k : Nat) {b : Nat} (h : ∀ i < k, b ≠ a + 4 * i) : (d.setWords a k v).word b = d.word b := by
  induction k generalizing d a v with
  | zero => rfl
  | succ k ih =>
    rw [Dev.setWords, ih]
    · exact word_setWord_ne d _ (by simpa using h 0 (by omega))
    · intro i hi
      have := h (i + 1) (by omega)
      omega

theorem words_congr {d e : Dev} {a k : Nat} (h : ∀ i < k, e.word (a + 4 * i) = d.word (a + 4 * i)) :
    e.words a k = d.words a k := by
  induction k generalizing a with
  | zero => rfl
  | succ k ih =>
    rw [Dev.words, Dev.words, ih, show e.word a = d.word a by simpa using h 0 (by omega)]
    intro i hi
    have := h (i + 1) (by omega)
    rwa [show a + 4 + 4 * i = a + 4 * (i + 1) by omega]

/-- What was written to `k` words is read back, cut to their width. -/
@[simp] theorem words_setWords_same (a k v : Nat) : (d.setWords a k v).words a k = v % 2 ^ (32 * k) := by
  induction k generalizing d a v with
  | zero => simp [Dev.words, Nat.mod_one]
  | succ k ih =>
    rw [Dev.setWords, Dev.words, ih, word_setWords_ne _ _ _ _ (by intro i _; omega), word_setWord_same,
      Nat.mod_mod, show 32 * (k + 1) = 32 + 32 * k by ring, Nat.pow_add, Nat.mod_mul]

/-- Two fields whose bits do not meet. -/
def Fld.apart (f g : Fld) : Bool :=
  decide (f.addr + 4 * f.words ≤ g.addr ∨ g.addr + 4 * g.words ≤ f.addr ∨
    (f.addr = g.addr ∧ f.words = g.words ∧ (f.lo + f.width ≤ g.lo ∨ g.lo + g.width ≤ f.lo)))

theorem words_lt (a k : Nat) : d.words a k < 2 ^ (32 * k) := by
  induction k generalizing a with
  | zero => simp [Dev.words]
  | succ k ih =>
    have := ih (a + 4)
    have := word_lt d a
    rw [Dev.words, show 32 * (k + 1) = 32 + 32 * k by ring, Nat.pow_add]
    nlinarith

/-- A field reads what was written to it, cut to its width. -/
@[simp] theorem rd_wr_same (f : Fld) (v : Nat) : (d.wr f v).rd f = v % 2 ^ f.width := by
  have h : f.lo + f.width ≤ 32 * f.words := by unfold Fld.words; omega
  rw [Dev.rd, Dev.wr, words_setWords_same, Nat.mod_eq_of_lt (setBits_lt (words_lt d _ _) h), bits_setBits_same]

/-- A field that does not meet the one written reads as before. -/
theorem rd_wr_ne {f g : Fld} (v : Nat) (h : f.apart g = true) : (d.wr f v).rd g = d.rd g := by
  simp only [Fld.apart, decide_eq_true_eq] at h
  by_cases hk : f.addr = g.addr ∧ f.words = g.words ∧ (f.lo + f.width ≤ g.lo ∨ g.lo + g.width ≤ f.lo)
  · obtain ⟨ha, hw, hb⟩ := hk
    have hl : f.lo + f.width ≤ 32 * f.words := by unfold Fld.words; omega
    rw [Dev.rd, Dev.rd, Dev.wr, ← ha, ← hw, words_setWords_same, Nat.mod_eq_of_lt (setBits_lt (words_lt d _ _) hl),
      bits_setBits_ne]
    omega
  · have h' : f.addr + 4 * f.words ≤ g.addr ∨ g.addr + 4 * g.words ≤ f.addr := by tauto
    rw [Dev.rd, Dev.rd, Dev.wr]
    congr 1
    apply words_congr
    intro i hi
    apply word_setWords_ne
    intro j hj
    omega

/-- A word outside a field's reads as before. -/
theorem word_wr_ne (f : Fld) (v : Nat) {b : Nat} (h : ∀ i < f.words, b ≠ f.addr + 4 * i) : (d.wr f v).word b = d.word b :=
  word_setWords_ne d _ _ _ h

@[simp] theorem rd_setBitOf_same (f : Fld) (i : Nat) : (d.setBitOf f i).rd f = setBit (d.rd f) i % 2 ^ f.width := by
  simp [Dev.setBitOf]

@[simp] theorem rd_clrBitOf_same (f : Fld) (i : Nat) : (d.clrBitOf f i).rd f = clrBit (d.rd f) i % 2 ^ f.width := by
  simp [Dev.clrBitOf]

theorem rd_lt (f : Fld) : d.rd f < 2 ^ f.width := bits_lt _ _ _

/-- A count after `k` more, which stays at its largest value. -/
@[simp] theorem rd_bump_same (f : Fld) (k : Nat) : (d.bump f k).rd f = min (d.rd f + k) (2 ^ f.width - 1) := by
  have := Nat.two_pow_pos f.width
  rw [Dev.bump, rd_wr_same, Nat.mod_eq_of_lt (by omega)]

@[simp] theorem rd_addTo_same (f : Fld) (k : Nat) : (d.addTo f k).rd f = (d.rd f + k) % 2 ^ f.width := by
  simp [Dev.addTo]

theorem rd_bump_ne {f g : Fld} (k : Nat) (h : f.apart g = true) : (d.bump f k).rd g = d.rd g := rd_wr_ne d _ h
theorem rd_addTo_ne {f g : Fld} (k : Nat) (h : f.apart g = true) : (d.addTo f k).rd g = d.rd g := rd_wr_ne d _ h
theorem rd_setBitOf_ne {f g : Fld} (i : Nat) (h : f.apart g = true) : (d.setBitOf f i).rd g = d.rd g := rd_wr_ne d _ h
theorem rd_clrBitOf_ne {f g : Fld} (i : Nat) (h : f.apart g = true) : (d.clrBitOf f i).rd g = d.rd g := rd_wr_ne d _ h

/-- A write of registers changes the register bank alone. -/
theorem setWords_eq (a k v : Nat) : ∃ r, d.setWords a k v = { d with regs := r } := by
  induction k generalizing d a v with
  | zero => exact ⟨d.regs, rfl⟩
  | succ k ih => obtain ⟨r, h⟩ := ih (d.setWord a (v % 2 ^ 32)) (a + 4) (v / 2 ^ 32); exact ⟨r, h⟩

theorem wr_eq (f : Fld) (v : Nat) : ∃ r, d.wr f v = { d with regs := r } := setWords_eq d _ _ _

end Sys2Proof.Machine
end

