-- ==== Sys2Proof/Laws/State.lean ====
section
/-! SUPPORT. What each update of the device leaves alone: one lemma per update and field. -/
namespace Sys2Proof.Machine

variable (d : Dev)

/-- A field of a register depends on the register bank alone. -/
theorem words_of_regs {d e : Dev} (h : e.regs = d.regs) (a k : Nat) : e.words a k = d.words a k :=
  words_congr (fun i _ => by simp [Dev.word, h])

theorem rd_of_regs {d e : Dev} (h : e.regs = d.regs) (f : Fld) : e.rd f = d.rd f := by simp [Dev.rd, words_of_regs h]

/-! `setPort` -/

@[simp] theorem setPort_regs (p : Nat) (x : Port) : (d.setPort p x).regs = d.regs := rfl
@[simp] theorem setPort_bus (p : Nat) (x : Port) : (d.setPort p x).bus = d.bus := rfl
@[simp] theorem setPort_mem (p : Nat) (x : Port) : (d.setPort p x).mem = d.mem := rfl
@[simp] theorem setPort_tn (p : Nat) (x : Port) : (d.setPort p x).tn = d.tn := rfl
@[simp] theorem setPort_ck (p : Nat) (x : Port) : (d.setPort p x).ck = d.ck := rfl
@[simp] theorem setPort_cp (p : Nat) (x : Port) : (d.setPort p x).cp = d.cp := rfl
@[simp] theorem setPort_wn (p : Nat) (x : Port) : (d.setPort p x).wn = d.wn := rfl
@[simp] theorem setPort_tr (p : Nat) (x : Port) : (d.setPort p x).tr = d.tr := rfl
@[simp] theorem setPort_gr (p : Nat) (x : Port) : (d.setPort p x).gr = d.gr := rfl
@[simp] theorem setPort_ba (p : Nat) (x : Port) : (d.setPort p x).ba = d.ba := rfl
@[simp] theorem setPort_fu (p : Nat) (x : Port) : (d.setPort p x).fu = d.fu := rfl
@[simp] theorem setPort_ta (p : Nat) (x : Port) : (d.setPort p x).ta = d.ta := rfl
@[simp] theorem setPort_pw (p : Nat) (x : Port) : (d.setPort p x).pw = d.pw := rfl
@[simp] theorem setPort_sy (p : Nat) (x : Port) : (d.setPort p x).sy = d.sy := rfl
@[simp] theorem setPort_outs (p : Nat) (x : Port) : (d.setPort p x).outs = d.outs := rfl
@[simp] theorem setPort_free (p : Nat) (x : Port) : (d.setPort p x).free = d.free := rfl
@[simp] theorem setPort_ticks (p : Nat) (x : Port) : (d.setPort p x).ticks = d.ticks := rfl
@[simp] theorem setPort_word (p : Nat) (x : Port) (wa : Nat) : (d.setPort p x).word wa = d.word wa := rfl
@[simp] theorem setPort_rd (p : Nat) (x : Port) (g : Fld) : (d.setPort p x).rd g = d.rd g := by exact rd_of_regs (d := d) (e := d.setPort p x) rfl g
@[simp] theorem setPort_on (p : Nat) (x : Port) (g : Fld) : (d.setPort p x).on g = d.on g := by simp [Dev.on]

/-! `setCaps` -/

@[simp] theorem setCaps_regs (x : List Cap) : (d.setCaps x).regs = d.regs := rfl
@[simp] theorem setCaps_bus (x : List Cap) : (d.setCaps x).bus = d.bus := rfl
@[simp] theorem setCaps_mem (x : List Cap) : (d.setCaps x).mem = d.mem := rfl
@[simp] theorem setCaps_tn (x : List Cap) : (d.setCaps x).tn = d.tn := rfl
@[simp] theorem setCaps_ck (x : List Cap) : (d.setCaps x).ck = d.ck := rfl
@[simp] theorem setCaps_cp (x : List Cap) : (d.setCaps x).cp = d.cp := rfl
@[simp] theorem setCaps_wn (x : List Cap) : (d.setCaps x).wn = d.wn := rfl
@[simp] theorem setCaps_tr (x : List Cap) : (d.setCaps x).tr = d.tr := rfl
@[simp] theorem setCaps_gr (x : List Cap) : (d.setCaps x).gr = d.gr := rfl
@[simp] theorem setCaps_ba (x : List Cap) : (d.setCaps x).ba = d.ba := rfl
@[simp] theorem setCaps_fu (x : List Cap) : (d.setCaps x).fu = d.fu := rfl
@[simp] theorem setCaps_ta (x : List Cap) : (d.setCaps x).ta = d.ta := rfl
@[simp] theorem setCaps_pw (x : List Cap) : (d.setCaps x).pw = d.pw := rfl
@[simp] theorem setCaps_sy (x : List Cap) : (d.setCaps x).sy = d.sy := rfl
@[simp] theorem setCaps_outs (x : List Cap) : (d.setCaps x).outs = d.outs := rfl
@[simp] theorem setCaps_free (x : List Cap) : (d.setCaps x).free = d.free := rfl
@[simp] theorem setCaps_ticks (x : List Cap) : (d.setCaps x).ticks = d.ticks := rfl
@[simp] theorem setCaps_word (x : List Cap) (wa : Nat) : (d.setCaps x).word wa = d.word wa := rfl
@[simp] theorem setCaps_rd (x : List Cap) (g : Fld) : (d.setCaps x).rd g = d.rd g := by exact rd_of_regs (d := d) (e := d.setCaps x) rfl g
@[simp] theorem setCaps_on (x : List Cap) (g : Fld) : (d.setCaps x).on g = d.on g := by simp [Dev.on]

/-! `setStream` -/

@[simp] theorem setStream_regs (p : Nat) (x : Stream) : (d.setStream p x).regs = d.regs := rfl
@[simp] theorem setStream_bus (p : Nat) (x : Stream) : (d.setStream p x).bus = d.bus := rfl
@[simp] theorem setStream_mem (p : Nat) (x : Stream) : (d.setStream p x).mem = d.mem := rfl
@[simp] theorem setStream_tn (p : Nat) (x : Stream) : (d.setStream p x).tn = d.tn := rfl
@[simp] theorem setStream_ck (p : Nat) (x : Stream) : (d.setStream p x).ck = d.ck := rfl
@[simp] theorem setStream_cp (p : Nat) (x : Stream) : (d.setStream p x).cp = d.cp := rfl
@[simp] theorem setStream_wn (p : Nat) (x : Stream) : (d.setStream p x).wn = d.wn := rfl
@[simp] theorem setStream_tr (p : Nat) (x : Stream) : (d.setStream p x).tr = d.tr := rfl
@[simp] theorem setStream_gr (p : Nat) (x : Stream) : (d.setStream p x).gr = d.gr := rfl
@[simp] theorem setStream_ba (p : Nat) (x : Stream) : (d.setStream p x).ba = d.ba := rfl
@[simp] theorem setStream_fu (p : Nat) (x : Stream) : (d.setStream p x).fu = d.fu := rfl
@[simp] theorem setStream_ta (p : Nat) (x : Stream) : (d.setStream p x).ta = d.ta := rfl
@[simp] theorem setStream_pw (p : Nat) (x : Stream) : (d.setStream p x).pw = d.pw := rfl
@[simp] theorem setStream_sy (p : Nat) (x : Stream) : (d.setStream p x).sy = d.sy := rfl
@[simp] theorem setStream_outs (p : Nat) (x : Stream) : (d.setStream p x).outs = d.outs := rfl
@[simp] theorem setStream_free (p : Nat) (x : Stream) : (d.setStream p x).free = d.free := rfl
@[simp] theorem setStream_ticks (p : Nat) (x : Stream) : (d.setStream p x).ticks = d.ticks := rfl
@[simp] theorem setStream_word (p : Nat) (x : Stream) (wa : Nat) : (d.setStream p x).word wa = d.word wa := rfl
@[simp] theorem setStream_rd (p : Nat) (x : Stream) (g : Fld) : (d.setStream p x).rd g = d.rd g := by exact rd_of_regs (d := d) (e := d.setStream p x) rfl g
@[simp] theorem setStream_on (p : Nat) (x : Stream) (g : Fld) : (d.setStream p x).on g = d.on g := by simp [Dev.on]

/-! `setThr` -/

@[simp] theorem setThr_regs (x : Thresher) : (d.setThr x).regs = d.regs := rfl
@[simp] theorem setThr_bus (x : Thresher) : (d.setThr x).bus = d.bus := rfl
@[simp] theorem setThr_mem (x : Thresher) : (d.setThr x).mem = d.mem := rfl
@[simp] theorem setThr_tn (x : Thresher) : (d.setThr x).tn = d.tn := rfl
@[simp] theorem setThr_au (x : Thresher) : (d.setThr x).au = d.au := rfl
@[simp] theorem setThr_ck (x : Thresher) : (d.setThr x).ck = d.ck := rfl
@[simp] theorem setThr_wn (x : Thresher) : (d.setThr x).wn = d.wn := rfl
@[simp] theorem setThr_tr (x : Thresher) : (d.setThr x).tr = d.tr := rfl
@[simp] theorem setThr_gr (x : Thresher) : (d.setThr x).gr = d.gr := rfl
@[simp] theorem setThr_ba (x : Thresher) : (d.setThr x).ba = d.ba := rfl
@[simp] theorem setThr_fu (x : Thresher) : (d.setThr x).fu = d.fu := rfl
@[simp] theorem setThr_ta (x : Thresher) : (d.setThr x).ta = d.ta := rfl
@[simp] theorem setThr_pw (x : Thresher) : (d.setThr x).pw = d.pw := rfl
@[simp] theorem setThr_sy (x : Thresher) : (d.setThr x).sy = d.sy := rfl
@[simp] theorem setThr_outs (x : Thresher) : (d.setThr x).outs = d.outs := rfl
@[simp] theorem setThr_free (x : Thresher) : (d.setThr x).free = d.free := rfl
@[simp] theorem setThr_ticks (x : Thresher) : (d.setThr x).ticks = d.ticks := rfl
@[simp] theorem setThr_word (x : Thresher) (wa : Nat) : (d.setThr x).word wa = d.word wa := rfl
@[simp] theorem setThr_rd (x : Thresher) (g : Fld) : (d.setThr x).rd g = d.rd g := by exact rd_of_regs (d := d) (e := d.setThr x) rfl g
@[simp] theorem setThr_on (x : Thresher) (g : Fld) : (d.setThr x).on g = d.on g := by simp [Dev.on]

/-! `setPw` -/

@[simp] theorem setPw_regs (x : Power) : (d.setPw x).regs = d.regs := rfl
@[simp] theorem setPw_bus (x : Power) : (d.setPw x).bus = d.bus := rfl
@[simp] theorem setPw_mem (x : Power) : (d.setPw x).mem = d.mem := rfl
@[simp] theorem setPw_tn (x : Power) : (d.setPw x).tn = d.tn := rfl
@[simp] theorem setPw_au (x : Power) : (d.setPw x).au = d.au := rfl
@[simp] theorem setPw_ck (x : Power) : (d.setPw x).ck = d.ck := rfl
@[simp] theorem setPw_cp (x : Power) : (d.setPw x).cp = d.cp := rfl
@[simp] theorem setPw_wn (x : Power) : (d.setPw x).wn = d.wn := rfl
@[simp] theorem setPw_tr (x : Power) : (d.setPw x).tr = d.tr := rfl
@[simp] theorem setPw_gr (x : Power) : (d.setPw x).gr = d.gr := rfl
@[simp] theorem setPw_ba (x : Power) : (d.setPw x).ba = d.ba := rfl
@[simp] theorem setPw_fu (x : Power) : (d.setPw x).fu = d.fu := rfl
@[simp] theorem setPw_ta (x : Power) : (d.setPw x).ta = d.ta := rfl
@[simp] theorem setPw_sy (x : Power) : (d.setPw x).sy = d.sy := rfl
@[simp] theorem setPw_outs (x : Power) : (d.setPw x).outs = d.outs := rfl
@[simp] theorem setPw_free (x : Power) : (d.setPw x).free = d.free := rfl
@[simp] theorem setPw_ticks (x : Power) : (d.setPw x).ticks = d.ticks := rfl
@[simp] theorem setPw_word (x : Power) (wa : Nat) : (d.setPw x).word wa = d.word wa := rfl
@[simp] theorem setPw_rd (x : Power) (g : Fld) : (d.setPw x).rd g = d.rd g := by exact rd_of_regs (d := d) (e := d.setPw x) rfl g
@[simp] theorem setPw_on (x : Power) (g : Fld) : (d.setPw x).on g = d.on g := by simp [Dev.on]

/-! `setSy` -/

@[simp] theorem setSy_regs (x : Steward) : (d.setSy x).regs = d.regs := rfl
@[simp] theorem setSy_bus (x : Steward) : (d.setSy x).bus = d.bus := rfl
@[simp] theorem setSy_mem (x : Steward) : (d.setSy x).mem = d.mem := rfl
@[simp] theorem setSy_tn (x : Steward) : (d.setSy x).tn = d.tn := rfl
@[simp] theorem setSy_au (x : Steward) : (d.setSy x).au = d.au := rfl
@[simp] theorem setSy_ck (x : Steward) : (d.setSy x).ck = d.ck := rfl
@[simp] theorem setSy_cp (x : Steward) : (d.setSy x).cp = d.cp := rfl
@[simp] theorem setSy_wn (x : Steward) : (d.setSy x).wn = d.wn := rfl
@[simp] theorem setSy_tr (x : Steward) : (d.setSy x).tr = d.tr := rfl
@[simp] theorem setSy_gr (x : Steward) : (d.setSy x).gr = d.gr := rfl
@[simp] theorem setSy_ba (x : Steward) : (d.setSy x).ba = d.ba := rfl
@[simp] theorem setSy_fu (x : Steward) : (d.setSy x).fu = d.fu := rfl
@[simp] theorem setSy_ta (x : Steward) : (d.setSy x).ta = d.ta := rfl
@[simp] theorem setSy_pw (x : Steward) : (d.setSy x).pw = d.pw := rfl
@[simp] theorem setSy_outs (x : Steward) : (d.setSy x).outs = d.outs := rfl
@[simp] theorem setSy_free (x : Steward) : (d.setSy x).free = d.free := rfl
@[simp] theorem setSy_ticks (x : Steward) : (d.setSy x).ticks = d.ticks := rfl
@[simp] theorem setSy_word (x : Steward) (wa : Nat) : (d.setSy x).word wa = d.word wa := rfl
@[simp] theorem setSy_rd (x : Steward) (g : Fld) : (d.setSy x).rd g = d.rd g := by exact rd_of_regs (d := d) (e := d.setSy x) rfl g
@[simp] theorem setSy_on (x : Steward) (g : Fld) : (d.setSy x).on g = d.on g := by simp [Dev.on]

/-! `setTrough` -/

@[simp] theorem setTrough_regs (n t : Nat) (x : TroughSt) : (d.setTrough n t x).regs = d.regs := rfl
@[simp] theorem setTrough_bus (n t : Nat) (x : TroughSt) : (d.setTrough n t x).bus = d.bus := rfl
@[simp] theorem setTrough_mem (n t : Nat) (x : TroughSt) : (d.setTrough n t x).mem = d.mem := rfl
@[simp] theorem setTrough_au (n t : Nat) (x : TroughSt) : (d.setTrough n t x).au = d.au := rfl
@[simp] theorem setTrough_ck (n t : Nat) (x : TroughSt) : (d.setTrough n t x).ck = d.ck := rfl
@[simp] theorem setTrough_cp (n t : Nat) (x : TroughSt) : (d.setTrough n t x).cp = d.cp := rfl
@[simp] theorem setTrough_wn (n t : Nat) (x : TroughSt) : (d.setTrough n t x).wn = d.wn := rfl
@[simp] theorem setTrough_tr (n t : Nat) (x : TroughSt) : (d.setTrough n t x).tr = d.tr := rfl
@[simp] theorem setTrough_gr (n t : Nat) (x : TroughSt) : (d.setTrough n t x).gr = d.gr := rfl
@[simp] theorem setTrough_ba (n t : Nat) (x : TroughSt) : (d.setTrough n t x).ba = d.ba := rfl
@[simp] theorem setTrough_fu (n t : Nat) (x : TroughSt) : (d.setTrough n t x).fu = d.fu := rfl
@[simp] theorem setTrough_ta (n t : Nat) (x : TroughSt) : (d.setTrough n t x).ta = d.ta := rfl
@[simp] theorem setTrough_pw (n t : Nat) (x : TroughSt) : (d.setTrough n t x).pw = d.pw := rfl
@[simp] theorem setTrough_sy (n t : Nat) (x : TroughSt) : (d.setTrough n t x).sy = d.sy := rfl
@[simp] theorem setTrough_outs (n t : Nat) (x : TroughSt) : (d.setTrough n t x).outs = d.outs := rfl
@[simp] theorem setTrough_free (n t : Nat) (x : TroughSt) : (d.setTrough n t x).free = d.free := rfl
@[simp] theorem setTrough_ticks (n t : Nat) (x : TroughSt) : (d.setTrough n t x).ticks = d.ticks := rfl
@[simp] theorem setTrough_word (n t : Nat) (x : TroughSt) (wa : Nat) : (d.setTrough n t x).word wa = d.word wa := rfl
@[simp] theorem setTrough_rd (n t : Nat) (x : TroughSt) (g : Fld) : (d.setTrough n t x).rd g = d.rd g := by exact rd_of_regs (d := d) (e := d.setTrough n t x) rfl g
@[simp] theorem setTrough_on (n t : Nat) (x : TroughSt) (g : Fld) : (d.setTrough n t x).on g = d.on g := by simp [Dev.on]

/-! `setLive` -/

@[simp] theorem setLive_regs (x : List Desc) : (d.setLive x).regs = d.regs := rfl
@[simp] theorem setLive_bus (x : List Desc) : (d.setLive x).bus = d.bus := rfl
@[simp] theorem setLive_mem (x : List Desc) : (d.setLive x).mem = d.mem := rfl
@[simp] theorem setLive_au (x : List Desc) : (d.setLive x).au = d.au := rfl
@[simp] theorem setLive_ck (x : List Desc) : (d.setLive x).ck = d.ck := rfl
@[simp] theorem setLive_cp (x : List Desc) : (d.setLive x).cp = d.cp := rfl
@[simp] theorem setLive_wn (x : List Desc) : (d.setLive x).wn = d.wn := rfl
@[simp] theorem setLive_tr (x : List Desc) : (d.setLive x).tr = d.tr := rfl
@[simp] theorem setLive_gr (x : List Desc) : (d.setLive x).gr = d.gr := rfl
@[simp] theorem setLive_ba (x : List Desc) : (d.setLive x).ba = d.ba := rfl
@[simp] theorem setLive_fu (x : List Desc) : (d.setLive x).fu = d.fu := rfl
@[simp] theorem setLive_ta (x : List Desc) : (d.setLive x).ta = d.ta := rfl
@[simp] theorem setLive_pw (x : List Desc) : (d.setLive x).pw = d.pw := rfl
@[simp] theorem setLive_sy (x : List Desc) : (d.setLive x).sy = d.sy := rfl
@[simp] theorem setLive_outs (x : List Desc) : (d.setLive x).outs = d.outs := rfl
@[simp] theorem setLive_free (x : List Desc) : (d.setLive x).free = d.free := rfl
@[simp] theorem setLive_ticks (x : List Desc) : (d.setLive x).ticks = d.ticks := rfl
@[simp] theorem setLive_word (x : List Desc) (wa : Nat) : (d.setLive x).word wa = d.word wa := rfl
@[simp] theorem setLive_rd (x : List Desc) (g : Fld) : (d.setLive x).rd g = d.rd g := by exact rd_of_regs (d := d) (e := d.setLive x) rfl g
@[simp] theorem setLive_on (x : List Desc) (g : Fld) : (d.setLive x).on g = d.on g := by simp [Dev.on]

/-! `setJob` -/

@[simp] theorem setJob_regs (n : Nat) (x : Job) : (d.setJob n x).regs = d.regs := rfl
@[simp] theorem setJob_bus (n : Nat) (x : Job) : (d.setJob n x).bus = d.bus := rfl
@[simp] theorem setJob_mem (n : Nat) (x : Job) : (d.setJob n x).mem = d.mem := rfl
@[simp] theorem setJob_au (n : Nat) (x : Job) : (d.setJob n x).au = d.au := rfl
@[simp] theorem setJob_ck (n : Nat) (x : Job) : (d.setJob n x).ck = d.ck := rfl
@[simp] theorem setJob_cp (n : Nat) (x : Job) : (d.setJob n x).cp = d.cp := rfl
@[simp] theorem setJob_wn (n : Nat) (x : Job) : (d.setJob n x).wn = d.wn := rfl
@[simp] theorem setJob_tr (n : Nat) (x : Job) : (d.setJob n x).tr = d.tr := rfl
@[simp] theorem setJob_gr (n : Nat) (x : Job) : (d.setJob n x).gr = d.gr := rfl
@[simp] theorem setJob_ba (n : Nat) (x : Job) : (d.setJob n x).ba = d.ba := rfl
@[simp] theorem setJob_fu (n : Nat) (x : Job) : (d.setJob n x).fu = d.fu := rfl
@[simp] theorem setJob_ta (n : Nat) (x : Job) : (d.setJob n x).ta = d.ta := rfl
@[simp] theorem setJob_pw (n : Nat) (x : Job) : (d.setJob n x).pw = d.pw := rfl
@[simp] theorem setJob_sy (n : Nat) (x : Job) : (d.setJob n x).sy = d.sy := rfl
@[simp] theorem setJob_outs (n : Nat) (x : Job) : (d.setJob n x).outs = d.outs := rfl
@[simp] theorem setJob_free (n : Nat) (x : Job) : (d.setJob n x).free = d.free := rfl
@[simp] theorem setJob_ticks (n : Nat) (x : Job) : (d.setJob n x).ticks = d.ticks := rfl
@[simp] theorem setJob_word (n : Nat) (x : Job) (wa : Nat) : (d.setJob n x).word wa = d.word wa := rfl
@[simp] theorem setJob_rd (n : Nat) (x : Job) (g : Fld) : (d.setJob n x).rd g = d.rd g := by exact rd_of_regs (d := d) (e := d.setJob n x) rfl g
@[simp] theorem setJob_on (n : Nat) (x : Job) (g : Fld) : (d.setJob n x).on g = d.on g := by simp [Dev.on]

/-! `setCtr` -/

@[simp] theorem setCtr_regs (c v : Nat) : (d.setCtr c v).regs = d.regs := rfl
@[simp] theorem setCtr_bus (c v : Nat) : (d.setCtr c v).bus = d.bus := rfl
@[simp] theorem setCtr_mem (c v : Nat) : (d.setCtr c v).mem = d.mem := rfl
@[simp] theorem setCtr_au (c v : Nat) : (d.setCtr c v).au = d.au := rfl
@[simp] theorem setCtr_ck (c v : Nat) : (d.setCtr c v).ck = d.ck := rfl
@[simp] theorem setCtr_cp (c v : Nat) : (d.setCtr c v).cp = d.cp := rfl
@[simp] theorem setCtr_wn (c v : Nat) : (d.setCtr c v).wn = d.wn := rfl
@[simp] theorem setCtr_tr (c v : Nat) : (d.setCtr c v).tr = d.tr := rfl
@[simp] theorem setCtr_gr (c v : Nat) : (d.setCtr c v).gr = d.gr := rfl
@[simp] theorem setCtr_ba (c v : Nat) : (d.setCtr c v).ba = d.ba := rfl
@[simp] theorem setCtr_fu (c v : Nat) : (d.setCtr c v).fu = d.fu := rfl
@[simp] theorem setCtr_ta (c v : Nat) : (d.setCtr c v).ta = d.ta := rfl
@[simp] theorem setCtr_pw (c v : Nat) : (d.setCtr c v).pw = d.pw := rfl
@[simp] theorem setCtr_sy (c v : Nat) : (d.setCtr c v).sy = d.sy := rfl
@[simp] theorem setCtr_outs (c v : Nat) : (d.setCtr c v).outs = d.outs := rfl
@[simp] theorem setCtr_free (c v : Nat) : (d.setCtr c v).free = d.free := rfl
@[simp] theorem setCtr_ticks (c v : Nat) : (d.setCtr c v).ticks = d.ticks := rfl
@[simp] theorem setCtr_word (c v : Nat) (wa : Nat) : (d.setCtr c v).word wa = d.word wa := rfl
@[simp] theorem setCtr_rd (c v : Nat) (g : Fld) : (d.setCtr c v).rd g = d.rd g := by exact rd_of_regs (d := d) (e := d.setCtr c v) rfl g
@[simp] theorem setCtr_on (c v : Nat) (g : Fld) : (d.setCtr c v).on g = d.on g := by simp [Dev.on]

/-! `setWaiters` -/

@[simp] theorem setWaiters_regs (x : List Waiter) : (d.setWaiters x).regs = d.regs := rfl
@[simp] theorem setWaiters_bus (x : List Waiter) : (d.setWaiters x).bus = d.bus := rfl
@[simp] theorem setWaiters_mem (x : List Waiter) : (d.setWaiters x).mem = d.mem := rfl
@[simp] theorem setWaiters_au (x : List Waiter) : (d.setWaiters x).au = d.au := rfl
@[simp] theorem setWaiters_ck (x : List Waiter) : (d.setWaiters x).ck = d.ck := rfl
@[simp] theorem setWaiters_cp (x : List Waiter) : (d.setWaiters x).cp = d.cp := rfl
@[simp] theorem setWaiters_wn (x : List Waiter) : (d.setWaiters x).wn = d.wn := rfl
@[simp] theorem setWaiters_tr (x : List Waiter) : (d.setWaiters x).tr = d.tr := rfl
@[simp] theorem setWaiters_gr (x : List Waiter) : (d.setWaiters x).gr = d.gr := rfl
@[simp] theorem setWaiters_ba (x : List Waiter) : (d.setWaiters x).ba = d.ba := rfl
@[simp] theorem setWaiters_fu (x : List Waiter) : (d.setWaiters x).fu = d.fu := rfl
@[simp] theorem setWaiters_ta (x : List Waiter) : (d.setWaiters x).ta = d.ta := rfl
@[simp] theorem setWaiters_pw (x : List Waiter) : (d.setWaiters x).pw = d.pw := rfl
@[simp] theorem setWaiters_sy (x : List Waiter) : (d.setWaiters x).sy = d.sy := rfl
@[simp] theorem setWaiters_outs (x : List Waiter) : (d.setWaiters x).outs = d.outs := rfl
@[simp] theorem setWaiters_free (x : List Waiter) : (d.setWaiters x).free = d.free := rfl
@[simp] theorem setWaiters_ticks (x : List Waiter) : (d.setWaiters x).ticks = d.ticks := rfl
@[simp] theorem setWaiters_word (x : List Waiter) (wa : Nat) : (d.setWaiters x).word wa = d.word wa := rfl
@[simp] theorem setWaiters_rd (x : List Waiter) (g : Fld) : (d.setWaiters x).rd g = d.rd g := by exact rd_of_regs (d := d) (e := d.setWaiters x) rfl g
@[simp] theorem setWaiters_on (x : List Waiter) (g : Fld) : (d.setWaiters x).on g = d.on g := by simp [Dev.on]

/-! `setLossScale` -/

@[simp] theorem setLossScale_regs (n : Nat) (x : LossScale) : (d.setLossScale n x).regs = d.regs := rfl
@[simp] theorem setLossScale_bus (n : Nat) (x : LossScale) : (d.setLossScale n x).bus = d.bus := rfl
@[simp] theorem setLossScale_mem (n : Nat) (x : LossScale) : (d.setLossScale n x).mem = d.mem := rfl
@[simp] theorem setLossScale_tn (n : Nat) (x : LossScale) : (d.setLossScale n x).tn = d.tn := rfl
@[simp] theorem setLossScale_au (n : Nat) (x : LossScale) : (d.setLossScale n x).au = d.au := rfl
@[simp] theorem setLossScale_ck (n : Nat) (x : LossScale) : (d.setLossScale n x).ck = d.ck := rfl
@[simp] theorem setLossScale_cp (n : Nat) (x : LossScale) : (d.setLossScale n x).cp = d.cp := rfl
@[simp] theorem setLossScale_tr (n : Nat) (x : LossScale) : (d.setLossScale n x).tr = d.tr := rfl
@[simp] theorem setLossScale_gr (n : Nat) (x : LossScale) : (d.setLossScale n x).gr = d.gr := rfl
@[simp] theorem setLossScale_ba (n : Nat) (x : LossScale) : (d.setLossScale n x).ba = d.ba := rfl
@[simp] theorem setLossScale_fu (n : Nat) (x : LossScale) : (d.setLossScale n x).fu = d.fu := rfl
@[simp] theorem setLossScale_ta (n : Nat) (x : LossScale) : (d.setLossScale n x).ta = d.ta := rfl
@[simp] theorem setLossScale_pw (n : Nat) (x : LossScale) : (d.setLossScale n x).pw = d.pw := rfl
@[simp] theorem setLossScale_sy (n : Nat) (x : LossScale) : (d.setLossScale n x).sy = d.sy := rfl
@[simp] theorem setLossScale_outs (n : Nat) (x : LossScale) : (d.setLossScale n x).outs = d.outs := rfl
@[simp] theorem setLossScale_free (n : Nat) (x : LossScale) : (d.setLossScale n x).free = d.free := rfl
@[simp] theorem setLossScale_ticks (n : Nat) (x : LossScale) : (d.setLossScale n x).ticks = d.ticks := rfl
@[simp] theorem setLossScale_word (n : Nat) (x : LossScale) (wa : Nat) : (d.setLossScale n x).word wa = d.word wa := rfl
@[simp] theorem setLossScale_rd (n : Nat) (x : LossScale) (g : Fld) : (d.setLossScale n x).rd g = d.rd g := by exact rd_of_regs (d := d) (e := d.setLossScale n x) rfl g
@[simp] theorem setLossScale_on (n : Nat) (x : LossScale) (g : Fld) : (d.setLossScale n x).on g = d.on g := by simp [Dev.on]

/-! `setCsr` -/

@[simp] theorem setCsr_regs (i v : Nat) : (d.setCsr i v).regs = d.regs := rfl
@[simp] theorem setCsr_bus (i v : Nat) : (d.setCsr i v).bus = d.bus := rfl
@[simp] theorem setCsr_mem (i v : Nat) : (d.setCsr i v).mem = d.mem := rfl
@[simp] theorem setCsr_tn (i v : Nat) : (d.setCsr i v).tn = d.tn := rfl
@[simp] theorem setCsr_au (i v : Nat) : (d.setCsr i v).au = d.au := rfl
@[simp] theorem setCsr_ck (i v : Nat) : (d.setCsr i v).ck = d.ck := rfl
@[simp] theorem setCsr_cp (i v : Nat) : (d.setCsr i v).cp = d.cp := rfl
@[simp] theorem setCsr_wn (i v : Nat) : (d.setCsr i v).wn = d.wn := rfl
@[simp] theorem setCsr_tr (i v : Nat) : (d.setCsr i v).tr = d.tr := rfl
@[simp] theorem setCsr_gr (i v : Nat) : (d.setCsr i v).gr = d.gr := rfl
@[simp] theorem setCsr_ba (i v : Nat) : (d.setCsr i v).ba = d.ba := rfl
@[simp] theorem setCsr_fu (i v : Nat) : (d.setCsr i v).fu = d.fu := rfl
@[simp] theorem setCsr_ta (i v : Nat) : (d.setCsr i v).ta = d.ta := rfl
@[simp] theorem setCsr_pw (i v : Nat) : (d.setCsr i v).pw = d.pw := rfl
@[simp] theorem setCsr_outs (i v : Nat) : (d.setCsr i v).outs = d.outs := rfl
@[simp] theorem setCsr_free (i v : Nat) : (d.setCsr i v).free = d.free := rfl
@[simp] theorem setCsr_ticks (i v : Nat) : (d.setCsr i v).ticks = d.ticks := rfl
@[simp] theorem setCsr_word (i v : Nat) (wa : Nat) : (d.setCsr i v).word wa = d.word wa := rfl
@[simp] theorem setCsr_rd (i v : Nat) (g : Fld) : (d.setCsr i v).rd g = d.rd g := by exact rd_of_regs (d := d) (e := d.setCsr i v) rfl g
@[simp] theorem setCsr_on (i v : Nat) (g : Fld) : (d.setCsr i v).on g = d.on g := by simp [Dev.on]

/-! `setGword` -/

@[simp] theorem setGword_regs (w : Nat) (x : GWord) : (d.setGword w x).regs = d.regs := rfl
@[simp] theorem setGword_bus (w : Nat) (x : GWord) : (d.setGword w x).bus = d.bus := rfl
@[simp] theorem setGword_mem (w : Nat) (x : GWord) : (d.setGword w x).mem = d.mem := rfl
@[simp] theorem setGword_tn (w : Nat) (x : GWord) : (d.setGword w x).tn = d.tn := rfl
@[simp] theorem setGword_au (w : Nat) (x : GWord) : (d.setGword w x).au = d.au := rfl
@[simp] theorem setGword_ck (w : Nat) (x : GWord) : (d.setGword w x).ck = d.ck := rfl
@[simp] theorem setGword_cp (w : Nat) (x : GWord) : (d.setGword w x).cp = d.cp := rfl
@[simp] theorem setGword_wn (w : Nat) (x : GWord) : (d.setGword w x).wn = d.wn := rfl
@[simp] theorem setGword_tr (w : Nat) (x : GWord) : (d.setGword w x).tr = d.tr := rfl
@[simp] theorem setGword_ba (w : Nat) (x : GWord) : (d.setGword w x).ba = d.ba := rfl
@[simp] theorem setGword_fu (w : Nat) (x : GWord) : (d.setGword w x).fu = d.fu := rfl
@[simp] theorem setGword_ta (w : Nat) (x : GWord) : (d.setGword w x).ta = d.ta := rfl
@[simp] theorem setGword_pw (w : Nat) (x : GWord) : (d.setGword w x).pw = d.pw := rfl
@[simp] theorem setGword_sy (w : Nat) (x : GWord) : (d.setGword w x).sy = d.sy := rfl
@[simp] theorem setGword_outs (w : Nat) (x : GWord) : (d.setGword w x).outs = d.outs := rfl
@[simp] theorem setGword_free (w : Nat) (x : GWord) : (d.setGword w x).free = d.free := rfl
@[simp] theorem setGword_ticks (w : Nat) (x : GWord) : (d.setGword w x).ticks = d.ticks := rfl
@[simp] theorem setGword_word (w : Nat) (x : GWord) (wa : Nat) : (d.setGword w x).word wa = d.word wa := rfl
@[simp] theorem setGword_rd (w : Nat) (x : GWord) (g : Fld) : (d.setGword w x).rd g = d.rd g := by exact rd_of_regs (d := d) (e := d.setGword w x) rfl g
@[simp] theorem setGword_on (w : Nat) (x : GWord) (g : Fld) : (d.setGword w x).on g = d.on g := by simp [Dev.on]

/-! `count` -/

@[simp] theorem count_regs (n k v : Nat) : (d.count n k v).regs = d.regs := rfl
@[simp] theorem count_bus (n k v : Nat) : (d.count n k v).bus = d.bus := rfl
@[simp] theorem count_mem (n k v : Nat) : (d.count n k v).mem = d.mem := rfl
@[simp] theorem count_tn (n k v : Nat) : (d.count n k v).tn = d.tn := rfl
@[simp] theorem count_au (n k v : Nat) : (d.count n k v).au = d.au := rfl
@[simp] theorem count_ck (n k v : Nat) : (d.count n k v).ck = d.ck := rfl
@[simp] theorem count_cp (n k v : Nat) : (d.count n k v).cp = d.cp := rfl
@[simp] theorem count_wn (n k v : Nat) : (d.count n k v).wn = d.wn := rfl
@[simp] theorem count_tr (n k v : Nat) : (d.count n k v).tr = d.tr := rfl
@[simp] theorem count_gr (n k v : Nat) : (d.count n k v).gr = d.gr := rfl
@[simp] theorem count_ba (n k v : Nat) : (d.count n k v).ba = d.ba := rfl
@[simp] theorem count_fu (n k v : Nat) : (d.count n k v).fu = d.fu := rfl
@[simp] theorem count_pw (n k v : Nat) : (d.count n k v).pw = d.pw := rfl
@[simp] theorem count_sy (n k v : Nat) : (d.count n k v).sy = d.sy := rfl
@[simp] theorem count_outs (n k v : Nat) : (d.count n k v).outs = d.outs := rfl
@[simp] theorem count_free (n k v : Nat) : (d.count n k v).free = d.free := rfl
@[simp] theorem count_ticks (n k v : Nat) : (d.count n k v).ticks = d.ticks := rfl
@[simp] theorem count_word (n k v : Nat) (wa : Nat) : (d.count n k v).word wa = d.word wa := rfl
@[simp] theorem count_rd (n k v : Nat) (g : Fld) : (d.count n k v).rd g = d.rd g := by exact rd_of_regs (d := d) (e := d.count n k v) rfl g
@[simp] theorem count_on (n k v : Nat) (g : Fld) : (d.count n k v).on g = d.on g := by simp [Dev.on]

/-! `emit` -/

@[simp] theorem emit_regs (o : Out) : (d.emit o).regs = d.regs := rfl
@[simp] theorem emit_bus (o : Out) : (d.emit o).bus = d.bus := rfl
@[simp] theorem emit_mem (o : Out) : (d.emit o).mem = d.mem := rfl
@[simp] theorem emit_tn (o : Out) : (d.emit o).tn = d.tn := rfl
@[simp] theorem emit_au (o : Out) : (d.emit o).au = d.au := rfl
@[simp] theorem emit_ck (o : Out) : (d.emit o).ck = d.ck := rfl
@[simp] theorem emit_cp (o : Out) : (d.emit o).cp = d.cp := rfl
@[simp] theorem emit_wn (o : Out) : (d.emit o).wn = d.wn := rfl
@[simp] theorem emit_tr (o : Out) : (d.emit o).tr = d.tr := rfl
@[simp] theorem emit_gr (o : Out) : (d.emit o).gr = d.gr := rfl
@[simp] theorem emit_ba (o : Out) : (d.emit o).ba = d.ba := rfl
@[simp] theorem emit_fu (o : Out) : (d.emit o).fu = d.fu := rfl
@[simp] theorem emit_ta (o : Out) : (d.emit o).ta = d.ta := rfl
@[simp] theorem emit_pw (o : Out) : (d.emit o).pw = d.pw := rfl
@[simp] theorem emit_sy (o : Out) : (d.emit o).sy = d.sy := rfl
@[simp] theorem emit_free (o : Out) : (d.emit o).free = d.free := rfl
@[simp] theorem emit_ticks (o : Out) : (d.emit o).ticks = d.ticks := rfl
@[simp] theorem emit_word (o : Out) (wa : Nat) : (d.emit o).word wa = d.word wa := rfl
@[simp] theorem emit_rd (o : Out) (g : Fld) : (d.emit o).rd g = d.rd g := by exact rd_of_regs (d := d) (e := d.emit o) rfl g
@[simp] theorem emit_on (o : Out) (g : Fld) : (d.emit o).on g = d.on g := by simp [Dev.on]

/-! `setEcc` -/

@[simp] theorem setEcc_regs (w : Nat) (m : Option EccMark) : (d.setEcc w m).regs = d.regs := rfl
@[simp] theorem setEcc_bus (w : Nat) (m : Option EccMark) : (d.setEcc w m).bus = d.bus := rfl
@[simp] theorem setEcc_tn (w : Nat) (m : Option EccMark) : (d.setEcc w m).tn = d.tn := rfl
@[simp] theorem setEcc_au (w : Nat) (m : Option EccMark) : (d.setEcc w m).au = d.au := rfl
@[simp] theorem setEcc_ck (w : Nat) (m : Option EccMark) : (d.setEcc w m).ck = d.ck := rfl
@[simp] theorem setEcc_cp (w : Nat) (m : Option EccMark) : (d.setEcc w m).cp = d.cp := rfl
@[simp] theorem setEcc_wn (w : Nat) (m : Option EccMark) : (d.setEcc w m).wn = d.wn := rfl
@[simp] theorem setEcc_tr (w : Nat) (m : Option EccMark) : (d.setEcc w m).tr = d.tr := rfl
@[simp] theorem setEcc_gr (w : Nat) (m : Option EccMark) : (d.setEcc w m).gr = d.gr := rfl
@[simp] theorem setEcc_ba (w : Nat) (m : Option EccMark) : (d.setEcc w m).ba = d.ba := rfl
@[simp] theorem setEcc_fu (w : Nat) (m : Option EccMark) : (d.setEcc w m).fu = d.fu := rfl
@[simp] theorem setEcc_ta (w : Nat) (m : Option EccMark) : (d.setEcc w m).ta = d.ta := rfl
@[simp] theorem setEcc_pw (w : Nat) (m : Option EccMark) : (d.setEcc w m).pw = d.pw := rfl
@[simp] theorem setEcc_sy (w : Nat) (m : Option EccMark) : (d.setEcc w m).sy = d.sy := rfl
@[simp] theorem setEcc_outs (w : Nat) (m : Option EccMark) : (d.setEcc w m).outs = d.outs := rfl
@[simp] theorem setEcc_free (w : Nat) (m : Option EccMark) : (d.setEcc w m).free = d.free := rfl
@[simp] theorem setEcc_ticks (w : Nat) (m : Option EccMark) : (d.setEcc w m).ticks = d.ticks := rfl
@[simp] theorem setEcc_word (w : Nat) (m : Option EccMark) (wa : Nat) : (d.setEcc w m).word wa = d.word wa := rfl
@[simp] theorem setEcc_rd (w : Nat) (m : Option EccMark) (g : Fld) : (d.setEcc w m).rd g = d.rd g := by exact rd_of_regs (d := d) (e := d.setEcc w m) rfl g
@[simp] theorem setEcc_on (w : Nat) (m : Option EccMark) (g : Fld) : (d.setEcc w m).on g = d.on g := by simp [Dev.on]

/-! `setLink` -/

@[simp] theorem setLink_regs (p : Nat) (x : Link) : (d.setLink p x).regs = d.regs := rfl
@[simp] theorem setLink_bus (p : Nat) (x : Link) : (d.setLink p x).bus = d.bus := rfl
@[simp] theorem setLink_mem (p : Nat) (x : Link) : (d.setLink p x).mem = d.mem := rfl
@[simp] theorem setLink_tn (p : Nat) (x : Link) : (d.setLink p x).tn = d.tn := rfl
@[simp] theorem setLink_au (p : Nat) (x : Link) : (d.setLink p x).au = d.au := rfl
@[simp] theorem setLink_ck (p : Nat) (x : Link) : (d.setLink p x).ck = d.ck := rfl
@[simp] theorem setLink_cp (p : Nat) (x : Link) : (d.setLink p x).cp = d.cp := rfl
@[simp] theorem setLink_wn (p : Nat) (x : Link) : (d.setLink p x).wn = d.wn := rfl
@[simp] theorem setLink_tr (p : Nat) (x : Link) : (d.setLink p x).tr = d.tr := rfl
@[simp] theorem setLink_gr (p : Nat) (x : Link) : (d.setLink p x).gr = d.gr := rfl
@[simp] theorem setLink_ba (p : Nat) (x : Link) : (d.setLink p x).ba = d.ba := rfl
@[simp] theorem setLink_ta (p : Nat) (x : Link) : (d.setLink p x).ta = d.ta := rfl
@[simp] theorem setLink_pw (p : Nat) (x : Link) : (d.setLink p x).pw = d.pw := rfl
@[simp] theorem setLink_sy (p : Nat) (x : Link) : (d.setLink p x).sy = d.sy := rfl
@[simp] theorem setLink_outs (p : Nat) (x : Link) : (d.setLink p x).outs = d.outs := rfl
@[simp] theorem setLink_free (p : Nat) (x : Link) : (d.setLink p x).free = d.free := rfl
@[simp] theorem setLink_ticks (p : Nat) (x : Link) : (d.setLink p x).ticks = d.ticks := rfl
@[simp] theorem setLink_word (p : Nat) (x : Link) (wa : Nat) : (d.setLink p x).word wa = d.word wa := rfl
@[simp] theorem setLink_rd (p : Nat) (x : Link) (g : Fld) : (d.setLink p x).rd g = d.rd g := by exact rd_of_regs (d := d) (e := d.setLink p x) rfl g
@[simp] theorem setLink_on (p : Nat) (x : Link) (g : Fld) : (d.setLink p x).on g = d.on g := by simp [Dev.on]

/-! `setBar4` -/

@[simp] theorem setBar4_regs (f o v : Nat) : (d.setBar4 f o v).regs = d.regs := rfl
@[simp] theorem setBar4_mem (f o v : Nat) : (d.setBar4 f o v).mem = d.mem := rfl
@[simp] theorem setBar4_tn (f o v : Nat) : (d.setBar4 f o v).tn = d.tn := rfl
@[simp] theorem setBar4_au (f o v : Nat) : (d.setBar4 f o v).au = d.au := rfl
@[simp] theorem setBar4_ck (f o v : Nat) : (d.setBar4 f o v).ck = d.ck := rfl
@[simp] theorem setBar4_cp (f o v : Nat) : (d.setBar4 f o v).cp = d.cp := rfl
@[simp] theorem setBar4_wn (f o v : Nat) : (d.setBar4 f o v).wn = d.wn := rfl
@[simp] theorem setBar4_tr (f o v : Nat) : (d.setBar4 f o v).tr = d.tr := rfl
@[simp] theorem setBar4_gr (f o v : Nat) : (d.setBar4 f o v).gr = d.gr := rfl
@[simp] theorem setBar4_ba (f o v : Nat) : (d.setBar4 f o v).ba = d.ba := rfl
@[simp] theorem setBar4_fu (f o v : Nat) : (d.setBar4 f o v).fu = d.fu := rfl
@[simp] theorem setBar4_ta (f o v : Nat) : (d.setBar4 f o v).ta = d.ta := rfl
@[simp] theorem setBar4_pw (f o v : Nat) : (d.setBar4 f o v).pw = d.pw := rfl
@[simp] theorem setBar4_sy (f o v : Nat) : (d.setBar4 f o v).sy = d.sy := rfl
@[simp] theorem setBar4_outs (f o v : Nat) : (d.setBar4 f o v).outs = d.outs := rfl
@[simp] theorem setBar4_free (f o v : Nat) : (d.setBar4 f o v).free = d.free := rfl
@[simp] theorem setBar4_ticks (f o v : Nat) : (d.setBar4 f o v).ticks = d.ticks := rfl
@[simp] theorem setBar4_word (f o v : Nat) (wa : Nat) : (d.setBar4 f o v).word wa = d.word wa := rfl
@[simp] theorem setBar4_rd (f o v : Nat) (g : Fld) : (d.setBar4 f o v).rd g = d.rd g := by exact rd_of_regs (d := d) (e := d.setBar4 f o v) rfl g
@[simp] theorem setBar4_on (f o v : Nat) (g : Fld) : (d.setBar4 f o v).on g = d.on g := by simp [Dev.on]

/-! `setShadow` -/

@[simp] theorem setShadow_regs (r : Req) (a : Nat) (w : Option Word) : (d.setShadow r a w).regs = d.regs := rfl
@[simp] theorem setShadow_mem (r : Req) (a : Nat) (w : Option Word) : (d.setShadow r a w).mem = d.mem := rfl
@[simp] theorem setShadow_tn (r : Req) (a : Nat) (w : Option Word) : (d.setShadow r a w).tn = d.tn := rfl
@[simp] theorem setShadow_au (r : Req) (a : Nat) (w : Option Word) : (d.setShadow r a w).au = d.au := rfl
@[simp] theorem setShadow_ck (r : Req) (a : Nat) (w : Option Word) : (d.setShadow r a w).ck = d.ck := rfl
@[simp] theorem setShadow_cp (r : Req) (a : Nat) (w : Option Word) : (d.setShadow r a w).cp = d.cp := rfl
@[simp] theorem setShadow_wn (r : Req) (a : Nat) (w : Option Word) : (d.setShadow r a w).wn = d.wn := rfl
@[simp] theorem setShadow_tr (r : Req) (a : Nat) (w : Option Word) : (d.setShadow r a w).tr = d.tr := rfl
@[simp] theorem setShadow_gr (r : Req) (a : Nat) (w : Option Word) : (d.setShadow r a w).gr = d.gr := rfl
@[simp] theorem setShadow_ba (r : Req) (a : Nat) (w : Option Word) : (d.setShadow r a w).ba = d.ba := rfl
@[simp] theorem setShadow_fu (r : Req) (a : Nat) (w : Option Word) : (d.setShadow r a w).fu = d.fu := rfl
@[simp] theorem setShadow_ta (r : Req) (a : Nat) (w : Option Word) : (d.setShadow r a w).ta = d.ta := rfl
@[simp] theorem setShadow_pw (r : Req) (a : Nat) (w : Option Word) : (d.setShadow r a w).pw = d.pw := rfl
@[simp] theorem setShadow_sy (r : Req) (a : Nat) (w : Option Word) : (d.setShadow r a w).sy = d.sy := rfl
@[simp] theorem setShadow_outs (r : Req) (a : Nat) (w : Option Word) : (d.setShadow r a w).outs = d.outs := rfl
@[simp] theorem setShadow_free (r : Req) (a : Nat) (w : Option Word) : (d.setShadow r a w).free = d.free := rfl
@[simp] theorem setShadow_ticks (r : Req) (a : Nat) (w : Option Word) : (d.setShadow r a w).ticks = d.ticks := rfl
@[simp] theorem setShadow_word (r : Req) (a : Nat) (w : Option Word) (wa : Nat) : (d.setShadow r a w).word wa = d.word wa := rfl
@[simp] theorem setShadow_rd (r : Req) (a : Nat) (w : Option Word) (g : Fld) : (d.setShadow r a w).rd g = d.rd g := by exact rd_of_regs (d := d) (e := d.setShadow r a w) rfl g
@[simp] theorem setShadow_on (r : Req) (a : Nat) (w : Option Word) (g : Fld) : (d.setShadow r a w).on g = d.on g := by simp [Dev.on]

/-! `setStale` -/

@[simp] theorem setStale_regs (r : Req) (p : Nat) (b : Bool) : (d.setStale r p b).regs = d.regs := rfl
@[simp] theorem setStale_mem (r : Req) (p : Nat) (b : Bool) : (d.setStale r p b).mem = d.mem := rfl
@[simp] theorem setStale_tn (r : Req) (p : Nat) (b : Bool) : (d.setStale r p b).tn = d.tn := rfl
@[simp] theorem setStale_au (r : Req) (p : Nat) (b : Bool) : (d.setStale r p b).au = d.au := rfl
@[simp] theorem setStale_ck (r : Req) (p : Nat) (b : Bool) : (d.setStale r p b).ck = d.ck := rfl
@[simp] theorem setStale_cp (r : Req) (p : Nat) (b : Bool) : (d.setStale r p b).cp = d.cp := rfl
@[simp] theorem setStale_wn (r : Req) (p : Nat) (b : Bool) : (d.setStale r p b).wn = d.wn := rfl
@[simp] theorem setStale_tr (r : Req) (p : Nat) (b : Bool) : (d.setStale r p b).tr = d.tr := rfl
@[simp] theorem setStale_gr (r : Req) (p : Nat) (b : Bool) : (d.setStale r p b).gr = d.gr := rfl
@[simp] theorem setStale_ba (r : Req) (p : Nat) (b : Bool) : (d.setStale r p b).ba = d.ba := rfl
@[simp] theorem setStale_fu (r : Req) (p : Nat) (b : Bool) : (d.setStale r p b).fu = d.fu := rfl
@[simp] theorem setStale_ta (r : Req) (p : Nat) (b : Bool) : (d.setStale r p b).ta = d.ta := rfl
@[simp] theorem setStale_pw (r : Req) (p : Nat) (b : Bool) : (d.setStale r p b).pw = d.pw := rfl
@[simp] theorem setStale_sy (r : Req) (p : Nat) (b : Bool) : (d.setStale r p b).sy = d.sy := rfl
@[simp] theorem setStale_outs (r : Req) (p : Nat) (b : Bool) : (d.setStale r p b).outs = d.outs := rfl
@[simp] theorem setStale_free (r : Req) (p : Nat) (b : Bool) : (d.setStale r p b).free = d.free := rfl
@[simp] theorem setStale_ticks (r : Req) (p : Nat) (b : Bool) : (d.setStale r p b).ticks = d.ticks := rfl
@[simp] theorem setStale_word (r : Req) (p : Nat) (b : Bool) (wa : Nat) : (d.setStale r p b).word wa = d.word wa := rfl
@[simp] theorem setStale_rd (r : Req) (p : Nat) (b : Bool) (g : Fld) : (d.setStale r p b).rd g = d.rd g := by exact rd_of_regs (d := d) (e := d.setStale r p b) rfl g
@[simp] theorem setStale_on (r : Req) (p : Nat) (b : Bool) (g : Fld) : (d.setStale r p b).on g = d.on g := by simp [Dev.on]

/-! `setBarriers` -/

@[simp] theorem setBarriers_regs (x : List (Nat × Nat × Nat)) : (d.setBarriers x).regs = d.regs := rfl
@[simp] theorem setBarriers_bus (x : List (Nat × Nat × Nat)) : (d.setBarriers x).bus = d.bus := rfl
@[simp] theorem setBarriers_mem (x : List (Nat × Nat × Nat)) : (d.setBarriers x).mem = d.mem := rfl
@[simp] theorem setBarriers_au (x : List (Nat × Nat × Nat)) : (d.setBarriers x).au = d.au := rfl
@[simp] theorem setBarriers_ck (x : List (Nat × Nat × Nat)) : (d.setBarriers x).ck = d.ck := rfl
@[simp] theorem setBarriers_cp (x : List (Nat × Nat × Nat)) : (d.setBarriers x).cp = d.cp := rfl
@[simp] theorem setBarriers_wn (x : List (Nat × Nat × Nat)) : (d.setBarriers x).wn = d.wn := rfl
@[simp] theorem setBarriers_tr (x : List (Nat × Nat × Nat)) : (d.setBarriers x).tr = d.tr := rfl
@[simp] theorem setBarriers_gr (x : List (Nat × Nat × Nat)) : (d.setBarriers x).gr = d.gr := rfl
@[simp] theorem setBarriers_ba (x : List (Nat × Nat × Nat)) : (d.setBarriers x).ba = d.ba := rfl
@[simp] theorem setBarriers_fu (x : List (Nat × Nat × Nat)) : (d.setBarriers x).fu = d.fu := rfl
@[simp] theorem setBarriers_ta (x : List (Nat × Nat × Nat)) : (d.setBarriers x).ta = d.ta := rfl
@[simp] theorem setBarriers_pw (x : List (Nat × Nat × Nat)) : (d.setBarriers x).pw = d.pw := rfl
@[simp] theorem setBarriers_sy (x : List (Nat × Nat × Nat)) : (d.setBarriers x).sy = d.sy := rfl
@[simp] theorem setBarriers_outs (x : List (Nat × Nat × Nat)) : (d.setBarriers x).outs = d.outs := rfl
@[simp] theorem setBarriers_free (x : List (Nat × Nat × Nat)) : (d.setBarriers x).free = d.free := rfl
@[simp] theorem setBarriers_ticks (x : List (Nat × Nat × Nat)) : (d.setBarriers x).ticks = d.ticks := rfl
@[simp] theorem setBarriers_word (x : List (Nat × Nat × Nat)) (wa : Nat) : (d.setBarriers x).word wa = d.word wa := rfl
@[simp] theorem setBarriers_rd (x : List (Nat × Nat × Nat)) (g : Fld) : (d.setBarriers x).rd g = d.rd g := by exact rd_of_regs (d := d) (e := d.setBarriers x) rfl g
@[simp] theorem setBarriers_on (x : List (Nat × Nat × Nat)) (g : Fld) : (d.setBarriers x).on g = d.on g := by simp [Dev.on]

/-! `setLastSeq` -/

@[simp] theorem setLastSeq_regs (a b n s : Nat) : (d.setLastSeq a b n s).regs = d.regs := rfl
@[simp] theorem setLastSeq_bus (a b n s : Nat) : (d.setLastSeq a b n s).bus = d.bus := rfl
@[simp] theorem setLastSeq_mem (a b n s : Nat) : (d.setLastSeq a b n s).mem = d.mem := rfl
@[simp] theorem setLastSeq_au (a b n s : Nat) : (d.setLastSeq a b n s).au = d.au := rfl
@[simp] theorem setLastSeq_ck (a b n s : Nat) : (d.setLastSeq a b n s).ck = d.ck := rfl
@[simp] theorem setLastSeq_cp (a b n s : Nat) : (d.setLastSeq a b n s).cp = d.cp := rfl
@[simp] theorem setLastSeq_wn (a b n s : Nat) : (d.setLastSeq a b n s).wn = d.wn := rfl
@[simp] theorem setLastSeq_tr (a b n s : Nat) : (d.setLastSeq a b n s).tr = d.tr := rfl
@[simp] theorem setLastSeq_gr (a b n s : Nat) : (d.setLastSeq a b n s).gr = d.gr := rfl
@[simp] theorem setLastSeq_ba (a b n s : Nat) : (d.setLastSeq a b n s).ba = d.ba := rfl
@[simp] theorem setLastSeq_fu (a b n s : Nat) : (d.setLastSeq a b n s).fu = d.fu := rfl
@[simp] theorem setLastSeq_ta (a b n s : Nat) : (d.setLastSeq a b n s).ta = d.ta := rfl
@[simp] theorem setLastSeq_pw (a b n s : Nat) : (d.setLastSeq a b n s).pw = d.pw := rfl
@[simp] theorem setLastSeq_sy (a b n s : Nat) : (d.setLastSeq a b n s).sy = d.sy := rfl
@[simp] theorem setLastSeq_outs (a b n s : Nat) : (d.setLastSeq a b n s).outs = d.outs := rfl
@[simp] theorem setLastSeq_free (a b n s : Nat) : (d.setLastSeq a b n s).free = d.free := rfl
@[simp] theorem setLastSeq_ticks (a b n s : Nat) : (d.setLastSeq a b n s).ticks = d.ticks := rfl
@[simp] theorem setLastSeq_word (a b n s : Nat) (wa : Nat) : (d.setLastSeq a b n s).word wa = d.word wa := rfl
@[simp] theorem setLastSeq_rd (a b n s : Nat) (g : Fld) : (d.setLastSeq a b n s).rd g = d.rd g := by exact rd_of_regs (d := d) (e := d.setLastSeq a b n s) rfl g
@[simp] theorem setLastSeq_on (a b n s : Nat) (g : Fld) : (d.setLastSeq a b n s).on g = d.on g := by simp [Dev.on]

/-! `setNextSeq` -/

@[simp] theorem setNextSeq_regs (a b n s : Nat) : (d.setNextSeq a b n s).regs = d.regs := rfl
@[simp] theorem setNextSeq_bus (a b n s : Nat) : (d.setNextSeq a b n s).bus = d.bus := rfl
@[simp] theorem setNextSeq_mem (a b n s : Nat) : (d.setNextSeq a b n s).mem = d.mem := rfl
@[simp] theorem setNextSeq_au (a b n s : Nat) : (d.setNextSeq a b n s).au = d.au := rfl
@[simp] theorem setNextSeq_ck (a b n s : Nat) : (d.setNextSeq a b n s).ck = d.ck := rfl
@[simp] theorem setNextSeq_cp (a b n s : Nat) : (d.setNextSeq a b n s).cp = d.cp := rfl
@[simp] theorem setNextSeq_wn (a b n s : Nat) : (d.setNextSeq a b n s).wn = d.wn := rfl
@[simp] theorem setNextSeq_tr (a b n s : Nat) : (d.setNextSeq a b n s).tr = d.tr := rfl
@[simp] theorem setNextSeq_gr (a b n s : Nat) : (d.setNextSeq a b n s).gr = d.gr := rfl
@[simp] theorem setNextSeq_ba (a b n s : Nat) : (d.setNextSeq a b n s).ba = d.ba := rfl
@[simp] theorem setNextSeq_fu (a b n s : Nat) : (d.setNextSeq a b n s).fu = d.fu := rfl
@[simp] theorem setNextSeq_ta (a b n s : Nat) : (d.setNextSeq a b n s).ta = d.ta := rfl
@[simp] theorem setNextSeq_pw (a b n s : Nat) : (d.setNextSeq a b n s).pw = d.pw := rfl
@[simp] theorem setNextSeq_sy (a b n s : Nat) : (d.setNextSeq a b n s).sy = d.sy := rfl
@[simp] theorem setNextSeq_outs (a b n s : Nat) : (d.setNextSeq a b n s).outs = d.outs := rfl
@[simp] theorem setNextSeq_free (a b n s : Nat) : (d.setNextSeq a b n s).free = d.free := rfl
@[simp] theorem setNextSeq_ticks (a b n s : Nat) : (d.setNextSeq a b n s).ticks = d.ticks := rfl
@[simp] theorem setNextSeq_word (a b n s : Nat) (wa : Nat) : (d.setNextSeq a b n s).word wa = d.word wa := rfl
@[simp] theorem setNextSeq_rd (a b n s : Nat) (g : Fld) : (d.setNextSeq a b n s).rd g = d.rd g := by exact rd_of_regs (d := d) (e := d.setNextSeq a b n s) rfl g
@[simp] theorem setNextSeq_on (a b n s : Nat) (g : Fld) : (d.setNextSeq a b n s).on g = d.on g := by simp [Dev.on]

/-! `owe` -/

@[simp] theorem owe_regs (o : Owed) : (d.owe o).regs = d.regs := rfl
@[simp] theorem owe_bus (o : Owed) : (d.owe o).bus = d.bus := rfl
@[simp] theorem owe_mem (o : Owed) : (d.owe o).mem = d.mem := rfl
@[simp] theorem owe_au (o : Owed) : (d.owe o).au = d.au := rfl
@[simp] theorem owe_ck (o : Owed) : (d.owe o).ck = d.ck := rfl
@[simp] theorem owe_cp (o : Owed) : (d.owe o).cp = d.cp := rfl
@[simp] theorem owe_wn (o : Owed) : (d.owe o).wn = d.wn := rfl
@[simp] theorem owe_tr (o : Owed) : (d.owe o).tr = d.tr := rfl
@[simp] theorem owe_gr (o : Owed) : (d.owe o).gr = d.gr := rfl
@[simp] theorem owe_ba (o : Owed) : (d.owe o).ba = d.ba := rfl
@[simp] theorem owe_fu (o : Owed) : (d.owe o).fu = d.fu := rfl
@[simp] theorem owe_ta (o : Owed) : (d.owe o).ta = d.ta := rfl
@[simp] theorem owe_pw (o : Owed) : (d.owe o).pw = d.pw := rfl
@[simp] theorem owe_sy (o : Owed) : (d.owe o).sy = d.sy := rfl
@[simp] theorem owe_outs (o : Owed) : (d.owe o).outs = d.outs := rfl
@[simp] theorem owe_free (o : Owed) : (d.owe o).free = d.free := rfl
@[simp] theorem owe_ticks (o : Owed) : (d.owe o).ticks = d.ticks := rfl
@[simp] theorem owe_word (o : Owed) (wa : Nat) : (d.owe o).word wa = d.word wa := rfl
@[simp] theorem owe_rd (o : Owed) (g : Fld) : (d.owe o).rd g = d.rd g := by exact rd_of_regs (d := d) (e := d.owe o) rfl g
@[simp] theorem owe_on (o : Owed) (g : Fld) : (d.owe o).on g = d.on g := by simp [Dev.on]

/-! `setOwed` -/

@[simp] theorem setOwed_regs (x : List Owed) : (d.setOwed x).regs = d.regs := rfl
@[simp] theorem setOwed_bus (x : List Owed) : (d.setOwed x).bus = d.bus := rfl
@[simp] theorem setOwed_mem (x : List Owed) : (d.setOwed x).mem = d.mem := rfl
@[simp] theorem setOwed_au (x : List Owed) : (d.setOwed x).au = d.au := rfl
@[simp] theorem setOwed_ck (x : List Owed) : (d.setOwed x).ck = d.ck := rfl
@[simp] theorem setOwed_cp (x : List Owed) : (d.setOwed x).cp = d.cp := rfl
@[simp] theorem setOwed_wn (x : List Owed) : (d.setOwed x).wn = d.wn := rfl
@[simp] theorem setOwed_tr (x : List Owed) : (d.setOwed x).tr = d.tr := rfl
@[simp] theorem setOwed_gr (x : List Owed) : (d.setOwed x).gr = d.gr := rfl
@[simp] theorem setOwed_ba (x : List Owed) : (d.setOwed x).ba = d.ba := rfl
@[simp] theorem setOwed_fu (x : List Owed) : (d.setOwed x).fu = d.fu := rfl
@[simp] theorem setOwed_ta (x : List Owed) : (d.setOwed x).ta = d.ta := rfl
@[simp] theorem setOwed_pw (x : List Owed) : (d.setOwed x).pw = d.pw := rfl
@[simp] theorem setOwed_sy (x : List Owed) : (d.setOwed x).sy = d.sy := rfl
@[simp] theorem setOwed_outs (x : List Owed) : (d.setOwed x).outs = d.outs := rfl
@[simp] theorem setOwed_free (x : List Owed) : (d.setOwed x).free = d.free := rfl
@[simp] theorem setOwed_ticks (x : List Owed) : (d.setOwed x).ticks = d.ticks := rfl
@[simp] theorem setOwed_word (x : List Owed) (wa : Nat) : (d.setOwed x).word wa = d.word wa := rfl
@[simp] theorem setOwed_rd (x : List Owed) (g : Fld) : (d.setOwed x).rd g = d.rd g := by exact rd_of_regs (d := d) (e := d.setOwed x) rfl g
@[simp] theorem setOwed_on (x : List Owed) (g : Fld) : (d.setOwed x).on g = d.on g := by simp [Dev.on]

/-! `setPromo` -/

@[simp] theorem setPromo_regs (s : Nat) (x : Option Promo) : (d.setPromo s x).regs = d.regs := rfl
@[simp] theorem setPromo_bus (s : Nat) (x : Option Promo) : (d.setPromo s x).bus = d.bus := rfl
@[simp] theorem setPromo_mem (s : Nat) (x : Option Promo) : (d.setPromo s x).mem = d.mem := rfl
@[simp] theorem setPromo_tn (s : Nat) (x : Option Promo) : (d.setPromo s x).tn = d.tn := rfl
@[simp] theorem setPromo_ck (s : Nat) (x : Option Promo) : (d.setPromo s x).ck = d.ck := rfl
@[simp] theorem setPromo_cp (s : Nat) (x : Option Promo) : (d.setPromo s x).cp = d.cp := rfl
@[simp] theorem setPromo_wn (s : Nat) (x : Option Promo) : (d.setPromo s x).wn = d.wn := rfl
@[simp] theorem setPromo_tr (s : Nat) (x : Option Promo) : (d.setPromo s x).tr = d.tr := rfl
@[simp] theorem setPromo_gr (s : Nat) (x : Option Promo) : (d.setPromo s x).gr = d.gr := rfl
@[simp] theorem setPromo_ba (s : Nat) (x : Option Promo) : (d.setPromo s x).ba = d.ba := rfl
@[simp] theorem setPromo_fu (s : Nat) (x : Option Promo) : (d.setPromo s x).fu = d.fu := rfl
@[simp] theorem setPromo_ta (s : Nat) (x : Option Promo) : (d.setPromo s x).ta = d.ta := rfl
@[simp] theorem setPromo_pw (s : Nat) (x : Option Promo) : (d.setPromo s x).pw = d.pw := rfl
@[simp] theorem setPromo_sy (s : Nat) (x : Option Promo) : (d.setPromo s x).sy = d.sy := rfl
@[simp] theorem setPromo_outs (s : Nat) (x : Option Promo) : (d.setPromo s x).outs = d.outs := rfl
@[simp] theorem setPromo_free (s : Nat) (x : Option Promo) : (d.setPromo s x).free = d.free := rfl
@[simp] theorem setPromo_ticks (s : Nat) (x : Option Promo) : (d.setPromo s x).ticks = d.ticks := rfl
@[simp] theorem setPromo_word (s : Nat) (x : Option Promo) (wa : Nat) : (d.setPromo s x).word wa = d.word wa := rfl
@[simp] theorem setPromo_rd (s : Nat) (x : Option Promo) (g : Fld) : (d.setPromo s x).rd g = d.rd g := by exact rd_of_regs (d := d) (e := d.setPromo s x) rfl g
@[simp] theorem setPromo_on (s : Nat) (x : Option Promo) (g : Fld) : (d.setPromo s x).on g = d.on g := by simp [Dev.on]

/-! `setChecked` -/

@[simp] theorem setChecked_regs (x : List Promo) : (d.setChecked x).regs = d.regs := rfl
@[simp] theorem setChecked_bus (x : List Promo) : (d.setChecked x).bus = d.bus := rfl
@[simp] theorem setChecked_mem (x : List Promo) : (d.setChecked x).mem = d.mem := rfl
@[simp] theorem setChecked_tn (x : List Promo) : (d.setChecked x).tn = d.tn := rfl
@[simp] theorem setChecked_ck (x : List Promo) : (d.setChecked x).ck = d.ck := rfl
@[simp] theorem setChecked_cp (x : List Promo) : (d.setChecked x).cp = d.cp := rfl
@[simp] theorem setChecked_wn (x : List Promo) : (d.setChecked x).wn = d.wn := rfl
@[simp] theorem setChecked_tr (x : List Promo) : (d.setChecked x).tr = d.tr := rfl
@[simp] theorem setChecked_gr (x : List Promo) : (d.setChecked x).gr = d.gr := rfl
@[simp] theorem setChecked_ba (x : List Promo) : (d.setChecked x).ba = d.ba := rfl
@[simp] theorem setChecked_fu (x : List Promo) : (d.setChecked x).fu = d.fu := rfl
@[simp] theorem setChecked_ta (x : List Promo) : (d.setChecked x).ta = d.ta := rfl
@[simp] theorem setChecked_pw (x : List Promo) : (d.setChecked x).pw = d.pw := rfl
@[simp] theorem setChecked_sy (x : List Promo) : (d.setChecked x).sy = d.sy := rfl
@[simp] theorem setChecked_outs (x : List Promo) : (d.setChecked x).outs = d.outs := rfl
@[simp] theorem setChecked_free (x : List Promo) : (d.setChecked x).free = d.free := rfl
@[simp] theorem setChecked_ticks (x : List Promo) : (d.setChecked x).ticks = d.ticks := rfl
@[simp] theorem setChecked_word (x : List Promo) (wa : Nat) : (d.setChecked x).word wa = d.word wa := rfl
@[simp] theorem setChecked_rd (x : List Promo) (g : Fld) : (d.setChecked x).rd g = d.rd g := by exact rd_of_regs (d := d) (e := d.setChecked x) rfl g
@[simp] theorem setChecked_on (x : List Promo) (g : Fld) : (d.setChecked x).on g = d.on g := by simp [Dev.on]

/-! Writes of registers -/

@[simp] theorem setWord_bus (a v : Nat) : (d.setWord a v).bus = d.bus := rfl
@[simp] theorem setWord_mem (a v : Nat) : (d.setWord a v).mem = d.mem := rfl
@[simp] theorem setWord_tn (a v : Nat) : (d.setWord a v).tn = d.tn := rfl
@[simp] theorem setWord_au (a v : Nat) : (d.setWord a v).au = d.au := rfl
@[simp] theorem setWord_ck (a v : Nat) : (d.setWord a v).ck = d.ck := rfl
@[simp] theorem setWord_cp (a v : Nat) : (d.setWord a v).cp = d.cp := rfl
@[simp] theorem setWord_wn (a v : Nat) : (d.setWord a v).wn = d.wn := rfl
@[simp] theorem setWord_tr (a v : Nat) : (d.setWord a v).tr = d.tr := rfl
@[simp] theorem setWord_gr (a v : Nat) : (d.setWord a v).gr = d.gr := rfl
@[simp] theorem setWord_ba (a v : Nat) : (d.setWord a v).ba = d.ba := rfl
@[simp] theorem setWord_fu (a v : Nat) : (d.setWord a v).fu = d.fu := rfl
@[simp] theorem setWord_ta (a v : Nat) : (d.setWord a v).ta = d.ta := rfl
@[simp] theorem setWord_pw (a v : Nat) : (d.setWord a v).pw = d.pw := rfl
@[simp] theorem setWord_sy (a v : Nat) : (d.setWord a v).sy = d.sy := rfl
@[simp] theorem setWord_outs (a v : Nat) : (d.setWord a v).outs = d.outs := rfl
@[simp] theorem setWord_free (a v : Nat) : (d.setWord a v).free = d.free := rfl
@[simp] theorem setWord_ticks (a v : Nat) : (d.setWord a v).ticks = d.ticks := rfl
@[simp] theorem wr_bus (g : Fld) (v : Nat) : (d.wr g v).bus = d.bus := by
  obtain ⟨r, h⟩ := wr_eq d g v; rw [h]
@[simp] theorem wr_mem (g : Fld) (v : Nat) : (d.wr g v).mem = d.mem := by
  obtain ⟨r, h⟩ := wr_eq d g v; rw [h]
@[simp] theorem wr_tn (g : Fld) (v : Nat) : (d.wr g v).tn = d.tn := by
  obtain ⟨r, h⟩ := wr_eq d g v; rw [h]
@[simp] theorem wr_au (g : Fld) (v : Nat) : (d.wr g v).au = d.au := by
  obtain ⟨r, h⟩ := wr_eq d g v; rw [h]
@[simp] theorem wr_ck (g : Fld) (v : Nat) : (d.wr g v).ck = d.ck := by
  obtain ⟨r, h⟩ := wr_eq d g v; rw [h]
@[simp] theorem wr_cp (g : Fld) (v : Nat) : (d.wr g v).cp = d.cp := by
  obtain ⟨r, h⟩ := wr_eq d g v; rw [h]
@[simp] theorem wr_wn (g : Fld) (v : Nat) : (d.wr g v).wn = d.wn := by
  obtain ⟨r, h⟩ := wr_eq d g v; rw [h]
@[simp] theorem wr_tr (g : Fld) (v : Nat) : (d.wr g v).tr = d.tr := by
  obtain ⟨r, h⟩ := wr_eq d g v; rw [h]
@[simp] theorem wr_gr (g : Fld) (v : Nat) : (d.wr g v).gr = d.gr := by
  obtain ⟨r, h⟩ := wr_eq d g v; rw [h]
@[simp] theorem wr_ba (g : Fld) (v : Nat) : (d.wr g v).ba = d.ba := by
  obtain ⟨r, h⟩ := wr_eq d g v; rw [h]
@[simp] theorem wr_fu (g : Fld) (v : Nat) : (d.wr g v).fu = d.fu := by
  obtain ⟨r, h⟩ := wr_eq d g v; rw [h]
@[simp] theorem wr_ta (g : Fld) (v : Nat) : (d.wr g v).ta = d.ta := by
  obtain ⟨r, h⟩ := wr_eq d g v; rw [h]
@[simp] theorem wr_pw (g : Fld) (v : Nat) : (d.wr g v).pw = d.pw := by
  obtain ⟨r, h⟩ := wr_eq d g v; rw [h]
@[simp] theorem wr_sy (g : Fld) (v : Nat) : (d.wr g v).sy = d.sy := by
  obtain ⟨r, h⟩ := wr_eq d g v; rw [h]
@[simp] theorem wr_outs (g : Fld) (v : Nat) : (d.wr g v).outs = d.outs := by
  obtain ⟨r, h⟩ := wr_eq d g v; rw [h]
@[simp] theorem wr_free (g : Fld) (v : Nat) : (d.wr g v).free = d.free := by
  obtain ⟨r, h⟩ := wr_eq d g v; rw [h]
@[simp] theorem wr_ticks (g : Fld) (v : Nat) : (d.wr g v).ticks = d.ticks := by
  obtain ⟨r, h⟩ := wr_eq d g v; rw [h]
@[simp] theorem bump_bus (g : Fld) (k : Nat) : (d.bump g k).bus = d.bus := wr_bus d _ _
@[simp] theorem bump_mem (g : Fld) (k : Nat) : (d.bump g k).mem = d.mem := wr_mem d _ _
@[simp] theorem bump_tn (g : Fld) (k : Nat) : (d.bump g k).tn = d.tn := wr_tn d _ _
@[simp] theorem bump_au (g : Fld) (k : Nat) : (d.bump g k).au = d.au := wr_au d _ _
@[simp] theorem bump_ck (g : Fld) (k : Nat) : (d.bump g k).ck = d.ck := wr_ck d _ _
@[simp] theorem bump_cp (g : Fld) (k : Nat) : (d.bump g k).cp = d.cp := wr_cp d _ _
@[simp] theorem bump_wn (g : Fld) (k : Nat) : (d.bump g k).wn = d.wn := wr_wn d _ _
@[simp] theorem bump_tr (g : Fld) (k : Nat) : (d.bump g k).tr = d.tr := wr_tr d _ _
@[simp] theorem bump_gr (g : Fld) (k : Nat) : (d.bump g k).gr = d.gr := wr_gr d _ _
@[simp] theorem bump_ba (g : Fld) (k : Nat) : (d.bump g k).ba = d.ba := wr_ba d _ _
@[simp] theorem bump_fu (g : Fld) (k : Nat) : (d.bump g k).fu = d.fu := wr_fu d _ _
@[simp] theorem bump_ta (g : Fld) (k : Nat) : (d.bump g k).ta = d.ta := wr_ta d _ _
@[simp] theorem bump_pw (g : Fld) (k : Nat) : (d.bump g k).pw = d.pw := wr_pw d _ _
@[simp] theorem bump_sy (g : Fld) (k : Nat) : (d.bump g k).sy = d.sy := wr_sy d _ _
@[simp] theorem bump_outs (g : Fld) (k : Nat) : (d.bump g k).outs = d.outs := wr_outs d _ _
@[simp] theorem bump_free (g : Fld) (k : Nat) : (d.bump g k).free = d.free := wr_free d _ _
@[simp] theorem bump_ticks (g : Fld) (k : Nat) : (d.bump g k).ticks = d.ticks := wr_ticks d _ _
@[simp] theorem addTo_bus (g : Fld) (k : Nat) : (d.addTo g k).bus = d.bus := wr_bus d _ _
@[simp] theorem addTo_mem (g : Fld) (k : Nat) : (d.addTo g k).mem = d.mem := wr_mem d _ _
@[simp] theorem addTo_tn (g : Fld) (k : Nat) : (d.addTo g k).tn = d.tn := wr_tn d _ _
@[simp] theorem addTo_au (g : Fld) (k : Nat) : (d.addTo g k).au = d.au := wr_au d _ _
@[simp] theorem addTo_ck (g : Fld) (k : Nat) : (d.addTo g k).ck = d.ck := wr_ck d _ _
@[simp] theorem addTo_cp (g : Fld) (k : Nat) : (d.addTo g k).cp = d.cp := wr_cp d _ _
@[simp] theorem addTo_wn (g : Fld) (k : Nat) : (d.addTo g k).wn = d.wn := wr_wn d _ _
@[simp] theorem addTo_tr (g : Fld) (k : Nat) : (d.addTo g k).tr = d.tr := wr_tr d _ _
@[simp] theorem addTo_gr (g : Fld) (k : Nat) : (d.addTo g k).gr = d.gr := wr_gr d _ _
@[simp] theorem addTo_ba (g : Fld) (k : Nat) : (d.addTo g k).ba = d.ba := wr_ba d _ _
@[simp] theorem addTo_fu (g : Fld) (k : Nat) : (d.addTo g k).fu = d.fu := wr_fu d _ _
@[simp] theorem addTo_ta (g : Fld) (k : Nat) : (d.addTo g k).ta = d.ta := wr_ta d _ _
@[simp] theorem addTo_pw (g : Fld) (k : Nat) : (d.addTo g k).pw = d.pw := wr_pw d _ _
@[simp] theorem addTo_sy (g : Fld) (k : Nat) : (d.addTo g k).sy = d.sy := wr_sy d _ _
@[simp] theorem addTo_outs (g : Fld) (k : Nat) : (d.addTo g k).outs = d.outs := wr_outs d _ _
@[simp] theorem addTo_free (g : Fld) (k : Nat) : (d.addTo g k).free = d.free := wr_free d _ _
@[simp] theorem addTo_ticks (g : Fld) (k : Nat) : (d.addTo g k).ticks = d.ticks := wr_ticks d _ _
@[simp] theorem setBitOf_bus (g : Fld) (i : Nat) : (d.setBitOf g i).bus = d.bus := wr_bus d _ _
@[simp] theorem setBitOf_mem (g : Fld) (i : Nat) : (d.setBitOf g i).mem = d.mem := wr_mem d _ _
@[simp] theorem setBitOf_tn (g : Fld) (i : Nat) : (d.setBitOf g i).tn = d.tn := wr_tn d _ _
@[simp] theorem setBitOf_au (g : Fld) (i : Nat) : (d.setBitOf g i).au = d.au := wr_au d _ _
@[simp] theorem setBitOf_ck (g : Fld) (i : Nat) : (d.setBitOf g i).ck = d.ck := wr_ck d _ _
@[simp] theorem setBitOf_cp (g : Fld) (i : Nat) : (d.setBitOf g i).cp = d.cp := wr_cp d _ _
@[simp] theorem setBitOf_wn (g : Fld) (i : Nat) : (d.setBitOf g i).wn = d.wn := wr_wn d _ _
@[simp] theorem setBitOf_tr (g : Fld) (i : Nat) : (d.setBitOf g i).tr = d.tr := wr_tr d _ _
@[simp] theorem setBitOf_gr (g : Fld) (i : Nat) : (d.setBitOf g i).gr = d.gr := wr_gr d _ _
@[simp] theorem setBitOf_ba (g : Fld) (i : Nat) : (d.setBitOf g i).ba = d.ba := wr_ba d _ _
@[simp] theorem setBitOf_fu (g : Fld) (i : Nat) : (d.setBitOf g i).fu = d.fu := wr_fu d _ _
@[simp] theorem setBitOf_ta (g : Fld) (i : Nat) : (d.setBitOf g i).ta = d.ta := wr_ta d _ _
@[simp] theorem setBitOf_pw (g : Fld) (i : Nat) : (d.setBitOf g i).pw = d.pw := wr_pw d _ _
@[simp] theorem setBitOf_sy (g : Fld) (i : Nat) : (d.setBitOf g i).sy = d.sy := wr_sy d _ _
@[simp] theorem setBitOf_outs (g : Fld) (i : Nat) : (d.setBitOf g i).outs = d.outs := wr_outs d _ _
@[simp] theorem setBitOf_free (g : Fld) (i : Nat) : (d.setBitOf g i).free = d.free := wr_free d _ _
@[simp] theorem setBitOf_ticks (g : Fld) (i : Nat) : (d.setBitOf g i).ticks = d.ticks := wr_ticks d _ _
@[simp] theorem clrBitOf_bus (g : Fld) (i : Nat) : (d.clrBitOf g i).bus = d.bus := wr_bus d _ _
@[simp] theorem clrBitOf_mem (g : Fld) (i : Nat) : (d.clrBitOf g i).mem = d.mem := wr_mem d _ _
@[simp] theorem clrBitOf_tn (g : Fld) (i : Nat) : (d.clrBitOf g i).tn = d.tn := wr_tn d _ _
@[simp] theorem clrBitOf_au (g : Fld) (i : Nat) : (d.clrBitOf g i).au = d.au := wr_au d _ _
@[simp] theorem clrBitOf_ck (g : Fld) (i : Nat) : (d.clrBitOf g i).ck = d.ck := wr_ck d _ _
@[simp] theorem clrBitOf_cp (g : Fld) (i : Nat) : (d.clrBitOf g i).cp = d.cp := wr_cp d _ _
@[simp] theorem clrBitOf_wn (g : Fld) (i : Nat) : (d.clrBitOf g i).wn = d.wn := wr_wn d _ _
@[simp] theorem clrBitOf_tr (g : Fld) (i : Nat) : (d.clrBitOf g i).tr = d.tr := wr_tr d _ _
@[simp] theorem clrBitOf_gr (g : Fld) (i : Nat) : (d.clrBitOf g i).gr = d.gr := wr_gr d _ _
@[simp] theorem clrBitOf_ba (g : Fld) (i : Nat) : (d.clrBitOf g i).ba = d.ba := wr_ba d _ _
@[simp] theorem clrBitOf_fu (g : Fld) (i : Nat) : (d.clrBitOf g i).fu = d.fu := wr_fu d _ _
@[simp] theorem clrBitOf_ta (g : Fld) (i : Nat) : (d.clrBitOf g i).ta = d.ta := wr_ta d _ _
@[simp] theorem clrBitOf_pw (g : Fld) (i : Nat) : (d.clrBitOf g i).pw = d.pw := wr_pw d _ _
@[simp] theorem clrBitOf_sy (g : Fld) (i : Nat) : (d.clrBitOf g i).sy = d.sy := wr_sy d _ _
@[simp] theorem clrBitOf_outs (g : Fld) (i : Nat) : (d.clrBitOf g i).outs = d.outs := wr_outs d _ _
@[simp] theorem clrBitOf_free (g : Fld) (i : Nat) : (d.clrBitOf g i).free = d.free := wr_free d _ _
@[simp] theorem clrBitOf_ticks (g : Fld) (i : Nat) : (d.clrBitOf g i).ticks = d.ticks := wr_ticks d _ _
@[simp] theorem irq_bus (k : PageKind) (n b : Nat) : (d.irq k n b).bus = d.bus := wr_bus d _ _
@[simp] theorem irq_mem (k : PageKind) (n b : Nat) : (d.irq k n b).mem = d.mem := wr_mem d _ _
@[simp] theorem irq_tn (k : PageKind) (n b : Nat) : (d.irq k n b).tn = d.tn := wr_tn d _ _
@[simp] theorem irq_au (k : PageKind) (n b : Nat) : (d.irq k n b).au = d.au := wr_au d _ _
@[simp] theorem irq_ck (k : PageKind) (n b : Nat) : (d.irq k n b).ck = d.ck := wr_ck d _ _
@[simp] theorem irq_cp (k : PageKind) (n b : Nat) : (d.irq k n b).cp = d.cp := wr_cp d _ _
@[simp] theorem irq_wn (k : PageKind) (n b : Nat) : (d.irq k n b).wn = d.wn := wr_wn d _ _
@[simp] theorem irq_tr (k : PageKind) (n b : Nat) : (d.irq k n b).tr = d.tr := wr_tr d _ _
@[simp] theorem irq_gr (k : PageKind) (n b : Nat) : (d.irq k n b).gr = d.gr := wr_gr d _ _
@[simp] theorem irq_ba (k : PageKind) (n b : Nat) : (d.irq k n b).ba = d.ba := wr_ba d _ _
@[simp] theorem irq_fu (k : PageKind) (n b : Nat) : (d.irq k n b).fu = d.fu := wr_fu d _ _
@[simp] theorem irq_ta (k : PageKind) (n b : Nat) : (d.irq k n b).ta = d.ta := wr_ta d _ _
@[simp] theorem irq_pw (k : PageKind) (n b : Nat) : (d.irq k n b).pw = d.pw := wr_pw d _ _
@[simp] theorem irq_sy (k : PageKind) (n b : Nat) : (d.irq k n b).sy = d.sy := wr_sy d _ _
@[simp] theorem irq_outs (k : PageKind) (n b : Nat) : (d.irq k n b).outs = d.outs := wr_outs d _ _
@[simp] theorem irq_free (k : PageKind) (n b : Nat) : (d.irq k n b).free = d.free := wr_free d _ _
@[simp] theorem irq_ticks (k : PageKind) (n b : Nat) : (d.irq k n b).ticks = d.ticks := wr_ticks d _ _

/-! The counts of refused writes -/

@[simp] theorem perrAt_bus (p a o r c : Nat) : (d.perrAt p a o r c).bus = d.bus := by
  simp only [Dev.perrAt]; split <;> simp
@[simp] theorem perrAt_mem (p a o r c : Nat) : (d.perrAt p a o r c).mem = d.mem := by
  simp only [Dev.perrAt]; split <;> simp
@[simp] theorem perrAt_tn (p a o r c : Nat) : (d.perrAt p a o r c).tn = d.tn := by
  simp only [Dev.perrAt]; split <;> simp
@[simp] theorem perrAt_au (p a o r c : Nat) : (d.perrAt p a o r c).au = d.au := by
  simp only [Dev.perrAt]; split <;> simp
@[simp] theorem perrAt_ck (p a o r c : Nat) : (d.perrAt p a o r c).ck = d.ck := by
  simp only [Dev.perrAt]; split <;> simp
@[simp] theorem perrAt_cp (p a o r c : Nat) : (d.perrAt p a o r c).cp = d.cp := by
  simp only [Dev.perrAt]; split <;> simp
@[simp] theorem perrAt_wn (p a o r c : Nat) : (d.perrAt p a o r c).wn = d.wn := by
  simp only [Dev.perrAt]; split <;> simp
@[simp] theorem perrAt_tr (p a o r c : Nat) : (d.perrAt p a o r c).tr = d.tr := by
  simp only [Dev.perrAt]; split <;> simp
@[simp] theorem perrAt_gr (p a o r c : Nat) : (d.perrAt p a o r c).gr = d.gr := by
  simp only [Dev.perrAt]; split <;> simp
@[simp] theorem perrAt_ba (p a o r c : Nat) : (d.perrAt p a o r c).ba = d.ba := by
  simp only [Dev.perrAt]; split <;> simp
@[simp] theorem perrAt_fu (p a o r c : Nat) : (d.perrAt p a o r c).fu = d.fu := by
  simp only [Dev.perrAt]; split <;> simp
@[simp] theorem perrAt_ta (p a o r c : Nat) : (d.perrAt p a o r c).ta = d.ta := by
  simp only [Dev.perrAt]; split <;> simp
@[simp] theorem perrAt_pw (p a o r c : Nat) : (d.perrAt p a o r c).pw = d.pw := by
  simp only [Dev.perrAt]; split <;> simp
@[simp] theorem perrAt_sy (p a o r c : Nat) : (d.perrAt p a o r c).sy = d.sy := by
  simp only [Dev.perrAt]; split <;> simp
@[simp] theorem perrAt_outs (p a o r c : Nat) : (d.perrAt p a o r c).outs = d.outs := by
  simp only [Dev.perrAt]; split <;> simp
@[simp] theorem perrAt_free (p a o r c : Nat) : (d.perrAt p a o r c).free = d.free := by
  simp only [Dev.perrAt]; split <;> simp
@[simp] theorem perrAt_ticks (p a o r c : Nat) : (d.perrAt p a o r c).ticks = d.ticks := by
  simp only [Dev.perrAt]; split <;> simp
@[simp] theorem perr_bus (a : Nat) (q : Req) (c : Nat) : (d.perr a q c).bus = d.bus := perrAt_bus d _ _ _ _ _
@[simp] theorem perr_mem (a : Nat) (q : Req) (c : Nat) : (d.perr a q c).mem = d.mem := perrAt_mem d _ _ _ _ _
@[simp] theorem perr_tn (a : Nat) (q : Req) (c : Nat) : (d.perr a q c).tn = d.tn := perrAt_tn d _ _ _ _ _
@[simp] theorem perr_au (a : Nat) (q : Req) (c : Nat) : (d.perr a q c).au = d.au := perrAt_au d _ _ _ _ _
@[simp] theorem perr_ck (a : Nat) (q : Req) (c : Nat) : (d.perr a q c).ck = d.ck := perrAt_ck d _ _ _ _ _
@[simp] theorem perr_cp (a : Nat) (q : Req) (c : Nat) : (d.perr a q c).cp = d.cp := perrAt_cp d _ _ _ _ _
@[simp] theorem perr_wn (a : Nat) (q : Req) (c : Nat) : (d.perr a q c).wn = d.wn := perrAt_wn d _ _ _ _ _
@[simp] theorem perr_tr (a : Nat) (q : Req) (c : Nat) : (d.perr a q c).tr = d.tr := perrAt_tr d _ _ _ _ _
@[simp] theorem perr_gr (a : Nat) (q : Req) (c : Nat) : (d.perr a q c).gr = d.gr := perrAt_gr d _ _ _ _ _
@[simp] theorem perr_ba (a : Nat) (q : Req) (c : Nat) : (d.perr a q c).ba = d.ba := perrAt_ba d _ _ _ _ _
@[simp] theorem perr_fu (a : Nat) (q : Req) (c : Nat) : (d.perr a q c).fu = d.fu := perrAt_fu d _ _ _ _ _
@[simp] theorem perr_ta (a : Nat) (q : Req) (c : Nat) : (d.perr a q c).ta = d.ta := perrAt_ta d _ _ _ _ _
@[simp] theorem perr_pw (a : Nat) (q : Req) (c : Nat) : (d.perr a q c).pw = d.pw := perrAt_pw d _ _ _ _ _
@[simp] theorem perr_sy (a : Nat) (q : Req) (c : Nat) : (d.perr a q c).sy = d.sy := perrAt_sy d _ _ _ _ _
@[simp] theorem perr_outs (a : Nat) (q : Req) (c : Nat) : (d.perr a q c).outs = d.outs := perrAt_outs d _ _ _ _ _
@[simp] theorem perr_free (a : Nat) (q : Req) (c : Nat) : (d.perr a q c).free = d.free := perrAt_free d _ _ _ _ _
@[simp] theorem perr_ticks (a : Nat) (q : Req) (c : Nat) : (d.perr a q c).ticks = d.ticks := perrAt_ticks d _ _ _ _ _

end Sys2Proof.Machine
end

