-- ==== Sys2Proof/Laws/Ops.lean ====
section
/-! SUPPORT. The laws of the shared operations: bytes of the memories, their canonical form, counts of refused writes, and a
register write that its requester may make or may not. -/
namespace Sys2Proof.Machine

variable (d : Dev)

/-! ## Bytes of the memories -/

@[simp] theorem peek_poke_same (l : Loc) (b : Byte) : (d.poke l b).peek l = b := by
  cases l <;> simp [Dev.poke, Dev.peek]

theorem peek_poke_silo_ne {a a' : Nat} (b : Byte) (h : a' ≠ a) :
    (d.poke (.silo a) b).peek (.silo a') = d.peek (.silo a') := by
  simp [Dev.poke, Dev.peek, NMap.get_set_ne _ _ _ h]

theorem peek_poke_cellar_ne {a a' : Nat} (b : Byte) (h : a' ≠ a) :
    (d.poke (.cellar a) b).peek (.cellar a') = d.peek (.cellar a') := by
  simp [Dev.poke, Dev.peek, NMap.get_set_ne _ _ _ h]

/-- The memories are in their canonical form. -/
theorem wf_parts (m : Mem) : m.wf = true ↔ m.silo.wf zeroByte = true ∧ m.cellar.wf zeroByte = true ∧
    m.host.wf zeroByte = true ∧ m.loft.wf zeroByte = true ∧ m.tcsram.wf zeroByte = true ∧
    m.ecc.wf (fun _ => none) = true := by
  simp [Mem.wf, and_assoc]

theorem poke_wf {d : Dev} (h : d.mem.wf = true) (l : Loc) (b : Byte) : (d.poke l b).mem.wf = true := by
  rw [wf_parts] at *
  obtain ⟨h1, h2, h3, h4, h5, h6⟩ := h
  cases l <;> simp [Dev.poke, *, NMap.wf_set]

theorem setEcc_wf {d : Dev} (h : d.mem.wf = true) (w : Nat) (m : Option EccMark) : (d.setEcc w m).mem.wf = true := by
  rw [wf_parts] at *
  obtain ⟨h1, h2, h3, h4, h5, h6⟩ := h
  simp [Dev.setEcc, *, NMap.wf_set]

/-- A property that each step of a fold keeps is kept by the fold. -/
theorem foldl_keeps {α : Type} (P : Dev → Prop) (f : Dev → α → Dev) (hf : ∀ d x, P d → P (f d x)) (xs : List α) {d : Dev}
    (h : P d) : P (xs.foldl f d) := by
  induction xs generalizing d with
  | nil => exact h
  | cons x xs ih => exact ih (hf d x h)

theorem eccTouch_wf {d : Dev} (h : d.mem.wf = true) (w : Nat) : (d.eccTouch w).mem.wf = true := by
  unfold Dev.eccTouch
  dsimp only
  split
  · exact h
  · exact setEcc_wf (by simpa using h) _ _
  · simpa using h

/-- Reading bytes keeps the canonical form of the memories. -/
theorem readLocs_wf {d : Dev} (h : d.mem.wf = true) (ls : List Loc) : (d.readLocs ls).2.2.mem.wf = true :=
  foldl_keeps (fun d => d.mem.wf = true) _ (fun _ _ h => eccTouch_wf h _) _ h

/-- Writing bytes keeps the canonical form of the memories. -/
theorem writeLocs_wf {d : Dev} (h : d.mem.wf = true) (ls : List Loc) (bs : List Byte) :
    (d.writeLocs ls bs).2.mem.wf = true := by
  unfold Dev.writeLocs
  refine foldl_keeps (fun d => d.mem.wf = true) _ ?_ _ ?_
  · intro d x h
    split
    · split
      · exact h
      · exact poke_wf h _ _
    · exact poke_wf h _ _
  · refine foldl_keeps (fun d => d.mem.wf = true) _ (fun _ _ h => setEcc_wf h _ _) _ ?_
    exact foldl_keeps (fun d => d.mem.wf = true) _ (fun _ _ h => eccTouch_wf h _) _ h

/-- A register write keeps the canonical form of the register bank. -/
theorem setWord_wf {d : Dev} (h : d.regs.wf resetWord = true) (a v : Nat) : (d.setWord a v).regs.wf resetWord = true :=
  NMap.wf_set h _ _

theorem wr_wf {d : Dev} (h : d.regs.wf resetWord = true) (f : Fld) (v : Nat) : (d.wr f v).regs.wf resetWord = true := by
  unfold Dev.wr
  generalize setBits _ _ _ _ = x
  generalize f.addr = a
  induction f.words generalizing d a x with
  | zero => exact h
  | succ k ih => exact ih (setWord_wf h _ _) _ _

/-- A register word read or a memory written keeps all of the canonical form together. -/
theorem canonical_of {d e : Dev} (h : d.canonical = true) (h1 : e.regs.wf resetWord = true) (h2 : e.mem.wf = true)
    (h3 : e.tn.rick = d.tn.rick) (h4 : e.gr = d.gr) : e.canonical = true := by
  simp_all [Dev.canonical]

/-! ## Counts of refused writes (R415) -/

/-- The count of a page goes up by one, to its largest value at most. -/
theorem perrAt_count (p a o r c : Nat) :
    (d.perrAt p a o r c).rd (R.PERR_COUNT p) = min (d.rd (R.PERR_COUNT p) + 1) (2 ^ 32 - 1) := by
  have hap : ∀ x ∈ [R.PERR_FIRST_OFFSET p, R.PERR_FIRST_REQ p, R.PERR_FIRST_CAUSE p, R.PERR_FIRST_PAGE p],
      x.apart (R.PERR_COUNT p) = true := by
    simp [Fld.apart, Fld.words]
  simp only [List.mem_cons, List.not_mem_nil, or_false, forall_eq_or_imp, forall_eq] at hap
  obtain ⟨h1, h2, h3, h4⟩ := hap
  simp only [Dev.perrAt]
  rw [rd_bump_same]
  split
  · rw [rd_wr_ne _ _ h4, rd_wr_ne _ _ h3, rd_wr_ne _ _ h2, rd_wr_ne _ _ h1]
  · rfl

/-- A register beside a page's error count and record reads as before. -/
theorem perrAt_rd_ne (p a o r c : Nat) {g : Fld} (h : g.addr + 4 * g.words ≤ A.PERR_COUNT p ∨ A.PERR_FIRST p + 4 ≤ g.addr) :
    (d.perrAt p a o r c).rd g = d.rd g := by
  have hg : ∀ f : Fld, f.addr = A.PERR_FIRST p ∨ f.addr = A.PERR_COUNT p → f.words = 1 → f.apart g = true := by
    intro f hf hw
    simp only [Fld.apart, decide_eq_true_eq, hw]
    have : A.PERR_COUNT p + 4 = A.PERR_FIRST p := rfl
    omega
  simp only [Dev.perrAt]
  rw [rd_bump_ne _ _ (hg _ (Or.inr rfl) (by simp [Fld.words]))]
  split
  · rw [rd_wr_ne _ _ (hg _ (Or.inl rfl) (by simp [Fld.words])), rd_wr_ne _ _ (hg _ (Or.inl rfl) (by simp [Fld.words])), rd_wr_ne _ _ (hg _ (Or.inl rfl) (by simp [Fld.words])),
      rd_wr_ne _ _ (hg _ (Or.inl rfl) (by simp [Fld.words]))]
  · rfl

/-! ## A register write, by what its requester may do (R409, R410, R414) -/

/-- A write that may be made does what the register's operation does. -/
theorem regBy_of_permits {d : Dev} {q : Req} {addr v : Nat} (h : d.permits q addr v) (op : Nat → Dev → Dev) :
    d.regBy q addr v op = op v d := by
  obtain ⟨x, hu, hx, ha, hs, hr, hc⟩ := h
  unfold Dev.regBy Dev.regWith
  rw [if_neg (by simp [hu]), if_pos ha, hx]
  cases q with
  | stall n =>
    have h1 : d.reachable n.val = true := ha
    have h2 : d.sees n.val addr true = true := hs
    simp [h1, h2, hr, hc]
  | mgmt => simp [hr, hc]
  | steward => simp [hr, hc]

/-- A write that does not arrive changes nothing. -/
theorem regBy_of_away {d : Dev} {q : Req} (h : d.arrives q = false) (addr v : Nat) (op : Nat → Dev → Dev) :
    d.regBy q addr v op = d := by
  have hu : d.unrestored q .bar0 addr = false := by
    cases q <;> simp_all [Dev.unrestored, Dev.arrives]
  simp [Dev.regBy, h, hu]

end Sys2Proof.Machine
end

