-- ==== Sys2Proof/Laws/Owed.lean ====
section
/-! SUPPORT. The laws of the accesses that wait for their place: how one joins the list, and what trying them again can do. -/
namespace Sys2Proof.Machine

variable (d : Dev)

@[simp] theorem owe_owed (o : Owed) : (d.owe o).tn.owed = d.tn.owed ++ [o] := rfl

/-- An access that is tried again stays where it is, or leaves the list and is made. -/
theorem pay_cases (o : Owed) :
    d.pay o = d ∨ d.tn.owed.find? (fun p => p.queue == o.queue) = some o ∧
      (d.setOwed (d.tn.owed.erase o)).payOne o = some (d.pay o) := by
  unfold Dev.pay
  split
  next h =>
    cases hp : (d.setOwed (d.tn.owed.erase o)).payOne o with
    | none => exact .inl (by simp)
    | some e => exact .inr ⟨by simpa using h, by simp⟩
  next => exact .inl rfl

/-- What every payment of an access keeps, trying all of them keeps. -/
theorem payOwed_keeps (P : Dev → Prop) (hp : ∀ e o f, P e → (e.setOwed (e.tn.owed.erase o)).payOne o = some f → P f) (h : P d) :
    P d.payOwed := by
  unfold Dev.payOwed
  generalize d.tn.owed = os
  induction os generalizing d with
  | nil => exact h
  | cons o os ih =>
    refine ih (d.pay o) ?_
    obtain e | ⟨-, e⟩ := pay_cases d o
    · rwa [e]
    · exact hp d o _ h e

@[simp] theorem payOwed_nil (h : d.tn.owed = []) : d.payOwed = d := by simp [Dev.payOwed, h]

end Sys2Proof.Machine
end

