-- ==== Sys2Proof/Laws/Path.lean ====
section
/-! SUPPORT. The laws of the data path: what a span of addresses reaches, and what reading and writing it does where no word
has bad check bits. -/
namespace Sys2Proof.Machine

variable (d : Dev)

/-- Below 16 there are no more banks, whatever the interleave. -/
theorem bankOf_lt (a : Nat) : d.bankOf a < 16 := by
  have h4 := Nat.mod_lt (a / 2 ^ 7) (show 0 < 2 ^ 4 by decide)
  have h2 := Nat.mod_lt (a / 2 ^ 7) (show 0 < 2 ^ 2 by decide)
  have h24 := Nat.mod_lt (a / 2 ^ 24) (show 0 < 2 ^ 2 by decide)
  have h22 := Nat.mod_lt (a / 2 ^ 22) (show 0 < 2 ^ 4 by decide)
  unfold Dev.bankOf bits
  split <;> omega

/-- A Silo address is served where nothing waits to be zeroed and all banks are on. -/
theorem siloReady_of (h1 : d.mem.siloPend = []) (h2 : d.mem.bankPend = []) (h3 : ∀ b < 16, d.domOn (24 + b) = true) (a : Nat) :
    d.siloReady a = true := by
  simp [Dev.siloReady, h1, h2, h3 _ (bankOf_lt d a)]

/-- Stall 0 reaches every Silo address that is served and lies in no other stall's extents. -/
theorem reach_silo0 {a : Nat} (rt : Option Nat) (h : a < siloBytes) (hr : d.siloReady a = true)
    (ho : d.siloOwner (a / siloGranule) = none) : d.reach 0 rt a = .ok (.silo a) := by
  simp [Dev.reach, h, Dev.siloReach, hr, ho]

/-- A span is reached where each of its bytes is. -/
theorem reachSpan_ok {n : Nat} {rt : Option Nat} (f : Nat → Loc) :
    ∀ {a k : Nat}, (∀ i < k, d.reach n rt (a + i) = .ok (f (a + i))) →
      d.reachSpan n rt a k = .ok ((List.range k).map (fun i => f (a + i)))
  | a, 0, _ => rfl
  | a, k + 1, h => by
    have h0 : d.reach n rt a = .ok (f a) := by simpa using h 0 (by omega)
    have ih := reachSpan_ok f (a := a + 1) (k := k) (fun i hi => by
      have := h (i + 1) (by omega)
      rwa [show a + (i + 1) = a + 1 + i by omega] at this)
    simp only [Dev.reachSpan, h0, ih, List.range_succ_eq_map, List.map_cons, List.map_map, Nat.add_zero]
    congr 2
    refine List.map_congr_left (fun i _ => ?_)
    simp only [Function.comp]
    congr 1
    omega

theorem eccTouch_clean {w : Nat} (h : d.eccOf w = none) : d.eccTouch w = d := by simp [Dev.eccTouch, h]

/-- Reading places whose words all have good check bits gives their bytes and changes nothing. -/
theorem readLocs_clean (h : ∀ w, d.eccOf w = none) (ls : List Loc) : d.readLocs ls = (ls.map d.peek, false, d) := by
  have hf : ∀ ws : List Nat, ws.foldl Dev.eccTouch d = d := by
    intro ws
    induction ws with
    | nil => rfl
    | cons w ws ih => simp [eccTouch_clean d (h w), ih]
  simp only [Dev.readLocs, h, hf, List.filter_eq_nil_iff.mpr (fun a _ => by decide : ∀ a ∈ siloWords ls, ¬(none == some EccMark.ue) = true),
    List.isEmpty_nil, Bool.not_true, List.not_mem_nil, if_false, Prod.mk.injEq, and_true]
  refine List.map_congr_left (fun l _ => ?_)
  cases l <;> rfl

/-- Writing places whose words all have good check bits meets no uncorrectable word. -/
theorem writeLocs_clean (h : ∀ w, d.eccOf w = none) (ls : List Loc) (bs : List Byte) : (d.writeLocs ls bs).1 = false := by
  simp [Dev.writeLocs, h]

/-- Stall 0 reads any span of Silo that is served. -/
theorem pathRead_silo0 {a len : Nat} (rt : Option Nat) (hl : a + len ≤ siloBytes) (hr : ∀ i, d.siloReady i = true)
    (ho : ∀ g, d.siloOwner g = none) (he : ∀ w, d.eccOf w = none) :
    d.pathRead 0 rt a len = .data ((List.range len).map (fun i => d.peek (.silo (a + i)))) false d := by
  have h := reachSpan_ok d (n := 0) (rt := rt) Loc.silo (a := a) (k := len)
    (fun i hi => reach_silo0 d rt (by omega) (hr _) (ho _))
  simp only [Dev.pathRead, h, readLocs_clean d he, List.map_map]
  rfl

/-- Stall 0 writes any span of Silo that is served. -/
theorem pathWrite_silo0 {a : Nat} {bs : List Byte} (rt : Option Nat) (hl : a + bs.length ≤ siloBytes)
    (hr : ∀ i, d.siloReady i = true) (ho : ∀ g, d.siloOwner g = none) (he : ∀ w, d.eccOf w = none) :
    d.pathWrite 0 rt a bs = .done false (d.writeLocs (siloSpan a bs.length) bs).2 := by
  have h := reachSpan_ok d (n := 0) (rt := rt) Loc.silo (a := a) (k := bs.length)
    (fun i hi => reach_silo0 d rt (by omega) (hr _) (ho _))
  simp only [Dev.pathWrite, h]
  exact congrArg (fun x => PathWrite.done x _) (writeLocs_clean d he _ bs)

end Sys2Proof.Machine
end

