-- ==== Sys2Proof/Tests/Slice0.lean ====
section
/-! SUPPORT. The model's own tests: ill-formed terms that WellFormed refuses, a state and operands that meet the hypotheses
of each clause of each obligation, and small checks of one command each with results taken from the spec. -/
namespace Sys2Proof.Tests
open Sys2Proof Sys2Proof.Machine
set_option maxRecDepth 100000
set_option exponentiation.threshold 600

/-! ## Helpers -/

/-- The reset device with some fields set. -/
def dev (l : List (Fld × Nat)) : Dev := l.foldl (fun d p => d.wr p.1 p.2) Dev.reset

/-- A device as a state with an empty queue. -/
def st (d : Dev) : State := ⟨d, []⟩

/-- What a command leaves of a device; the device itself where it answers no next state. -/
def after (f : State → Host.Outcome State Fault Refusal) (d : Dev) : Dev :=
  match f (st d) with
  | .next t => t.dev
  | _ => d

/-- `Dev.permits`, decided. -/
def may (d : Dev) (q : Req) (addr v : Nat) : Bool :=
  match regHit addr with
  | some h => !d.unrestored q .bar0 addr && d.arrives q && d.shows q addr true && !h.row.readOnly &&
      decide (screen q (d.locked addr) h v (d.word addr) = ⟨v, true, false, false⟩)
  | none => false

theorem may_permits (d : Dev) (q : Req) (addr v : Nat) (h : may d q addr v = true) : d.permits q addr v := by
  unfold may at h
  split at h
  · next x hx =>
    simp only [Bool.and_eq_true, Bool.not_eq_true', decide_eq_true_eq] at h
    exact ⟨x, h.1.1.1.1, hx, h.1.1.1.2, h.1.1.2, h.1.2, h.2⟩
  · cases h

/-! ## WellFormed: an ill-formed term for each check, refused -/

theorem test_wf_register_write : (Instr.registerWrite .mgmt .bar0 0 0 0).wellFormed = false ∧
    (Instr.registerWrite .mgmt .bar0 0 9 0).wellFormed = false ∧ (Instr.registerWrite .mgmt .bar0 0 8 0).wellFormed = true := by decide
theorem test_wf_wide_reads : (Instr.wideLoRead .mgmt .bar0 0 5).wellFormed = false ∧
    (Instr.wideUpperRead .mgmt .bar0 0 0).wellFormed = false := by decide
theorem test_wf_power_loss : (Instr.powerLoss (.program (32768 * 512) 0)).wellFormed = false ∧
    (Instr.powerLoss (.program (32768 * 512 - 1) 0)).wellFormed = true := by decide
theorem test_wf_input_frame : (Instr.inputFrame 0 (List.replicate 9 0)).wellFormed = false := by decide
theorem test_wf_granule : (Instr.granuleZeroDone false 1024).wellFormed = false := by decide
theorem test_wf_flits : (Instr.sequencedFlitReceive 0 (List.replicate 63 0)).wellFormed = false ∧
    (Instr.nullFlitReceive 0 (List.replicate 65 0)).wellFormed = false := by decide
theorem test_wf_samples : (Instr.tallySample (List.replicate 64 0) (List.replicate 26 none) none).wellFormed = false ∧
    (Instr.tallySample (List.replicate 65 0) (List.replicate 25 none) none).wellFormed = false ∧
    (Instr.thermalSample (List.replicate 13 0)).wellFormed = false := by decide
theorem test_wf_pcie : (Instr.pcieLinkUp 0 0 1).wellFormed = false ∧ (Instr.pcieLinkUp 0 5 1).wellFormed = false ∧
    (Instr.pcieLinkUp 0 1 3).wellFormed = false ∧ (Instr.pcieLinkUp 1 4 4).wellFormed = true := by decide

/-! ## A state for the hypotheses of each clause: the bus and the resets -/

theorem witness_StepRunsFrontCommand : (st Dev.reset).pending = [] := rfl
theorem witness_HeldDeviceStaysHeld : Dev.held { Dev.reset with sy := { Dev.reset.sy with coldHold := true } } ∧
    ∃ t, step (st { Dev.reset with sy := { Dev.reset.sy with coldHold := true } }) = .next t := ⟨⟨rfl, rfl⟩, _, rfl⟩
theorem witness_HoldStopsCommands : (Dev.setSy Dev.reset { Dev.reset.sy with coldHold := true }).sy.coldHold = true ∧
    Instr.bankZeroDone 0 ≠ .coldResetRelease ∧ Instr.bankZeroDone 0 ≠ .powerLoss .none := by decide
theorem witness_MemoryOperationsKeepForm : Dev.reset.canonical = true := by decide
theorem witness_SiloReadAfterWrite : ∀ w ∈ siloWords (siloSpan 5 3), coversWord (siloSpan 5 3) w = false →
    Dev.reset.eccOf w ≠ some .ue := by decide
theorem witness_RegisterWriteStores : Dev.reset.sy.coldHold = false ∧ ownPage .steward A.PWR_IDLE_TIMER = some A.PWR_IDLE_TIMER ∧
    may Dev.reset .steward A.PWR_IDLE_TIMER 4095 = true ∧ isSnap A.PWR_IDLE_TIMER = false ∧
    (match regHit A.PWR_IDLE_TIMER with
      | some h => h.row.fields.all (fun f => decide (f.acc = .rw ∨ f.acc = .rwl))
      | none => false) = true ∧
    Dev.reset.regEffect .steward A.PWR_IDLE_TIMER 4095 = Dev.reset.storeWord A.PWR_IDLE_TIMER 4095 := by decide

/-- Host link 0 up with all its functions. -/
def hosted : Dev := dev [(R.PCI_LINK_STAT_UP 0, 1), (R.PCI_LINK_STAT_NUM_VFS 0, 3)]

theorem witness_RegisterWriteRefused_reserved : pageKind (0x2FF8 / 4096) ≠ none ∧ regHit 0x2FF8 = none ∧ isSnap 0x2FF8 = false ∧
    regHit 0x2FFC = none := by decide
theorem witness_RegisterWriteRefused_stall : hosted.reachable 1 = true ∧ (regHit A.PWR_CTL).isSome = true ∧
    hosted.sees 1 A.PWR_CTL true = false ∧ isSnap A.PWR_CTL = false := by decide
theorem witness_RegisterWriteRefused_size : ((2 : BitVec 4) ≠ 4 ∧ (2 : BitVec 4) ≠ 8) ∧ regHit (A.PWR_CTL / 4 * 4) ≠ none ∧
    (0x2042 : Nat) % 4 ≠ 0 ∧ regHit (0x2042 / 4 * 4) ≠ none := by decide
theorem witness_RegisterWriteRefused_pirq : (0x2018 : Nat) % 4096 = 0x18 ∧ bits 1 0 32 ≠ 0 := by decide
theorem witness_RegisterWriteRefused_locked :
    (match regHit (A.KEY_GEN 8) with
      | some h => decide (h.row.words = 1) && (match h.row.fields with
        | [f] => decide (f.acc = .rwl) && f.mayWrite .steward
        | _ => false)
      | none => false) = true ∧
    (dev [(R.PCTL_LOCK 13, 1)]).locked (A.KEY_GEN 8) = true ∧ ownPage .steward (A.KEY_GEN 8) = some (A.KEY_GEN 8) := by decide
theorem witness_RegisterWriteRefused_arrives : Dev.reset.arrives (.stall 1) = false := by decide
theorem witness_PirqStatClears : Dev.reset.arrives .steward = true ∧ Dev.reset.unrestored .steward .bar0 0x7018 = false ∧ pageKind (0x7018 / 4096) ≠ none := by decide
theorem witness_LockAndErrorCommands : pageKind 13 = some (.key, 0) ∧ PageKind.lockable .key = true ∧
    pageKind 7 = some (.trn, 0) ∧ PageKind.lockable .trn = false ∧ hosted.arrives (.stall 1) = true ∧
    pageKind 0x21 = some (.trg, 1) ∧ Dev.reset.arrives .steward = true := by decide
theorem witness_WideReadsSnapshot : (match regHit A.CLK_STC with
      | some h => decide (h.word = 0 ∧ 1 < h.row.words)
      | none => false) = true ∧
    (match regHit (A.CLK_STC + 4) with
      | some h => decide (h.word = 1 ∧ 1 < h.row.words)
      | none => false) = true ∧ hosted.shows (.stall 1) A.CLK_STC false = true ∧
    hosted.shows (.stall 1) (A.CLK_STC + 4) false = true ∧ ownPage (.stall 1) A.CLK_STC = some A.CLK_STC := by decide
theorem witness_WidePairReads : A.CLK_STC % 8 = 0 ∧ A.TLY_ENERGY 0 % 8 = 0 ∧ (match regHit (A.TLY_ENERGY 0) with
      | some h => decide (h.word = 0 ∧ A.TLY_ENERGY 0 + 8 < A.TLY_ENERGY 0 + 4 * h.row.words)
      | none => false) = true ∧ ownPage .mgmt (A.TLY_ENERGY 0) = some (A.TLY_ENERGY 0) := by decide
theorem witness_UnboundAccess : (dev [(R.PCI_LINK_STAT_UP 0, 1), (R.PCI_LINK_STAT_NUM_VFS 0, 3), (R.STL_BIND_KIND 4, 0)]).hostUp 3 = true ∧
    (dev [(R.PCI_LINK_STAT_UP 0, 1), (R.PCI_LINK_STAT_NUM_VFS 0, 3), (R.STL_BIND_KIND 4, 0)]).stallOfFunc 3 = none := by decide

/-- The Steward runs an image. -/
def booted : Dev := Dev.reset.setSy { Dev.reset.sy with mode := .image, healthy := true, aliveCount := 1536, resetReq := true, wdog := 3072000 }

theorem witness_ColdResetCommands : (Dev.reset.setSy { Dev.reset.sy with pwrOk := false }).sy.pwrOk = false ∧
    (Dev.reset.setSy { Dev.reset.sy with coldHold := true }).sy.coldHold = true ∧
    (Dev.reset.setSy { Dev.reset.sy with coldHold := true }).sy.pwrOk = true := by decide
theorem witness_WarmResetCommands : Dev.reset.sy.coldHold = false ∧ 2 ≤ (2 : BitVec 8).toNat ∧ (1 : BitVec 8).toNat < 2 := by decide
theorem witness_ResetCommands : may Dev.reset .mgmt A.SYS_RESET_CMD (0x1FE * 256) = true ∧
    may Dev.reset .steward A.SYS_RESET_CMD (2 ^ 8 * 256) = true ∧ (0x1FE : BitVec 9) ≠ 0 := by decide
theorem witness_StewardSupervision : booted.sy.resetReq = true ∧ booted.sy.mode = .image ∧
    (dev [(R.SYS_WDOG_CTL_EN, 1), (R.SYS_WDOG_CTL_PERIOD, 1000)]).on R.SYS_WDOG_CTL_EN = true ∧
    booted.serves = true ∧ 1000 * 3072 ≤ booted.sy.wdog ∧ booted.arrives .steward = true ∧ 0x4B1C % 65536 = 0x4B1C ∧
    booted.sy.healthy = true ∧ 1536 ≤ booted.sy.aliveCount := by decide
theorem witness_BootCommand : Dev.reset.sy.mode = .rom ∧ (Dev.reset.ck.measuring = 0 ∨ Dev.reset.on R.CLK_REF_STAT_PRESENT = false) ∧
    3 ≤ (dev [(R.SYS_RESET_CAUSE_REPEAT, 3)]).rd R.SYS_RESET_CAUSE_REPEAT ∧ Dev.reset.rd R.SYS_RESET_CAUSE_REPEAT < 3 := by decide
theorem witness_JobFault : (dev [(R.STL_JOB_STAT_STATE 8, 1), (R.STL_JOB_WDOG_MS 8, 1)]).jobState 8 = jobOpen ∧
    (dev [(R.STL_JOB_STAT_STATE 8, 1), (R.STL_JOB_WDOG_MS 8, 1)]).rd (R.STL_JOB_WDOG_MS 8) * 3072 ≤
      ((dev [(R.STL_JOB_STAT_STATE 8, 1)]).setJob 8 { Job.none with wdog := 3072 } |>.job 8).wdog ∧
    (dev [(R.STL_JOB_STAT_STATE 0, 2)]).jobState 0 = jobFaulted ∧
    (dev [(R.STL_JOB_STAT_STATE 0, 2)]).on (R.STL_FAULT_STAT_RETURNED 0) = false := by decide

/-! ## A state for the hypotheses of each clause: clocks, audio, stalls -/

/-- A locked PLL with a present reference. -/
def locked : Dev := dev [(R.CLK_REF_STAT_PRESENT, 1), (R.CLK_PLL_CTL_EN, 1), (R.CLK_PLL_STAT_LOCK, 1)]

theorem witness_ReferenceCommands : ({ Dev.reset with ck := { Dev.reset.ck with measuring := 1 } } : Dev).ck.measuring ≠ 0 ∧
    (23856 ≤ (23856 : Nat) ∧ (25340 : Nat) ≤ 25340) ∧ ¬(23856 ≤ (23855 : Nat)) ∧ ¬((25341 : Nat) ≤ 25340) ∧
    locked.on R.CLK_PLL_CTL_EN = true ∧ Dev.reset.on R.CLK_PLL_CTL_EN = false ∧ locked.on R.CLK_REF_STAT_PRESENT = true ∧
    locked.on R.CLK_PLL_STAT_LOCK = true ∧ Dev.reset.on R.CLK_REF_STAT_PRESENT = false := by decide
theorem witness_PllCommands : may Dev.reset .steward A.CLK_PLL_CTL 1 = true ∧ Dev.reset.on R.CLK_REF_STAT_MISMATCH = false ∧
    (dev [(R.CLK_REF_STAT_MISMATCH, 1)]).on R.CLK_REF_STAT_MISMATCH = true ∧ may Dev.reset .steward A.CLK_PLL_CTL 0 = true ∧
    Dev.reset.coreOn = false ∧ (dev [(R.CLK_SRC_SEL_CORE_SRC, 1)]).coreOn = true ∧
    (locked.wr R.CLK_PLL_STAT_LOCK 0).on R.CLK_PLL_CTL_EN = true ∧ (locked.wr R.CLK_PLL_STAT_LOCK 0).on R.CLK_PLL_STAT_LOCK = false ∧
    locked.ck.measuring ≠ 2 ∧ locked.on R.CLK_PLL_STAT_LOCK = true := by decide
theorem witness_CoreClockCommands : may locked .steward A.CLK_SRC_SEL 1 = true ∧ locked.on R.CLK_PLL_STAT_LOCK = true ∧
    Dev.reset.on R.CLK_PLL_STAT_LOCK = false ∧ may locked .steward A.CLK_SRC_SEL 0 = true ∧
    (dev [(R.CLK_SRC_SEL_CORE_SRC, 1), (R.CLK_TCLK_DIV_REQ, 3)]).rd R.CLK_TCLK_DIV_CUR ≠
      max ((dev [(R.CLK_TCLK_DIV_REQ, 3)]).rd R.CLK_TCLK_DIV_REQ) (Dev.reset.rd R.THM_CAP_STEP) ∧
    Dev.reset.pw.dvfs = none := by decide
theorem witness_DividerRequests : may Dev.reset .steward A.CLK_TCLK_DIV 4 = true ∧ may Dev.reset .steward A.CLK_TCLK_DIV 3 = true ∧
    (let d := dev [(R.CLK_TCLK_DIV_CUR, 3), (R.PWR_REG_CFG_EN 3, 1), (R.PWR_REG_ACK_VOUT_ACK 3, 719)]
     2 < d.rd R.CLK_TCLK_DIV_CUR ∧ d.coreMv < 720 ∧ may d .steward A.CLK_TCLK_DIV 2 = true) ∧
    (let d := dev [(R.CLK_TCLK_DIV_CUR, 3), (R.PWR_REG_CFG_EN 3, 1), (R.PWR_REG_ACK_VOUT_ACK 3, 720)]
     ¬d.coreMv < 720) := by decide

/-- Port 3 as a running target that has framed at grid 1000, at STC `c`. -/
def framed (role c : Nat) : Dev :=
  let d := dev [(R.AUD_PORT_CTL_EN 3, 1), (R.AUD_PORT_CTL_ROLE 3, role), (R.CLK_STC, c)]
  d.setPort 3 { d.port 3 with framed := true, grid := 1000 }

theorem witness_PortCommands : may Dev.reset .steward (A.AUD_PORT_CTL 3) 0x111 = true ∧ Dev.reset.portCtlOk 3 0x111 = true ∧
    may Dev.reset .steward (A.AUD_PORT_CTL 3) 0x101 = true ∧ Dev.reset.portCtlOk 3 0x101 = false ∧
    (dev [(R.AUD_PORT_CTL_EN 0, 1)]).portOn 0 = true ∧ (dev [(R.AUD_PORT_CTL_EN 0, 1)]).on (R.AUD_PORT_CTL_ROLE 0) = false ∧
    ((dev [(R.AUD_PORT_CTL_EN 0, 1)]).port 0).framed = false ∧
    (let d := framed 0 1000
     let d' := (d.wr R.CLK_STC (1000 + d.smpTicks 3 + 4))
     let g := nearest (d'.port 3).grid (d'.smpTicks 3) d'.stc
     g ≤ d'.stc + 4 ∧ d'.stc ≤ g + 4 ∧ (d'.port 3).grid < g ∧ (d'.port 3).framed = true ∧ (d'.port 3).lost = false) ∧
    (let d' := framed 0 1005
     let g := nearest (d'.port 3).grid (d'.smpTicks 3) d'.stc
     ¬(g ≤ d'.stc + 4 ∧ d'.stc ≤ g + 4)) ∧
    (let d := framed 1 0
     let d' := d.wr R.CLK_STC (d.smpTicks 3 * 1000)
     d'.stc % d'.smpTicks 3 = 0 ∧ (d'.port 3).grid < d'.stc ∧ d'.on (R.AUD_PORT_CTL_ROLE 3) = true ∧ d'.portOn 3 = true) ∧
    (let d := framed 0 0
     let d' := d.wr R.CLK_STC (1000 + 2 * d.smpTicks 3 + 5)
     (d'.port 3).grid + 2 * d'.smpTicks 3 + 4 < d'.stc) := by decide

/-- Stream 31 filling its block, the boundary passed; `k` tells whether it stops. -/
def filling (k : Nat) : Dev :=
  let d := dev [(R.SEQ_STRM_CFG_EN 31, 1), (R.CLK_STC, 1000000000), (R.SYS_LIMP_CAUSE, 0)]
  d.setStream 31 { d.stream 31 with filling := true, stopping := k }

theorem witness_StreamBlocks :
    (let d := filling 0
     let x := d.stream 31
     d.domOn 57 = true ∧ d.on R.CLK_REF_STAT_MISMATCH = false ∧ d.lowerDue 31 (x.blkStart + d.blkLen 31 * d.strmTicks 31) = false ∧
       (d.setStream 30 (d.stream 31)).lowerDue 31 (x.blkStart + d.blkLen 31 * d.strmTicks 31) = true ∧ x.filling = true ∧ x.blkStart + d.blkLen 31 * d.strmTicks 31 ≤ d.stc ∧ x.stopping = 0 ∧
       d.mayLaunch 31 = true ∧ x.live = none ∧ x.standby = none ∧ x.promo = none) ∧ ((filling 1).stream 31).stopping = 1 ∧
    (let d := (filling 0).setStream 31 { (filling 0).stream 31 with live := some ⟨0, 0, 9, true, false⟩, delayed := some 9 }
     (d.stream 31).live = some ⟨0, 0, 9, true, false⟩ ∧ (d.stream 31).standby = none ∧ (d.stream 31).delayed = some 9 ∧
       d.mayLaunch 31 = true) := by decide
theorem witness_StreamContexts : Dev.reset.sy.mode ≠ .inReset ∧ (dev [(R.SYS_LIMP_CAUSE, 2)]).limp = true ∧
    may Dev.reset .steward (A.SEQ_STRM_CFG 31 + 4) 0 = true ∧ Dev.reset.on (R.SEQ_STRM_CFG_EN 31) = false ∧
    may (filling 0) .steward (A.SEQ_STRM_CFG 31 + 4) 0 = true ∧ (filling 0).on (R.SEQ_STRM_CFG_EN 31) = true ∧
    may (filling 0) .steward (A.SEQ_STRM_CFG 31) 1 = true ∧ 1 ≠ clrBit ((filling 0).word (A.SEQ_STRM_CFG 31)) 0 ∧
    may (filling 0) .steward (A.SEQ_STRM_CFG 31) (clrBit ((filling 0).word (A.SEQ_STRM_CFG 31)) 0) = true := by decide
theorem witness_DetectorAndMute :
    may Dev.reset .steward (A.SEQ_STRM_ZC 31) (setBit (Dev.reset.word (A.SEQ_STRM_ZC 31)) 31) = true ∧
    (Dev.reset.word (A.SEQ_STRM_ZC 31)).testBit 31 = false ∧ Dev.reset.zcLimit 31 ≤ 1000000 ∧
    may Dev.reset .steward A.SEQ_MUTE_CTL ((Dev.reset.word A.SEQ_MUTE_CTL &&& 4) + 1) = true ∧
    may Dev.reset .steward A.SEQ_MUTE_CTL ((Dev.reset.word A.SEQ_MUTE_CTL &&& 4) + 2) = true ∧ Dev.reset.au.muteLow = true ∧
    Dev.reset.on R.SEQ_MUTE_CTL_MUTE_RELEASE = false ∧ Dev.reset.on R.SEQ_MUTE_CTL_OUT_RELEASE = false ∧
    (dev [(R.SEQ_MUTE_CTL_OUT_RELEASE, 1)]).on R.SEQ_MUTE_CTL_OUT_RELEASE = true ∧
    Dev.reset.on R.SEQ_MUTE_CTL_MUTE_FORCE = false ∧ may Dev.reset .steward A.SEQ_MUTE_CTL 4 = true ∧
    may Dev.reset .steward A.SEQ_MUTE_CTL 0 = true ∧ (Dev.reset.rd R.BARN_PAD_STAT_HELD).testBit 2 = false := by decide

/-- Stall 8 with a job in state `k`, its functions reachable. -/
def jobbed (n k : Nat) : Dev := dev [(R.STL_JOB_STAT_STATE n, k), (R.PCI_LINK_STAT_UP 1, 1), (R.PCI_LINK_STAT_NUM_VFS 1, 3)]

theorem witness_BindAndGrantWrites : may Dev.reset .mgmt (A.STL_BIND 8) 0x00070002 = true ∧ bits 0x00070002 0 2 ≠ 3 ∧
    Dev.reset.bindTaken 8 0x00070002 = false ∧ Dev.reset.jobState 8 = jobClosed ∧ Dev.reset.bindTaken 8 1 = true ∧
    may Dev.reset .mgmt (A.STL_BIND 8) 3 = true ∧ (jobbed 8 1).jobState 8 ≠ jobClosed ∧
    may Dev.reset .mgmt (grantAddr 8 .bays) 0x8000 = true ∧ Dev.reset.grantFits 8 0x8000 .bays = true ∧
    Dev.reset.grantCovers 8 0x8000 .bays = true ∧
    ((dev [(R.STL_Q_STREAMS_MASK 1, 1)]).grantFits 8 1 .streams = false) := by decide
theorem witness_JobCommands : may Dev.reset .steward (A.STL_JOB_CTL 8) (1 + 65535 * 65536) = true ∧ Dev.reset.limp = true ∧
    (dev [(R.SYS_LIMP_CAUSE, 0)]).limp = false ∧ (jobbed 8 1).jobState 8 = jobOpen ∧
    (let d := (jobbed 8 2).wr (R.STL_FAULT_STAT_RETURNED 8) 1
     d.jobState 8 = jobFaulted ∧ d.troughsClosed 8 = true ∧ d.on (R.STL_FAULT_STAT_RETURNED 8) = true ∧
       d.rd (R.STL_FAULT_STAT_ABORT_PEND 8) = 0) ∧ Dev.reset.epochServed 0 = true ∧
    ((jobbed 8 2).wr (R.TRG_T_STAT_STATE 8 3) 1).troughsClosed 8 = false ∧ may Dev.reset .steward (A.STL_JOB_CTL 8) 2 = true := by decide
theorem witness_TroughCommands : may Dev.reset .steward (A.TRG_T_CTL 8 3) 1 = true ∧ Dev.reset.troughState 8 3 = trgClosed ∧
    may (jobbed 8 1) (.stall 8) (A.TRG_T_CTL 8 3) (1 + 65535 * 65536) = true ∧
    (dev [(R.TRG_T_STAT_STATE 8 3, 1)]).troughState 8 3 = trgOpen ∧ (dev [(R.TRG_T_STAT_STATE 8 3, 2)]).troughState 8 3 = trgHalted ∧
    (dev [(R.TRG_T_STAT_STATE 8 3, 3)]).troughState 8 3 = trgClosing ∧ Dev.reset.tn.live = [] ∧
    ((dev [(R.TRG_T_STAT_STATE 8 3, 2)]).setTrough 8 3 { TroughSt.reset with halted := [⟨.batch 8 3, 5, 0, .held, 0, 0, 0⟩] }).trough 8 3 =
      { TroughSt.reset with halted := [⟨.batch 8 3, 5, 0, .held, 0, 0, 0⟩] } ∧
    may Dev.reset .steward (A.TRG_T_CTL 8 3) 2 = true ∧ may Dev.reset .steward (A.TRG_T_CTL 8 3) 3 = true ∧
    (jobbed 8 1).arrives (.stall 8) = true ∧
    (let size := Dev.reset.troughSize 8 3
     (0 : Nat) ≤ size ∧ ¬((size + 1) % 2 ^ 32 ≤ size)) := by decide
theorem witness_CounterWindowWrites : Dev.reset.arrives .steward = true ∧ Dev.reset.takesSignal 4095 false = true ∧
    Dev.reset.ctr 4095 + maxWord ≤ maxWord ∧ Dev.reset.takesSignal 4096 false = false ∧
    maxWord < (Dev.reset.setCtr 4095 1).ctr 4095 + maxWord ∧ Dev.reset.inRick 8 0 = false ∧
    (dev [(R.STL_Q_RICK_BASE 8, 64), (R.STL_Q_RICK_COUNT 8, 1)]).inRick 8 4096 = true := by decide

/-! ## A state for the hypotheses of each clause: descriptors and signals -/

/-- Whether a read gives bytes, `ue` telling of an uncorrectable word. -/
def gives (r : PathRead) (ue : Bool) : Bool := match r with | .data _ u _ => u == ue | _ => false
/-- Whether a write is done without an uncorrectable word. -/
def wrote (r : PathWrite) : Bool := match r with | .done ue _ => !ue | _ => false
/-- Whether a piece of work is done. -/
def worked {α : Type} (w : Work α) : Bool := match w with | .ok _ _ => true | _ => false

/-- The core clock runs, the Silo banks are zeroed, LIMP is off, and `l`. -/
def awake (l : List (Fld × Nat)) : Dev :=
  let d := dev ([(R.CLK_SRC_SEL_CORE_SRC, 1), (R.SYS_LIMP_CAUSE, 0)] ++ l)
  { d with mem := { d.mem with bankPend := [] } }

/-- A descriptor at position 3 of trough `t`: a class, a phase, and fields at their bit places. -/
def desc (t : TroughId) (op : Nat) (ph : Phase) (f : List (Nat × Nat)) : Desc :=
  ⟨t, 3, BitVec.ofNat 512 (op + (f.map (fun x => x.2 <<< x.1)).foldl (· + ·) 0), ph, 0, 0, 0⟩

/-- Position 3 of trough 1 of stall 0, and of a realtime trough. -/
abbrev bt : TroughId := .batch 0 1
abbrev rt : TroughId := .realtime 31 false

/-- Stall 0 and stall 1 with open jobs and trough 1 of each open; stall 0's buffers are the first 8 granules, stall 1 has granule 1023; the live
descriptors are `l`. -/
def issuing (l : List Desc) (m : List (Fld × Nat) := []) : Dev :=
  let d := awake ([(R.STL_JOB_STAT_STATE 0, 1), (R.STL_JOB_STAT_STATE 1, 1), (R.TRG_T_STAT_STATE 0 1, 1), (R.TRG_T_STAT_STATE 1 1, 1),
    (R.TRG_T_CFG_LOC 0 1, 1), (R.TRG_T_CFG_LOC 1 1, 1), (R.TRG_T_CFG_LOG2SIZE 0 1, 6), (R.TRG_T_CFG_LOG2SIZE 1 1, 6),
    (R.TRG_T_TAIL 0 1, 1), (R.TRG_T_TAIL 1 1, 1), (R.TRG_T_HEAD 0 1, 3), (R.STL_Q_SILO_GRAN 1, 1), (R.SIL_EXTENT_BASE 0, 1023), (R.SIL_EXTENT_COUNT 0, 1)] ++ m)
  (d.setJob 0 { Job.none with decl := ⟨[(5000, 7)], [(0, 8)], [9], 0xFFFF⟩ }).setLive l

/-- `d` with a realtime run of stream 31's live trough: next index `k` of 4. -/
def running (d : Dev) (k : Nat) : Dev :=
  let d := (d.wr (R.SEQ_STRM_TRG_LEN 31) 4).wr (R.SEQ_STRM_TRG_BASE 31) 16
  d.setStream 31 { d.stream 31 with live := some ⟨1, k, 1000, false, false⟩ }

theorem witness_DescriptorFetchAndStart_fetch :
    (let d := issuing []
     d.coreOn = true ∧ d.troughState 0 1 = trgOpen ∧ d.jobState 0 = jobOpen ∧ (d.trough 0 1).next ≠ d.rd (R.TRG_T_TAIL 0 1) ∧
       d.tn.live = [] ∧ gives (d.pathRead 0 none (d.slotAddr 0 1 0) 64) false = true ∧
       d.headerFault 0 (Desc.fetched bt 0 (zeros 64)) = none) ∧
    (issuing []).headerFault 0 (Desc.fetched bt 0 (leBytes 64 13)) = some stDesc ∧
    (issuing []).headerFault 0 (Desc.fetched bt 0 (leBytes 64 12)) = none ∧
    (issuing []).headerFault 0 (Desc.fetched bt 0 (leBytes 64 (0x100 + 4095 * 2 ^ 32))) = none ∧
    (issuing []).headerFault 0 (Desc.fetched bt 0 (leBytes 64 (0x100 + 4096 * 2 ^ 32))) = some stQuota ∧
    (let d := issuing []
     let d := { d with mem := { d.mem with ecc := d.mem.ecc.set (fun _ => none) (1023 * siloGranule / 8) (some .ue) } }
     d.troughState 1 1 = trgOpen ∧ d.jobState 1 = jobOpen ∧ (d.trough 1 1).next ≠ d.rd (R.TRG_T_TAIL 1 1) ∧
       gives (d.pathRead 1 none (d.slotAddr 1 1 0) 64) true = true) := by decide +kernel

theorem witness_DescriptorFetchAndStart_realtime :
    (let d := running (issuing []) 3
     d.rtTrough 31 false = some (⟨1, 3, 1000, false, false⟩, 1024, 4) ∧ d.tn.live = [] ∧
       (∀ i < 64, d.siloReady (1024 + 64 * 3 + i) = true) ∧ (d.siloRead (1024 + 64 * 3) 64).2.1 = false ∧
       (Desc.fetched rt 3 (d.siloRead (1024 + 64 * 3) 64).1).opcode ≤ 12 ∧ (Desc.fetched rt 3 (d.siloRead (1024 + 64 * 3) 64).1).fld 13 3 = 0) ∧
    (let x := desc rt 0 .held []
     let d := running (issuing [x]) 4
     d.findDesc rt 3 = some x ∧ d.rtRulesKept 31 false x = true ∧ d.bodyFault rt x = none ∧ d.aimedAtDisabled rt x = false) ∧
    (let x := desc rt 4 .held []
     let d := running (issuing [x]) 4
     d.findDesc rt 3 = some x ∧ d.rtRulesKept 31 false x = false) := by decide

theorem witness_DescriptorFetchAndStart_start :
    (let x := desc bt 0 .held [(8, 1), (9, 1), (32, 7), (64, 5)]
     let d := issuing [x]
     d.findDesc bt 3 = some x ∧ x.waitEn = true ∧ x.consume = true ∧ d.waitMet x.wait = false ∧
       (d.setCtr 7 5).waitMet x.wait = true ∧ ((d.setCtr 7 5).takeWait x.wait).bodyFault bt x = none ∧
       ((d.setCtr 7 5).takeWait x.wait).aimedAtDisabled bt x = false) ∧
    (let x := desc bt 12 .held [(136, 1)]
     (issuing [x]).findDesc bt 3 = some x ∧ x.waitEn = false ∧ (issuing [x]).jobState 0 = jobOpen ∧
       (issuing [x]).bodyFault bt x = some stDesc) ∧
    (let x := desc bt 0 .held []
     let d := issuing [x] [(R.PWR_STAT_STATE, 2)]
     d.findDesc bt 3 = some x ∧ d.bodyFault bt x = none ∧ d.aimedAtDisabled bt x = true) := by decide

theorem witness_DescriptorRetirement :
    (let x := desc bt 0 .done [(10, 1), (48, 7), (96, 5)]
     let d := issuing [x]
     d.findDesc bt 3 = some x ∧ x.sigEn = true ∧ d.wraps x.sigCtr x.sigInc = false ∧ x.cmpl = false ∧ (d.trough 0 1).retired = [] ∧
       d.rd (R.TRG_T_HEAD 0 1) = 3 ∧ (d.setCtr 7 (maxWord - 5)).wraps x.sigCtr x.sigInc = false ∧
       (d.setCtr 7 (maxWord - 4)).wraps x.sigCtr x.sigInc = true ∧ d.jobState 0 = jobOpen) ∧
    (let x := desc rt 0 .done []
     let d := running (issuing [x]) 3
     d.findDesc rt 3 = some x ∧ d.rtTrough 31 false = some (⟨1, 3, 1000, false, false⟩, 1024, 4) ∧ (3 : Nat) < 4 ∧
       (running d 4).rtTrough 31 false = some (⟨1, 4, 1000, false, false⟩, 1024, 4) ∧ d.stc ≤ 1000) ∧
    (let x := desc bt 0 .started []
     (issuing [x]).findDesc bt 3 = some x) ∧
    (let x := desc bt 12 .started [(16, 77)]
     let d := issuing [x] [(R.STL_EV_CFG_LOG2SIZE 0, 4), (R.STL_EV_CFG_LOC 0, 1), (R.STL_EV_HEAD 0, 15)]
     d.findDesc bt 3 = some x ∧ wrote (d.pathWrite 0 none (ringAddr (d.on (R.STL_EV_CFG_LOC 0))
       (d.rd (R.STL_EV_BASE 0) * 4096) (15 % 16 * 16)) (eventBytes x.tag kindMark 1 3 d.stc)) = true ∧
       (15 : Nat) < 2 ^ d.rd (R.STL_EV_CFG_LOG2SIZE 0) ∧ 2 ^ d.rd (R.STL_EV_CFG_LOG2SIZE 0) ≤ (16 : Nat) ∧ d.owedEvents 0 = 0 ∧
       (match ({ d with mem := { d.mem with siloPend := [0] } } : Dev).pathWrite 0 none (ringAddr true 0 240)
           (eventBytes x.tag kindMark 1 3 d.stc) with | .wait => true | _ => false) = true) := by decide +kernel

theorem witness_SyncAndFence_sync :
    (let y := desc bt 7 .started []
     (issuing [y]).findDesc bt 3 = some y ∧ ∀ i < 4, y.prog ≤ i → (syncSlot y.bits i).2.1 < 2) ∧
    (let y := { desc bt 7 .working [(320, 7), (336, 3), (352, 5)] with prog := 3 }
     let sl := syncSlot y.bits y.prog
     let w : Waiter := ⟨sl.1, sl.2.2, sl.2.1 == 3, bt, 3⟩
     let d := issuing [y]
     d.findDesc bt 3 = some y ∧ y.prog < 4 ∧ 2 ≤ sl.2.1 ∧ (d.enqueue w).waitMet w = false ∧
       ((d.setCtr 7 5).enqueue w).waitMet w = true) := by decide

theorem witness_SyncAndFence_fence :
    (let y := desc bt 8 .started []
     (issuing [y]).findDesc bt 3 = some y) ∧
    (let y := desc bt 8 .working []
     (issuing [y]).findDesc bt 3 = some y ∧ y.aux = 0 ∧ (issuing [y]).fenceMet y = true ∧ (Fence.of y.bits).barrier = false) ∧
    (let y := desc bt 8 .working [(145, 1), (160, 65535)]
     (issuing [y]).fenceMet y = true ∧ (Fence.of y.bits).barrier = true) ∧
    (let y := { desc bt 8 .working [(128, 15)] with order := 2 }
     let z := { desc bt 3 .working [] with pos := 2, order := 1 }
     (issuing [z, y]).findDesc bt 3 = some y ∧ (issuing [z, y]).fenceMet y = false) := by decide

/-- A packet from node 9 to this device on VC 0 of the loop: its class, its stalls, and its class fields. -/
def arrived (d : Dev) (cls dstall : Nat) (fields : List Byte) : Dev :=
  { d with fu := { d.fu with loop := [(0, ⟨cls, 16, 0, 9, dstall, 0, fields, []⟩)] } }

/-- What waits on the loop for a receive command of a class. -/
def waits (d : Dev) (cls : Nat) : Option (Nat × Packet) :=
  (firstRx (fun x => x.dst == d.node && x.cls == cls) [] [] (d.rxList 4)).map (fun r => (r.1, r.2.1))

theorem witness_SyncAndFence_barrier :
    (let d := arrived (issuing []) pkBarrier 0 (leBytes 44 65535)
     (waits d pkBarrier).map (fun r => (r.1, r.2.fld 16 2)) = some (0, 65535) ∧ 0 ∈ allStalls ∧ d.openPeer 0 9 = true ∧
       (∀ m ∈ allStalls, m ≠ 0 → d.openPeer m 9 = false) ∧
       (d.setBarriers (d.tn.barriers ++ [(0, 9, 65535)])).earlyBarriers 0 ≤ 16 ∧ d.tn.live = []) ∧
    (∀ m ∈ allStalls, (arrived (awake []) pkBarrier 0 []).openPeer m 9 = false) := by decide

theorem witness_RemoteSignals :
    (let d := arrived (issuing []) pkRsig 0 (padTo 44 (leBytes 2 4095 ++ leBytes 2 1 ++ leBytes 4 5))
     (waits d pkRsig).map (fun r => (r.2.fld 16 2, r.2.fld 18 2, r.2.fld 20 4)) = some (4095, 1, 5) ∧
       seqNewer (d.lastSeq 0 0 9) 1 = true ∧ 4095 < standingEnd ∧ ¬(4096 < standingEnd) ∧ d.openPeer 0 9 = true ∧
       d.wraps 4095 5 = false ∧ (d.setCtr 4095 (maxWord - 4)).wraps 4095 5 = true ∧
       seqNewer ((d.setLastSeq 0 0 9 1).lastSeq 0 0 9) 1 = false ∧ seqNewer (some 0) 32768 = true ∧ seqNewer (some 0) 32769 = false) ∧
    (let d := arrived (issuing []) pkRack 0 (padTo 44 (leBytes 2 6 ++ leBytes 2 stWrap))
     (waits d pkRack).map (fun r => (r.2.fld 16 2, r.2.fld 18 2, r.2.fld 20 1 % 2)) = some (6, stWrap, 0) ∧ d.jobState 0 = jobOpen ∧
       d.tn.rsigs = [] ∧ ([⟨0, 9, 0, 0, 6, 7, 5, bt, 3⟩] : List RSig).filter (fun r => r.stall == 0 && (r.node == 9 && r.dstall == 0 && r.seq == 6)) ≠ []) ∧
    (waits (arrived (issuing []) pkRack 0 (padTo 44 (leBytes 2 6 ++ leBytes 2 0 ++ [1]))) pkRack).map (fun r => r.2.fld 20 1 % 2) = some 1 ∧
    (let d := arrived (issuing []) pkAbort 0 (zeros 44)
     (waits d pkAbort).isSome = true ∧ d.openPeer 0 9 = true) ∧
    (waits (arrived (issuing []) pkAbortAck 8 (zeros 44)) pkAbortAck).map (fun r => decide (r.2.dstall ≤ 8)) = some true := by decide
/-! ## A state for the hypotheses of each clause: the units take up descriptors and work on them -/

/-- Bytes placed in Silo. -/
def place (d : Dev) (l : List (Nat × Byte)) : Dev := l.foldl (fun d x => d.poke (.silo x.1) x.2) d

/-- A started descriptor whose unit refuses it: an earlier one of its class still waits. -/
def behindOne (op : Nat) (f : List (Nat × Nat)) : Dev × Desc :=
  let y := { desc bt op .started f with order := 2 }
  (issuing [{ desc bt op .started f with pos := 2, order := 1 }, y], y)

/-- A SIFT's one-instruction program block (END) at Silo 0. -/
def endBlock (d : Dev) : Dev := place d [(48, 1), (128, 0x7F)]

theorem witness_UnitsTakeUp_tile_sift :
    (let y := desc bt 1 .started []
     (issuing [y]).findDesc bt 3 = some y) ∧
    (let (d, y) := behindOne 2 []
     d.findDesc bt 3 = some y ∧ d.siftMayBegin y (Sift.of y.bits).sifter = false) ∧
    (let y := desc bt 2 .started [(130, 3)]
     let d := endBlock (issuing [y])
     d.findDesc bt 3 = some y ∧ d.siftMayBegin y 3 = true ∧ (Sift.of y.bits).sifter = 3 ∧ (Sift.of y.bits).kind ≠ 2 ∧
       worked (loadBlock bt (Sift.of y.bits) d) = true) := by decide +kernel

theorem witness_UnitsTakeUp_move_bale_unbale :
    (let (d, y) := behindOne 3 []
     d.findDesc bt 3 = some y ∧ d.moveMayBegin y (Move.of y.bits).chan = false) ∧
    (let y := desc bt 3 .started [(132, 3), (160, 64), (192, 1), (288, 128)]
     (issuing [y]).findDesc bt 3 = some y ∧ (Move.of y.bits).chan = 3 ∧ (issuing [y]).moveMayBegin y 3 = true) ∧
    (let (d, y) := behindOne 4 []
     d.findDesc bt 3 = some y ∧ d.baleMayBegin y = false) ∧
    (let y := desc bt 4 .started [(160, 1)]
     let x := Bale.of y.bits
     (issuing [y]).baleMayBegin y = true ∧ worked ((issuing [y]).getBytes bt x.tables x.tableLen) = true ∧
       tablesOk x.format x.ntab [] = true) ∧
    (let y := desc (.batch 1 1) 5 .started []
     let d := issuing [y] [(R.STL_BIND_KIND 1, 1)]
     d.findDesc (.batch 1 1) 3 = some y ∧ (Unbale.of y.bits).src = 0 ∧ d.pathOf 1 (Unbale.of y.bits) = some 0 ∧
       d.unbaleMayBegin y 0 = true ∧ (d.wr R.THR_BATCH_CTL_PAUSED 1).unbaleMayBegin y 0 = false) := by decide

theorem witness_UnitsTakeUp_winnow_link_port_swap :
    (let (d, y) := behindOne 6 []
     d.findDesc bt 3 = some y ∧ d.winnowMayBegin y = false) ∧
    (let y := desc bt 6 .started [(128, 1)]
     (issuing [y]).winnowMayBegin y = true ∧ (Winnow.of y.bits).mode ≠ 2) ∧
    (let (d, y) := behindOne 9 []
     d.findDesc bt 3 = some y ∧ d.linkMayBegin y = false) ∧
    (let y := desc bt 9 .started []
     (issuing [y]).linkMayBegin y = true) ∧
    (let (d, y) := behindOne 10 []
     d.findDesc bt 3 = some y ∧ d.portBehind y = true) ∧
    (let y := desc bt 10 .started [(130, 31)]
     let d := issuing [y] [(R.SEQ_STRM_CFG_EN 31, 1)]
     d.portBehind y = false ∧ (PortB.of y.bits).kind ≠ 2 ∧ (PortB.of y.bits).result = 0 ∧
       d.on (R.SEQ_STRM_CFG_EN (PortB.of y.bits).stream) = true) ∧
    (let y := desc bt 11 .started [(128, 31), (160, 64), (192, 1), (224, 512), (256, 1024)]
     let d := issuing [y] [(R.SEQ_STRM_CFG_EN 31, 1), (R.STL_Q_STREAMS_MASK 0, 2 ^ 31), (R.SEQ_STRM_BAYS_STANDBY 31, 0x8000)]
     d.findDesc bt 3 = some y ∧ d.sy.mode ≠ .inReset ∧ worked (d.swapCheck bt 3 y.bits) = true ∧ d.au.checked = [] ∧
       d.checkedOf (SwapB.of y.bits).stream = [] ∧
       (∀ b < 16, (d.rd (R.SEQ_STRM_BAYS_STANDBY (SwapB.of y.bits).stream)).testBit b = true → d.domEn b = true) ∧
       d.rd (R.SEQ_PROMO_STAT_STATE (SwapB.of y.bits).stream) = 0) := by decide

theorem witness_UnitsWork_move :
    (let y := desc bt 3 .working [(132, 3), (160, 64), (192, 1), (288, 128)]
     let d := issuing [y]
     let d := { d with tr := d.tr.set (fun _ => Channel.idle) 3 ⟨some (bt, 3), none⟩ }
     let x := Move.of y.bits
     d.findDesc bt 3 = some y ∧ x.kind < 2 ∧ (d.channel x.chan).cur = some (bt, 3) ∧ d.domOn 61 = true ∧
       d.moveHeldBack x.chan = false ∧ d.mem.ecc = .empty ∧ (x.pairs y.prog y.aux).length = 64 ∧
       (∀ a ∈ x.pairs y.prog y.aux, d.mayUse bt a.1 1 = true ∧ d.mayUse bt a.2 1 = true ∧
         d.reach 0 none a.1 = .ok (.silo a.1) ∧ d.reach 0 none a.2 = .ok (.silo a.2)) ∧
       ((x.pairs y.prog y.aux).map (fun a => a.2)).Nodup) := by decide +kernel

theorem witness_UnitsWork_link_bale :
    (let y := desc bt 9 .working [(160, 16)]
     let x := LinkB.of y.bits
     let d := issuing [y]
     d.findDesc bt 3 = some y ∧ y.prog < x.packets ∧ d.paused = false ∧ x.dst = d.node ∧
       worked (d.getBytes bt (x.src + 3584 * y.prog) (min 3584 (x.len - 3584 * y.prog))) = true) ∧
    (let y := desc bt 4 .working [(160, 1)]
     let x := Bale.of y.bits
     let d := issuing [y]
     let d := { d with ba := { d.ba with bale := some ⟨bt, 3, 0, [], false, 0, 0, false⟩ } }
     d.findDesc bt 3 = some y ∧ d.paused = false ∧ d.domOn 50 = true ∧ x.mode ≠ 1 ∧ 0 < ceilDiv x.values 4096 ∧
       worked (d.baleValues bt x 0) = true ∧ worked (d.getBytes bt x.tables x.tableLen) = true) := by decide +kernel

/-- A stream body of one value, coded without loss. -/
def oneValue : List Byte :=
  let blk := (encodeLossless 0 [] [0x3F80]).1
  streamHeader 0 0 0 1 (64 + blk.length) 0 [] ++ blk

theorem witness_UnitsWork_unbale :
    (let y := desc (.batch 1 1) 5 .working []
     let d := issuing [y] [(R.STL_BIND_KIND 1, 1)]
     let d := d.setJob 1 { Job.none with decl := ⟨[], [(0, 1)], [], 0⟩ }
     let d := d.setPath 0 (some ⟨.batch 1 1, 3, [], true, some oneValue, 0, 64, [], false, false⟩)
     d.findDesc (.batch 1 1) 3 = some y ∧ d.pathOf 1 (Unbale.of y.bits) = some 0 ∧ d.paused = false ∧ d.domOn (pathDomain 0) = true ∧
       (match readBlock oneValue 0 64 with | .ok (vs, _) => decide (vs = [0x3F80]) | _ => false) = true ∧
       (∀ r ∈ d.path 0, r.mayDispatch oneValue = true) ∧
       (⟨.batch 1 1, 3, [], true, some oneValue, 1, 130, [(0, [0x80, 0x3F])], false, false⟩ : PathRun).mayDispatch oneValue = false ∧
       worked (d.putBytes (.batch 1 1) (Unbale.of y.bits).dst [0x80, 0x3F]) = true) := by decide
/-- With one block held, any free value picks it. -/
theorem witness_UnitsWork_unbale_pick (v : Nat) (x : Nat × List Byte) : [x][v / 2 % max 1 [x].length]? = some x := by
  simp [Nat.mod_one]
/-! ## A state for the hypotheses of each clause: TILEs -/

/-- A TILE of one row, one output and one input on the 1 × 1 gang of bay 15, INT8 by INT8; weights at 0, activations at
0x8000, save area at 0x4000. -/
def tileBits : List (Nat × Nat) := [(131, 1), (149, 1), (152, 15), (157, 3), (224, 0x8000), (288, 64), (384, 0x4000)]

/-- A TILE's descriptor, and its run on bay 15. -/
def tileDescr (p : Phase) : Desc := desc bt 1 p tileBits
def tileRun : TileRun := (tileDescr .working).run 0 15

/-- The TILE `r` runs, bay 15's PHASE is `p` and HELD is `h`. -/
def tiling (r : TileRun) (p h : Nat) (m : List (Fld × Nat) := []) : Dev :=
  let d := issuing [tileDescr .working] ([(R.THR_ACT_STAT_PHASE 15, p), (R.THR_ACT_STAT_HELD 15, h), (R.SIL_EXTENT_COUNT 0, 0)] ++ m)
  { d with cp := { d.cp with thr := ⟨[r], [], [], []⟩ } }

/-- The TILE `r` is set aside. -/
def setAside (r : TileRun) (m : List (Fld × Nat) := []) : Dev :=
  let d := issuing [tileDescr .working] ((R.SIL_EXTENT_COUNT 0, 0) :: m)
  { d with cp := { d.cp with thr := ⟨[], [r], [], []⟩ } }

/-- A strip of the TILE. -/
def aStrip : Strip := ⟨0, none, 0, 0, 1, 0, 1, [5], 15⟩

/-- Whether a fold's activations can be read. -/
def actsRead (r : ActRead) : Bool := match r with | .data _ u _ => !u | _ => false

theorem witness_TilesOnTheirGang_grant :
    (let d := issuing [tileDescr .working]
     d.findDesc bt 3 = some (tileDescr .working) ∧ d.waitingTiles.map (fun w => (w.trough, w.pos)) = [(bt, 3)] ∧
       d.cp.thr.yielded = [] ∧ d.tileDisabled bt (Tile.of (tileDescr .working).bits) = false ∧ bt.rt = none ∧ d.paused = false ∧
       d.pickGang bt (Tile.of (tileDescr .working).bits) = some 15 ∧ gangOk (Tile.of (tileDescr .working).bits).shape 15 = true ∧
       d.behind bt 0 (gangBays (Tile.of (tileDescr .working).bits).shape 15) = false) ∧
    (issuing [tileDescr .working] [(R.THR_BATCH_CTL_PAUSED, 1)]).paused = true := by decide

theorem witness_TilesOnTheirGang_front :
    gangOk tileRun.shape tileRun.leader = true ∧ tileRun.bays = [15] ∧ tileRun.ramped = false ∧
    (tiling tileRun 1 0).runAt 15 = some tileRun ∧ (tiling tileRun 1 0).rd (R.THR_ACT_STAT_PHASE 15) = 1 ∧
    tileRun.loaded = false ∧ tileRun.yielding = false ∧ tileRun.folds < tileRun.tile.folds ∧ (tiling tileRun 1 0).holds tileRun = false ∧
    ({ tiling tileRun 1 0 with cp := { Dev.reset.cp with thr := ⟨[], [], [([15], 0)], [[15]]⟩ } } : Dev).cp.thr.falling.find?
      (fun g => g.contains 15) = some [15] := by decide

theorem witness_TilesOnTheirGang_fold :
    (let r := { tileRun with ramped := true, loaded := true, image := some (0, 0, [3]) }
     let d := tiling r 2 0
     d.runAt 15 = some r ∧ r.refilled = true ∧ r.strips = [] ∧ d.spillHolds r.bays = false ∧
       actsRead (d.readActs r (r.kf * r.tile.kp) (min r.tile.kp (r.tile.k - r.kf * r.tile.kp)) (r.mf * r.tile.vr) (r.tile.vectors r.mf)) =
         true ∧ r.kf + 1 = r.tile.kf) := by decide +kernel

theorem witness_TilesOnTheirGang_strips :
    (let r := { tileRun with ramped := true, strips := [aStrip] }
     let d := tiling r 2 1
     d.runAt 15 = some r ∧ d.creditFree r.tile.hop r.trough.rt.isSome = true ∧
       (d.wr (R.HOP_CREDIT_FREE 3) 17).creditFree r.tile.hop r.trough.rt.isSome = true ∧
       (d.wr (R.HOP_CREDIT_FREE 3) 16).creditFree r.tile.hop r.trough.rt.isSome = false ∧
       (1023#32).toNat < 1024 ∧ 1024 ≤ (1024#32).toNat ∧ d.rd (R.THR_ACT_STAT_HELD 15) = 1 ∧ d.rd (R.THR_ACT_STAT_PHASE 15) = 2 ∧
       (tiling r 3 1).rd (R.THR_ACT_STAT_PHASE 15) ≠ 2 ∧ d.cp.thr.warm = []) ∧
    (let d := (tiling tileRun 2 0).setHopper 3 ⟨[aStrip], [], []⟩
     (d.hopper 3).inflight = [aStrip] ∧ aStrip.src = 15) ∧
    (tiling tileRun 3 0).rd (R.THR_ACT_STAT_PHASE 15) = 3 ∧ ((tiling tileRun 3 0).runOn 15).isSome = true ∧
    ((tiling tileRun 3 0).runOn 14).isNone = true := by decide

/-- Silo is served, no granule has an owner, and no word has bad check bits. -/
def clean (d : Dev) : Prop := (∀ a, d.siloReady a = true) ∧ (∀ g, d.siloOwner g = none) ∧ ∀ w, d.eccOf w = none

theorem clean_of {d : Dev} (h : d.mem.siloPend = [] ∧ d.mem.bankPend = [] ∧ (∀ b < 16, d.domOn (24 + b) = true) ∧
    d.mem.ecc = .empty ∧ ∀ n ∈ hostStalls, ∀ e ∈ d.siloExtents n, e.2 = 0) : clean d :=
  ⟨fun a => siloReady_of d h.1 h.2.1 h.2.2.1 a,
    fun g => List.find?_eq_none.mpr fun n hn => by
      simp only [inExtents, List.any_eq_true, decide_eq_true_eq, not_exists, not_and]
      intro e he hg
      have := h.2.2.2.2 n hn e he
      omega,
    fun _ => by simp only [Dev.eccOf, h.2.2.2.1]; rfl⟩

theorem witness_TilesOnTheirGang_weights : ∃ bs d,
    (tiling tileRun 1 0).pathRead 0 none (tileRun.tile.blockAddr 0 0) tileRun.tile.block = .data bs false d :=
  have h := clean_of (d := tiling tileRun 1 0) (by decide)
  ⟨_, _, pathRead_silo0 _ _ (by decide) h.1 h.2.1 h.2.2⟩

theorem spillLine_length (l : List (Int × Bool)) : (spillLine l).length = 1056 := by
  have h : ∀ v, (leBytes 4 v).length = 4 := fun _ => rfl
  simp [spillLine, List.length_flatMap, h]

/-- A run that has spilled its one sum, and its save area's bytes. -/
def spilled : TileRun := { tileRun with slot := some 31, spilling := true, acc := [[(5, false)]] }
def spillBytes : List Byte := (List.range spilled.tile.np).flatMap (fun j => spillLine (spilled.acc.getD j []))

theorem witness_TileYield_spill : ∃ d,
    (setAside spilled).pathWrite 0 none spilled.tile.saveBase spillBytes = .done false d :=
  have h := clean_of (d := setAside spilled) (by decide)
  ⟨_, pathWrite_silo0 _ _ (by
    have hn : spilled.tile.saveBase + 128 * 1056 ≤ siloBytes := by decide
    have hp : spilled.tile.np = 128 := by decide
    simp only [spillBytes, List.length_flatMap, spillLine_length, hp, List.map_const', List.length_range, List.sum_replicate_nat]
    exact hn) h.1 h.2.1 h.2.2⟩

theorem witness_TileYield_refill : (tiling { tileRun with refilled := false } 1 0).runAt 15 = some { tileRun with refilled := false } ∧
    ∃ bs d, (tiling { tileRun with refilled := false } 1 0).pathRead 0 none tileRun.tile.saveBase (tileRun.tile.np * 1056) =
      .data bs false d :=
  have h := clean_of (d := tiling { tileRun with refilled := false } 1 0) (by decide)
  ⟨by decide, _, _, pathRead_silo0 _ _ (by decide) h.1 h.2.1 h.2.2⟩

theorem witness_TileYield :
    (let d := tiling tileRun 2 0
     may d .steward (A.THR_PROG_CTL 15) 1 = true ∧ d.on (R.THR_GANG_PINNED 15) = false ∧
       (d.wr (R.THR_GANG_PINNED 15) 1).on (R.THR_GANG_PINNED 15) = true ∧ d.runOn 15 = some tileRun ∧ d.runOn 14 = none ∧
       ¬(yieldSlots.filter d.slotFree).length < 16 ∧
       (let e : Dev := { d with cp := { d.cp with thr := ⟨[tileRun], (List.range 17).map (fun i => { tileRun with slot := some i }), [], []⟩ } }
        (yieldSlots.filter e.slotFree).length < 16 ∧ (e.runOn 15).isSome = true) ∧ tileRun.trough.rt = none ∧ tileRun.folds < tileRun.tile.folds) ∧
    (let r := { tileRun with yielding := true, acc := [[(5, false)]] }
     let d := tiling r 2 0
     d.runAt 15 = some r ∧ yieldSlots.find? d.slotFree = some 0 ∧ gangOk r.shape r.leader = true ∧ r.ramped = false ∧ r.strips = [] ∧
       r.flying = 0 ∧ (2048#16).toNat ≤ 2048 ∧ 2048 < (2049#16).toNat) ∧
    (let r := { tileRun with slot := some 31, spilling := true }
     (setAside r).cp.thr.yielded.find? (fun r => r.slot == some 31 && r.spilling) = some r) ∧
    (let r := { tileRun with slot := some 31 }
     let d := setAside r
     d.cp.thr.yielded.find? (fun r => r.slot == some 31 && !r.spilling) = some r ∧ d.paused = false ∧
       (setAside r [(R.THR_BATCH_CTL_PAUSED, 1)]).paused = true ∧ d.tileDisabled r.trough r.tile = false ∧
       d.pickGang r.trough r.tile = some 15 ∧ d.behind r.trough r.order (gangBays r.shape 15) = false) ∧
    may Dev.reset .steward A.THR_BATCH_CTL 2 = true := by decide
/-! ## A state for the hypotheses of each clause: Hoppers and sifters -/

/-- A SIFT's descriptor on sifter 3 of KIND `kind`, from the Hopper or not, and its run. -/
def siftDescr (kind hop : Nat) : Desc := desc bt 2 .working [(128, kind), (130, 3), (133, hop), (144, hop)]
def siftRun (kind hop : Nat) : SiftRun := (siftDescr kind hop).siftRun 0 (zeros 192) []

/-- Sifter 3 as `x`, its Hopper's batch strips `ss`. -/
def sifting (x : Sifter) (ss : List Strip) (l : List Desc := []) (m : List (Fld × Nat) := []) : Dev :=
  ((issuing l m).setSifter 3 x).setHopper 3 ⟨[], [], ss⟩

/-- The sifter runs `r`. -/
def on1 (r : SiftRun) : Sifter := ⟨some r, none, [], []⟩

theorem witness_HoppersAndSifters_strips :
    (let r := siftRun 2 1
     let d := sifting (on1 r) [{ aStrip with tag := 9 }, aStrip]
     d.siftRuns 3 r = true ∧ (d.sifter 3).cur = some r ∧ r.sift.hopper = true ∧ r.strip = none ∧ r.finished = false ∧ r.rt = false ∧
       d.rtPressing 3 = false ∧ d.paused = false ∧ (r.queue (d.hopper 3)).find? r.takes = some aStrip) ∧
    (let r := siftRun 2 1
     let d := sifting ⟨some r, none, List.replicate 7 r, []⟩ []
     (r.queue (d.hopper 3)).find? r.takes = none ∧ (d.sifter 3).parked.length < 8) ∧
    (let r := siftRun 2 1
     let d := sifting ⟨some r, none, List.replicate 8 r, []⟩ []
     8 ≤ (d.sifter 3).parked.length) ∧
    (let r := siftRun 2 1
     let d := sifting ⟨none, none, [r], []⟩ [aStrip]
     d.coreOn = true ∧ d.rtPressing 3 = false ∧ d.paused = false ∧ (d.sifter 3).cur = none ∧ (d.sifter 3).saved = none ∧
       r ∈ (d.sifter 3).parked ∧ (d.hopper 3).batch.any r.takes = true ∧ ∀ q ∈ (d.sifter 3).parked, q = r) ∧
    (let r := siftRun 2 1
     let d := sifting ⟨none, none, [r], []⟩ []
     ∀ r ∈ (d.sifter 3).parked, (d.hopper 3).batch.any r.takes = false) := by decide

theorem witness_HoppersAndSifters_registers :
    may Dev.reset .steward (A.HOP_CFG 3) 64 = true ∧ bits 64 0 7 ≤ 64 ∧ Dev.reset.reserveNeed 3 ≤ bits 64 0 7 ∧
    may Dev.reset .steward (A.HOP_CFG 3) 65 = true ∧ 64 < bits 65 0 7 ∧
    (let r := siftRun 2 1
     let d := sifting (on1 r) [] [] [(R.THR_BATCH_CTL_PAUSED, 1)]
     (d.sifter 3).cur = some r ∧ r.rt = false ∧ r.finished = false ∧ (d.sifter 3).saved = none ∧ d.paused = true ∧
       256 < (257#16).toNat ∧ (256#16).toNat ≤ 256) ∧
    (let r := siftRun 2 1
     let d := sifting ⟨none, some r, [], []⟩ []
     (d.sifter 3).saved = some r ∧ (d.sifter 3).cur = none ∧ d.rtPressing 3 = false ∧ d.paused = false) ∧
    (let d := dev [(R.SFT_MBOX_HEAD, 2), (R.SFT_MBOX_TAIL, 1)]
     may d .steward A.SFT_MBOX_TAIL 2 = true ∧ may d .steward A.SFT_MBOX_TAIL 3 = true ∧
       (2 + 2 ^ 32 - d.rd R.SFT_MBOX_TAIL) % 2 ^ 32 ≤ d.mboxUsed ∧ d.mboxUsed < (3 + 2 ^ 32 - d.rd R.SFT_MBOX_TAIL) % 2 ^ 32) := by
  decide

theorem witness_SifterIntegerResults :
    (let r := siftRun 0 0
     let d := sifting (on1 r) []
     d.sy.coldHold = false ∧ d.siftRuns 3 r = true ∧ (d.sifter 3).cur = some r ∧ r.finished = false ∧ r.sift.kind = 0) ∧
    (let r := siftRun 2 0
     (sifting (on1 r) []).siftRuns 3 r = true ∧ ((sifting (on1 r) []).sifter 3).cur = some r ∧ r.sift.kind = 2 ∧ (15#5).toNat ≤ 15 ∧ (29#5).toNat ≤ 29) := by decide

theorem witness_SifterFloatResults :
    (let r := siftRun 0 0
     let d := sifting (on1 r) []
     (d.sifter 3).cur = some r ∧ r.sift.kind = 0 ∧ r.sift.strict = false ∧ r.trough = .batch 0 1 ∧ d.jobState 0 = jobOpen ∧
       (4 : Nat) ≤ 4 ∧ ¬(5 : Nat) ≤ 4) ∧
    (let r := (siftRun 2 0).setTemp 0 0xEFFF
     let d := sifting (on1 r) [] [] [(R.SFT_LOFT_VALID 3, 1)]
     let T := tineOperand r.block ((List.range 16).map r.temp) r.scal r.elem
     (d.sifter 3).cur = some r ∧ r.sift.kind = 2 ∧ lutOffset (T 1) (T 0) (T 1) = some 0x3BFFC ∧ d.on (R.SFT_LOFT_VALID 3) = true ∧
       d.rd (R.SFT_LOFT_OWNER 3) = r.stall) ∧
    (let r := (siftRun 2 0).setTemp 0 0xF000
     let T := tineOperand r.block ((List.range 16).map r.temp) r.scal r.elem
     lutOffset (T 1) (T 0) (T 1) = none ∧ r.trough = .batch 0 1) := by decide

theorem witness_SifterFloatResults_held :
    (siftRun 1 0).sift.kind = 1 ∧ (sifting (on1 (siftRun 1 0)) []).siftRuns 3 (siftRun 1 0) = true ∧
    ({ siftRun 0 0 with finished := true } : SiftRun).finished = true ∧
    (sifting (on1 (siftRun 0 0)) [] [] [(R.THR_BATCH_CTL_PAUSED, 1)]).siftRuns 3 (siftRun 0 0) = false ∧
    (Dev.reset.sifter 3).cur = none := by decide

/-- Operands that meet the premises of the numeric facts: 1.5, −2, 0, 2^-149 (flushed in fast mode), −∞, +∞, a NaN, and the
integers 3 and −1. -/
theorem witness_SifterFloatResults_operands :
    operand true 0x3FC00000 = .fin false (3 * 2 ^ 22) (-23) ∧ operand false 0xC0000000 = .fin true (2 ^ 23) (-22) ∧
    (∃ e, operand true 0 = .fin false 0 e) ∧ operand true 1 = .fin false 1 (-149) ∧ (∃ e, operand false 1 = .fin false 0 e) ∧
    operand true 0xFF800000 = .inf true ∧ operand false 0x7F800000 = .inf false ∧ (operand true 0x7FC00000).isNan = true ∧
    (operand true 0x7F800001).isNan = true ∧ (operand false 0x3F800000).isNan = false ∧ toSigned 32 3 = 3 ∧ toSigned 32 0xFFFFFFFF = -1 ∧
    toSigned (tyBits 4) 0xFF ≠ 0 ∧ (4 : Nat) ≤ 6 := by
  refine ⟨by decide, by decide, ⟨_, rfl⟩, by decide, ⟨_, rfl⟩, by decide, by decide, by decide, by decide, by decide, by decide, by decide,
    by decide, by decide⟩

theorem witness_SifterLaneInstructions_memory :
    (let r := (siftRun 0 0).setScal 0 0x3BFFC
     let d := sifting (on1 r) []
     d.siftRuns 3 r = true ∧ (3#3 : BitVec 3) ≠ 7 ∧ (5#3 : BitVec 3) ≠ 6 ∧ worked (laneRead 3 ⟨0x40, 1, 0, 0, 1, 0, 0⟩ r (r.laneBytes ⟨0x40, 1, 0, 0, 1, 0, 0⟩) d) = true ∧
       worked (laneWrite 3 ⟨0x41, 1, 0, 0, 1, 0, 0⟩ r (r.laneBytes ⟨0x41, 1, 0, 0, 1, 0, 0⟩)
         (lanes.flatMap (fun l => leBytes (elemBytes 0) (r.lane 1 l))) d) = true ∧
       worked (laneVst 3 ⟨0x41, 1, 0, 0, 1, 6, 0⟩ r d) = true) ∧
    (let r := (siftRun 0 0).setScal 1 64
     let d := sifting (on1 r) []
     let len := r.scal 1
     len % 64 = 0 ∧ (progBase r.block 0 + r.scal 0) % 64 = 0 ∧ r.scal 0 % 64 = 0 ∧ r.scal 0 + len ≤ loftEnd ∧ r.copied ≤ len ∧
       (match (d.claimLoft 3 0).getBytes bt (progBase r.block 0 + r.scal 0 + r.copied) (min 256 (len - r.copied)) with
         | .ok bs _ => bs.length == min 256 (len - r.copied)
         | _ => false) = true ∧
       worked ((d.claimLoft 3 0).putBytes bt 0 ((d.claimLoft 3 0).loftRead 3 0 64)) = true) := by decide +kernel

theorem witness_SifterLaneInstructions_rest :
    (let d := sifting (on1 (siftRun 0 0)) []
     (siftRun 0 0).trough = .batch 0 1 ∧ d.jobState 0 = jobOpen ∧ d.mboxFull = false ∧ (6#5).toNat % 8 ≠ 7 ∧ (7#5).toNat % 8 = 7 ∧
       5 < (6#5).toNat ∧ (5#5).toNat ≤ 5 ∧ (1#3).toNat ≤ 1) ∧
    (dev [(R.SFT_MBOX_HEAD, 64)]).mboxFull = true ∧ (dev [(R.SFT_MBOX_HEAD, 63)]).mboxFull = false ∧
    (let r := { siftRun 0 0 with block := zeros 48 ++ leBytes 2 2 ++ zeros 78 ++ zeros 8 }
     r.loops.length < 2 ∧ r.pc + 0 + 1 < progN r.block ∧ ¬(r.pc + 1 + 1 < progN r.block) ∧
       (∀ j ≤ 0, (Ins.of (progWord r.block (r.pc + 1 + j))).op ≠ opEnd)) ∧
    (let d := sifting (on1 (siftRun 0 0)) [] [siftDescr 0 0]
     d.findDesc (siftRun 0 0).trough (siftRun 0 0).pos = some (siftDescr 0 0)) ∧
    (let r := ((desc bt 2 .working [(132, 1)]).siftRun 0 (zeros 192) []).setVec 1 (fun l => if l = 63 then 0x7F800001 else 0)
     (siftRun 0 0).sift.strict = false ∧ r.sift.strict = true ∧ (63 : Nat) < 64 ∧ (operand true (r.lane 1 63)).signaling = true) := by decide
/-! ## A state for the hypotheses of each clause: loss scaling, Silo and Cellar -/

/-- Stall 1 has an open job with counters 5000 and 5001 and one granule; its loss-scale context is off, with one tensor. -/
def scaling (m : List (Fld × Nat) := []) : Dev :=
  (issuing [] ([(R.WIN_LS_CFG_NT 0, 1), (R.WIN_LS_CTR_DONE 0, 5000), (R.WIN_LS_CTR_READY 0, 5001), (R.WIN_LS_EXP_EMAX 0, 15)] ++ m)).setJob 1
    { Job.none with decl := ⟨[(5000, 0), (5001, 0)], [(0, 1)], [], 0⟩ }

/-- The same context on in MODE 1, the notice of its step come, an image on the Steward. -/
def noticed (m : List (Fld × Nat) := []) : Dev :=
  let d := scaling ([(R.WIN_LS_CFG_MODE 0, 1), (R.WIN_LS_GROW_GROW_STEPS 0, 1)] ++ m)
  { d.setLossScale 1 ⟨[], [], some 0⟩ with sy := booted.sy }

theorem witness_LossScaling_enable :
    may (scaling []) .steward (A.WIN_LS_CFG 0) (1 + 65536) = true ∧ (scaling []).lsMode 1 = 0 ∧
    (scaling [(R.WIN_LS_CFG_MODE 0, 2)]).lsMode 1 ≠ 0 ∧ bits (1 + 65536) 0 2 = 1 ∧ bits 3 0 2 = 3 ∧ may (scaling []) .steward (A.WIN_LS_CFG 0) 3 = true ∧
    (((scaling []).storeWord (A.WIN_LS_CFG 0) 1).wr (R.WIN_LS_CFG_MODE 0) 0).lsAccepts 1 = false ∧
    (let d := ((scaling []).storeWord (A.WIN_LS_CFG 0) (1 + 65536)).wr (R.WIN_LS_CFG_MODE 0) 0
     let n := 1
     let i := 0
     d.lsAccepts 1 = true ∧
     Option.isSome ((((((d.wr (R.WIN_LS_CFG_MODE i) 1).wr (R.WIN_LS_EXP_E i) (d.rd (R.WIN_LS_EXP_E0 i))).wr (R.WIN_LS_GROW_CLEAN i) 0).wr
          (R.WIN_LS_STEP_COUNT i) 0).setLossScale n ⟨List.replicate (d.lsNT n) (toSigned 8 (d.rd (R.WIN_LS_EXP_E0 i))),
            List.replicate (d.lsNT n) (List.replicate 16 0), none⟩).writeLsTable n false) = true) ∧
    (scaling []).wraps 5001 1 = false := by decide

/-- The same acceptance while the table's granule waits to be zeroed. -/
theorem witness_LossScaling_owed :
    (let s := { scaling [] with mem := { (scaling []).mem with siloPend := [1023] } }
     let d := (s.storeWord (A.WIN_LS_CFG 0) (1 + 65536)).wr (R.WIN_LS_CFG_MODE 0) 0
     s.lsMode 1 = 0 ∧ d.lsAccepts 1 = true ∧
     Option.isNone ((((((d.wr (R.WIN_LS_CFG_MODE 0) 1).wr (R.WIN_LS_EXP_E 0) (d.rd (R.WIN_LS_EXP_E0 0))).wr (R.WIN_LS_GROW_CLEAN 0) 0).wr
          (R.WIN_LS_STEP_COUNT 0) 0).setLossScale 1 ⟨List.replicate (d.lsNT 1) (toSigned 8 (d.rd (R.WIN_LS_EXP_E0 0))),
            List.replicate (d.lsNT 1) (List.replicate 16 0), none⟩).writeLsTable 1 false) = true) := by decide

theorem witness_LossScaling_step :
    (Dev.reset.lossScale 8).notice = none ∧ Dev.reset.sy.mode ≠ .image ∧
    (let d := noticed
     (d.lossScale 1).notice = some 0 ∧ (1 : Fin 9) ≠ 0 ∧ d.lsMode 1 ≠ 0 ∧ d.lsMode 1 = 1 ∧ d.sy.mode = .image ∧ postedBefore (d.rd R.SFT_MBOX_TAIL) 0 = false ∧
       d.stepEntries 1 0 = [] ∧ Option.isSome (((d.dropEntries 1 0).closeStep 1 false []).writeLsTable 1 false) = true) ∧
    Dev.reset.paused = false ∧ (dev [(R.THR_BATCH_CTL_PAUSED, 1)]).paused = true := by decide

theorem witness_SiloBanks :
    may Dev.reset .steward A.SIL_INTERLEAVE 3 = true ∧ bits 3 0 2 = 3 ∧ may Dev.reset .steward A.SIL_INTERLEAVE 2 = true ∧
    Dev.reset.siloUnused = true ∧ (dev [(R.SEQ_STRM_CFG_EN 31, 1)]).siloUnused = false ∧
    Dev.reset.rd R.SIL_INTERLEAVE_MODE = 0 ∧ bits 2 0 2 ≠ 0 ∧ may Dev.reset .steward A.SIL_INTERLEAVE 0 = true ∧
    15 ∈ Dev.reset.mem.bankPend ∧ 15 ∉ (awake []).mem.bankPend ∧ (dev [(R.CLK_SRC_SEL_CORE_SRC, 1)]).coreOn = true ∧
    (let d := awake []
     d.rd (R.SIL_SCRUB_INT 15) ≠ 0 ∧ 15 ∉ d.mem.bankPend ∧ d.coreOn = true ∧ d.domOn (24 + 15) = true) ∧
    (let y := desc bt 3 .working [(132, 3), (160, 64), (192, 1)]
     let d := issuing [y] [(R.THR_BATCH_CTL_PAUSED, 1)]
     let e := { d with tr := d.tr.set (fun _ => Channel.idle) 3 ⟨some (bt, 3), none⟩ }
     (e.channel 3).cur = some (bt, 3) ∧ bt.rt = none ∧ (∀ z ∈ e.findDesc bt 3, z.aux = 0) ∧ (e.channel 3).held = none ∧ e.moveHeldBack 3 = true ∧
       160 < (161#16).toNat ∧ (160#16).toNat ≤ 160) ∧
    (let y := desc bt 3 .working [(132, 3), (160, 64), (192, 1)]
     let d := issuing [y]
     let e := { d with tr := d.tr.set (fun _ => Channel.idle) 3 ⟨none, some (bt, 3)⟩ }
     (e.channel 3).held = some (bt, 3) ∧ (e.channel 3).cur = none ∧ e.findDesc bt 3 = some y ∧ e.moveHeldBack 3 = false ∧
       (e.wr R.THR_BATCH_CTL_PAUSED 1).moveHeldBack 3 = true ∧ e.coreOn = true ∧ e.domOn 61 = true) := by decide

theorem witness_ExtentsAndCellar :
    (let d := dev [(R.STL_Q_SILO_GRAN 8, 2), (R.STL_Q_CELLAR_GRAN 8, 1), (R.CEL_SIZE_MIB, 32)]
     may d .steward (A.SIL_EXTENT 63) (1022 + 2 * 65536) = true ∧ d.extentFits false 8 7 (1022, 2) = true ∧
       d.extentFits false 8 7 (1023, 2) = false ∧ may d .steward (A.CEL_EXTENT 63) (32767 + 65536) = true ∧
       d.extentFits true 8 7 (32767, 1) = true ∧ d.extentFits true 8 7 (32768, 1) = false) ∧
    (let d := awake [(R.CEL_STAT_TRAINED, 1)]
     let d := { d with mem := { d.mem with siloPend := [1023], celPend := [32767] } }
     (1023#16).toNat ∈ d.mem.siloPend ∧ (1022#16).toNat ∉ d.mem.siloPend ∧ (32767#16).toNat ∈ d.mem.celPend ∧ d.coreOn = true ∧
       (0#16).toNat ∉ d.mem.celPend ∧ d.on R.CEL_STAT_TRAINED = true) ∧
    Dev.reset.pairOn = true ∧
    (dev [(R.PWR_DOM_ON, 0)]).pairOn = false ∧
    may Dev.reset .steward A.CEL_CFG 4 = true ∧ may Dev.reset .steward A.CEL_CFG 5 = true ∧ may Dev.reset .steward A.CEL_CFG 0x30 = true ∧
    Dev.reset.on R.CEL_STAT_TRAINED = false ∧ ¬(4 < bits 4 0 3 ∨ bits 4 4 2 = 3) ∧ 4 < bits 5 0 3 ∧ bits 0x30 4 2 = 3 := by decide +kernel

/-! ## A state for the hypotheses of each clause: the Granary, the slots and the keys -/

theorem witness_GranaryCalls :
    Dev.reset.gsrRuns = true ∧ Dev.reset.gOn = true ∧
    ({ Dev.reset with sy := { Dev.reset.sy with mode := .inReset } } : Dev).gsrRuns = false ∧
    (let d : Dev := { Dev.reset with sy := { Dev.reset.sy with priv := 0 } }
     d.gsrRuns = false ∧ d.sy.mode ≠ .inReset ∧ d.sy.priv ≠ 3) ∧
    Dev.reset.gPhys 0x7FFFFF8 = some 0x7FFFFF8 ∧ Dev.reset.gPhys 0x8000000 = none ∧ Dev.reset.gForbidden 32752 = true ∧
    Dev.reset.gForbidden 32751 = false ∧ Dev.reset.erasing = false ∧ (dev [(R.GRN_ERASE_STAT_STATE, 1)]).erasing = true ∧
    (Dev.reset.gword 0).isErased = true ∧ gUpper 0 = false ∧ (Dev.reset.gword (gPartner 0)).isErased = true := by decide

/-- A GSR call that finds its registry inconsistent is a device-fatal warm reset with cause 4 (R388, R391, Table 19-5). -/
theorem test_gsr_integrity :
    (let d := gsrService false (fun d => d.gsrInfo) Dev.reset
     (d.rd R.SYS_RESET_CAUSE, d.rd R.SYS_RESET_CAUSE_REPEAT, d.rd R.SYS_FATAL_COUNT) = (4, 1, 1)) := by decide +kernel

theorem witness_GranaryEraseReadLoss :
    (let d := dev [(R.GRN_ERASE_STAT_STATE, 1)]
     d.erasing = true ∧ d.on R.GRN_ERASE_STAT_SUSPENDED = false ∧ d.gOn = true ∧ d.pw.entry = none) ∧
    (dev [(R.GRN_ERASE_STAT_STATE, 1), (R.GRN_ERASE_STAT_SUSPENDED, 1)]).on R.GRN_ERASE_STAT_SUSPENDED = true ∧
    Dev.reset.erasing = false ∧ (dev [(R.PWR_DOM_ON, 0)]).gOn = false ∧ Dev.reset.loopRun = none ∧
    (Dev.reset.setPath 6 (some ⟨bt, 3, [], false, none, 0, 0, [], false, false⟩)).loopRun = some (bt, 3) ∧
    ({ Dev.reset with gr := { Dev.reset.gr with ready := false } } : Dev).gr.ready = false ∧ Dev.reset.gr.ready = true ∧
    Dev.reset.gPhys 0x8000000 = none ∧ Dev.reset.gPhys (32751 * 4096) = some (32751 * 4096) ∧
    Dev.reset.gReadable .load (32751 * 4096) 32751 = true ∧ Dev.reset.gReadable .load (32752 * 4096) 32752 = false ∧
    (∀ x ∈ [0, 1, 2, 3].map (fun i => Dev.reset.gword (4 * (32751 * 128) + i)), x.isBad = false) := by decide

theorem witness_SlotsAndKeys :
    may Dev.reset .steward (A.BAL_SLOT_B 15) 8 = true ∧ may Dev.reset .steward (A.BAL_SLOT_B 15) 9 = true ∧ bits 8 0 4 ≤ 8 ∧
    8 < bits 9 0 4 ∧ Dev.reset.slotNamed 15 = false ∧
    (issuing [desc bt 4 .working [(131, 1), (136, 15)]]).slotNamed 15 = true ∧
    may Dev.reset .steward (A.BAL_SLOT_A 15) (32750 + 2 * 65536) = true ∧ Dev.reset.slotFits 15 32750 2 = true ∧
    Dev.reset.slotFits 15 32751 2 = false ∧ Dev.reset.paused = false ∧ (dev [(R.THR_BATCH_CTL_PAUSED, 1)]).paused = true ∧
    may Dev.reset .steward (A.KEY_GEN 8) 7 = true ∧ Dev.reset.jobState 8 = jobClosed ∧ (jobbed 8 1).jobState 8 ≠ jobClosed ∧
    may Dev.reset .steward A.KEY_CMD 1 = true ∧ may Dev.reset .steward A.KEY_CMD 2 = true ∧ Dev.reset.on R.KEY_RESULT_BUSY = false ∧
    (dev [(R.KEY_RESULT_BUSY, 1)]).on R.KEY_RESULT_BUSY = true ∧ Dev.reset.sy.keyCmd = none := by decide

theorem witness_SlotsAndKeys_done :
    (let d := { awake [] with sy := { Dev.reset.sy with keyCmd := some (1, 0x83FFFFFF, 1) } }
     d.sy.keyCmd = some (1, 0x83FFFFFF, 1) ∧ (d.stwBytes 0x83FFFFFF 1).isSome = true ∧ (d.stwBytes 0x83FFFFFF 2).isNone = true ∧
       (d.stwBytes 0x37FFFFFF 1).isSome = true ∧ (d.stwBytes 0x38000000 1).isNone = true ∧ (d.stwBytes 0x83FFFFFF 256).isNone = true) ∧
    (let d := place (awake []) [(4, 2)]
     (match d.stwBytes 0x80000000 256 with
     | some (h, bad, e) => !bad && leAt h 4 1 == 2 && leAt h 8 4 == 0 &&
         (match e.stwBytes (0x80000000 + 256) 0 with | some (_, b, _) => !b | none => false)
     | none => false) = true) := by decide
/-! ## A state for the hypotheses of each clause: Furrow -/

/-- Port 3 in a state, with its link as `f` makes it, node 5. -/
def furrow (k : Nat) (f : Link → Link) (m : List (Fld × Nat) := []) : Dev :=
  let d := awake ([(R.FUR_STAT_STATE 3, k), (R.FUR_NODE_ID, 5)] ++ m)
  d.setLink 3 (f (d.link 3))

/-- The sync headers of a control block, and of a data block, on the four lanes. -/
def ctlHeaders : BitVec 16 := BitVec.ofNat 16 (hdrControl * 0x1111)
def dataHeaders : BitVec 16 := BitVec.ofNat 16 (hdrData * 0x1111)

/-- A good training block. -/
def goodTs : Ts := ⟨0, 0x03020100, 9, 1, true, 0, ctlHeaders⟩

/-- A link one block away from the loss of lane 3's lock: three framing errors in its last 63 blocks. -/
def unsteady (l : Link) : Link := { l with framing := [0, 0, 0, 7] }

theorem witness_FurrowTraining_states :
    may (furrow 0 id) .steward (A.FUR_CTL 3) 1 = true ∧ bits 1 1 3 ≠ 7 ∧ bits 15 1 3 = 7 ∧ may (furrow 0 id) .steward (A.FUR_CTL 3) 15 = true ∧
    nodeValid (furrow 0 id).node = true ∧ nodeValid Dev.reset.node = false ∧ nodeValid 0xFFFF = false ∧ nodeValid 0xFFFE = true ∧
    (furrow 0 id).on (R.FUR_CTL_EN 3) = false ∧ (furrow 4 id [(R.FUR_CTL_EN 3, 1)]).on (R.FUR_CTL_EN 3) = true ∧
    (furrow 0 id).domOn (46 + 3) = true ∧ (furrow 0 id [(R.PWR_DOM_ON, 0)]).domOn (46 + 3) = false ∧
    ((furrow 0 id).link 3).knocking = false ∧ ((furrow 5 (fun l => { l with knocking := true })).link 3).knocking = true ∧
    (furrow 1 id).rd (R.FUR_STAT_STATE 3) = furDetect ∧ (furrow 2 id).rd (R.FUR_STAT_STATE 3) = furTrain1 ∧
    (goodTs.locked = true ∧ goodTs.lanes = 0x03020100#32 ∧ goodTs.version = 1) ∧
    ¬({ goodTs with locked := false } : Ts).locked = true ∧ (furrow 0 id).furTraining 3 = false ∧ (furrow 1 id).furTraining 3 = true ∧
    ((furrow 2 (fun l => { l with ts1 := 14 })).link 3).ts1 + 1 < 16 ∧ 16 ≤ ((furrow 2 (fun l => { l with ts1 := 15 })).link 3).ts1 + 1 ∧
    (furrow 3 id).rd (R.FUR_STAT_STATE 3) = furTrain2 ∧ 8 ≤ ((furrow 3 (fun l => { l with ts2 := 7 })).link 3).ts2 + 1 ∧
    ((furrow 3 (fun l => { l with ts2 := 6 })).link 3).ts2 + 1 < 8 ∧ 16 ≤ (16#8).toNat ∧ (15#8).toNat < 16 ∧
    (furrow 3 id).tn.rsigs = [] := by decide

theorem witness_FurrowTraining_headers :
    (badHeaders goodTs.headers.toNat).any id = false ∧ badHeaders 0x0AAA = [false, false, false, true] ∧ ctlHeaders = 0xAAAA ∧
    (let good := badHeaders goodTs.headers.toNat
     let bad := badHeaders 0x0AAA
     let l := (furrow 1 id).link 3
     let last : Link := { l with lock := [7, 7, 8, 8] }
     (last.heardBlock good).lock = [8, 8, 8, 8] ∧ (last.heardBlock good).locksLost = false ∧ (l.heardBlock good).lock ≠ [8, 8, 8, 8] ∧
       (l.heardBlock good).locksLost = false ∧ (last.heardBlock bad).lock ≠ [8, 8, 8, 8] ∧ ((unsteady l).heardBlock bad).locksLost = true ∧
       ((unsteady l).heardBlock good).locksLost = false) ∧
    (furrow 1 unsteady).domOn (46 + 3) = true ∧ ((furrow 1 unsteady).link 3).idleHold = false ∧
    (furrow 0 id).heardKnock [] = none ∧ (furrow 1 (fun l => { l with idleHold := true })).furTraining 3 = true ∧
    (furrow 0 id [(R.FUR_CTL_EN 3, 1)]).on (R.FUR_CTL_EN 3) = true := by decide

/-- The bursts of a knock with the default pattern, twice, and the mask 1 (R302, R303). -/
def knockBursts : List Byte := (wordBits Dev.reset.knockPat ++ wordBits Dev.reset.knockPat ++ wordBits 1).map (fun b => if b then 4 else 2)

theorem witness_FurrowTraining_knock :
    Dev.reset.heardKnock (knockBursts.map BitVec.toNat) = some 1 ∧
    Dev.reset.heardKnock ((knockBursts.take 64).map BitVec.toNat) = none ∧ Dev.reset.pwState = pwRun := by decide +kernel

theorem witness_FurrowTraining_loss :
    (furrow 4 id).furUp 3 = true ∧ (furrow 0 id).furUp 3 = false ∧ (furrow 4 id).path (2 + 3) = none ∧
    (∀ n : Fin 9, (furrow 4 id).jobState n = jobOpen → (furrow 4 id).dependsOn n 3 = false) ∧
    (let d := (furrow 4 id [(R.FUR_DEFAULT_PORT, 3), (R.STL_JOB_STAT_STATE 0, 1)]).setJob 0 { Job.none with decl := ⟨[], [], [9], 0⟩ }
     d.jobState 0 = jobOpen ∧ d.dependsOn 0 3 = true ∧ ∀ m : Fin 9, m ≠ 0 → d.jobState m = jobOpen → d.dependsOn m 3 = false) ∧
    ((furrow 0 (fun l => { l with idleHold := true })).link 3).idleHold = true ∧ ((furrow 0 id).link 3).idleHold = false ∧
    may (furrow 0 id) .steward (A.FUR_KNOCK_CTL 3) 1 = true ∧ may (furrow 4 id) .steward (A.FUR_KNOCK_CTL 3) 1 = true ∧
    (let d := furrow 5 (fun l => { l with knocking := true }) [(R.FUR_KNOCK_STAT_TRIES 3, 2), (R.FUR_KNOCK_RETRY_COUNT 3, 3)]
     (d.link 3).knocking = true ∧ d.rd (R.FUR_KNOCK_STAT_TRIES 3) < d.rd (R.FUR_KNOCK_RETRY_COUNT 3)) ∧
    (let d := furrow 5 (fun l => { l with knocking := true }) [(R.FUR_KNOCK_STAT_TRIES 3, 3), (R.FUR_KNOCK_RETRY_COUNT 3, 3)]
     d.rd (R.FUR_KNOCK_RETRY_COUNT 3) ≤ d.rd (R.FUR_KNOCK_STAT_TRIES 3)) ∧ Dev.reset.pwState = pwRun := by decide

/-- The lanes' bytes of a first flit of the partner: its type, sequence number, VC and payload. -/
def lanesOf (ftype seq vc : Nat) (payload : List Byte) : List Byte := (scramble scrSeeds (flitBytes Link.down ftype seq vc payload)).1

/-- What port 3 makes of it: whether it is good and without a NAK, its type and sequence number, its VC. -/
def heard (raw : List Byte) : Bool × Nat × Nat × Nat :=
  let bs := (scramble scrSeeds raw).1
  (flitGood bs && !(leAt bs 2 2).testBit 3, leAt bs 0 2 % 16, leAt bs 0 2 / 16, leAt bs 2 2 % 8)

theorem witness_FurrowFlits :
    ((furrow 4 id).link 3).scrRx = scrSeeds ∧ ((furrow 4 id).link 3).rxSeq = 4095 ∧ ((furrow 4 id).link 3).txq = [] ∧
    (heard (zeros 64)).1 = false ∧
    heard (lanesOf ftNull 0 0 []) = (true, ftNull, 0, 0) ∧
    heard (lanesOf ftHead 0 3 (leBytes 56 pkAct)) = (true, ftHead, 0, 3) ∧ (4095 + 1) % 4096 = 0 ∧
    heard (lanesOf ftHead 1 7 (leBytes 56 pkAct)) = (true, ftHead, 1, 7) ∧
    heard (lanesOf ftData 0 3 []) = (true, ftData, 0, 3) := by decide +kernel

/-- Port 3 with lane 3 found inverted. -/
def crossed : Dev := furrow 4 id [(R.FUR_STAT_POL 3, 8)]

theorem witness_FurrowFlits_frames :
    (furrow 0 id).furTraining 3 = false ∧ (furrow 4 id).domOn (46 + 3) = true ∧ ((furrow 4 id).link 3).idleHold = false ∧
    (((furrow 4 unsteady).link 3).heardBlock ((furrow 4 id).badLanes 3 0 (zeros 64))).locksLost = true ∧
    (((furrow 4 unsteady).link 3).heardBlock ((furrow 4 id).badLanes 3 dataHeaders.toNat (zeros 64))).locksLost = false ∧
    ((furrow 4 id).badLanes 3 dataHeaders.toNat (zeros 64)).any id = false ∧ ((furrow 4 id).badLanes 3 0 (zeros 64)).any id = true ∧
    (((furrow 4 id).link 3).heardBlock ((furrow 4 id).badLanes 3 0 (zeros 64))).locksLost = false ∧
    (crossed.badLanes 3 0xA555 (zeros 64)).any id = false ∧ (crossed.corrected 3 (zeros 64)).take 4 = [0, 0, 0, 0xFF] ∧
    vcOk 0 3 = false ∧ vcOk pkAct 3 = true ∧ (Packet.ofHead (zeros 56)).2 = 0 ∧ (Packet.ofHead (leBytes 10 (2 ^ 64 * 57))).2 = 57 := by decide +kernel

theorem witness_FurrowFlits_link :
    ((furrow 4 (fun l => { l with returnDue := true })).link 3).returnDue = true ∧ ((furrow 4 id).link 3).returnDue = false ∧
    ((furrow 4 id).link 3).replay = [] ∧
    (let d := furrow 4 (fun l => { l with replay := [(0, ⟨3, true, zeros 56, none⟩, 14)] })
     (d.link 3).replay ≠ [] ∧ ∀ r ∈ (d.link 3).replay, r.2.2 < 15) ∧
    (let d := furrow 4 (fun l => { l with replay := [(0, ⟨3, true, zeros 56, none⟩, 15)] })
     (∀ r ∈ (d.link 3).replay, 15 ≤ r.2.2) ∧ d.path (2 + 3) = none ∧ ∀ n : Fin 9, d.jobState n = jobOpen → d.dependsOn n 3 = false) ∧
    (let l := { Link.down with partly := Link.down.partly.set (fun _ => none) 3 (some (⟨pkAct, 16, 5, 9, 0, 0, zeros 44, []⟩, 57)) }
     (l.partly.get (fun _ => none) 3).map (·.2) = some 57 ∧ (56 : Nat) < 57 ∧ l.partly.get (fun _ => none) 4 = none) := by decide

/-- A packet of a class waits on the loop, with data, and class fields `f`. -/
def waiting (d : Dev) (cls : Nat) (f data : List Byte) : Dev :=
  { d with fu := { d.fu with loop := [(0, ⟨cls, 16, 0, 9, 0, 0, f, data⟩)] } }

theorem witness_FurrowPackets_data :
    Dev.reset.coreOn = false ∧ (issuing []).coreOn = true ∧ waits (issuing []) pkAct = none ∧
    (let d := waiting (issuing []) pkAct (zeros 44) (zeros 8)
     (waits d pkAct).isSome = true ∧ d.takesData 0 9 0 8 = true ∧
       (match d.reachSpan 0 none 0 8 with | .ok ls => !(d.writeLocs ls (zeros 8)).1 | _ => false) = true) ∧
    (let d := waiting (issuing []) pkGrad (zeros 44) (zeros 8)
     let d := { d with mem := { d.mem with siloPend := [0] } }
     (waits d pkGrad).isSome = true ∧ d.takesData 0 9 0 8 = true ∧
       (match d.reachSpan 0 none 0 8 with | .error .wait => true | _ => false) = true) ∧
    (let d := waiting (awake []) pkAct (zeros 44) (zeros 8)
     d.takesData 0 9 0 8 = false) := by decide +kernel

theorem witness_FurrowPackets_checkpoint :
    (let y := desc bt 5 .started [(128, 2), (144, 9)]
     let d := waiting (issuing [y]) pkCkpt (leBytes 44 3) []
     (waits d pkCkpt).map (fun r => ((r.2.fld 16 1).testBit 0, (r.2.fld 16 1).testBit 1)) = some (true, true) ∧ d.paused = false ∧
       d.ckptRun 4 9 = none) ∧
    ((issuing []).link 4).partly.get (fun _ => none) 5 = none ∧
    (let d := waiting (issuing []) pkCkpt (leBytes 44 2) []
     (waits d pkCkpt).map (fun r => ((r.2.fld 16 1).testBit 0, (r.2.fld 16 1).testBit 1)) = some (false, true) ∧ d.ckptRun 4 9 = none) ∧
    (let y := desc bt 5 .started [(128, 2), (144, 9)]
     let d := (issuing [y] [(R.FUR_DEFAULT_PORT, 3), (R.FUR_NODE_ID, 5)])
     d.ckptRun 3 9 = none ∧ (d.ckptTaker 3 9).isSome = true ∧ (awake []).ckptTaker 3 9 = none) ∧
    (let y := desc bt 5 .working [(128, 2), (144, 9)]
     let d := (issuing [y] [(R.FUR_DEFAULT_PORT, 3), (R.FUR_NODE_ID, 5)]).setPath 5 (some ⟨bt, 3, [], false, none, 0, 0, [], false, false⟩)
     (d.ckptRun 3 9).isSome = true) := by decide

theorem witness_FurrowPackets_reg_forward :
    (let d := waiting (issuing []) pkReg (leBytes 44 1) (zeros 4)
     (waits d pkReg).isSome = true ∧ d.stallOfNode 9 = none) ∧
    (issuing [] [(R.STL_BIND_KIND 8, 2), (R.STL_BIND_NODE 8, 9)]).stallOfNode 9 = some 8 ∧
    (match (issuing []).reachSpan 1 none 0 8 with | .ok ls => !((issuing []).writeLocs ls (zeros 8)).1 | _ => false) = true ∧
    (let d := (furrow 4 (fun l => { l with rxq := [(3, ⟨pkAct, 2, 6, 9, 0, 0, zeros 44, []⟩)] }) [(R.FUR_DEFAULT_PORT, 2)])
     (firstRx (fun x => x.dst != d.node) [] [] (d.link 3).rxq).isSome = true ∧ d.route 6 = some 2) ∧
    (furrow 4 id [(R.FUR_DEFAULT_PORT, 3)]).route 6 = some 3 ∧ (furrow 4 id [(R.FUR_DEFAULT_PORT, 4)]).route 6 = none ∧
    Dev.reset.paused = false ∧ (dev [(R.THR_BATCH_CTL_PAUSED, 1)]).paused = true := by decide
/-! ## A state for the hypotheses of each clause: Tally -/

/-- Tally runs or not, PD59 on, the reference present, at STC `c`. -/
def tally (run c : Nat) (m : List (Fld × Nat) := []) : Dev :=
  awake ([(R.TLY_STAT_RUN, run), (R.CLK_STC, c), (R.CLK_REF_STAT_PRESENT, 1)] ++ m)

theorem witness_TallySampleAndSettlement :
    (tally 1 24576).stc % 20 ≠ 0 ∧ (tally 1 24580).stc % 20 = 0 ∧ (tally 1 24580).ta.last ≠ some 24580 ∧ (tally 1 24580).domOn 59 = true ∧
    (tally 1 24580).on R.CLK_REF_STAT_PRESENT = true ∧ Dev.reset.on R.CLK_REF_STAT_PRESENT = false ∧
    (tally 1 24560).ta.interval = 24560 / 24576 ∧ (tally 1 24580).ta.interval ≠ 24580 / 24576 ∧
    (let d := tally 1 24580
     let d := { d with ta := { d.ta with closed := some (.empty, .empty, 1) } }
     d.on R.TLY_STAT_RUN = true ∧ d.domOn 59 = true ∧ d.ta.closed.isSome = true) ∧
    (let d := tally 1 24576
     let e := { d with ta := { d.ta with samples := 1 } }
     d.ta.closed.isNone = true ∧ e.ta.interval < e.stc / 24576 ∧ e.ta.samples ≠ 0 ∧ d.ta.samples = 0) ∧
    may (tally 0 0) .steward A.TLY_CTL 1 = true ∧ may (tally 1 0) .steward A.TLY_CTL 1 = true ∧ may (tally 0 0) .steward A.TLY_CTL 2 = true ∧
    may (tally 1 0) .steward A.TLY_CTL 4 = true ∧ (tally 0 0).on R.TLY_STAT_RUN = false ∧
    may (tally 0 0) .steward A.TLY_PERSIST_ACK 1 = true := by decide

theorem witness_TallySampleAndSettlement_places :
    (tally 1 24580).on R.CLK_REF_STAT_MISMATCH = false ∧ (tally 1 24580 [(R.CLK_REF_STAT_MISMATCH, 1)]).on R.CLK_REF_STAT_MISMATCH = true ∧
    (tally 1 0).coreOn = true ∧ Dev.reset.coreOn = false ∧
    (let d := tally 1 0 [(R.TLY_PERSIST_PERIOD_N, 1)]
     d.recordOwed = false ∧ d.siloReadyRun (d.rd R.TLY_PERSIST_ADDR) 704 = true ∧ d.rd R.TLY_PERSIST_PERIOD_N ≠ 0 ∧
       (d.rd R.TLY_SETTLE_SEQ + 1) % d.rd R.TLY_PERSIST_PERIOD_N = 0 ∧ (tally 1 0 [(R.TLY_PERSIST_PERIOD_N, 0)]).rd R.TLY_PERSIST_PERIOD_N = 0 ∧
       may d .steward A.TLY_CTL 4 = true ∧ may (tally 0 0) .steward A.TLY_CTL 2 = true) ∧
    (let d := tally 0 0
     let d := { d with mem := { d.mem with siloPend := [0] } }
     d.on R.TLY_STAT_RUN = false ∧ may d .steward A.TLY_CTL 2 = true ∧ d.siloReadyRun (d.rd R.TLY_PERSIST_ADDR) 704 = false) := by decide

/-- A record of zeros with its magic, version and CRC at Silo 0. -/
def recorded : Dev :=
  let head := leBytes 4 0x59544C54 ++ leBytes 4 1
  let crc := crc32c (head ++ zeros 684)
  place (tally 0 0) (((List.range 5).map (fun i => (i, head.getD i 0))) ++ (List.range 4).map (fun i => (692 + i, (leBytes 4 crc).getD i 0)))

theorem witness_TallyRestore :
    (let r := recorded.siloRead (recorded.rd R.TLY_PERSIST_ADDR) 704
     r.2.1 = false ∧ leAt r.1 0 4 = 0x59544C54 ∧ leAt r.1 4 1 = 1 ∧ leAt r.1 692 4 = crc32c (r.1.take 692) ∧
       (leAt r.1 5 1).testBit 0 = false) ∧
    (let r := (tally 0 0).siloRead ((tally 0 0).rd R.TLY_PERSIST_ADDR) 704
     leAt r.1 0 4 ≠ 0x59544C54) := by decide +kernel

/-! ## A state for the hypotheses of each clause: power, domains, thermal control -/

/-- The device in power state `k`, with its power state's fields as `f` makes them. -/
def powered (k : Nat) (f : Power → Power) (m : List (Fld × Nat) := []) : Dev :=
  let d := awake ([(R.PWR_STAT_STATE, k)] ++ m)
  d.setPw (f d.pw)

/-- An entry that runs. -/
def entering (fallow acked committed armed : Bool) (p : Power) : Power :=
  { p with entry := some ⟨fallow, false, acked⟩, committed := committed, armed := armed }

theorem witness_PowerStates_commands :
    may hosted .steward A.SYS_PWR_CMD 1 = true ∧ may hosted (.stall 1) A.SYS_PWR_CMD 1 = true ∧
    may (awake []) .mgmt A.SYS_PWR_CMD (3 + 256 * 1) = true ∧ may hosted .mgmt A.SYS_PWR_CMD 2 = true ∧
    (hosted.rd R.PWR_HOST_PWR_STALLS).testBit 0 = false ∧ Dev.reset.pwState = pwRun ∧
    (powered pwWaking id).pwState = pwWaking ∧ (powered pwWaking id).coreOn = true ∧
    (dev [(R.PWR_STAT_STATE, pwWaking)]).coreOn = false ∧
    (∀ n < 9, Dev.reset.jobState n = jobClosed) ∧ (jobbed 8 1).jobState 8 ≠ jobClosed ∧
    (let d := dev [(R.PWR_CTL_AUTO_DORMANT, 1), (R.PWR_STAT_STATE, pwIdle)]
     d.on R.PWR_CTL_AUTO_DORMANT = true ∧ d.pwState ≤ pwIdle ∧ (∀ n < 9, d.jobState n ≠ jobOpen) ∧
       (∀ x < 32, d.on (R.SEQ_STRM_CFG_EN x) = false) ∧ d.tn.live = [] ∧ d.erasing = false) ∧
    (let d := dev [(R.PWR_CTL_AUTO_DORMANT, 1), (R.STL_JOB_STAT_STATE 8, 2)]
     (∀ n < 9, d.jobState n ≠ jobOpen) ∧ d.jobState 8 ≠ jobClosed) ∧ (dev [(R.PWR_CTL_AUTO_DORMANT, 0)]).on R.PWR_CTL_AUTO_DORMANT = false := by decide

theorem witness_PowerStates_entry :
    (let d := powered pwEntering (entering true false false false)
     may d .steward A.PWR_CTL (setBit (d.word A.PWR_CTL) 0) = true ∧ d.pw.entry = some ⟨true, false, false⟩ ∧ d.pwState = pwEntering ∧
       d.pw.committed = false ∧ d.entryHeld true = false ∧ ∀ x < 32, d.on (R.SEQ_STRM_CFG_EN x) = false) ∧
    (powered pwEntering (entering false false false false) [(R.GRN_ERASE_STAT_STATE, 1)]).erasing = true ∧ Dev.reset.pw.entry = none ∧
    (let d := powered pwEntering (entering false true true false)
     d.pw.committed = true ∧ d.pw.armed = false ∧ d.pendingWake = none) ∧
    (powered pwEntering (entering false true true false) [(R.BARN_PENDING_EVENTS, 2 ^ 15)]).pendingWake = some (5, 0) ∧
    (let d := powered pwEntering (entering true true true false) [(R.PWR_REG_CFG_EN 3, 1)]
     d.liveRegs = [3] ∧ d.pw.vout = none ∧ d.pw.queue = []) ∧ (powered pwEntering (entering true true true true) []).liveRegs = [] := by
  decide

/-- The save area of a device with every saved register at its reset value. -/
def savedNone : Save := ⟨0x45564153, 14368, 0, .empty, [], []⟩

theorem witness_PowerStates_wake :
    (let d := powered pwDormant (entering false true true true) [(R.BARN_TIMER_CYC, 5), (R.BARN_PENDING_EVENTS, 0)]
     let d := d.setWord A.BARN_WAKE_EN 0xFFFF
     let d := d.setPw { d.pw with timer := 5 }
     d.pwState = pwDormant ∧ (∀ b < 16, (d.word A.BARN_WAKE_EN).testBit b = true) ∧ d.pw.critHold = false ∧ d.pw.armed = true ∧
       d.rd R.BARN_TIMER_CYC ≠ 0 ∧ d.rd R.BARN_TIMER_CYC ≤ d.pw.timer ∧ d.pw.committed = true ∧ d.pw.vout = none ∧ d.pw.slept = []) ∧
    (Dev.reset.setWord A.BARN_WAKE_EN 0).word A.BARN_WAKE_EN = 0 ∧ Dev.reset.domOn (53 + 3) = true ∧
    (dev [(R.PWR_DOM_ON, 0)]).domOn (53 + 3) = false ∧ (powered pwFallow (fun p => { p with critHold := true })).pw.critHold = true ∧
    (let d := powered pwFallow (fun p => { p with wake := some (5, 0, 0), tries := 2 })
     d.pw.wake = some (5, 0, 0) ∧ d.pwState = pwFallow ∧ d.pw.vout = none ∧ d.pw.queue = [] ∧ 0 < d.pw.tries ∧ d.pw.tries < 3) ∧
    (let d := powered pwWaking (fun p => { p with save := some savedNone })
     d.domOn 62 = true ∧ d.domOn 63 = true ∧ d.on R.BARN_SAVE_STAT_RESTORED = false ∧ d.pw.save = some savedNone ∧
       savedNone.regs.wf resetWord = true) := by decide

/-- Six Barn cycles before FALLOW is reached, lane activity on port 2 persists. -/
def stirred (m : List (Fld × Nat) := []) : Dev :=
  (powered pwEntering (fun p => { entering true true true false p with levels := [(0, 2)] }) m).setWord A.BARN_WAKE_EN 0xFFFF

theorem witness_PowerStates_levels :
    (let d := stirred
     d.latchLevels.pendingWake = some (0, 2) ∧ d.pw.committed = true ∧ d.pw.armed = false ∧ d.pwState = pwEntering ∧
       (d.word A.BARN_WAKE_EN).testBit (wakeBit 0 2) = true) ∧
    ((stirred).setWord A.BARN_WAKE_EN 0).latchLevels.pendingWake = none ∧ (15#5).toNat < 16 ∧ 16 ≤ (16#5).toNat ∧
    (let d := (powered pwEntering (entering false false false false)).setWord A.BARN_WAKE_EN 0xFFFF
     d.pw.committed = false ∧ d.pwState = pwEntering ∧ (d.word A.BARN_WAKE_EN).testBit 14 = true) ∧
    (let d := powered pwEntering (fun p => { entering true false false false p with dvfs := some ⟨2, 720, true⟩ })
     d.pw.dvfs ≠ none ∧ d.entryHeld true = false) ∧
    (let d := powered pwEntering (entering false false false false) [(R.GRN_ERASE_STAT_STATE, 1)]
     d.entryHeld false = true) ∧ (powered pwDormant id).asleep = true := by decide

theorem witness_PowerStates_knock :
    (stirred).heardKnock (knockBursts.map BitVec.toNat) = some 1 ∧
    (powered pwDormant id).heardKnock (knockBursts.map BitVec.toNat) = some 1 := by decide +kernel

theorem witness_SupplyAndDomains_domains :
    (let d := awake []
     d.coreOn = true ∧ d.domOn 63 = true ∧ d.dataView 63 = 0 ∧ ¬pwIdle < d.pwState ∧ ¬(53 ≤ (63 : Nat) ∧ (63 : Nat) ≤ 57)) ∧
    (let d := powered 0 (fun p => { p with rising := [58] }) [(R.PWR_DOM_ON, 0)]
     let e := { d with sy := { d.sy with mode := .inReset, resume := .image } }
     d.pw.rising.head? = some 58 ∧ d.sy.mode ≠ .inReset ∧ e.sy.mode = .inReset ∧ e.pw.rising.head? = some 58) ∧
    (∀ n : Fin 9, n ≠ 0 → (Dev.reset.rd (R.STL_Q_BAYS_MASK n)).testBit 15 = false) ∧
    may Dev.reset .steward A.BARN_PAD_RELEASE 31 = true ∧ Dev.reset.groupOn 4 = true ∧ (dev [(R.PWR_DOM_ON, 0)]).groupOn 4 = false ∧
    (∀ y ∈ mandatory, Dev.reset.domEn y = true) ∧
    may Dev.reset .mgmt A.PWR_DOM_EN (clrBit (Dev.reset.word A.PWR_DOM_EN) 0) = true ∧
    may Dev.reset .steward (A.PWR_DOM_EN + 4) (clrBit (Dev.reset.word (A.PWR_DOM_EN + 4)) 31) = true ∧ 63 ∈ mandatory ∧ 61 ∉ mandatory ∧
    Dev.reset.domEn 61 = true ∧ (Dev.reset.wr R.PWR_DOM_EN (clrBit (Dev.reset.rd R.PWR_DOM_EN) 0)).domEn 0 = false ∧
    (let d := Dev.reset.wr R.PWR_DOM_EN (clrBit (Dev.reset.rd R.PWR_DOM_EN) 0)
     may d .steward A.PWR_DOM_EN (setBit (d.word A.PWR_DOM_EN) 0) = true ∧ (d.wr R.SYS_MGMT_DIS 1).mgmtDis 0 = true ∧ d.mgmtDis 0 = false ∧
       ∀ y ∈ mandatory, y ≠ 0 → d.domEn y = true) ∧
    Dev.reset.dataView 61 = 0 ∧ (tiling tileRun 2 0).dataView 15 ≠ 0 ∧ (tiling tileRun 2 0).domOn 15 = true := by decide

theorem witness_SupplyAndDomains_forces :
    (let d := (tiling tileRun 2 0).setPw { Dev.reset.pw with draining := [15] }
     15 ∈ d.pw.draining ∧ d.dataView 15 ≠ 0) ∧
    (let d := Dev.reset.setPw { Dev.reset.pw with draining := [61], forcing := [15, 53] }
     61 ∈ d.pw.draining ∧ d.dataView 61 = 0 ∧ 15 ∈ d.pw.forcing ∧ 53 ∈ d.pw.forcing ∧ d.streamsIn 53 = [] ∧ d.portLive 0 = false) ∧
    may Dev.reset .mgmt (A.SYS_DOM_FORCE + 4) (2 ^ 31) = true ∧ may Dev.reset .mgmt A.SYS_DOM_FORCE (2 ^ 15) = true ∧
    (let d := tiling tileRun 2 0
     (d.troughsIn 15).map d.stallOf ++ d.holdersIn 15 = [0] ∧ d.jobState 0 = jobOpen ∧
       (d.troughsIn 14).map d.stallOf ++ d.holdersIn 14 = []) ∧
    (let d := (filling 0).setPw { Dev.reset.pw with forcing := [57] }
     57 ∈ d.pw.forcing ∧ d.streamsIn 57 ≠ []) := by decide

/-- A regulator command in flight. -/
def commanded (v : Vout) (q : List Vout) (k : Nat) (x : Option Dvfs) : Dev :=
  powered k (fun p => { p with vout := some v, queue := q, dvfs := x, wake := some (0, 0, 0) })

theorem witness_SupplyAndDomains_regulators :
    may Dev.reset .steward (A.PWR_REG_CFG 3) 0x280 = true ∧ bits 0x280 8 3 < 3 ∧ 3 ≤ bits 0x380 8 3 ∧
    may Dev.reset .steward (A.PWR_REG_CFG 3) 0x380 = true ∧ (0x280 : Nat).testBit 7 = true ∧ Dev.reset.on (R.PWR_REG_CFG_EN 3) = false ∧
    (0x1F#8).toNat / 32 = 0 ∧ (0x20#8).toNat / 32 ≠ 0 ∧ Dev.reset.pw.vout = none ∧
    (let d := commanded ⟨3, 720, .lower⟩ [] 0 (some ⟨2, 720, false⟩)
     let e := toSigned 5 (d.rd (R.PWR_REG_CFG_VOUT_MODE 3))
     e = 0 ∧ d.pw.dvfs ≠ none ∧ 985 * 720000 ≤ 1000 * (1000 * 1000 * (0x2D0#16).toNat) ∧ (0x1800#16 &&& 0xE8FE) ≠ 0 ∧
       (0x1000#16 &&& 0xE8FE) = 0 ∧ (0x40#16).getLsbD 6 = true ∧ (0#16).getLsbD 6 = false) ∧
    (commanded ⟨3, 720, .lower⟩ [] 0 none).pw.dvfs = none ∧
    (let d := Dev.reset.setPw { Dev.reset.pw with pads := [(0, 3, .low)], restored := .empty }
     (0, 3, PadState.low) ∈ d.pw.pads ∧ d.domOn (padDomain (0, 3, .low)) = true ∧ d.pw.restored.wf resetWord = true ∧
       ∀ c ∈ d.pw.restored.cells, c.1 ≠ A.FUR_CTL 0) ∧
    (let d := commanded ⟨3, 65535, .run⟩ [] pwWaking none
     d.pw.vout = some ⟨3, 65535, .run⟩ ∧ d.pw.queue = [] ∧ d.pwState = pwWaking) ∧
    (commanded ⟨3, 0, .fallow⟩ [⟨2, 0, .fallow⟩] pwFallow none).pw.queue = [⟨2, 0, .fallow⟩] ∧
    (commanded ⟨3, 0, .fallow⟩ [] pwFallow none).pwState ≠ pwWaking ∧
    (let d := commanded ⟨3, 720, .raise⟩ [] 0 (some ⟨2, 720, true⟩)
     d.pw.dvfs = some ⟨2, 720, true⟩ ∧ ((d.wr (R.PWR_REG_ACK_VOUT_ACK 3) 720).wr (R.PWR_REG_ACK_STAT 3) 0).divOk 2 = true) ∧
    (let d := commanded ⟨3, 719, .raise⟩ [] 0 (some ⟨2, 719, true⟩)
     let d := (d.wr (R.PWR_REG_CFG_EN 3) 1).wr R.CLK_TCLK_DIV_CUR 3
     ((d.wr (R.PWR_REG_ACK_VOUT_ACK 3) 719).wr (R.PWR_REG_ACK_STAT 3) 0).divOk 2 = false) ∧
    may Dev.reset .steward A.PWR_DVFS_CTL (3 + 720 * 65536) = true ∧ Dev.reset.on R.PWR_DVFS_STAT_BUSY = false ∧
    (dev [(R.PWR_DVFS_STAT_BUSY, 1)]).on R.PWR_DVFS_STAT_BUSY = true ∧ Dev.reset.coreRegs = [] ∧ Dev.reset.divOk 3 = true ∧
    (dev [(R.PWR_REG_CFG_EN 3, 1)]).coreRegs = [3] ∧
    (dev [(R.PWR_REG_CFG_EN 3, 1), (R.PWR_REG_ACK_VOUT_ACK 3, 719), (R.CLK_TCLK_DIV_CUR, 3)]).divOk 2 = false := by decide

theorem witness_Thermal :
    (let d := powered 0 (fun p => { p with warn := ⟨256, 0⟩, throttle := ⟨256, 0⟩, crit := ⟨256, 0⟩ })
     256 ≤ d.pw.warn.above ∧ d.on R.THM_STAT_WARN = false ∧ 256 ≤ d.pw.throttle.above ∧ d.on R.THM_STAT_THROTTLE = false ∧
       256 ≤ d.pw.crit.above ∧ d.on R.THM_STAT_CRIT = false ∧ d.rd R.THM_CAP_STEP < 3) ∧
    (let d := powered 0 (fun p => { p with warn := ⟨255, 256⟩, throttle := ⟨256, 256⟩, crit := ⟨255, 256⟩ })
       [(R.THM_STAT_WARN, 1), (R.THM_STAT_THROTTLE, 1), (R.THM_STAT_CRIT, 1), (R.THM_CAP_STEP, 3)]
     256 ≤ d.pw.warn.below ∧ d.on R.THM_STAT_WARN = true ∧ 256 ≤ d.pw.throttle.below ∧ d.on R.THM_STAT_THROTTLE = true ∧
       256 ≤ d.pw.crit.below ∧ d.on R.THM_STAT_CRIT = true ∧ 3 ≤ d.rd R.THM_CAP_STEP ∧ 256 ≤ d.pw.throttle.above ∧
       d.pw.warn.above < 256) ∧
    Dev.reset.pw.warn.below < 256 ∧ (dev [(R.THM_CAP_STEP, 1)]).rd R.CLK_TCLK_DIV_REQ < 1 ∧ Dev.reset.pw.critHold = false ∧
    (let d := powered pwFallow (fun p => { p with critHold := true }) [(R.BARN_PENDING_EVENTS, 1)]
     d.pw.critHold = true ∧ d.pendingWake = some (0, 0) ∧ d.asleep = true) ∧
    (powered pwFallow (fun p => { p with critHold := true })).pendingWake = none ∧
    (let d := awake [(R.THM_LOAD_RT_LIMIT, 1), (R.SEQ_STRM_CFG_EN 31, 1)]
     let d := d.setPw { d.pw with loads := d.pw.loads.set (fun _ => []) 31 [1] }
     d.paused = false ∧ d.rd R.THM_LOAD_RT_LIMIT * stepDiv (d.rd R.CLK_TCLK_DIV_CUR) < d.rtLoad * stepDiv (d.rd R.THM_CAP_STEP + 1)) := by decide

theorem witness_Thermal_told :
    (let d := dev [(R.STL_Q_BAYS_MASK 1, 2 ^ 15), (R.PCI_LINK_STAT_UP 0, 1)]
     d.cp.thr.warm = [] ∧ d.cp.thr.runs = [] ∧ (∀ p < 4, (d.link p).txq = []) ∧ (d.rd (R.STL_Q_BAYS_MASK 1)).testBit 15 = true ∧
       d.funcOf 1 = some 0 ∧ (d.bar4 0 (16 * 7 + 12)).testBit 0 = true) ∧
    (let d := powered pwFallow (fun p => { p with critHold := true }) [(R.BARN_PENDING_EVENTS, 1)]
     d.latchLevels.pendingWake = some (0, 0) ∧ d.asleep = true) ∧
    (powered pwFallow (fun p => { p with critHold := true })).latchLevels.pendingWake = none := by decide

/-! ## A state for the hypotheses of each clause: PCIe, the Steward and the management bus -/

/-- An open update of the second image slot, its next chunk `k`. -/
def updating (k len : Nat) : Dev := { hosted with sy := { booted.sy with update := some ⟨1, len, k, []⟩ } }

theorem witness_PcieAndSteward :
    hosted.hostUp 3 = true ∧ Dev.reset.hostUp 7 = false ∧ (dev [(R.STL_BIND_KIND 1, 0)]).stallOfFunc 0 = none ∧
    (dev [(R.PCI_LINK_STAT_UP 0, 1), (R.PCI_LINK_STAT_NUM_VFS 0, 3), (R.STL_BIND_KIND 4, 0), (R.STL_BIND_KIND 8, 1), (R.STL_BIND_PORT 8, 0), (R.STL_BIND_FUNC 8, 3)]).stallOfFunc 3 = some 8 ∧
    Dev.reset.stallsOfPort 1 = [5, 6, 7, 8] ∧ (dev [(R.STL_BIND_KIND 5, 0), (R.STL_BIND_KIND 6, 0), (R.STL_BIND_KIND 7, 0), (R.STL_BIND_KIND 8, 0)]).stallsOfPort 1 = [] ∧
    hosted.on (R.PCI_LINK_STAT_UP 0) = true ∧ hosted.on (R.PCI_LINK_STAT_UP 1) = false ∧ hosted.domOn 45 = true ∧ (7#4).toNat < 8 ∧
    (15#8).toNat < 16 ∧ (dev [(R.CLK_STC, 5), (R.SYS_MTIMECMP, 6)]).stc < (dev [(R.SYS_MTIMECMP, 6)]).rd R.SYS_MTIMECMP ∧
    (dev [(R.CLK_STC, 6), (R.SYS_MTIMECMP, 6)]).rd R.SYS_MTIMECMP ≤ (dev [(R.CLK_STC, 6)]).stc ∧
    may Dev.reset .steward A.SYS_LIMP_CTL 0 = true ∧ may Dev.reset .mgmt A.SYS_LIMP_CTL 7 = true ∧ Dev.reset.rd R.SYS_LIMP_CAUSE ≤ 1 ∧
    1 < (dev [(R.SYS_LIMP_CAUSE, 2)]).rd R.SYS_LIMP_CAUSE ∧ may Dev.reset .steward A.SYS_LIMP_CTL 256 = true ∧
    (dev [(R.SYS_LIMP_CAUSE, 1)]).rd R.SYS_LIMP_CAUSE = 1 := by decide

theorem witness_PcieAndSteward_update :
    may booted .mgmt A.SYS_UPD_CTL (1 + 3 * 4 + 256) = true ∧ may booted .mgmt A.SYS_UPD_CTL (1 + 2 * 4) = true ∧ booted.sy.mode = .image ∧
    Dev.reset.sy.mode = .rom ∧ booted.sy.update = none ∧ (updating 0 4096).sy.update ≠ none ∧
    (let d := { dev [(R.SYS_BOOT_STAT_SLOT, 1)] with sy := booted.sy }
     d.rd R.SYS_BOOT_STAT_SLOT = 1) ∧ booted.rd R.SYS_BOOT_STAT_SLOT ≠ 1 ∧
    (dev [(R.SYS_UPD_LEN_BYTES, 0x40001)]).rd R.SYS_UPD_LEN_BYTES = 0x40001 ∧ (0x40000 : Nat) < 0x40001 ∧
    ((booted.wr R.SYS_UPD_CTL_HOST_OK 1).slotCheck 1).1 = false := by decide

theorem witness_PcieAndSteward_chunks :
    may (updating 2048 4096) .mgmt A.SYS_UPD_CHUNK 2048 = true ∧ (updating 2048 4096).sy.update = some ⟨1, 4096, 2048, []⟩ ∧
    (2048 : Nat) < 4096 ∧ ¬(4096 : Nat) < 4096 ∧ may (updating 0 1) .mgmt A.SYS_UPD_CHUNK 0 = true ∧
    may (updating 0 1) .mgmt A.SYS_UPD_CHUNK 2048 = true ∧ may (updating 2048 1) .steward A.SYS_UPD_CTL 2 = true ∧
    (let d := updating 2048 1
     d.sy.update = some ⟨1, 1, 2048, []⟩ ∧ (1 : Nat) ≤ 2048 ∧
       leAt (d.gBytes (slotSector 1 * 4096) 1).1 8 4 + 256 ≠ 1) ∧
    ((updating 2048 4096).programRun (slotSector 1 * 4096 + 2048) (zeros 16) none).1 = true ∧
    ((updating 2048 4096).programRun (slotSector 1 * 4096 + 2048) (zeros 16) (some 0)).1 = false := by decide

/-- The device has the dynamic address 0x10. -/
def addressed (k e : Nat) : Dev :=
  { dev [(R.PWR_STAT_STATE, k), (R.BARN_WAKE_EN_I3C, e)] with sy := { Dev.reset.sy with i3cDyn := some 0x10 } }

theorem witness_ManagementBus :
    (addressed 0 0).sy.i3cDyn = some (0x10#7).toNat ∧ (addressed 0 0).sy.i3cDyn ≠ some (0x11#7).toNat ∧ (addressed 0 0).asleep = false ∧
    (addressed pwDormant 1).asleep = true ∧ (addressed pwDormant 1).rd R.BARN_WAKE_EN_I3C = 1 ∧
    (addressed pwFallow 0).asleep = true ∧ (addressed pwFallow 0).rd R.BARN_WAKE_EN_I3C = 0 ∧ Dev.reset.sy.i3cDyn = none ∧
    (0x58#7).toNat = 0x58 + Dev.reset.sy.i3cStrap ∧ (0x59#7).toNat ≠ 0x58 + Dev.reset.sy.i3cStrap ∧
    (0xFFFFFC#32).toNat % 4 = 0 ∧ (0xFFFFFC#32).toNat < 0x1000000 ∧ ¬(0x1000000#32).toNat < 0x1000000 ∧
    1 ≤ (0x3FFC#32).toNat / 4096 ∧ (0x3FFC#32).toNat / 4096 ≤ 3 ∧ ¬(0x4000#32).toNat / 4096 ≤ 3 ∧ ¬1 ≤ (0xFFC#32).toNat / 4096 ∧
    (match regHit A.PWR_CTL with | some h => decide (h.row.words ≤ 1) | none => false) = true ∧
    Dev.reset.sy.reply = none ∧ (zeros 4).length = 4 := by decide
end Sys2Proof.Tests
end

section
/-! SUPPORT. What an operation on registers changes and leaves alone, said of the device; a command that acts. -/
namespace Sys2Proof.Machine

variable {d e : Dev} {ws : List Nat}

/-! ## Devices that differ in some register words alone -/

/-- `e` is `d` but for the register words at the BAR0 addresses `ws`. -/
structure RegsOnly (d e : Dev) (ws : List Nat) : Prop where
  rest : e = { d with regs := e.regs }
  word : ∀ a, a ∉ ws → e.word a = d.word a

/-- The words a field reaches over lie among `ws`. -/
def Fld.within (f : Fld) (ws : List Nat) : Bool := (List.range f.words).all (fun i => ws.contains (f.addr + 4 * i))

/-- The words a field reaches over lie outside `ws`. -/
def Fld.outside (f : Fld) (ws : List Nat) : Bool := (List.range f.words).all (fun i => !ws.contains (f.addr + 4 * i))

theorem onlyRegs_iff (s : State) : OnlyRegs s { s with dev := e } ws ↔ RegsOnly s.dev e ws := by
  constructor
  · rintro ⟨h, hw⟩
    exact ⟨congrArg State.dev h, hw⟩
  · rintro ⟨h, hw⟩
    exact ⟨congrArg (fun x => { s with dev := x }) h, hw⟩

theorem RegsOnly.refl (d : Dev) (ws : List Nat) : RegsOnly d d ws := ⟨rfl, fun _ _ => rfl⟩

theorem RegsOnly.trans {f : Dev} (h : RegsOnly d e ws) (h' : RegsOnly e f ws) : RegsOnly d f ws := by
  obtain ⟨he, hw⟩ := h
  obtain ⟨hf, hw'⟩ := h'
  refine ⟨?_, fun a ha => (hw' a ha).trans (hw a ha)⟩
  rw [he] at hf
  exact hf

theorem RegsOnly.mono {vs : List Nat} (h : RegsOnly d e vs) (hs : vs ⊆ ws) : RegsOnly d e ws :=
  ⟨h.rest, fun a ha => h.word a (fun hv => ha (hs hv))⟩

/-- A write of a field whose words lie among `ws`. -/
theorem RegsOnly.wr (h : RegsOnly d e ws) (f : Fld) (v : Nat) (hf : f.within ws = true) : RegsOnly d (e.wr f v) ws := by
  refine h.trans ⟨?_, fun a ha => word_wr_ne e f v ?_⟩
  · obtain ⟨r, hr⟩ := wr_eq e f v
    rw [hr]
  · rintro i hi rfl
    simp only [Fld.within, List.all_eq_true, List.mem_range, List.contains_iff_mem] at hf
    exact ha (hf i hi)

/-- A field apart from the words that differ reads as before. -/
theorem RegsOnly.rd (h : RegsOnly d e ws) (g : Fld) (hg : g.outside ws = true) : e.rd g = d.rd g := by
  simp only [Fld.outside, List.all_eq_true, List.mem_range, Bool.not_eq_true', List.contains_eq_mem,
    decide_eq_false_iff_not] at hg
  rw [Dev.rd, Dev.rd, words_congr (fun i hi => h.word _ (hg i hi))]

/-! ## A one-bit field -/

theorem on_eq_of_rd {f : Fld} (h : e.rd f = d.rd f) : e.on f = d.on f := by simp [Dev.on, h]

theorem on_wr_ne (d : Dev) {f g : Fld} (v : Nat) (h : f.apart g = true) : (d.wr f v).on g = d.on g :=
  on_eq_of_rd (rd_wr_ne d v h)

/-! ## Fields of one word -/

theorem word_wr_of_one_word (d : Dev) {f : Fld} (v : Nat) {a : Nat} (hf : f.words = 1) (ha : a ≠ f.addr) :
    (d.wr f v).word a = d.word a := by
  refine word_wr_ne d f v (fun i hi => ?_)
  obtain rfl : i = 0 := by omega
  simpa using ha

/-- A write of a field within one word is a write of the word. -/
theorem wr_of_one_word (d : Dev) {f : Fld} (v : Nat) (h : f.words = 1) :
    d.wr f v = d.setWord f.addr (setBits (d.word f.addr) f.lo f.width v) := by
  have hmod : ∀ x, BitVec.ofNat 32 (x % 2 ^ 32) = BitVec.ofNat 32 x := by
    intro x
    apply BitVec.eq_of_toNat_eq
    simp
  rw [Dev.wr, h]
  simp only [Dev.setWords, Dev.words, Nat.mul_zero, Nat.add_zero, Dev.setWord, hmod]

/-- A field of one word depends on the word alone. -/
theorem rd_of_word {f : Fld} (hf : f.words = 1) (h : e.word f.addr = d.word f.addr) : e.rd f = d.rd f := by
  rw [Dev.rd, Dev.rd, hf, words_congr (d := d) (e := e)]
  intro i hi
  simpa [show i = 0 by omega] using h

/-- Storing a word whose register is one read-write field writes that field. -/
theorem storeWord_of_one_field (d : Dev) {addr : Nat} (v : Nat) {h : RegHit} {f : FieldRow} (hh : regHit addr = some h)
    (hw : h.word = 0) (hf : h.row.fields = [f]) (ha : f.acc = .rw) (hb : f.lo + f.width ≤ 32) (hn : 0 < f.width) :
    d.storeWord addr v = d.wr ⟨addr, f.lo, f.width⟩ (bits v f.lo f.width) := by
  have h1 : (⟨addr, f.lo, f.width⟩ : Fld).words = 1 := by
    simp only [Fld.words]
    omega
  have hin : f.inWord h.word = (f.lo, f.width, 0) := by
    simp only [FieldRow.inWord, hw, if_true, Nat.sub_zero, Nat.min_eq_right (show f.width ≤ 32 - f.lo by omega)]
  rw [wr_of_one_word d _ h1, Dev.storeWord, hh]
  simp [hf, hin, ha]

/-! ## Interrupts -/

theorem setBit_lt {v n i : Nat} (hv : v < 2 ^ n) (hi : i < n) : setBit v i < 2 ^ n := by
  rw [setBit_eq]
  exact setBits_lt hv hi

theorem testBit_setBit_same (v i : Nat) : (setBit v i).testBit i = true := by simp [testBit_setBit]

/-- PIRQ_RAW after an event of its page: the event's bit is set, the others stay (R407). -/
theorem rd_irq_raw (d : Dev) (k : PageKind) (n : Nat) {b : Nat} (hb : b < 32) :
    (d.irq k n b).rd (R.PIRQ_RAW (k.page n)) = setBit (d.rd (R.PIRQ_RAW (k.page n))) b := by
  rw [Dev.irq, rd_setBitOf_same]
  exact Nat.mod_eq_of_lt (setBit_lt (rd_lt d (R.PIRQ_RAW (k.page n))) hb)

theorem rd_irq_ne (d : Dev) (k : PageKind) (n b : Nat) {g : Fld} (h : (R.PIRQ_RAW (k.page n)).apart g = true) :
    (d.irq k n b).rd g = d.rd g := rd_setBitOf_ne d b h

theorem RegsOnly.irq (h : RegsOnly d e ws) (k : PageKind) (n b : Nat) (hf : (R.PIRQ_RAW (k.page n)).within ws = true) :
    RegsOnly d (e.irq k n b) ws := h.wr _ _ hf

theorem RegsOnly.bump (h : RegsOnly d e ws) (f : Fld) (k : Nat) (hf : f.within ws = true) : RegsOnly d (e.bump f k) ws :=
  h.wr _ _ hf

theorem RegsOnly.addTo (h : RegsOnly d e ws) (f : Fld) (k : Nat) (hf : f.within ws = true) : RegsOnly d (e.addTo f k) ws :=
  h.wr _ _ hf

/-! ## A command that acts -/

theorem completes_of_act {i : Instr} {s : State} {P : State → Prop} {f : Dev → Dev} (hx : exec i s = s.act f)
    (hc : s.dev.sy.coldHold = false) (h : P { s with dev := f s.dev }) : Completes i s P :=
  ⟨_, by rw [hx, State.act, State.always, if_neg (by simp [hc])], h⟩

/-- A command that writes a register its requester may write does the register's operation. -/
theorem completes_of_permits {i : Instr} {s : State} {P : State → Prop} {q : Req} {addr v : Nat} {op : Nat → Dev → Dev}
    (hx : exec i s = s.act (fun d => d.regBy q addr v op)) (hc : s.dev.sy.coldHold = false)
    (hp : s.dev.permits q addr v) (h : P { s with dev := op v s.dev }) : Completes i s P :=
  completes_of_act hx hc (by rwa [regBy_of_permits hp])

end Sys2Proof.Machine
end

section
/-! SUPPORT. What counting an ignored write leaves (R14, R415). -/
namespace Sys2Proof.Machine

variable {d : Dev}

theorem reqCode_lt (q : Req) : reqCode q < 2 ^ 4 := by
  cases q with
  | stall n => exact n.isLt.trans (by decide)
  | mgmt => decide
  | steward => decide

/-- The record of the first ignored write on a page, as it is written (R415). -/
def Dev.perrRecord (d : Dev) (p target off req cause : Nat) : Dev :=
  (((d.wr (R.PERR_FIRST_OFFSET p) off).wr (R.PERR_FIRST_REQ p) req).wr (R.PERR_FIRST_CAUSE p) cause).wr
    (R.PERR_FIRST_PAGE p) target

theorem perrAt_of_first (p a o r c : Nat) (h : d.rd (R.PERR_COUNT p) = 0) :
    d.perrAt p a o r c = (d.perrRecord p a o r c).bump (R.PERR_COUNT p) := by
  simp only [Dev.perrAt, if_pos h, Dev.perrRecord]

theorem perrAt_of_later (p a o r c : Nat) (h : d.rd (R.PERR_COUNT p) ≠ 0) :
    d.perrAt p a o r c = d.bump (R.PERR_COUNT p) := by
  simp only [Dev.perrAt, if_neg h]

/-- The record reads back, each part cut to its field. -/
theorem rd_perrRecord (d : Dev) (p a o r c : Nat) :
    (d.perrRecord p a o r c).rd (R.PERR_FIRST_OFFSET p) = o % 2 ^ 12 ∧
    (d.perrRecord p a o r c).rd (R.PERR_FIRST_REQ p) = r % 2 ^ 4 ∧
    (d.perrRecord p a o r c).rd (R.PERR_FIRST_CAUSE p) = c % 2 ^ 3 ∧
    (d.perrRecord p a o r c).rd (R.PERR_FIRST_PAGE p) = a % 2 ^ 7 := by
  have hap : ∀ (lo w lo' w' : Nat), lo + w ≤ lo' ∨ lo' + w' ≤ lo → (lo + w + 31) / 32 = (lo' + w' + 31) / 32 →
      (⟨A.PERR_FIRST p, lo, w⟩ : Fld).apart ⟨A.PERR_FIRST p, lo', w'⟩ = true := by
    intro lo w lo' w' h h'
    simp [Fld.apart, Fld.words, h, h']
  simp (disch := apply hap <;> decide) [Dev.perrRecord, rd_wr_ne]

theorem perrRecord_regsOnly (d : Dev) (p a o r c : Nat) : RegsOnly d (d.perrRecord p a o r c) [A.PERR_FIRST p] := by
  have hf : ∀ lo w, (lo + w + 31) / 32 = 1 → (⟨A.PERR_FIRST p, lo, w⟩ : Fld).within [A.PERR_FIRST p] = true := by
    intro lo w h
    simp [Fld.within, Fld.words, h]
  exact ((((RegsOnly.refl d _).wr _ _ (hf _ _ rfl)).wr _ _ (hf _ _ rfl)).wr _ _ (hf _ _ rfl)).wr _ _ (hf _ _ rfl)

theorem perrCount_within (p : Nat) (ws : List Nat) : (R.PERR_COUNT p).within (A.PERR_COUNT p :: ws) = true := by
  simp [Fld.within, Fld.words]

theorem perrCount_apart_first (p lo w : Nat) :
    (R.PERR_COUNT p).apart ⟨A.PERR_FIRST p, lo, w⟩ = true := by
  simp [Fld.apart, Fld.words]

/-- Counting an ignored write leaves what `Counted` says (R14, R415). -/
theorem counted_perrAt (s : State) (p : Nat) (q : Req) {target off cause : Nat} (ht : target < 2 ^ 7)
    (ho : off < 2 ^ 12) (hc : cause < 2 ^ 3) :
    Counted s { s with dev := s.dev.perrAt p target off (reqCode q) cause } p target off q cause := by
  refine ⟨perrAt_count s.dev p _ _ _ _, ?_⟩
  split
  next h0 =>
    obtain ⟨h1, h2, h3, h4⟩ := rd_perrRecord s.dev p target off (reqCode q) cause
    simp only [perrAt_of_first p _ _ _ _ h0]
    refine ⟨?_, ?_, ?_, ?_, (onlyRegs_iff s).mpr ?_⟩
    · rw [rd_bump_ne _ _ (perrCount_apart_first p _ _), h1, Nat.mod_eq_of_lt ho]
    · rw [rd_bump_ne _ _ (perrCount_apart_first p _ _), h2, Nat.mod_eq_of_lt (reqCode_lt q)]
    · rw [rd_bump_ne _ _ (perrCount_apart_first p _ _), h3, Nat.mod_eq_of_lt hc]
    · rw [rd_bump_ne _ _ (perrCount_apart_first p _ _), h4, Nat.mod_eq_of_lt ht]
    · exact ((perrRecord_regsOnly ..).mono (by simp)).bump _ _ (perrCount_within p _)
  next h0 =>
    simp only [perrAt_of_later p _ _ _ _ h0]
    exact (onlyRegs_iff s).mpr ((RegsOnly.refl _ _).bump _ _ (perrCount_within p _))

/-- Counting an ignored write to a BAR0 address on the address's own page. -/
theorem counted_perr (s : State) (q : Req) {addr cause : Nat} (ha : addr < 2 ^ 19) (hc : cause < 2 ^ 3) :
    Counted s { s with dev := s.dev.perr addr q cause } (addr / 4096) (addr / 4096) (addr % 4096) q cause :=
  counted_perrAt s _ q (by omega) (Nat.mod_lt _ (by decide)) hc

end Sys2Proof.Machine
end

section
/-! The reference: its measurement, its loss and its return, and the losses of lock they share with the root PLL. -/
namespace Sys2Proof.Machine

variable {d e : Dev} {ws : List Nat}

/-! ## The PLL -/

theorem pllStop_regsOnly (d : Dev) : RegsOnly d d.pllStop [A.CLK_PLL_CTL, A.CLK_PLL_STAT, A.CLK_SRC_SEL] :=
  ((((RegsOnly.refl d _).wr _ _ (by decide)).wr _ _ (by decide)).wr _ _ (by decide)).wr _ _ (by decide)

/-- The stop clears EN, LOCK and both sources, and leaves LOL (R26, R40). -/
theorem rd_pllStop (d : Dev) :
    d.pllStop.rd R.CLK_PLL_CTL_EN = 0 ∧ d.pllStop.rd R.CLK_PLL_STAT_LOCK = 0 ∧
    d.pllStop.rd R.CLK_PLL_STAT_LOL = d.rd R.CLK_PLL_STAT_LOL ∧ d.pllStop.rd R.CLK_SRC_SEL_CORE_SRC = 0 ∧
    d.pllStop.rd R.CLK_SRC_SEL_ACLK_SRC = 0 := by
  simp (disch := decide) [Dev.pllStop, Dev.coreStop, rd_wr_ne]

/-- PIRQ_RAW of the CLK page after an event of it. -/
theorem rd_irq_clk (d : Dev) {b : Nat} (hb : b < 32) :
    (d.irq .clk 0 b).rd (R.PIRQ_RAW 4) = setBit (d.rd (R.PIRQ_RAW 4)) b := rd_irq_raw d .clk 0 hb

/-- What a loss of lock leaves, of any device (R40). -/
structure LostLock (d e : Dev) : Prop where
  regsOnly : RegsOnly d e [A.CLK_PLL_STAT, A.CLK_LOL_COUNT, A.CLK_SRC_SEL, A.PIRQ_RAW 4]
  lock : e.rd R.CLK_PLL_STAT_LOCK = 0
  lol : e.rd R.CLK_PLL_STAT_LOL = 1
  count : e.rd R.CLK_LOL_COUNT = min (d.rd R.CLK_LOL_COUNT + 1) maxWord
  core : e.rd R.CLK_SRC_SEL_CORE_SRC = 0
  aclk : e.rd R.CLK_SRC_SEL_ACLK_SRC = 0
  raw : e.rd (R.PIRQ_RAW 4) = setBit (d.rd (R.PIRQ_RAW 4)) 0

theorem lossOfLock_of_unlocked (h : d.on R.CLK_PLL_STAT_LOCK = false) : lossOfLock d = d := by simp [lossOfLock, h]

theorem lossOfLock_of_locked (h : d.on R.CLK_PLL_STAT_LOCK = true) : LostLock d (lossOfLock d) := by
  rw [lossOfLock, if_pos h]
  constructor
  · exact ((((((RegsOnly.refl d _).wr _ _ (by decide)).wr _ _ (by decide)).bump _ _ (by decide)).irq _ _ _ (by decide)).wr _ _
      (by decide)).wr _ _ (by decide)
  all_goals simp (disch := decide) [Dev.coreStop, rd_wr_ne, rd_irq_ne, rd_bump_ne, rd_irq_clk, maxWord]

/-! ## The reference -/

/-- `d` with its clock unit's own state replaced. -/
def Dev.setCk (d : Dev) (c : Clock) : Dev := { d with ck := c }

@[simp] theorem setCk_ck (d : Dev) (c : Clock) : (d.setCk c).ck = c := rfl
@[simp] theorem setCk_word (d : Dev) (c : Clock) (a : Nat) : (d.setCk c).word a = d.word a := rfl
@[simp] theorem setCk_rd (d : Dev) (c : Clock) (g : Fld) : (d.setCk c).rd g = d.rd g :=
  rd_of_regs (d := d) (e := d.setCk c) rfl g
@[simp] theorem setCk_on (d : Dev) (c : Clock) (g : Fld) : (d.setCk c).on g = d.on g := on_eq_of_rd (setCk_rd d c g)

theorem RegsOnly.setCk (h : RegsOnly d e ws) (c : Clock) : RegsOnly (d.setCk c) (e.setCk c) ws :=
  ⟨congrArg (Dev.setCk · c) h.rest, h.word⟩

/-- A state whose device differs in some register words and the clock unit's own state. -/
theorem state_eq_of_setCk (s : State) {c : Clock} (h : RegsOnly (s.dev.setCk c) e ws) :
    ({ s with dev := e } : State) = { s with dev := { s.dev with regs := e.regs, ck := c } } :=
  congrArg (fun x => { s with dev := x }) h.rest

/-- The window of R26, as the statement writes it. -/
theorem inWindow_iff (d : Dev) (k : Nat) :
    d.inWindow k = true ↔ if d.on R.CLK_REF_STAT_FAMILY then 21918 ≤ k ∧ k ≤ 23281 else 23856 ≤ k ∧ k ≤ 25340 := by
  unfold Dev.inWindow
  split <;> simp

/-- A measurement that is done, before what a mismatch does: the count is in MEAS. -/
def Dev.measured (d : Dev) (k : Nat) : Dev :=
  (d.setCk { d.ck with measuring := 0 }).wr R.CLK_REF_STAT_MEAS (min k 65535)

theorem measured_inWindow (d : Dev) (k : Nat) : (d.measured k).inWindow k = d.inWindow k := by
  simp (disch := decide) [Dev.measured, Dev.inWindow, on_wr_ne]

/-- A count in the window clears MISMATCH (R26). -/
theorem refMeasureDone_of_fits {k : Nat} (hm : d.ck.measuring ≠ 0) (hk : d.inWindow k = true) :
    refMeasureDone k d = (d.measured k).wr R.CLK_REF_STAT_MISMATCH 0 := by
  have h : (d.measured k).inWindow k = true := by rw [measured_inWindow, hk]
  exact (if_neg hm).trans (if_pos h)

/-- A count outside the window sets MISMATCH, and stops an enabled PLL (R26). -/
theorem refMeasureDone_of_mismatch {k : Nat} (hm : d.ck.measuring ≠ 0) (hk : d.inWindow k = false) :
    refMeasureDone k d = if d.on R.CLK_PLL_CTL_EN then ((d.measured k).wr R.CLK_REF_STAT_MISMATCH 1).pllStop
      else (d.measured k).wr R.CLK_REF_STAT_MISMATCH 1 := by
  have h : ¬(d.measured k).inWindow k = true := by simp [measured_inWindow, hk]
  have hen : ((d.measured k).wr R.CLK_REF_STAT_MISMATCH 1).on R.CLK_PLL_CTL_EN = d.on R.CLK_PLL_CTL_EN := by
    simp (disch := decide) [Dev.measured, on_wr_ne]
  rw [← hen]
  exact (if_neg hm).trans (if_neg h)

/-- The word REF_STAT after a measurement: the count, 65,535 where it is above (the model's choice), and the mismatch. -/
theorem measured_mismatch (d : Dev) (k : Nat) {x : Nat} (hx : x < 2 ^ 1) :
    let e := (d.measured k).wr R.CLK_REF_STAT_MISMATCH x
    RegsOnly (d.setCk { d.ck with measuring := 0 }) e [A.CLK_REF_STAT] ∧
    e.rd R.CLK_REF_STAT_MEAS = min k 65535 ∧ e.rd R.CLK_REF_STAT_MISMATCH = x := by
  refine ⟨((RegsOnly.refl _ _).wr _ _ (by decide)).wr _ _ (by decide), ?_, ?_⟩
  · rw [rd_wr_ne _ _ (by decide), Dev.measured, rd_wr_same, Nat.mod_eq_of_lt]
    exact lt_of_le_of_lt (min_le_right _ _) (by decide)
  · rw [rd_wr_same, Nat.mod_eq_of_lt hx]

/-- A mismatch of an enabled PLL: the measurement, then the stop, which is no loss of lock (R26). -/
theorem measured_stop (d : Dev) (k : Nat) :
    let e := ((d.measured k).wr R.CLK_REF_STAT_MISMATCH 1).pllStop
    RegsOnly (d.setCk { d.ck with measuring := 0 }) e [A.CLK_REF_STAT, A.CLK_PLL_CTL, A.CLK_PLL_STAT, A.CLK_SRC_SEL] ∧
    e.rd R.CLK_REF_STAT_MEAS = min k 65535 ∧ e.rd R.CLK_REF_STAT_MISMATCH = 1 ∧
    e.rd R.CLK_PLL_STAT_LOL = d.rd R.CLK_PLL_STAT_LOL := by
  intro e
  obtain ⟨ho, hmeas, hmis⟩ := measured_mismatch d k (x := 1) (by decide)
  obtain ⟨-, -, hlol, -, -⟩ := rd_pllStop ((d.measured k).wr R.CLK_REF_STAT_MISMATCH 1)
  have hs := pllStop_regsOnly ((d.measured k).wr R.CLK_REF_STAT_MISMATCH 1)
  refine ⟨(ho.mono (by simp)).trans (hs.mono (by simp)), (hs.rd _ (by decide)).trans hmeas,
    (hs.rd _ (by decide)).trans hmis, ?_⟩
  rw [hlol, ho.rd _ (by decide), setCk_rd]

/-- What the clock unit does first when the reference stops: PRESENT clears, REF_LOST is raised, the gap starts (R27, R37). -/
def Dev.refGone (d : Dev) : Dev :=
  ((d.wr R.CLK_REF_STAT_PRESENT 0).irq .clk 0 clkRefLost).setCk { d.ck with gap := some 0 }

/-- A present reference that is lost takes the lock with it (R40). -/
theorem refLost_of_present (h : d.on R.CLK_REF_STAT_PRESENT = true) : refLost d = lossOfLock d.refGone := by
  rw [refLost, if_pos h]
  simp only [Dev.refGone, Dev.setCk, irq_ck, wr_ck]

theorem refGone_regsOnly (d : Dev) :
    RegsOnly (d.setCk { d.ck with gap := some 0 }) d.refGone [A.CLK_REF_STAT, A.PIRQ_RAW 4] :=
  (((RegsOnly.refl d _).wr _ _ (by decide)).irq _ _ _ (by decide)).setCk _

theorem rd_refGone (d : Dev) : d.refGone.rd R.CLK_REF_STAT_PRESENT = 0 ∧
    d.refGone.rd (R.PIRQ_RAW 4) = setBit (d.rd (R.PIRQ_RAW 4)) 1 := by
  simp (disch := decide) [Dev.refGone, rd_irq_ne, rd_irq_clk, rd_wr_ne]

/-- The first edge after a gap, before the gap is recorded: PRESENT sets and the STC counts the edge (R27, R37). -/
def Dev.edgeBack (d : Dev) : Dev := (d.wr R.CLK_REF_STAT_PRESENT 1).addTo R.CLK_STC 1

/-- The gap that has ended is recorded and counted (R37). -/
def Dev.recordGap (d : Dev) : Option Nat → Dev
  | some g => (d.wr R.CLK_STC_GAP g).bump R.CLK_STC_GAP_COUNT
  | none => d

@[simp] theorem recordGap_ck (d : Dev) (g : Option Nat) : (d.recordGap g).ck = d.ck := by
  cases g <;> simp [Dev.recordGap]

@[simp] theorem edgeBack_ck (d : Dev) : d.edgeBack.ck = d.ck := by simp [Dev.edgeBack]

theorem refEdgeReturn_of_absent (h : d.on R.CLK_REF_STAT_PRESENT = false) :
    refEdgeReturn d = (d.edgeBack.recordGap d.ck.gap).setCk { d.ck with measuring := 2, gap := none } := by
  have hk : refEdgeReturn d = (d.edgeBack.recordGap d.edgeBack.ck.gap).setCk
      { (d.edgeBack.recordGap d.edgeBack.ck.gap).ck with measuring := 2, gap := none } := by
    rw [refEdgeReturn, if_neg (by simp [h])]
    rfl
  simpa using hk

/-- The words the return of the reference changes. -/
abbrev edgeWords : List Nat :=
  [A.CLK_REF_STAT, A.CLK_STC, A.CLK_STC + 4, A.CLK_STC_GAP, A.CLK_STC_GAP + 4, A.CLK_STC_GAP_COUNT]

theorem edgeBack_regsOnly (d : Dev) : RegsOnly d d.edgeBack edgeWords :=
  ((RegsOnly.refl d _).wr _ _ (by decide)).addTo _ _ (by decide)

theorem recordGap_regsOnly (d : Dev) (g : Option Nat) : RegsOnly d (d.recordGap g) edgeWords := by
  cases g with
  | some g => exact ((RegsOnly.refl d _).wr _ _ (by decide)).bump _ _ (by decide)
  | none => exact RegsOnly.refl d _

theorem recordGap_keeps (d : Dev) (g : Option Nat) {f : Fld} (h : R.CLK_STC_GAP.apart f = true)
    (h' : R.CLK_STC_GAP_COUNT.apart f = true) : (d.recordGap g).rd f = d.rd f := by
  cases g with
  | some g => rw [Dev.recordGap, rd_bump_ne _ _ h', rd_wr_ne _ _ h]
  | none => rfl

/-- Settles O22. A measurement is split by its count and by EN, a loss by LOCK, a return by whether a gap had begun. -/
theorem referenceCommands : Obligations.ReferenceCommands := by
  intro s hc
  refine ⟨fun k hm => ?_, fun hp => ?_, fun hp => ?_⟩
  · refine completes_of_act (f := refMeasureDone k.toNat) rfl hc ?_
    intro fits
    have hf : s.dev.inWindow k.toNat = true ↔ fits := inWindow_iff s.dev k.toNat
    by_cases h : fits
    · obtain ⟨ho, hmeas, hmis⟩ := measured_mismatch s.dev k.toNat (x := 0) (by decide)
      rw [refMeasureDone_of_fits hm (hf.mpr h)]
      exact ⟨state_eq_of_setCk s ho, hmeas, fun _ => hmis, fun h' => absurd h h', fun _ => ho.word, fun h' => absurd h h'⟩
    · rw [refMeasureDone_of_mismatch hm (Bool.eq_false_iff.mpr (mt hf.mp h))]
      cases he : s.dev.on R.CLK_PLL_CTL_EN with
      | true =>
        obtain ⟨ho, hmeas, hmis, hlol⟩ := measured_stop s.dev k.toNat
        obtain ⟨hen, hlock, -, hcore, haclk⟩ := rd_pllStop ((s.dev.measured k.toNat).wr R.CLK_REF_STAT_MISMATCH 1)
        exact ⟨state_eq_of_setCk s ho, hmeas, fun h' => absurd h' h, fun _ => hmis, fun h' => absurd h' (by simp [h]),
          fun _ _ => ⟨ho.word, hen, hlock, hlol, hcore, haclk⟩⟩
      | false =>
        obtain ⟨ho, hmeas, hmis⟩ := measured_mismatch s.dev k.toNat (x := 1) (by decide)
        exact ⟨state_eq_of_setCk s ho, hmeas, fun h' => absurd h' h, fun _ => hmis, fun _ => ho.word, nofun⟩
  · refine completes_of_act (f := refLost) rfl hc ?_
    rw [refLost_of_present hp]
    have hg := refGone_regsOnly s.dev
    obtain ⟨hpres, hraw⟩ := rd_refGone s.dev
    have hon : s.dev.refGone.on R.CLK_PLL_STAT_LOCK = s.dev.on R.CLK_PLL_STAT_LOCK :=
      on_eq_of_rd ((hg.rd _ (by decide)).trans (setCk_rd _ _ _))
    cases hl : s.dev.on R.CLK_PLL_STAT_LOCK with
    | false =>
      rw [lossOfLock_of_unlocked (hon.trans hl)]
      exact ⟨state_eq_of_setCk s hg, hpres, by simp [hraw, testBit_setBit], fun _ => hg.word, nofun⟩
    | true =>
      have hloss := lossOfLock_of_locked (hon.trans hl)
      generalize lossOfLock s.dev.refGone = e at hloss ⊢
      have hall := (hg.mono (by simp)).trans (hloss.regsOnly.mono
        (ws := [A.CLK_REF_STAT, A.PIRQ_RAW 4, A.CLK_PLL_STAT, A.CLK_LOL_COUNT, A.CLK_SRC_SEL]) (by simp))
      refine ⟨state_eq_of_setCk s hall, (hloss.regsOnly.rd _ (by decide)).trans hpres, ?_, nofun,
        fun _ => ⟨hloss.lock, hloss.lol, ?_, hloss.core, hloss.aclk, ?_, hall.word⟩⟩
      · simp [hloss.raw, hraw, testBit_setBit]
      · simp [hloss.count, hg.rd R.CLK_LOL_COUNT (by decide)]
      · rw [hloss.raw, testBit_setBit_same]
  · refine completes_of_act (f := refEdgeReturn) rfl hc ?_
    rw [refEdgeReturn_of_absent hp]
    have ho := ((edgeBack_regsOnly s.dev).trans (recordGap_regsOnly _ s.dev.ck.gap)).setCk
      { s.dev.ck with measuring := 2, gap := none }
    refine ⟨state_eq_of_setCk s ho, ?_, ?_, ho.word, ?_⟩
    · simp (disch := decide) [recordGap_keeps, Dev.edgeBack, rd_addTo_ne]
    · simp (disch := decide) [Dev.stc, recordGap_keeps, Dev.edgeBack, rd_wr_ne]
    · cases hgap : s.dev.ck.gap with
      | some g => simp (disch := decide) [Dev.recordGap, Dev.edgeBack, rd_bump_ne, rd_wr_ne, rd_addTo_ne, maxWord]
      | none => simp (disch := decide) [Dev.recordGap, Dev.edgeBack, rd_wr_ne, rd_addTo_ne]

end Sys2Proof.Machine
end

section
/-! The commands of the root PLL. -/
namespace Sys2Proof.Machine

variable {d e : Dev} {ws : List Nat}

theorem coreOn_of_rd {d : Dev} {x : Nat} (h : d.rd R.CLK_SRC_SEL_CORE_SRC = x) : d.coreOn = (x != 0) := by
  rw [Dev.coreOn, Dev.on, h]

/-- PLL_CTL holds EN alone (Table 02-5). -/
theorem storeWord_pllCtl (d : Dev) (v : Nat) : d.storeWord A.CLK_PLL_CTL v = d.wr R.CLK_PLL_CTL_EN (bits v 0 1) := by
  have hh : regHit A.CLK_PLL_CTL = some
      ⟨⟨"PLL_CTL", 0x44, 1, 0, false, 1, [⟨"EN", 0, 1, .rw, true, false, false, 0⟩]⟩, 0, 0⟩ := by decide
  exact storeWord_of_one_field d v hh rfl rfl rfl (by decide) (by decide)

/-- A write of PLL_CTL that is refused: 1 while MISMATCH is set, 0 while CORE_SRC is 1 (R26, Table 02-5). -/
theorem pllCtl_set_of_mismatch (q : Req) (h : d.on R.CLK_REF_STAT_MISMATCH = true) :
    d.pllCtl q 1 = d.perr A.CLK_PLL_CTL q causeValue := if_pos (.inl ⟨rfl, h⟩)

theorem pllCtl_set_of_match (q : Req) (h : d.on R.CLK_REF_STAT_MISMATCH = false) :
    d.pllCtl q 1 = d.wr R.CLK_PLL_CTL_EN 1 := by
  simp [Dev.pllCtl, h, storeWord_pllCtl, bits]

theorem pllCtl_clear_of_core (q : Req) (h : d.coreOn = true) :
    d.pllCtl q 0 = d.perr A.CLK_PLL_CTL q causeValue := if_pos (.inr ⟨rfl, h⟩)

theorem pllCtl_clear_of_no_core (q : Req) (h : d.coreOn = false) : d.pllCtl q 0 = d.pllStop := by
  simp [Dev.pllCtl, show d.on R.CLK_SRC_SEL_CORE_SRC = false from h]

/-- A PLL that may lock: LOCK and ACLK_SRC set and LOCKED is raised (R28, R36). -/
theorem pllLock_of_ready (hen : d.on R.CLK_PLL_CTL_EN = true) (hl : d.on R.CLK_PLL_STAT_LOCK = false)
    (hp : d.on R.CLK_REF_STAT_PRESENT = true) (hm : d.on R.CLK_REF_STAT_MISMATCH = false) (hr : d.ck.measuring ≠ 2) :
    pllLock d = ((d.wr R.CLK_PLL_STAT_LOCK 1).wr R.CLK_SRC_SEL_ACLK_SRC 1).irq .clk 0 clkLocked :=
  if_pos ⟨hen, by simp [hl], hp, by simp [hm], hr⟩

/-- Settles O23, by the command's operation: PLL_CTL takes the write or counts it, the PLL locks, or it loses lock. -/
theorem pllCommands : Obligations.PllCommands := by
  intro s q hc
  refine ⟨fun hp hm => ?_, fun hp hm => ?_, fun hp ho => ?_, fun hp ho => ?_, fun hen hl hpr hm hr => ?_, fun hl => ?_⟩
  · refine completes_of_permits (op := fun v d => d.pllCtl q v) rfl hc hp ?_
    rw [pllCtl_set_of_match q hm]
    exact ⟨(onlyRegs_iff s).mpr ((RegsOnly.refl _ _).wr _ _ (by decide)), by simp⟩
  · refine completes_of_permits (op := fun v d => d.pllCtl q v) rfl hc hp ?_
    rw [pllCtl_set_of_mismatch q hm]
    exact counted_perr s q (addr := A.CLK_PLL_CTL) (by decide) (by decide)
  · refine completes_of_permits (op := fun v d => d.pllCtl q v) rfl hc hp ?_
    rw [pllCtl_clear_of_no_core q ho]
    obtain ⟨hen, hlock, hlol, hcore, haclk⟩ := rd_pllStop s.dev
    exact ⟨(onlyRegs_iff s).mpr (pllStop_regsOnly s.dev), hen, hlock, hlol, haclk, coreOn_of_rd hcore⟩
  · refine completes_of_permits (op := fun v d => d.pllCtl q v) rfl hc hp ?_
    rw [pllCtl_clear_of_core q ho]
    exact counted_perr s q (addr := A.CLK_PLL_CTL) (by decide) (by decide)
  · refine completes_of_act (f := pllLock) rfl hc ?_
    rw [pllLock_of_ready hen hl hpr hm hr]
    refine ⟨(onlyRegs_iff s).mpr ?_, ?_, ?_, ?_, ?_⟩
    · exact (((RegsOnly.refl _ _).wr _ _ (by decide)).wr _ _ (by decide)).irq _ _ _ (by decide)
    · simp (disch := decide) [rd_irq_ne, rd_wr_ne]
    · simp (disch := decide) [rd_irq_ne]
    · exact on_eq_of_rd (by simp (disch := decide) [rd_irq_ne, rd_wr_ne])
    · simp (disch := decide) [rd_irq_clk, rd_wr_ne]
  · refine completes_of_act (f := lossOfLock) rfl hc ?_
    have h := lossOfLock_of_locked hl
    generalize lossOfLock s.dev = e at h ⊢
    exact ⟨(onlyRegs_iff s).mpr h.regsOnly, h.lock, h.lol, h.count, h.aclk, coreOn_of_rd h.core, h.raw⟩

end Sys2Proof.Machine
end

section
/-! The core clocks and the TCLK divider. -/
namespace Sys2Proof.Machine

variable {d e : Dev} {ws : List Nat}

/-! ## CORE_SRC -/

theorem srcSel_clear (d : Dev) (q : Req) : d.srcSel q 0 = d.coreStop := rfl

theorem srcSel_set_of_lock (q : Req) (h : d.on R.CLK_PLL_STAT_LOCK = true) :
    d.srcSel q 1 = d.wr R.CLK_SRC_SEL_CORE_SRC 1 := if_pos h

/-- The core clocks are not switched without lock (R39). -/
theorem srcSel_set_of_no_lock (q : Req) (h : d.on R.CLK_PLL_STAT_LOCK = false) :
    d.srcSel q 1 = d.perr A.CLK_SRC_SEL q causeValue := by
  have hn : ¬d.on R.CLK_PLL_STAT_LOCK = true := by simp [h]
  exact if_neg hn

/-! ## A voltage command and the end of a DVFS change -/

/-- A voltage command changes its regulator's record alone, which lies at offset 8 of a line of 16 bytes (R348). -/
theorem word_sendVout (d : Dev) (v : Vout) {a : Nat} (ha : a % 16 ≠ 8) : (d.sendVout v).word a = d.word a := by
  have hr : a ≠ A.PWR_REG_ACK v.reg := by
    simp only [A.PWR_REG_ACK]
    omega
  have hv : (R.PWR_REG_ACK_VOUT_ACK v.reg).words = 1 := by simp [Fld.words]
  have hs : (R.PWR_REG_ACK_STAT v.reg).words = 1 := by simp [Fld.words]
  rw [Dev.sendVout, word_wr_of_one_word _ _ hs hr, setPw_word, word_wr_of_one_word _ _ hv hr]
  split
  · rfl
  · split <;> rfl

@[simp] theorem sendVout_ck (d : Dev) (v : Vout) : (d.sendVout v).ck = d.ck := by
  simp only [Dev.sendVout, wr_ck, setPw_ck]
  split
  · rfl
  · split <;> rfl

theorem word_nextVout (d : Dev) {a : Nat} (ha : a % 16 ≠ 8) : d.nextVout.word a = d.word a := by
  unfold Dev.nextVout
  split
  · rw [word_sendVout _ _ ha, setPw_word]
  · rfl

@[simp] theorem nextVout_ck (d : Dev) : d.nextVout.ck = d.ck := by
  unfold Dev.nextVout
  split
  · simp
  · rfl

theorem word_queueVouts (d : Dev) (vs : List Vout) {a : Nat} (ha : a % 16 ≠ 8) : (d.queueVouts vs).word a = d.word a := by
  rw [Dev.queueVouts, word_nextVout _ ha, setPw_word]

@[simp] theorem queueVouts_ck (d : Dev) (vs : List Vout) : (d.queueVouts vs).ck = d.ck := by
  rw [Dev.queueVouts, nextVout_ck, setPw_ck]

theorem word_endDvfs (d : Dev) (ok : Bool) {a : Nat} (h : a ≠ A.PWR_DVFS_STAT) (h' : a ≠ A.PIRQ_RAW 2) :
    (d.endDvfs ok).word a = d.word a := by
  have hb : ∀ x : Power, ((d.setPw x).wr R.PWR_DVFS_STAT_BUSY 0).word a = d.word a := fun x => by
    rw [word_wr_of_one_word _ _ rfl h, setPw_word]
  cases ok with
  | true => exact ((word_wr_of_one_word _ _ rfl h').trans (word_wr_of_one_word _ _ rfl h)).trans (hb _)
  | false => exact (word_wr_of_one_word _ _ rfl h).trans (hb _)

@[simp] theorem endDvfs_ck (d : Dev) (ok : Bool) : (d.endDvfs ok).ck = d.ck := by
  cases ok <;> simp [Dev.endDvfs]

/-! ## DIV_CHANGE -/

theorem divTake_eq (d : Dev) : d.divTake =
    ((d.setCk { d.ck with divDue := false }).wr R.CLK_TCLK_DIV_CUR d.divTarget).irq .clk 0 clkDivDone := rfl

@[simp] theorem divTake_ck (d : Dev) : d.divTake.ck = { d.ck with divDue := false } := by simp [divTake_eq]

theorem divTake_regsOnly (d : Dev) :
    RegsOnly (d.setCk { d.ck with divDue := false }) d.divTake [A.CLK_TCLK_DIV, A.PIRQ_RAW 4] :=
  ((RegsOnly.refl _ _).wr _ _ (by decide)).irq _ _ _ (by decide)

/-- CUR takes the step yielded, REQ stays, and DIV_DONE is raised (R33). -/
theorem rd_divTake (d : Dev) : d.divTake.rd R.CLK_TCLK_DIV_CUR = d.divTarget % 8 ∧
    d.divTake.rd R.CLK_TCLK_DIV_REQ = d.rd R.CLK_TCLK_DIV_REQ ∧
    d.divTake.rd (R.PIRQ_RAW 4) = setBit (d.rd (R.PIRQ_RAW 4)) 3 := by
  simp (disch := decide) [divTake_eq, rd_irq_ne, rd_irq_clk, rd_wr_ne]

/-- DIV_CHANGE with a change due: the divider takes its step; a DVFS change then ends, sends its voltage command or waits. -/
theorem divChange_cases (h : d.divReady = true) : divChange d = d.divTake ∨
    d.pw.dvfs ≠ none ∧ (divChange d = d.divTake.endDvfs true ∨ ∃ v, divChange d = d.divTake.queueVouts [v]) := by
  have hpw : d.divTake.pw.dvfs = d.pw.dvfs := by simp [Dev.divTake]
  rw [divChange, if_neg (by simp [h]), ← hpw]
  dsimp only
  cases hx : d.divTake.pw.dvfs with
  | none => exact .inl rfl
  | some x =>
    dsimp only
    split
    · exact .inl rfl
    · refine .inr ⟨nofun, ?_⟩
      split
      · exact .inl rfl
      · split
        · exact .inr ⟨_, rfl⟩
        · exact .inl rfl

/-- What follows of a DVFS change leaves the divider, DIV_DONE and the clock unit's own state as the step left them. -/
theorem divChange_keeps (h : d.divReady = true) : (divChange d).ck = d.divTake.ck ∧
    ∀ a, a % 16 ≠ 8 → a ≠ A.PWR_DVFS_STAT → a ≠ A.PIRQ_RAW 2 → (divChange d).word a = d.divTake.word a := by
  obtain e | ⟨-, e | ⟨v, e⟩⟩ := divChange_cases h <;> rw [e]
  · exact ⟨rfl, fun _ _ _ _ => rfl⟩
  · exact ⟨endDvfs_ck _ _, fun a _ h1 h2 => word_endDvfs _ _ h1 h2⟩
  · exact ⟨queueVouts_ck _ _, fun a ha _ _ => word_queueVouts _ _ ha⟩

theorem divChange_of_no_dvfs (h : d.divReady = true) (hp : d.pw.dvfs = none) : divChange d = d.divTake := by
  obtain e | ⟨hn, -⟩ := divChange_cases h
  · exact e
  · exact absurd hp hn

/-! ## TCLK_DIV.REQ -/

/-- Table 02-3's least voltage of a step. -/
theorem stepMin_eq {c : Nat} (hc : c < 4) :
    stepMin c = if c = 0 then 850 else if c = 1 then 780 else if c = 2 then 720 else 650 := by
  interval_cases c <;> rfl

/-- R34 refuses a code above 3, and a faster step the recorded voltage does not allow. -/
theorem divOk_eq_false_iff (d : Dev) (c : Nat) : d.divOk c = false ↔
    4 ≤ c ∨ (c < d.rd R.CLK_TCLK_DIV_CUR ∧
      d.coreMv < if c = 0 then 850 else if c = 1 then 780 else if c = 2 then 720 else 650) := by
  simp only [Dev.divOk, Bool.and_eq_false_iff, Bool.or_eq_false_iff, decide_eq_false_iff_not]
  by_cases hc : c < 4
  · rw [← stepMin_eq hc]
    omega
  · exact iff_of_true (.inl (by omega)) (.inl (by omega))

theorem bits_code (c : BitVec 3) : bits c.toNat 0 3 = c.toNat := by
  simpa [bits] using c.isLt

theorem tclkDiv_of_refused (q : Req) (c : BitVec 3) (h : d.divOk c.toNat = false) :
    d.tclkDiv q c.toNat = d.perr A.CLK_TCLK_DIV q causeValue := by
  simp [Dev.tclkDiv, bits_code, h]

theorem tclkDiv_of_taken (q : Req) (c : BitVec 3) (h : d.divOk c.toNat = true) :
    d.tclkDiv q c.toNat = (d.wr R.CLK_TCLK_DIV_REQ c.toNat).setCk { d.ck with divDue := true } := by
  simp [Dev.tclkDiv, bits_code, h, Dev.setCk]

/-- Settles O24. CORE_SRC follows its write where there is lock; what a DVFS change does after the divider's step meets
neither TCLK_DIV nor the CLK page's PIRQ_RAW. -/
theorem coreClockCommands : Obligations.CoreClockCommands := by
  intro s q hc
  refine ⟨fun hp hl => ?_, fun hp hl => ?_, fun hp => ?_, fun ho hd => ?_⟩
  · refine completes_of_permits (op := fun v d => d.srcSel q v) rfl hc hp ?_
    rw [srcSel_set_of_lock q hl]
    refine ⟨(onlyRegs_iff s).mpr ((RegsOnly.refl _ _).wr _ _ (by decide)), coreOn_of_rd (rd_wr_same _ _ _), ?_⟩
    exact rd_wr_ne _ _ (by decide)
  · refine completes_of_permits (op := fun v d => d.srcSel q v) rfl hc hp ?_
    rw [srcSel_set_of_no_lock q hl]
    exact counted_perr s q (addr := A.CLK_SRC_SEL) (by decide) (by decide)
  · refine completes_of_permits (op := fun v d => d.srcSel q v) rfl hc hp ?_
    rw [srcSel_clear]
    refine ⟨(onlyRegs_iff s).mpr ((RegsOnly.refl _ _).wr _ _ (by decide)), coreOn_of_rd (rd_wr_same _ _ _), ?_⟩
    exact rd_wr_ne _ _ (by decide)
  · refine completes_of_act (f := divChange) rfl hc ?_
    have hready : s.dev.divReady = true := by
      simpa [Dev.divReady, ho, Dev.divTarget] using hd
    have ht := divTake_regsOnly s.dev
    obtain ⟨hcur, hreq, hraw⟩ := rd_divTake s.dev
    obtain ⟨hck, hw⟩ := divChange_keeps hready
    have hdiv : (divChange s.dev).word A.CLK_TCLK_DIV = s.dev.divTake.word A.CLK_TCLK_DIV :=
      hw _ (by decide) (by decide) (by decide)
    have hirq : (divChange s.dev).word (A.PIRQ_RAW 4) = s.dev.divTake.word (A.PIRQ_RAW 4) :=
      hw _ (by decide) (by decide) (by decide)
    refine ⟨rfl, ?_, (rd_of_word rfl hdiv).trans hcur, (rd_of_word rfl hdiv).trans hreq, ?_, fun hn => ?_⟩
    · rw [hck, divTake_ck]
    · rw [rd_of_word rfl hirq, hraw, testBit_setBit_same]
    · rw [divChange_of_no_dvfs hready hn]
      exact ⟨ht.word, state_eq_of_setCk s ht⟩

/-- Settles O25, by whether R34 lets REQ take the code. -/
theorem dividerRequests : Obligations.DividerRequests := by
  intro s q c hc hp least
  have hiff := divOk_eq_false_iff s.dev c.toNat
  refine ⟨fun h => ?_, fun h => ?_⟩
  · refine completes_of_permits (op := fun v d => d.tclkDiv q v) rfl hc hp ?_
    rw [tclkDiv_of_refused q c (hiff.mpr h)]
    exact counted_perr s q (addr := A.CLK_TCLK_DIV) (by decide) (by decide)
  · refine completes_of_permits (op := fun v d => d.tclkDiv q v) rfl hc hp ?_
    rw [tclkDiv_of_taken q c (Bool.eq_true_of_not_eq_false (mt hiff.mp h))]
    have ho := ((RegsOnly.refl s.dev [A.CLK_TCLK_DIV]).wr R.CLK_TCLK_DIV_REQ c.toNat (by decide)).setCk
      { s.dev.ck with divDue := true }
    refine ⟨state_eq_of_setCk s ho, ho.word, ?_, ?_⟩
    · rw [setCk_rd, rd_wr_same, Nat.mod_eq_of_lt c.isLt]
    · rw [setCk_rd, rd_wr_ne _ _ (by decide)]

end Sys2Proof.Machine
end

section
/-! The refutation of the frames' rules: a slip tells the stall, and a NOTIFY packet sends the flits before it on their way. -/
namespace Sys2Proof.Machine

/-- Stream 0 takes input from target port 0, which has its grid at 0, at STC 100. Its stall is bound to node 5, its event
ring is full, and Furrow port 0, ACTIVE, holds a flit whose VC is no VC of the link: the AVAIL field of VC 8178 would stand
in AUD[0].SLIP_COUNT, and the word that counts as its credits holds 1. -/
def strayFlitDev : Dev :=
  let d := [(R.AUD_PORT_CTL_EN 0, 1), (R.CLK_STC, 100), (R.SEQ_STRM_CFG_EN 0, 1), (R.STL_Q_STREAMS_MASK 1, 1),
    (R.STL_BIND_KIND 1, 2), (R.STL_BIND_NODE 1, 5), (R.STL_EV_HEAD 1, 2 ^ 16), (R.FUR_DEFAULT_PORT, 0),
    (R.FUR_STAT_STATE 0, furActive), (R.FUR_PVC_PDEPTH 0 8178, 1)].foldl (fun d p => d.wr p.1 p.2) Dev.reset
  (d.setLink 0 { Link.down with txq := [⟨8178, true, [], none⟩] }).setPort 0 { Port.idle with framed := true }

set_option maxRecDepth 100000 in
set_option exponentiation.threshold 600 in
/-- The slip is counted, and then the NOTIFY packet of the slip sends the stray flit, whose AVAIL overwrites the count. -/
theorem slipCount_strayFlitDev : strayFlitDev.rd (R.AUD_SLIP_COUNT (0 : Fin 4)) = 0 ∧
    (inputFrame (0 : Fin 4) [] strayFlitDev).rd (R.AUD_SLIP_COUNT (0 : Fin 4)) = 1 + 2 ^ 16 := by decide

set_option maxRecDepth 100000 in
/-- Its frame is one of a running target port, further than 4 ticks from the nearest grid point. -/
theorem strayFlitDev_slips : strayFlitDev.sy.coldHold = false ∧ strayFlitDev.portOn (0 : Fin 4) = true ∧
    strayFlitDev.on (R.AUD_PORT_CTL_ROLE (0 : Fin 4)) = false ∧ (strayFlitDev.port (0 : Fin 4)).framed = true ∧
    (strayFlitDev.port (0 : Fin 4)).lost = false ∧
    ¬(nearest (strayFlitDev.port (0 : Fin 4)).grid (strayFlitDev.smpTicks (0 : Fin 4)) strayFlitDev.stc ≤ strayFlitDev.stc + 4 ∧
      strayFlitDev.stc ≤ nearest (strayFlitDev.port (0 : Fin 4)).grid (strayFlitDev.smpTicks (0 : Fin 4)) strayFlitDev.stc + 4) := by decide

/-- What holds of the state a command that acts answers holds of the device it leaves. -/
theorem of_completes_act {i : Instr} {s : State} {P : State → Prop} {f : Dev → Dev} (hx : exec i s = s.act f)
    (hc : s.dev.sy.coldHold = false) (h : Completes i s P) : P { s with dev := f s.dev } := by
  obtain ⟨t, ht, hp⟩ := h
  rw [hx, State.act, State.always, if_neg (by simp [hc])] at ht
  exact Host.Outcome.next.inj ht ▸ hp

/-- What the statement's clause of the slip would say of the count. -/
theorem slipCount_of_portCommands (h : Obligations.PortCommands) {d : Dev} (p : Fin 4) (hcold : d.sy.coldHold = false)
    (hon : d.portOn p = true) (hrole : d.on (R.AUD_PORT_CTL_ROLE p) = false) (hframed : (d.port p).framed = true)
    (hlost : (d.port p).lost = false)
    (hfar : ¬(nearest (d.port p).grid (d.smpTicks p) d.stc ≤ d.stc + 4 ∧
      d.stc ≤ nearest (d.port p).grid (d.smpTicks p) d.stc + 4)) :
    (inputFrame p [] d).rd (R.AUD_SLIP_COUNT p) = min (d.rd (R.AUD_SLIP_COUNT p) + 1) maxWord := by
  obtain ⟨-, -, htarget, -, -⟩ := h ⟨d, []⟩ p hcold
  obtain ⟨-, -, hslip⟩ := htarget [] hon hrole
  obtain ⟨-, -, -, hcount, -⟩ := of_completes_act (f := inputFrame p []) rfl hcold (hslip hframed hlost hfar)
  exact hcount

/-- Refutes O26: the clause of the slip speaks of every state, and in one whose transmit queue holds a flit on a VC above 7
the packet that tells the slip changes SLIP_COUNT after it was counted. -/
theorem not_portCommands : ¬Obligations.PortCommands := by
  intro h
  obtain ⟨hcold, hon, hrole, hframed, hlost, hfar⟩ := strayFlitDev_slips
  have hcount := slipCount_of_portCommands h 0 hcold hon hrole hframed hlost hfar
  rw [slipCount_strayFlitDev.1, slipCount_strayFlitDev.2] at hcount
  exact absurd hcount (by decide)

end Sys2Proof.Machine
end

section
/-! SUPPORT. Streams and ports as the device holds them, and the device that differs in its registers and audio state alone. -/
namespace Sys2Proof.Machine

variable {d e : Dev}

/-! ## Streams -/

@[simp] theorem stream_setStream_same (d : Dev) (x : Nat) (y : Stream) : (d.setStream x y).stream x = y :=
  NMap.get_set_same _ _ _ _

theorem stream_setStream_ne (d : Dev) {x k : Nat} (y : Stream) (h : k ≠ x) : (d.setStream x y).stream k = d.stream k :=
  NMap.get_set_ne _ _ _ h

theorem stream_of_streams (h : e.au.streams = d.au.streams) (x : Nat) : e.stream x = d.stream x := by
  simp only [Dev.stream, h]

@[simp] theorem wr_stream (d : Dev) (f : Fld) (v x : Nat) : (d.wr f v).stream x = d.stream x := stream_of_streams (by simp) x
@[simp] theorem irq_stream (d : Dev) (k : PageKind) (n b x : Nat) : (d.irq k n b).stream x = d.stream x := wr_stream _ _ _ _

@[simp] theorem setDet_stream_same (d : Dev) (x : Nat) (z : Option Detector) :
    (d.setDet x z).stream x = { d.stream x with det := z } := by simp [Dev.setDet]

theorem setDet_stream_ne (d : Dev) {x k : Nat} (z : Option Detector) (h : k ≠ x) : (d.setDet x z).stream k = d.stream k := by
  simp [Dev.setDet, stream_setStream_ne _ _ h]

/-! ## Storing a register word -/

/-- A register write that no rule gives an effect of its own changes that word alone. -/
theorem storeWord_regsOnly (d : Dev) (a v : Nat) : RegsOnly d (d.storeWord a v) [a] := by
  rw [Dev.storeWord]
  split
  · exact RegsOnly.refl _ _
  · exact ⟨rfl, fun b hb => word_setWord_ne d _ (by simpa using hb)⟩

theorem RegsOnly.stream {ws : List Nat} (h : RegsOnly d e ws) (x : Nat) : e.stream x = d.stream x := by
  rw [h.rest]
  rfl

/-! ## Devices that differ in their registers and audio state -/

/-- `e` is `d` but for its registers and its audio state. -/
def AudioOnly (d e : Dev) : Prop := ∃ r a, e = { d with regs := r, au := a }

theorem AudioOnly.refl (d : Dev) : AudioOnly d d := ⟨d.regs, d.au, rfl⟩

theorem RegsOnly.audioOnly {ws : List Nat} (h : RegsOnly d e ws) : AudioOnly d e := ⟨e.regs, d.au, h.rest⟩

theorem AudioOnly.wr (h : AudioOnly d e) (f : Fld) (v : Nat) : AudioOnly d (e.wr f v) := by
  obtain ⟨r, a, rfl⟩ := h
  obtain ⟨r', hr⟩ := wr_eq { d with regs := r, au := a } f v
  exact ⟨r', a, hr⟩

theorem AudioOnly.setStream (h : AudioOnly d e) (x : Nat) (y : Stream) : AudioOnly d (e.setStream x y) := by
  obtain ⟨r, a, rfl⟩ := h
  exact ⟨_, _, rfl⟩

theorem AudioOnly.setDet (h : AudioOnly d e) (x : Nat) (z : Option Detector) : AudioOnly d (e.setDet x z) :=
  (h.setStream _ _).wr _ _

theorem AudioOnly.irq (h : AudioOnly d e) (k : PageKind) (n b : Nat) : AudioOnly d (e.irq k n b) := h.wr _ _

theorem AudioOnly.state_eq (s : State) (h : AudioOnly s.dev e) :
    ({ s with dev := e } : State) = { s with dev := { s.dev with regs := e.regs, au := e.au } } := by
  obtain ⟨r, a, rfl⟩ := h
  rfl

/-! ## Fields of a stream's own registers -/

/-- Fields in words apart. -/
theorem apart_of_addr {f g : Fld} (h : f.addr + 4 * f.words ≤ g.addr ∨ g.addr + 4 * g.words ≤ f.addr) : f.apart g = true := by
  rw [Fld.apart, decide_eq_true_eq]
  tauto

/-- Fields of one word whose bits do not meet. -/
theorem apart_of_bits {a lo w lo' w' : Nat} (hw : (lo + w + 31) / 32 = (lo' + w' + 31) / 32) (h : lo + w ≤ lo' ∨ lo' + w' ≤ lo) :
    (⟨a, lo, w⟩ : Fld).apart ⟨a, lo', w'⟩ = true := by
  simp [Fld.apart, Fld.words, hw, h]

/-- A one-bit field that is on reads 1. -/
theorem rd_of_on {f : Fld} (hf : f.width = 1) (h : d.on f = true) : d.rd f = 1 := by
  have hlt := rd_lt d f
  rw [hf] at hlt
  rw [Dev.on, bne_iff_ne] at h
  omega

/-- A one-bit field of one word is a bit of it. -/
theorem rd_eq_testBit (d : Dev) {f : Fld} (h1 : f.words = 1) (hw : f.width = 1) :
    d.rd f = b2n ((d.word f.addr).testBit f.lo) := by
  have hb : ∀ v i, bits v i 1 = (v.testBit i).toNat := fun v i => by
    rw [Nat.toNat_testBit, bits, Nat.shiftRight_eq_div_pow, Nat.pow_one]
  rw [Dev.rd, h1, hw, hb]
  simp only [Dev.words, Nat.mul_zero, Nat.add_zero]
  cases (d.word f.addr).testBit f.lo <;> rfl

end Sys2Proof.Machine
end

section
/-! The zero-crossing detector and MUTE_N. -/
namespace Sys2Proof.Machine

variable {d e : Dev}

/-! ## The detector -/

/-- PIRQ_RAW of the SEQ page after an event of it; the registers above it stay. -/
theorem rd_irq_seq (d : Dev) {b : Nat} (hb : b < 32) :
    (d.irq .seq 0 b).rd (R.PIRQ_RAW 11) = setBit (d.rd (R.PIRQ_RAW 11)) b := rd_irq_raw d .seq 0 hb

theorem rd_irq_seq_ne (d : Dev) (b : Nat) {g : Fld} (h : A.SEQ_MUTE_CTL ≤ g.addr) : (d.irq .seq 0 b).rd g = d.rd g :=
  rd_irq_ne d .seq 0 b (apart_of_addr (.inl (le_trans (by decide) h)))

/-- The fields of a promotion stand below the words of the contexts. -/
theorem rd_wr_stat_promo (d : Dev) {x : Nat} (hx : x < 32) (lo w v : Nat) :
    (d.wr ⟨A.SEQ_STRM_STAT x, lo, w⟩ v).rd (R.SEQ_PROMO_STAT_STATE x) = d.rd (R.SEQ_PROMO_STAT_STATE x) := by
  refine rd_wr_ne _ _ (apart_of_addr (.inr ?_))
  simp only [Fld.words, A.SEQ_PROMO_STAT, A.SEQ_STRM_STAT]
  omega

theorem setDet_armed (d : Dev) (x : Nat) (z : Option Detector) :
    (d.setDet x z).rd (R.SEQ_STRM_STAT_ZC_ARMED x) = b2n z.isSome := by
  rw [Dev.setDet, rd_wr_same]
  cases z <;> rfl

theorem setDet_ports (d : Dev) (x : Nat) (z : Option Detector) : (d.setDet x z).au.ports = d.au.ports := by simp [Dev.setDet, Dev.setStream]

/-- Putting a field's own bits back changes nothing. -/
theorem setBits_bits (v lo w : Nat) : setBits v lo w (bits v lo w) = v := by
  apply Nat.eq_of_testBit_eq
  intro i
  rw [testBit_setBits]
  split
  · rfl
  · split
    · rw [testBit_bits, decide_eq_true (by omega), Bool.true_and, show lo + (i - lo) = i by omega]
    · rfl

theorem clrBit_setBit (v i : Nat) (h : v.testBit i = false) : clrBit (setBit v i) i = v := by
  apply Nat.eq_of_testBit_eq
  intro j
  rw [testBit_clrBit, testBit_setBit]
  by_cases hj : i = j
  · simp [← hj, h]
  · simp [hj]

/-- A write of 1 to ARM that changes nothing else arms the detector, whether the stream is live or not (R62). -/
theorem strmZc_arm (d : Dev) (q : Req) (x : Nat) (h : (d.word (A.SEQ_STRM_ZC x)).testBit 31 = false) :
    ∃ e, RegsOnly d e [A.SEQ_STRM_ZC x] ∧ d.strmZc q x (setBit (d.word (A.SEQ_STRM_ZC x)) 31) = e.armZc x := by
  have hbit := testBit_setBit_same (d.word (A.SEQ_STRM_ZC x)) 31
  rw [Dev.strmZc]
  cases hen : d.on (R.SEQ_STRM_CFG_EN x) with
  | true => exact ⟨d, RegsOnly.refl _ _, by simp [hbit, clrBit_setBit _ _ h]⟩
  | false => exact ⟨_, storeWord_regsOnly d _ (setBit (d.word (A.SEQ_STRM_ZC x)) 31), by simp [hbit]⟩

/-- What a time-out leaves: first a watching promotion goes on to its crossfade (R63, R210). -/
def Dev.fadeIfWatching (d : Dev) (x : Nat) : Dev := if d.watching x then d.wr (R.SEQ_PROMO_STAT_STATE x) 4 else d

theorem zcTimeout_of_late {x : Nat} {z : Detector} (hz : (d.stream x).det = some z) (hl : d.zcLimit x ≤ z.age) :
    zcTimeout x d = (((d.fadeIfWatching x).setDet x none).wr (R.SEQ_STRM_STAT_ZC_TO x) 1).irq .seq 0 seqZc := by
  rw [zcTimeout, hz]
  exact if_pos hl

@[simp] theorem fadeIfWatching_stream (d : Dev) (x k : Nat) : (d.fadeIfWatching x).stream k = d.stream k := by
  rw [Dev.fadeIfWatching]
  split <;> simp

theorem fadeIfWatching_audioOnly (d : Dev) (x : Nat) : AudioOnly d (d.fadeIfWatching x) := by
  rw [Dev.fadeIfWatching]
  split
  · exact (AudioOnly.refl d).wr _ _
  · exact AudioOnly.refl d

theorem rd_fadeIfWatching (d : Dev) (x : Nat) : (d.fadeIfWatching x).rd (R.SEQ_PROMO_STAT_STATE x) =
    if d.watching x then 4 else d.rd (R.SEQ_PROMO_STAT_STATE x) := by
  rw [Dev.fadeIfWatching]
  split
  · exact rd_wr_same _ _ _
  · rfl

/-! ## MUTE_CTL -/

/-- The device shows MUTE_N: registers stay, and unless its pad is held it follows the two causes (R59, R61, R347). -/
theorem showMute_regs (d : Dev) : d.showMute.regs = d.regs := by
  rw [Dev.showMute]
  dsimp only
  split <;> rfl

theorem showMute_muteLow (d : Dev) : d.showMute.au.muteLow =
    if (d.rd R.BARN_PAD_STAT_HELD).testBit 2 then d.au.muteLow
    else !d.on R.SEQ_MUTE_CTL_MUTE_RELEASE || d.on R.SEQ_MUTE_CTL_MUTE_FORCE := by
  rw [Dev.showMute]
  by_cases hh : (d.rd R.BARN_PAD_STAT_HELD).testBit 2 = true
  · simp [hh]
  · by_cases hl : (!d.on R.SEQ_MUTE_CTL_MUTE_RELEASE || d.on R.SEQ_MUTE_CTL_MUTE_FORCE) = d.au.muteLow
    · simp [hh, hl]
    · simp [hh, hl, Dev.emit]

/-- MUTE_N that already follows its causes changes nothing. -/
theorem showMute_of_follows (h : (!d.on R.SEQ_MUTE_CTL_MUTE_RELEASE || d.on R.SEQ_MUTE_CTL_MUTE_FORCE) = d.au.muteLow) :
    d.showMute = d := if_pos (.inl h)

@[simp] theorem showMute_rd (d : Dev) (f : Fld) : d.showMute.rd f = d.rd f := rd_of_regs (showMute_regs d) f
@[simp] theorem showMute_word (d : Dev) (a : Nat) : d.showMute.word a = d.word a := by simp only [Dev.word, showMute_regs]

theorem word_wr_muteCtl (d : Dev) (lo v : Nat) {a : Nat} (hlo : lo < 32) (ha : a ≠ A.SEQ_MUTE_CTL) :
    (d.wr ⟨A.SEQ_MUTE_CTL, lo, 1⟩ v).word a = d.word a := by
  have h1 : (⟨A.SEQ_MUTE_CTL, lo, 1⟩ : Fld).words = 1 := by
    simp only [Fld.words]
    omega
  exact word_wr_of_one_word d v h1 ha

/-- A write that keeps MUTE_FORCE, as a release is one, holds that bit of the word and no bit above it. -/
theorem keepForce_eq (w k : Nat) : (w &&& 4) + k = 4 * b2n (w.testBit 2) + k := by
  have h : w &&& 4 = (w.testBit 2).toNat * 4 := Nat.and_two_pow w 2
  rw [h]
  cases w.testBit 2 <;> rfl

/-- The three bits of a MUTE_CTL word. -/
theorem bits_muteWord (b : Bool) {k : Nat} (hk : k < 4) : bits (4 * b2n b + k) 2 1 = b2n b ∧
    (4 * b2n b + k).testBit 0 = k.testBit 0 ∧ (4 * b2n b + k).testBit 1 = k.testBit 1 := by
  cases b <;> interval_cases k <;> decide

/-- Writing a field of one word with what it reads leaves every register word as it was. -/
theorem wr_rd_regsOnly (d : Dev) {f : Fld} (h : f.words = 1) : RegsOnly d (d.wr f (d.rd f)) [] := by
  obtain ⟨r, hr⟩ := wr_eq d f (d.rd f)
  refine ⟨by rw [hr], fun a _ => ?_⟩
  by_cases ha : a = f.addr
  · have hw := word_lt d f.addr
    rw [ha, wr_of_one_word d _ h, word_setWord_same, Dev.rd, h]
    simp only [Dev.words, Nat.mul_zero, Nat.add_zero]
    rw [setBits_bits, Nat.mod_eq_of_lt hw]
  · exact word_wr_of_one_word d _ h ha

theorem RegsOnly.rd_all (h : RegsOnly d e []) (g : Fld) : e.rd g = d.rd g := h.rd g (by simp [Fld.outside])

/-- What counts as an ignored write of one device counts as one of another with the same register words. -/
theorem counted_of_same_words {s t : State} {p target off cause : Nat} {q : Req} (h : RegsOnly s.dev e [])
    (hc : Counted { s with dev := e } t p target off q cause) : Counted s t p target off q cause := by
  have honly : ∀ {ws}, OnlyRegs { s with dev := e } t ws → OnlyRegs s t ws := by
    rintro ws ⟨ht, hw⟩
    refine ⟨?_, fun a ha => (hw a ha).trans (h.word a (by simp))⟩
    rw [h.rest] at ht
    exact ht
  obtain ⟨hcount, hfirst⟩ := hc
  dsimp only at hcount hfirst
  rw [h.rd_all] at hcount hfirst
  refine ⟨hcount, ?_⟩
  split at hfirst
  next h0 =>
    obtain ⟨h1, h2, h3, h4, h5⟩ := hfirst
    rw [if_pos h0]
    exact ⟨h1, h2, h3, h4, honly h5⟩
  next h0 =>
    rw [if_neg h0]
    exact honly hfirst

/-- A write of MUTE_CTL that names no new MUTE_FORCE stores the old one. -/
theorem muteForce_keep (d : Dev) {k : Nat} (hk : k < 4) : d.muteForce ((d.word A.SEQ_MUTE_CTL &&& 4) + k) =
    (d.wr R.SEQ_MUTE_CTL_MUTE_FORCE (d.rd R.SEQ_MUTE_CTL_MUTE_FORCE)).showMute := by
  rw [Dev.muteForce, keepForce_eq, (bits_muteWord _ hk).1, rd_eq_testBit d rfl rfl]

theorem muteRelease_of_clear (q : Req) {v : Nat} (h : v.testBit 1 = false) : d.muteRelease q v = d := by
  simp [Dev.muteRelease, h]

theorem outRelease_of_clear {v : Nat} (h : v.testBit 0 = false) : d.outRelease v = d := by simp [Dev.outRelease, h]

theorem outRelease_of_set {v : Nat} (h : v.testBit 0 = true) : d.outRelease v = d.wr R.SEQ_MUTE_CTL_OUT_RELEASE 1 := by
  simp [Dev.outRelease, h]

/-- A release of MUTE_N that may be made (R59). -/
theorem muteRelease_of_ready (q : Req) {v : Nat} (hv : v.testBit 1 = true) (hr : d.on R.SEQ_MUTE_CTL_MUTE_RELEASE = false)
    (ho : d.on R.SEQ_MUTE_CTL_OUT_RELEASE = true) (hf : d.on R.SEQ_MUTE_CTL_MUTE_FORCE = false) :
    d.muteRelease q v = (d.wr R.SEQ_MUTE_CTL_MUTE_RELEASE 1).showMute := by
  simp [Dev.muteRelease, hv, hr, ho, hf]

/-- A release of MUTE_N before OUT_RELEASE is refused (R59). -/
theorem muteRelease_of_early (q : Req) {v : Nat} (hv : v.testBit 1 = true) (hr : d.on R.SEQ_MUTE_CTL_MUTE_RELEASE = false)
    (ho : d.on R.SEQ_MUTE_CTL_OUT_RELEASE = false) : d.muteRelease q v = d.perr A.SEQ_MUTE_CTL q causeValue := by
  simp [Dev.muteRelease, hv, hr, ho]

/-- OUT_RELEASE: the field is set, the other two stay (R59). -/
theorem muteCtl_out (d : Dev) (q : Req) :
    let e := d.muteCtl q ((d.word A.SEQ_MUTE_CTL &&& 4) + 1)
    (∀ a, a ∉ [A.SEQ_MUTE_CTL] → e.word a = d.word a) ∧ e.rd R.SEQ_MUTE_CTL_OUT_RELEASE = 1 ∧
    e.rd R.SEQ_MUTE_CTL_MUTE_RELEASE = d.rd R.SEQ_MUTE_CTL_MUTE_RELEASE ∧
    e.rd R.SEQ_MUTE_CTL_MUTE_FORCE = d.rd R.SEQ_MUTE_CTL_MUTE_FORCE := by
  intro e
  obtain ⟨-, h0, h1⟩ := bits_muteWord ((d.word A.SEQ_MUTE_CTL).testBit 2) (k := 1) (by decide)
  have hk := wr_rd_regsOnly d (f := R.SEQ_MUTE_CTL_MUTE_FORCE) rfl
  have he : e = ((d.wr R.SEQ_MUTE_CTL_MUTE_FORCE (d.rd R.SEQ_MUTE_CTL_MUTE_FORCE)).showMute).wr R.SEQ_MUTE_CTL_OUT_RELEASE 1 := by
    simp only [e, Dev.muteCtl, muteForce_keep d (k := 1) (by decide)]
    rw [keepForce_eq, muteRelease_of_clear q (h1.trans rfl), outRelease_of_set (h0.trans rfl)]
  rw [he]
  refine ⟨fun a ha => ?_, rd_wr_same _ _ _, ?_, ?_⟩
  · rw [word_wr_muteCtl _ _ _ (by decide) (by simpa using ha), showMute_word, hk.word a (by simp)]
  · rw [rd_wr_ne _ _ (by decide), showMute_rd, hk.rd_all]
  · rw [rd_wr_ne _ _ (by decide), showMute_rd, hk.rd_all]

/-- MUTE_FORCE: the bit is stored and shown (R61). -/
theorem muteCtl_force (d : Dev) (q : Req) (on : Bool) :
    d.muteCtl q (4 * b2n on) = (d.wr R.SEQ_MUTE_CTL_MUTE_FORCE (b2n on)).showMute := by
  obtain ⟨hb, h0, h1⟩ := bits_muteWord on (k := 0) (by decide)
  rw [Nat.add_zero] at hb h0 h1
  rw [Dev.muteCtl, muteRelease_of_clear q (h1.trans rfl), outRelease_of_clear (h0.trans rfl), Dev.muteForce, hb]

/-- A write that asks for the release of MUTE_N while it is low and not released: what remains is the release itself. -/
theorem muteCtl_release (d : Dev) (q : Req) (hl : d.au.muteLow = true) (hr : d.on R.SEQ_MUTE_CTL_MUTE_RELEASE = false) :
    ∃ e v, RegsOnly d e [] ∧ v.testBit 1 = true ∧ d.muteCtl q ((d.word A.SEQ_MUTE_CTL &&& 4) + 2) = e.muteRelease q v := by
  obtain ⟨-, h0, h1⟩ := bits_muteWord ((d.word A.SEQ_MUTE_CTL).testBit 2) (k := 2) (by decide)
  have hk := wr_rd_regsOnly d (f := R.SEQ_MUTE_CTL_MUTE_FORCE) rfl
  refine ⟨_, _, hk, h1, ?_⟩
  rw [Dev.muteCtl, muteForce_keep d (k := 2) (by decide), keepForce_eq, outRelease_of_clear (h0.trans rfl),
    showMute_of_follows]
  simp [on_eq_of_rd (hk.rd_all R.SEQ_MUTE_CTL_MUTE_RELEASE), hr, hl]

theorem on_of_rd {f : Fld} {on : Bool} (hv : d.rd f = b2n on) : d.on f = on := by
  rw [Dev.on, hv]
  cases on <;> rfl

/-- Settles O29, by the command: the detector's own update, or the write of MUTE_CTL cut into its three fields. -/
theorem detectorAndMute : Obligations.DetectorAndMute := by
  intro s x q hc
  refine ⟨fun hp hb => ?_, fun z hz hl => ?_, fun hp => ?_, fun hp hlow hrel => ⟨fun hout hforce => ?_, fun hout => ?_⟩,
    fun on hp => ?_⟩
  · refine completes_of_act (f := fun d => d.regBy q (A.SEQ_STRM_ZC x) (setBit (d.word (A.SEQ_STRM_ZC x)) 31)
      (fun v d => d.strmZc q x v)) rfl hc ?_
    obtain ⟨e, he, harm⟩ := strmZc_arm s.dev q x hb
    dsimp only
    rw [regBy_of_permits hp, harm, Dev.armZc]
    refine ⟨(he.audioOnly.setDet _ _).state_eq s, ?_, ?_, setDet_armed _ _ _, fun y hy => ?_⟩
    · rw [setDet_ports, he.rest]
    · rw [setDet_stream_same, he.stream]
    · rw [setDet_stream_ne _ _ hy, he.stream]
  · refine completes_of_act (f := zcTimeout x) rfl hc ?_
    rw [zcTimeout_of_late hz hl]
    have hstat : A.SEQ_MUTE_CTL ≤ A.SEQ_STRM_STAT x := le_trans (by decide) (Nat.le_add_right _ _)
    have hpromo : A.SEQ_MUTE_CTL ≤ A.SEQ_PROMO_STAT x := le_trans (by decide) (Nat.le_add_right _ _)
    refine ⟨((((fadeIfWatching_audioOnly s.dev x).setDet _ _).wr _ _).irq _ _ _).state_eq s, by simp, ?_, ?_, ?_, ?_⟩
    · rw [rd_irq_seq_ne _ _ hstat]
      exact (rd_wr_ne _ _ (apart_of_bits (by rfl) (.inr (by decide)))).trans (setDet_armed _ _ _)
    · rw [rd_irq_seq_ne _ _ hstat]
      exact rd_wr_same _ _ _
    · rw [rd_irq_seq _ (by decide), testBit_setBit_same]
    · rw [rd_irq_seq_ne _ _ hpromo, R.SEQ_STRM_STAT_ZC_TO, rd_wr_stat_promo _ x.isLt, Dev.setDet,
        rd_wr_stat_promo _ x.isLt, setStream_rd, rd_fadeIfWatching]
  · refine completes_of_act (f := fun d => d.regBy q A.SEQ_MUTE_CTL ((d.word A.SEQ_MUTE_CTL &&& 4) + 1)
      (fun v d => d.muteCtl q v)) rfl hc ?_
    rw [regBy_of_permits hp]
    exact muteCtl_out s.dev q
  · refine completes_of_act (f := fun d => d.regBy q A.SEQ_MUTE_CTL ((d.word A.SEQ_MUTE_CTL &&& 4) + 2)
      (fun v d => d.muteCtl q v)) rfl hc ?_
    rw [regBy_of_permits hp]
    obtain ⟨e, v, he, hv, heq⟩ := muteCtl_release s.dev q hlow hrel
    have hon : ∀ f, e.on f = s.dev.on f := fun f => on_eq_of_rd (he.rd_all f)
    rw [heq, muteRelease_of_ready q hv ((hon _).trans hrel) ((hon _).trans hout) ((hon _).trans hforce)]
    refine ⟨fun a ha => ?_, ?_, ?_⟩
    · rw [showMute_word, word_wr_muteCtl _ _ _ (by decide) (by simpa using ha), he.word a (by simp)]
    · rw [showMute_rd]
      exact rd_wr_same _ _ _
    · have hrel' : (e.wr R.SEQ_MUTE_CTL_MUTE_RELEASE 1).on R.SEQ_MUTE_CTL_MUTE_RELEASE = true :=
        on_of_rd (on := true) (rd_wr_same _ _ _)
      rw [showMute_muteLow, hrel', on_wr_ne _ _ (by decide), hon, hforce, rd_wr_ne _ _ (by decide), he.rd_all, wr_au, he.rest]
      simp [hlow]
  · refine completes_of_act (f := fun d => d.regBy q A.SEQ_MUTE_CTL ((d.word A.SEQ_MUTE_CTL &&& 4) + 2)
      (fun v d => d.muteCtl q v)) rfl hc ?_
    rw [regBy_of_permits hp]
    obtain ⟨e, v, he, hv, heq⟩ := muteCtl_release s.dev q hlow hrel
    have hon : ∀ f, e.on f = s.dev.on f := fun f => on_eq_of_rd (he.rd_all f)
    rw [heq, muteRelease_of_early q hv ((hon _).trans hrel) ((hon _).trans hout)]
    exact counted_of_same_words he (counted_perr { s with dev := e } q (addr := A.SEQ_MUTE_CTL) (by decide) (by decide))
  · refine completes_of_permits (op := fun v d => d.muteCtl q v) rfl hc hp ?_
    rw [muteCtl_force]
    have hrd : (s.dev.wr R.SEQ_MUTE_CTL_MUTE_FORCE (b2n on)).rd R.SEQ_MUTE_CTL_MUTE_FORCE = b2n on := by
      rw [rd_wr_same]
      cases on <;> rfl
    refine ⟨fun a ha => ?_, ?_, ?_, fun hh => ?_⟩
    · rw [showMute_word, word_wr_muteCtl _ _ _ (by decide) (by simpa using ha)]
    · rw [showMute_rd, hrd]
    · rw [showMute_rd, rd_wr_ne _ _ (by decide)]
    · rw [showMute_muteLow, on_wr_ne _ _ (by decide), on_of_rd hrd, rd_wr_ne _ _ (by decide), hh]
      rfl

end Sys2Proof.Machine
end

section
/-! SUPPORT. What the work of the sequencer between two launches leaves alone: the fields a launch is decided by, and how far
a stream has come. -/
namespace Sys2Proof.Machine

variable {d e f : Dev} {lim : Nat}

/-! ## The fields a launch is decided by -/

/-- The fields that tell whether and with which deadline a block is launched (R48, R51, R333, R372, R393). -/
inductive Heeded : Fld → Prop
  | limp : Heeded R.SYS_LIMP_CAUSE
  | power : Heeded R.PWR_STAT_STATE
  | grant {n : Nat} (h : n ∈ hostStalls) : Heeded (R.STL_Q_STREAMS_MASK n)
  | job {n : Nat} (h : n ∈ hostStalls) : Heeded (R.STL_JOB_STAT_STATE n)
  | enable {x : Nat} (h : x < 32) : Heeded (R.SEQ_STRM_CFG_EN x)
  | size {x : Nat} (h : x < 32) : Heeded (R.SEQ_STRM_CFG_BLK x)
  | input {x : Nat} (h : x < 32) : Heeded (R.SEQ_STRM_CFG_IN_PORT x)
  | rate {p : Nat} (h : p < 4) : Heeded (R.AUD_PORT_CTL_RATE p)

/-- A field that ends in its first word. -/
theorem words_of_le {a lo w : Nat} (h0 : 0 < lo + w) (h : lo + w ≤ 32) : (⟨a, lo, w⟩ : Fld).words = 1 := by
  simp only [Fld.words]
  omega

theorem mem_hostStalls {n : Nat} : n ∈ hostStalls ↔ 1 ≤ n ∧ n ≤ 8 := by
  simp only [hostStalls, List.mem_cons, List.not_mem_nil, or_false]
  omega

/-- Where these fields stand. -/
theorem Heeded.place {g : Fld} (h : Heeded g) : g.words = 1 ∧
    (g.addr = 0x48 ∨ g.addr = 0x2040 ∨ (∃ x < 32, g.addr = 0xB300 + 96 * x) ∨
      (∃ n, 1 ≤ n ∧ n ≤ 8 ∧ (g.addr = 0x10050 + 4096 * n ∨ g.addr = 0x10070 + 4096 * n)) ∨
      (∃ p < 4, g.addr = 0x50040 + 4096 * p ∧ g.lo + g.width ≤ 16)) := by
  cases h with
  | limp => exact ⟨rfl, .inl rfl⟩
  | power => exact ⟨rfl, .inr (.inl rfl)⟩
  | @enable x h | @size x h | @input x h =>
    exact ⟨words_of_le (by decide) (by decide), .inr (.inr (.inl ⟨x, h, by simp only [A.SEQ_STRM_CFG]; omega⟩))⟩
  | @grant n h =>
    obtain ⟨h1, h8⟩ := mem_hostStalls.mp h
    exact ⟨words_of_le (by decide) (by decide), .inr (.inr (.inr (.inl ⟨n, h1, h8, .inl (by simp only [A.STL_Q_STREAMS]; omega)⟩)))⟩
  | @job n h =>
    obtain ⟨h1, h8⟩ := mem_hostStalls.mp h
    exact ⟨words_of_le (by decide) (by decide), .inr (.inr (.inr (.inl ⟨n, h1, h8, .inr (by simp only [A.STL_JOB_STAT]; omega)⟩)))⟩
  | @rate p h =>
    exact ⟨words_of_le (by decide) (by decide), .inr (.inr (.inr (.inr ⟨p, h, by simp only [A.AUD_PORT_CTL]; omega, by simp⟩)))⟩

/-- A write of `f` leaves the heeded fields below `lim` alone. -/
def Fld.spares (f : Fld) (lim : Nat) : Prop := ∀ g, Heeded g → g.addr < lim → f.apart g = true

/-- The pages of PWR and BARN past, up to the words of the stream contexts. -/
theorem spares_low {f : Fld} (h : 0x3000 ≤ f.addr) (h' : f.addr + 4 * f.words ≤ 0xB300) : f.spares lim := by
  intro g hg _
  refine apart_of_addr ?_
  obtain ⟨hw, h1 | h1 | ⟨x, hx, h1⟩ | ⟨n, h1, h8, h2 | h2⟩ | ⟨p, hp, h1, -⟩⟩ := hg.place <;> omega

/-- A word of a stream context beside STRM_CFG. -/
theorem spares_context {f : Fld} {x k : Nat} (ha : f.addr = 0xB000 + k + x * 96) (hx : x < 32) (hk : 0x304 ≤ k)
    (h : k + 4 * f.words ≤ 0x360) : f.spares lim := by
  intro g hg _
  refine apart_of_addr ?_
  obtain ⟨hw, h1 | h1 | ⟨x, hx, h1⟩ | ⟨n, h1, h8, h2 | h2⟩ | ⟨p, hp, h1, -⟩⟩ := hg.place <;> omega

/-- A word of a stall's page past JOB_STAT. -/
theorem spares_stall {f : Fld} {n k : Nat} (ha : f.addr = 0x10000 + n * 4096 + k) (hn : n ∈ hostStalls) (hk : 0x74 ≤ k)
    (h : k + 4 * f.words ≤ 0x1000) : f.spares lim := by
  intro g hg _
  refine apart_of_addr ?_
  obtain ⟨h1, h8⟩ := mem_hostStalls.mp hn
  obtain ⟨hw, h1 | h1 | ⟨x, hx, h1⟩ | ⟨n, h1, h8, h2 | h2⟩ | ⟨p, hp, h1, -⟩⟩ := hg.place <;> omega

/-- The pages between those of the stalls and those of the audio ports. -/
theorem spares_mid {f : Fld} (h : 0x19000 ≤ f.addr) (h' : f.addr + 4 * f.words ≤ 0x50000) : f.spares lim := by
  intro g hg _
  refine apart_of_addr ?_
  obtain ⟨hw, h1 | h1 | ⟨x, hx, h1⟩ | ⟨n, h1, h8, h2 | h2⟩ | ⟨p, hp, h1, -⟩⟩ := hg.place <;> omega

/-- The pages of the units: of the heeded fields only the rates stand there. -/
theorem Heeded.below_units {g : Fld} (h : Heeded g) (hl : lim ≤ 0x30000) (hg : g.addr < lim) :
    g.words = 1 ∧ g.addr + 4 ≤ 0x30000 := by
  obtain ⟨hw, h1 | h1 | ⟨x, hx, h1⟩ | ⟨n, h1, h8, h2 | h2⟩ | ⟨p, hp, h1, -⟩⟩ := h.place <;> omega

theorem spares_units {f : Fld} (hl : lim ≤ 0x30000) (h : 0x30000 ≤ f.addr) : f.spares lim := by
  intro g hg hlt
  obtain ⟨hw, hb⟩ := hg.below_units hl hlt
  exact apart_of_addr (.inr (by omega))

/-- The credits a Furrow port shows, of whatever VC: in a word of an audio port they would stand above its fields. -/
theorem spares_avail {p v : Nat} : (R.FUR_VC_AVAIL p v).spares lim := by
  intro g hg _
  have hw : (R.FUR_VC_AVAIL p v).words = 1 := words_of_le (by decide) (by decide)
  rw [Fld.apart, decide_eq_true_eq]
  simp only [hw, A.FUR_VC]
  obtain ⟨hw, h1 | h1 | ⟨x, hx, h1⟩ | ⟨n, h1, h8, h2 | h2⟩ | ⟨p, hp, h1, h2⟩⟩ := hg.place <;> omega

theorem le_page (m n k : Nat) : m ≤ m + n * 4096 + k := by omega

/-! ## How a stream follows itself -/

/-- What audio work leaves of a stream: one that has not come to its last boundary goes on as it was to, and no trough and no
promotion starts. -/
structure Stream.Follows (a b : Stream) : Prop where
  stopping : a.stopping ≠ 2 → b.stopping = a.stopping
  live : a.live = none → b.live = none
  standby : a.standby = none → b.standby = none
  promo : a.promo = none → b.promo = none

theorem Stream.Follows.refl (a : Stream) : a.Follows a := ⟨fun _ => rfl, id, id, id⟩

theorem Stream.Follows.trans {a b c : Stream} (h : a.Follows b) (h' : b.Follows c) : a.Follows c where
  stopping hs := (h'.stopping (by rwa [h.stopping hs])).trans (h.stopping hs)
  live hn := h'.live (h.live hn)
  standby hn := h'.standby (h.standby hn)
  promo hn := h'.promo (h.promo hn)

/-- `e` comes of `d` by work that leaves the heeded fields below `lim`, the entry into a sleep and the course of the streams
alone. -/
structure Follow (lim : Nat) (d e : Dev) : Prop where
  rd : ∀ g, Heeded g → g.addr < lim → e.rd g = d.rd g
  entry : e.pw.entry = d.pw.entry
  stream : ∀ x, (d.stream x).Follows (e.stream x)

theorem Follow.refl (lim : Nat) (d : Dev) : Follow lim d d := ⟨fun _ _ _ => rfl, rfl, fun _ => .refl _⟩

theorem Follow.trans (h : Follow lim d e) (h' : Follow lim e f) : Follow lim d f :=
  ⟨fun g hg hl => (h'.rd g hg hl).trans (h.rd g hg hl), h'.entry.trans h.entry, fun x => (h.stream x).trans (h'.stream x)⟩

theorem Follow.of_streams (h : Follow lim d e) (hr : ∀ g, Heeded g → g.addr < lim → f.rd g = e.rd g)
    (hp : f.pw.entry = e.pw.entry) (hs : f.au.streams = e.au.streams) : Follow lim d f :=
  h.trans ⟨hr, hp, fun x => by rw [stream_of_streams hs]; exact .refl _⟩

/-- Work that touches neither registers nor streams. -/
theorem Follow.of_regs (h : Follow lim d e) (hr : f.regs = e.regs) (hp : f.pw.entry = e.pw.entry)
    (hs : f.au.streams = e.au.streams) : Follow lim d f := h.of_streams (fun g _ _ => rd_of_regs hr g) hp hs

theorem Follow.wr (h : Follow lim d e) {g : Fld} (hg : g.spares lim) (v : Nat) : Follow lim d (e.wr g v) :=
  h.of_streams (fun k hk hl => rd_wr_ne e v (hg k hk hl)) (by simp) (by simp)

theorem Follow.irq (h : Follow lim d e) {k : PageKind} {n : Nat} (hg : (R.PIRQ_RAW (k.page n)).spares lim) (b : Nat) :
    Follow lim d (e.irq k n b) := h.wr hg _

theorem Follow.bump (h : Follow lim d e) {g : Fld} (hg : g.spares lim) (k : Nat) : Follow lim d (e.bump g k) := h.wr hg _

theorem Follow.irqSeq (h : Follow lim d e) (b : Nat) : Follow lim d (e.irq .seq 0 b) := h.irq (spares_low (by decide) (by decide)) b

theorem Follow.setStream (h : Follow lim d e) (x : Nat) {y : Stream} (hy : (e.stream x).Follows y) :
    Follow lim d (e.setStream x y) := by
  refine h.trans ⟨fun g _ _ => setStream_rd _ _ _ _, rfl, fun k => ?_⟩
  by_cases hk : k = x
  · rwa [hk, stream_setStream_same]
  · rw [stream_setStream_ne _ _ hk]
    exact .refl _

theorem Follow.setDet (h : Follow lim d e) {x : Nat} (hx : x < 32) (z : Option Detector) : Follow lim d (e.setDet x z) :=
  (h.setStream x (by exact ⟨fun _ => rfl, id, id, id⟩)).wr (spares_context (k := 0x330) rfl hx (by decide) (by simp [Fld.words])) _

theorem Follow.setCaps (h : Follow lim d e) (cs : List Cap) : Follow lim d (e.setCaps cs) := h.of_regs rfl rfl rfl
theorem Follow.setPort (h : Follow lim d e) (p : Nat) (y : Port) : Follow lim d (e.setPort p y) := h.of_regs rfl rfl rfl
theorem Follow.setLive (h : Follow lim d e) (xs : List Desc) : Follow lim d (e.setLive xs) := h.of_regs rfl rfl rfl
theorem Follow.updDesc (h : Follow lim d e) (y : Desc) : Follow lim d (e.updDesc y) := h.setLive _
theorem Follow.dropDesc (h : Follow lim d e) (t : TroughId) (pos : Nat) : Follow lim d (e.dropDesc t pos) := h.setLive _
theorem Follow.emit (h : Follow lim d e) (o : Out) : Follow lim d (e.emit o) := h.of_regs rfl rfl rfl
theorem Follow.owe (h : Follow lim d e) (o : Owed) : Follow lim d (e.owe o) := h.of_regs rfl rfl rfl
theorem Follow.setThr (h : Follow lim d e) (x : Thresher) : Follow lim d (e.setThr x) := h.of_regs rfl rfl rfl
theorem Follow.setLink (h : Follow lim d e) (p : Nat) (x : Link) : Follow lim d (e.setLink p x) := h.of_regs rfl rfl rfl

/-- What each step of a fold keeps, the fold keeps. -/
theorem Follow.foldl {α : Type} {op : Dev → α → Dev} {xs : List α} (h : Follow lim d e)
    (hop : ∀ e, Follow lim d e → ∀ a ∈ xs, Follow lim d (op e a)) : Follow lim d (xs.foldl op e) :=
  List.foldlRecOn xs op h hop

end Sys2Proof.Machine
end

section
/-! SUPPORT. Silo, the telling of a stall, and the stopping of the units, as work between two launches. -/
namespace Sys2Proof.Machine

variable {d e f : Dev} {lim : Nat}

/-! ## Silo -/

/-- `e` comes of `d` by reads and writes of memory: audio and power state stay, and the registers below the SIL pages. -/
structure SiloWork (d e : Dev) : Prop where
  au : e.au = d.au
  pw : e.pw = d.pw
  rd : ∀ g : Fld, g.addr + 4 * g.words ≤ 0x60000 → e.rd g = d.rd g

theorem SiloWork.refl (d : Dev) : SiloWork d d := ⟨rfl, rfl, fun _ _ => rfl⟩

theorem SiloWork.trans (h : SiloWork d e) (h' : SiloWork e f) : SiloWork d f :=
  ⟨h'.au.trans h.au, h'.pw.trans h.pw, fun g hg => (h'.rd g hg).trans (h.rd g hg)⟩

theorem SiloWork.wr (h : SiloWork d e) {g : Fld} (hg : 0x60000 ≤ g.addr) (v : Nat) : SiloWork d (e.wr g v) :=
  h.trans ⟨by simp, by simp, fun k hk => rd_wr_ne e v (apart_of_addr (.inr (hk.trans hg)))⟩

theorem SiloWork.of_regs (h : SiloWork d e) (ha : f.au = e.au) (hp : f.pw = e.pw) (hr : f.regs = e.regs) : SiloWork d f :=
  h.trans ⟨ha, hp, fun g _ => rd_of_regs hr g⟩

theorem Heeded.below_silo {g : Fld} (h : Heeded g) : g.addr + 4 * g.words ≤ 0x60000 := by
  obtain ⟨hw, h1 | h1 | ⟨x, hx, h1⟩ | ⟨n, h1, h8, h2 | h2⟩ | ⟨p, hp, h1, -⟩⟩ := h.place <;> omega

theorem Follow.silo (h : Follow lim d e) (hs : SiloWork e f) : Follow lim d f :=
  h.of_streams (fun g hg _ => hs.rd g hg.below_silo) (by rw [hs.pw]) (by rw [hs.au])

theorem eccTouch_siloWork (d : Dev) (w : Nat) : SiloWork d (d.eccTouch w) := by
  rw [Dev.eccTouch]
  split
  · exact .refl d
  · exact ((SiloWork.refl d).wr (le_page _ _ _) _).of_regs rfl rfl rfl
  · refine ((((SiloWork.refl d).wr (le_page _ _ _) _).wr (le_page _ _ _) _).wr (le_page _ _ _) _).wr ?_ _
    simp only [A.PIRQ_RAW, PageKind.page]
    omega

/-- What each step of a fold keeps, the fold keeps. -/
theorem SiloWork.foldl {α : Type} {op : Dev → α → Dev} (hop : ∀ e a, SiloWork e (op e a)) (xs : List α) (d : Dev) :
    SiloWork d (xs.foldl op d) := foldl_keeps (SiloWork d) op (fun e a h => h.trans (hop e a)) xs (.refl d)

theorem readLocs_siloWork (d : Dev) (ls : List Loc) : SiloWork d (d.readLocs ls).2.2 := SiloWork.foldl eccTouch_siloWork _ d

theorem poke_siloWork (d : Dev) (l : Loc) (b : Byte) : SiloWork d (d.poke l b) := by
  cases l <;> exact (SiloWork.refl d).of_regs rfl rfl rfl

theorem writeLocs_siloWork (d : Dev) (ls : List Loc) (bs : List Byte) : SiloWork d (d.writeLocs ls bs).2 := by
  have hmark : ∀ (ws : List Nat) e, SiloWork e (ws.foldl (fun d w => d.setEcc w none) e) := fun ws e =>
    SiloWork.foldl (op := fun d w => d.setEcc w none) (fun e _ => (SiloWork.refl e).of_regs rfl rfl rfl) ws e
  rw [Dev.writeLocs]
  refine ((SiloWork.foldl eccTouch_siloWork _ d).trans (hmark _ _)).trans (SiloWork.foldl (fun e p => ?_) _ _)
  split
  · split
    · exact .refl e
    · exact poke_siloWork e _ _
  · exact poke_siloWork e _ _

theorem siloReadNow_siloWork (d : Dev) (a n : Nat) : SiloWork d (d.siloReadNow a n).2.2 := by
  rw [Dev.siloReadNow]
  split
  · exact readLocs_siloWork d _
  · exact readLocs_siloWork d _

/-- A write through the map that is made. -/
theorem pathWrite_siloWork {n a : Nat} {rt : Option Nat} {bs : List Byte} {ue : Bool} (h : d.pathWrite n rt a bs = .done ue e) :
    SiloWork d e := by
  rw [Dev.pathWrite] at h
  split at h
  · cases h
    exact writeLocs_siloWork d _ _
  · cases h
  · cases h

theorem inWords_siloWork (d : Dev) (s k : Nat) : SiloWork d (d.inWords s k).2 := siloReadNow_siloWork d _ _
theorem outWords_siloWork (d : Dev) (s b k : Nat) : SiloWork d (d.outWords s b k).2 := siloReadNow_siloWork d _ _

theorem fallback_siloWork (d : Dev) (s k : Nat) : SiloWork d (d.fallback s k).2 := by
  rw [Dev.fallback]
  split
  · exact .refl d
  · exact inWords_siloWork d s k

theorem liveWords_siloWork (d : Dev) (s k : Nat) (x : Ended) : SiloWork d (d.liveWords s k x).2 := by
  rw [Dev.liveWords]
  split
  · exact outWords_siloWork d _ _ _
  · exact fallback_siloWork d _ _

/-! ## Telling a stall -/

theorem route_lt {n p : Nat} (h : d.route n = some p) : p < 4 := by
  rw [Dev.route] at h
  split at h
  · rw [← Option.some.inj h]
    exact rd_lt d _
  · split at h
    next hd => rw [← Option.some.inj h]; exact hd
    next => cases h

theorem Follow.firstSend (h : Follow lim d e) {p : Nat} (hp : p < 4) (x : Flit) : Follow lim d (e.firstSend p x) := by
  have htx : (R.FUR_TX_FLITS p).spares lim := by
    refine spares_mid ?_ ?_ <;> simp only [A.FUR_TX_FLITS, Fld.words] <;> omega
  exact ((((h.setLink _ _).wr htx _).wr spares_avail _).setLink _ _).emit _

theorem Follow.pump (h : Follow lim d e) {p : Nat} (hp : p < 4) (k : Nat) : Follow lim d (e.pump p k) := by
  induction k generalizing e with
  | zero => exact h
  | succ k ih =>
    rw [Dev.pump]
    split
    · split
      · exact ih ((h.setLink _ _).firstSend hp _)
      · exact h
    · exact h

theorem Follow.sendPacket (h : Follow lim d e) (v : Nat) (x : Packet) (o : Option (TroughId × Nat)) :
    Follow lim d (e.sendPacket v x o) := by
  rw [Dev.sendPacket]
  split
  · exact h.of_regs rfl rfl rfl
  · split
    · exact h
    next p hp => exact (h.setLink _ _).pump (route_lt hp) _

theorem Follow.setBar4 (h : Follow lim d e) (f off v : Nat) : Follow lim d (e.setBar4 f off v) := h.of_regs rfl rfl rfl

theorem Follow.raise (h : Follow lim d e) (n v : Nat) : Follow lim d (e.raise n v) := by
  rw [Dev.raise]
  split
  · split
    · exact h.setBar4 _ _ _
    · split
      · exact h
      · exact h.emit _
  · split
    · exact h.sendPacket _ _ _
    · exact h

/-- The words of a stall's page that an event record moves. -/
def eventFlds (n : Nat) : List Fld := [R.STL_LAST_STATUS n, R.STL_EV_LOST_COUNT n, R.STL_EV_HEAD n]

/-- What an event record does: it writes the words above, and its 16 bytes, and may raise a vector or wait. -/
theorem event_keeps {P : Dev → Prop} {n : Nat} (hwr : ∀ e, ∀ g ∈ eventFlds n, ∀ v, P e → P (e.wr g v))
    (hsilo : ∀ e f, SiloWork e f → P e → P f) (hraise : ∀ e v, P e → P (e.raise n v)) (howe : ∀ e o, P e → P (e.owe o))
    (h : P d) (status kind index pos : Nat) (quiet : Bool) : P (d.event n status kind index pos quiet) := by
  have hlost : ∀ e, P e → P (e.bump (R.STL_EV_LOST_COUNT n)) := fun e => hwr e _ (by simp [eventFlds]) _
  have hput : ∀ e, P e → ∀ bs f, e.putEvent n bs quiet = some f → P f := by
    intro e he bs f hf
    rw [Dev.putEvent] at hf
    dsimp only at hf
    split at hf
    · exact Option.some.inj hf ▸ hlost e he
    · split at hf
      next hdone =>
        have hw := hwr _ (R.STL_EV_HEAD n) (by simp [eventFlds]) (e.rd (R.STL_EV_HEAD n) + 1)
          (hsilo _ _ (pathWrite_siloWork hdone) he)
        rw [← Option.some.inj hf]
        split
        · exact hraise _ _ hw
        · exact hw
      next => cases hf
      next => exact Option.some.inj hf ▸ hlost e he
  have hall : ∀ e bs, P e → P (if 2 ^ e.rd (R.STL_EV_CFG_LOG2SIZE n) ≤ e.ringUsed n + e.owedEvents n then
      e.bump (R.STL_EV_LOST_COUNT n) else if e.owedEvents n ≠ 0 then e.owe (.event n bs quiet)
      else (e.putEvent n bs quiet).getD (e.owe (.event n bs quiet))) := by
    intro e bs he
    split
    · exact hlost e he
    · split
      · exact howe e _ he
      · cases hp : e.putEvent n bs quiet with
        | none => exact howe e _ he
        | some f => exact hput e he bs f hp
  rw [Dev.event]
  refine hall _ _ ?_
  split
  · exact h
  · exact hwr d _ (by simp [eventFlds]) _ h

theorem Follow.event (h : Follow lim d e) {n : Nat} (hn : n ∈ hostStalls) (status kind index pos : Nat) (quiet : Bool) :
    Follow lim d (e.event n status kind index pos quiet) := by
  refine event_keeps (P := Follow lim d) (fun e g hg v he => he.wr ?_ v) (fun e f hs he => he.silo hs)
    (fun e v he => he.raise n v) (fun e o he => he.owe o) h status kind index pos quiet
  simp only [eventFlds, List.mem_cons, List.not_mem_nil, or_false] at hg
  obtain rfl | rfl | rfl := hg
  · exact spares_stall (k := 0x8c) rfl hn (by decide) (by simp [Fld.words])
  · exact spares_stall (k := 0x88) rfl hn (by decide) (by simp [Fld.words])
  · exact spares_stall (k := 0x80) rfl hn (by decide) (by simp [Fld.words])

theorem stallOfStream_mem {s n : Nat} (h : d.stallOfStream s = some n) : n ∈ hostStalls := List.mem_of_find?_eq_some h

/-! ## Stopping the units -/

theorem Follow.eachBay (h : Follow lim d e) (bs : List Nat) {op : Nat → Dev → Dev}
    (hop : ∀ b e, Follow lim d e → Follow lim d (op b e)) : Follow lim d (e.eachBay bs op) :=
  Follow.foldl h (fun e he b _ => hop b e he)

section Units

variable (hl : lim ≤ 0x30000)
include hl

theorem Follow.wrUnit (h : Follow lim d e) {g : Fld} (hg : 0x30000 ≤ g.addr) (v : Nat) : Follow lim d (e.wr g v) :=
  h.wr (spares_units hl hg) v

theorem Follow.setWordsUnit (h : Follow lim d e) {a : Nat} (ha : 0x30000 ≤ a) (k v : Nat) :
    Follow lim d (e.setWords a k v) := by
  obtain ⟨r, hr⟩ := setWords_eq e a k v
  refine h.of_streams (fun g hg hlt => ?_) (by rw [hr]) (by rw [hr])
  obtain ⟨hw, hb⟩ := hg.below_units hl hlt
  refine rd_of_word hw (word_setWords_ne e _ _ _ (fun i _ => ?_))
  omega

theorem Follow.rampDown (h : Follow lim d e) (bs : List Nat) : Follow lim d (e.rampDown bs) := by
  have hb := h.eachBay bs (op := fun b d => d.wr (R.THR_ACT_STAT_PHASE b) 3) (fun b e he => he.wrUnit hl (le_page _ _ _) _)
  rw [Dev.rampDown]
  dsimp only
  split
  · exact hb
  · exact hb.setThr _

theorem Follow.clearRun (h : Follow lim d e) (r : TileRun) (drain : Nat) : Follow lim d (e.clearRun r drain) := by
  rw [Dev.clearRun]
  dsimp only
  have hb := (h.setThr { e.cp.thr with runs := e.cp.thr.runs.filter (fun x => x.leader != r.leader) }).eachBay r.bays
    (op := fun b d =>
      let d := (((d.setWords (A.THR_PROG_CTX b) 4 0).setWords (A.THR_FOLDS_DONE b) 4 0).wr (R.THR_ACT_STAT_FRONT b) 0).wr
        (R.THR_ACT_STAT_HELD b) 0
      (d.wr (R.THR_GANG_SHAPE b) 0).wr (R.THR_GANG_LEADER b) 0)
    (fun b e he => (((((he.setWordsUnit hl (le_page _ _ _) _ _).setWordsUnit hl (le_page _ _ _) _ _).wrUnit hl
      (le_page _ _ _) _).wrUnit hl (le_page _ _ _) _).wrUnit hl (le_page _ _ _) _).wrUnit hl (le_page _ _ _) _)
  split
  · exact hb
  · exact hb.setThr _
  · exact hb.rampDown hl _

theorem Follow.hideSpill (h : Follow lim d e) (r : TileRun) : Follow lim d (e.hideSpill r) := by
  refine h.eachBay _ (fun b e he => ?_)
  split
  · exact he
  · exact (he.setWordsUnit hl (le_page _ _ _) _ _).setWordsUnit hl (le_page _ _ _) _ _

theorem Follow.freeSlot (h : Follow lim d e) (s : Nat) : Follow lim d (e.freeSlot s) :=
  h.setWordsUnit hl (by simp only [A.THR_SLOT_CTX]; omega) _ _

theorem Follow.settleGangs (h : Follow lim d e) (gone : TroughId → Bool) : Follow lim d (e.settleGangs gone) := by
  refine (h.setThr _).foldl (fun e he g _ => ?_)
  exact (he.eachBay _ (fun b e he => he.wrUnit hl (le_page _ _ _) _)).rampDown hl _

theorem Follow.stopTiles (h : Follow lim d e) (p : TroughId → Bool) : Follow lim d (e.stopTiles p) := by
  rw [Dev.stopTiles]
  refine Follow.settleGangs hl (Follow.setThr (Follow.foldl (h.foldl fun e he r _ => he.clearRun hl r 0) fun e he r _ => ?_) _) p
  have hspill : Follow lim d (if r.spilling then e.hideSpill r else e) := by
    split
    · exact he.hideSpill hl r
    · exact he
  dsimp only
  split
  · exact hspill.freeSlot hl _
  · exact hspill

omit hl in
theorem Follow.setChannel (h : Follow lim d e) {c : Nat} (hc : c < 4) (x : Channel) : Follow lim d (e.setChannel c x) := by
  have hs : (R.TRN_CH_STAT_STATE c).spares lim ∧ (R.TRN_CH_STAT_RT c).spares lim := by
    constructor <;> refine spares_low ?_ ?_ <;> simp only [A.TRN_CH_STAT, Fld.words] <;> omega
  have h0 : Follow lim d { e with tr := e.tr.set (fun _ => Channel.idle) c x } := h.of_regs rfl rfl rfl
  exact (h0.wr hs.1 _).wr hs.2 _

omit hl in
theorem Follow.stopMoves (h : Follow lim d e) (p : TroughId → Bool) : Follow lim d (e.stopMoves p) := by
  refine h.foldl (fun e he c hc => he.setChannel ?_ _)
  simp only [channels, List.mem_cons, List.not_mem_nil, or_false] at hc
  omega

omit hl in
theorem Follow.setWin (h : Follow lim d e) (x : Option WinRun) : Follow lim d (e.setWin x) := by
  have h0 : Follow lim d { e with wn := { e.wn with win := x } } := h.of_regs rfl rfl rfl
  exact h0.wr (spares_low (f := R.WIN_STAT_BUSY) (by decide) (by decide)) _

omit hl in
theorem Follow.stopWinnow (h : Follow lim d e) (p : TroughId → Bool) : Follow lim d (e.stopWinnow p) := h.setWin _

omit hl in
theorem Follow.setBale (h : Follow lim d e) (x : Option BaleRun) : Follow lim d (e.setBale x) := by
  have h0 : Follow lim d { e with ba := { e.ba with bale := x } } := h.of_regs rfl rfl rfl
  exact h0.wr (spares_low (f := R.BAL_STAT_BUSY) (by decide) (by decide)) _

omit hl in
theorem Follow.setPath (h : Follow lim d e) (k : Nat) (x : Option PathRun) : Follow lim d (e.setPath k x) := by
  have h0 : Follow lim d { e with ba := { e.ba with paths := e.ba.paths.set (fun _ => none) k x } } := h.of_regs rfl rfl rfl
  have hw := fun v => h0.wr (spares_low (f := R.BAL_STAT_PATHS) (by decide) (by decide)) v
  rw [Dev.setPath]
  dsimp only
  split
  · exact hw _
  · exact hw _

omit hl in
theorem Follow.stopBaler (h : Follow lim d e) (p : TroughId → Bool) : Follow lim d (e.stopBaler p) :=
  (h.setBale _).foldl (fun _ he _ _ => he.setPath _ _)

theorem Follow.setSifter (h : Follow lim d e) (k : Nat) (x : Sifter) : Follow lim d (e.setSifter k x) := by
  have hk : 0x30000 ≤ A.SFT_STAT k := by simp only [A.SFT_STAT]; omega
  have h0 : Follow lim d { e with cp := { e.cp with sifts := e.cp.sifts.set (fun _ => Sifter.idle) k x } } :=
    h.of_regs rfl rfl rfl
  have hs := (h0.wrUnit hl (g := R.SFT_STAT_SAVED k) hk (b2n x.saved.isSome)).wrUnit hl (g := R.SFT_STAT_PARKED k) hk
    x.parked.length
  have hmode := fun a b c => ((hs.wrUnit hl (g := R.SFT_STAT_MODE k) hk a).wrUnit hl (g := R.SFT_STAT_RT k) hk b).wrUnit hl
    (g := R.SFT_STAT_STALL k) hk c
  rw [Dev.setSifter]
  dsimp only
  split
  · exact hmode _ _ _
  · exact hmode _ _ _

theorem Follow.dropSifts (h : Follow lim d e) (p : TroughId → Bool) : Follow lim d (e.dropSifts p) :=
  h.foldl (fun _ he _ _ => he.setSifter hl _ _)

theorem Follow.setHopper (h : Follow lim d e) (k : Nat) (x : Hopper) : Follow lim d (e.setHopper k x) := by
  have hk : 0x30000 ≤ A.HOP_CREDIT k := by simp only [A.HOP_CREDIT]; omega
  have h0 : Follow lim d { e with cp := { e.cp with hops := e.cp.hops.set (fun _ => Hopper.empty) k x } } :=
    h.of_regs rfl rfl rfl
  exact ((h0.wrUnit hl (g := R.HOP_CREDIT_INFLIGHT k) hk _).wrUnit hl (g := R.HOP_CREDIT_RT_OCC k) hk _).wrUnit hl
    (g := R.HOP_CREDIT_BATCH_OCC k) hk _

theorem Follow.discardStrips (h : Follow lim d e) (k : Nat) (p : Strip → Bool) : Follow lim d (e.discardStrips k p) := by
  have hk : 0x30000 ≤ A.HOP_CREDIT k := by simp only [A.HOP_CREDIT]; omega
  have hd : 0x30000 ≤ A.HOP_DISCARD k := by simp only [A.HOP_DISCARD]; omega
  exact ((h.setHopper hl k _).wrUnit hl (g := R.HOP_CREDIT_FREE k) hk _).wrUnit hl (g := R.HOP_DISCARD k) hd _

theorem Follow.stopWork (h : Follow lim d e) (p : TroughId → Bool) (q : Strip → Bool) : Follow lim d (e.stopWork p q) := by
  have hall := ((((h.stopTiles hl p).stopMoves p).stopWinnow p).stopBaler p).dropSifts hl p
  rw [Dev.stopWork]
  exact hall.foldl (fun _ he k _ => he.discardStrips hl k q)

omit hl in
theorem Stream.Follows.markLive (a : Stream) (op : RtRun → RtRun) : a.Follows { a with live := a.live.map op } :=
  ⟨fun _ => rfl, fun hn => Option.map_eq_none_iff.mpr hn, id, id⟩

omit hl in
theorem Stream.Follows.markStandby (a : Stream) (op : RtRun → RtRun) : a.Follows { a with standby := a.standby.map op } :=
  ⟨fun _ => rfl, id, fun hn => Option.map_eq_none_iff.mpr hn, id⟩

/-- A trough that stops has its units stopped and is marked, where it runs. -/
theorem Follow.failRealtime (h : Follow lim d e) (s : Nat) (b : Bool) : Follow lim d (e.failRealtime s b) := by
  have hs := fun xs => (h.stopWork hl (fun t => t == .realtime s b) (fun x => x.realtimeOf s b)).setLive xs
  cases b with
  | true => exact (hs _).setStream s (.markStandby _ _)
  | false => exact (hs _).setStream s (.markLive _ _)

end Units

end Sys2Proof.Machine
end

section
/-! SUPPORT. Samples in and out, PORTs, and the settling of a block, as work between two launches (spec/03 R45-R64). -/
namespace Sys2Proof.Machine

variable {d e f : Dev} {lim s : Nat}

/-! ## Writes of a stream's contexts -/

/-- A write of a word of stream `s`'s context beside STRM_CFG. -/
theorem Follow.wrContext (h : Follow lim d e) (hs : s < 32) {k lo w : Nat}
    (hk : 0x304 ≤ k ∧ k + 4 * (max 1 ((lo + w + 31) / 32)) ≤ 0x360) (v : Nat) :
    Follow lim d (e.wr ⟨0xB000 + k + s * 96, lo, w⟩ v) := by
  refine h.wr (spares_context (k := k) rfl hs hk.1 ?_) v
  have := hk.2
  simp only [Fld.words]
  omega

/-- A write of a word of stream `s`'s promotion context. -/
theorem Follow.wrPromo (h : Follow lim d e) (hs : s < 32) {k lo w : Nat}
    (hk : 0x100 ≤ k ∧ k + 4 * (max 1 ((lo + w + 31) / 32)) ≤ 0x110) (v : Nat) :
    Follow lim d (e.wr ⟨0xB000 + k + s * 16, lo, w⟩ v) := by
  have h2 := hk.2
  refine h.wr (spares_low ?_ ?_) v <;> simp only [Fld.words] <;> omega

/-! ## Samples in -/

/-- `b` comes of `a` by taking a sample: the number of its block, its troughs and its end stay. -/
structure Stream.Feeds (a b : Stream) : Prop where
  block : b.block = a.block
  live : b.live = a.live
  standby : b.standby = a.standby
  stopping : b.stopping = a.stopping
  promo : a.promo = none → b.promo = none

theorem Stream.Feeds.follows {a b : Stream} (h : a.Feeds b) : a.Follows b :=
  ⟨fun _ => h.stopping, fun hn => h.live.trans hn, fun hn => h.standby.trans hn, h.promo⟩

/-- The stream with the block that its next sample belongs to. -/
def Stream.begun (a : Stream) (g : Nat) : Stream :=
  if a.filling then a else { a with filling := true, blkStart := g, filled := 0, energy := 0 }

theorem Stream.Feeds.begun (a : Stream) (g : Nat) : a.Feeds (a.begun g) := by
  rw [Stream.begun]
  split
  · exact ⟨rfl, rfl, rfl, rfl, id⟩
  · exact ⟨rfl, rfl, rfl, rfl, id⟩

theorem Stream.Feeds.keepEarly {a b : Stream} (h : a.Feeds b) (xs : List (Nat × List Nat)) :
    a.Feeds { b with early := xs } := ⟨h.block, h.live, h.standby, h.stopping, h.promo⟩

theorem Stream.Feeds.count {a b : Stream} (h : a.Feeds b) (n m : Nat) : a.Feeds { b with filled := n, energy := m } :=
  ⟨h.block, h.live, h.standby, h.stopping, h.promo⟩

theorem Stream.Feeds.setHit (a : Stream) (c : Nat × Nat × Nat) :
    a.Feeds { a with promo := a.promo.map (fun p => { p with hit := some c }) } :=
  ⟨rfl, rfl, rfl, rfl, fun hn => Option.map_eq_none_iff.mpr hn⟩

/-- The fields that a sample may write. -/
def sampleFlds (s : Nat) : List Fld :=
  [R.SEQ_STRM_STAT_ZC_ARMED s, R.SEQ_STRM_STAT_ZC_HIT s, R.SEQ_STRM_ZC_STC s, R.PIRQ_RAW (PageKind.seq.page 0)]

/-- The sum of the squares of a sample's input words (R64). -/
def Dev.sampleEnergy (d : Dev) (s : Nat) (ws : List Nat) : Nat :=
  ((d.inSlots s).map (fun k => (toSigned 24 (ws.getD k 0 / 256)).natAbs ^ 2)).foldl (· + ·) 0

/-- A sample that begins or goes on with a block that is not full. -/
def Dev.fillSample (d : Dev) (s g : Nat) (ws : List Nat) (st : Stream) : Dev :=
  let d := d.setStream s { st with filled := st.filled + 1, energy := st.energy + d.sampleEnergy s ws }
  let d := (d.storeSample s st.filled ws).captureSample s 0 st.block st.filled g (fun k => ws.getD k 0)
  d.detect s (ws.getD (d.rd (R.SEQ_STRM_SLOTS_ZC_SLOT s)) 0) st.filled g

theorem takeSample_eq (d : Dev) (s g : Nat) (ws : List Nat) : d.takeSample s g ws =
    let st := (d.stream s).begun g
    if d.blkLen s ≤ st.filled then d.setStream s { st with early := st.early ++ [(g, ws)] } else d.fillSample s g ws st := rfl

section Sample

variable {P : Dev → Prop} (hset : ∀ e b, (e.stream s).Feeds b → P e → P (e.setStream s b))
  (hwr : ∀ e, ∀ g ∈ sampleFlds s, ∀ v, P e → P (e.wr g v)) (hsilo : ∀ e f, SiloWork e f → P e → P f)
  (hcaps : ∀ e cs, P e → P (e.setCaps cs))

include hset hwr in
theorem setDet_keeps (z : Option Detector) (h : P d) : P (d.setDet s z) :=
  hwr _ _ (.head _) _ (hset d _ ⟨rfl, rfl, rfl, rfl, id⟩ h)

include hset hwr in
theorem zcHit_keeps (c : Nat × Nat × Nat) (h : P d) : P (d.zcHit s c) := by
  have hw := hwr _ (R.SEQ_STRM_STAT_ZC_HIT s) (.tail _ (.head _)) 1
    (hwr _ (R.SEQ_STRM_ZC_STC s) (.tail _ (.tail _ (.head _))) c.2.2 (setDet_keeps hset hwr none h))
  rw [Dev.zcHit]
  refine hwr _ _ (.tail _ (.tail _ (.tail _ (.head _)))) _ ?_
  split
  · exact hset _ _ (.setHit _ _) hw
  · exact hw

include hset hwr in
theorem detect_keeps (w n g : Nat) (h : P d) : P (d.detect s w n g) := by
  rw [Dev.detect]
  dsimp only
  split
  · exact h
  · split
    · exact h
    · split
      · exact setDet_keeps hset hwr _ h
      · split
        · exact setDet_keeps hset hwr _ h
        · exact zcHit_keeps hset hwr _ h

include hsilo in
theorem storeSample_keeps (n : Nat) (ws : List Nat) (h : P d) : P (d.storeSample s n ws) := by
  refine foldl_keeps P _ (fun e a he => ?_) _ h
  dsimp only
  split
  · exact hsilo _ _ (writeLocs_siloWork _ _ _) he
  · exact he

include hcaps in
theorem captureSample_keeps (kind k n g : Nat) (word : Nat → Nat) (h : P d) : P (d.captureSample s kind k n g word) := by
  refine foldl_keeps P _ (fun e a he => ?_) _ h
  dsimp only
  split
  · exact hcaps _ _ he
  · exact he

include hset hwr hsilo hcaps in
/-- What the writes of a sample keep, taking it keeps. -/
theorem takeSample_keeps (g : Nat) (ws : List Nat) (h : P d) : P (d.takeSample s g ws) := by
  have hbegun := Stream.Feeds.begun (d.stream s) g
  rw [takeSample_eq]
  dsimp only
  split
  · exact hset d _ (hbegun.keepEarly _) h
  · exact detect_keeps hset hwr _ _ _ (captureSample_keeps hcaps _ _ _ _ _ (storeSample_keeps hsilo _ _
      (hset d _ (hbegun.count _ _) h)))

end Sample

theorem sampleFlds_spares (hs : s < 32) {g : Fld} (hg : g ∈ sampleFlds s) : g.spares lim := by
  simp only [sampleFlds, List.mem_cons, List.not_mem_nil, or_false] at hg
  obtain rfl | rfl | rfl | rfl := hg
  · exact spares_context (k := 0x330) rfl hs (by decide) (by simp [Fld.words])
  · exact spares_context (k := 0x330) rfl hs (by decide) (by simp [Fld.words])
  · exact spares_context (k := 0x34c) rfl hs (by decide) (by simp [Fld.words])
  · exact spares_low (by decide) (by decide)

theorem Follow.captureSample (h : Follow lim d e) (kind k n g : Nat) (word : Nat → Nat) :
    Follow lim d (e.captureSample s kind k n g word) := captureSample_keeps (fun _ cs he => he.setCaps cs) _ _ _ _ _ h

theorem Follow.takeSample (h : Follow lim d e) (hs : s < 32) (g : Nat) (ws : List Nat) : Follow lim d (e.takeSample s g ws) :=
  takeSample_keeps (P := Follow lim d) (fun _ _ hb he => he.setStream s hb.follows)
    (fun _ _ hg v he => he.wr (sampleFlds_spares hs hg) v) (fun _ _ hs he => he.silo hs) (fun _ cs he => he.setCaps cs) g ws h

/-- `e` comes of `d` by samples of stream `s`: what a launch set stays. -/
structure Fed (s : Nat) (d e : Dev) : Prop where
  block : (e.stream s).block = (d.stream s).block
  live : (e.stream s).live = (d.stream s).live
  named : e.rd (R.SEQ_STRM_BLOCK s) = d.rd (R.SEQ_STRM_BLOCK s)
  run : e.rd (R.SEQ_STRM_STAT_RUN s) = d.rd (R.SEQ_STRM_STAT_RUN s)

theorem Fed.refl (d : Dev) : Fed s d d := ⟨rfl, rfl, rfl, rfl⟩

theorem Fed.trans (h : Fed s d e) (h' : Fed s e f) : Fed s d f :=
  ⟨h'.block.trans h.block, h'.live.trans h.live, h'.named.trans h.named, h'.run.trans h.run⟩

theorem Fed.setStream (d : Dev) {b : Stream} (hb : (d.stream s).Feeds b) : Fed s d (d.setStream s b) :=
  ⟨by rw [stream_setStream_same, hb.block], by rw [stream_setStream_same, hb.live], by simp, by simp⟩

theorem sampleFlds_apart (hs : s < 32) {g : Fld} (hg : g ∈ sampleFlds s) :
    g.apart (R.SEQ_STRM_BLOCK s) = true ∧ g.apart (R.SEQ_STRM_STAT_RUN s) = true := by
  simp only [sampleFlds, List.mem_cons, List.not_mem_nil, or_false] at hg
  obtain rfl | rfl | rfl | rfl := hg
  · exact ⟨apart_of_addr (by simp only [Fld.words, A.SEQ_STRM_BLOCK, A.SEQ_STRM_STAT]; omega), apart_of_bits rfl (by omega)⟩
  · exact ⟨apart_of_addr (by simp only [Fld.words, A.SEQ_STRM_BLOCK, A.SEQ_STRM_STAT]; omega), apart_of_bits rfl (by omega)⟩
  · exact ⟨apart_of_addr (by simp only [Fld.words, A.SEQ_STRM_BLOCK, A.SEQ_STRM_ZC_STC]; omega),
      apart_of_addr (by simp only [Fld.words, A.SEQ_STRM_STAT, A.SEQ_STRM_ZC_STC]; omega)⟩
  · exact ⟨apart_of_addr (.inl (by simp only [A.PIRQ_RAW, PageKind.page, Fld.words, A.SEQ_STRM_BLOCK]; omega)),
      apart_of_addr (.inl (by simp only [A.PIRQ_RAW, PageKind.page, Fld.words, A.SEQ_STRM_STAT]; omega))⟩

theorem Fed.wr (d : Dev) (hs : s < 32) {g : Fld} (hg : g ∈ sampleFlds s) (v : Nat) : Fed s d (d.wr g v) :=
  ⟨by rw [wr_stream], by rw [wr_stream], rd_wr_ne d v (sampleFlds_apart hs hg).1, rd_wr_ne d v (sampleFlds_apart hs hg).2⟩

theorem Fed.silo (hs : s < 32) (h : SiloWork d e) : Fed s d e := by
  have hrd : ∀ g : Fld, g.addr + 4 * g.words ≤ 0x60000 → e.rd g = d.rd g := h.rd
  have hst : e.stream s = d.stream s := stream_of_streams (by rw [h.au]) s
  refine ⟨by rw [hst], by rw [hst], hrd _ ?_, hrd _ ?_⟩ <;> simp only [Fld.words, A.SEQ_STRM_BLOCK, A.SEQ_STRM_STAT] <;> omega

theorem Fed.setCaps (d : Dev) (cs : List Cap) : Fed s d (d.setCaps cs) :=
  ⟨rfl, rfl, rd_of_regs (by rw [Dev.setCaps]) _, rd_of_regs (by rw [Dev.setCaps]) _⟩

theorem takeSample_fed (d : Dev) (hs : s < 32) (g : Nat) (ws : List Nat) : Fed s d (d.takeSample s g ws) :=
  takeSample_keeps (P := Fed s d) (fun e _ hb he => he.trans (.setStream e hb)) (fun e _ hg v he => he.trans (.wr e hs hg v))
    (fun _ _ h he => he.trans (.silo hs h)) (fun e cs he => he.trans (.setCaps e cs)) g ws (.refl d)

/-! ## Samples out -/

theorem Follow.ite {c : Prop} [Decidable c] {a b : Dev} (ha : c → Follow lim d a) (hb : Follow lim d b) :
    Follow lim d (if c then a else b) := by
  split
  next h => exact ha h
  next => exact hb

theorem Follow.playedSample (h : Follow lim d e) (k n : Nat) : Follow lim d (e.playedSample s k n) := by
  refine h.foldl (fun e he a _ => ?_)
  split
  · exact he.updDesc _
  · exact he

/-- What an end of a stream leaves. -/
theorem endStream_stream (d : Dev) (s : Nat) : (d.endStream s).stream s = Stream.idle := by
  rw [Dev.endStream, wr_stream, stream_setStream_same]

/-- A stream that has come to its last boundary ends. -/
theorem Follow.endStream (h : Follow lim d e) (hs : s < 32) (h2 : (e.stream s).stopping = 2) :
    Follow lim d (e.endStream s) := by
  have hport : Follow lim d (e.startFade (e.outPort s) (e.outSlots s)) := h.setPort _ _
  have hdet := hport.setDet hs none
  have h2' : (((e.startFade (e.outPort s) (e.outSlots s)).setDet s none).stream s).stopping = 2 := by
    rw [setDet_stream_same]
    exact h2
  exact (hdet.setStream s (y := Stream.idle) ⟨fun hne => absurd h2' hne, fun _ => rfl, fun _ => rfl, fun _ => rfl⟩).wrContext
    (k := 0x330) hs (by decide) 0

/-- The blocks of a stream that still have frames to play. -/
theorem Stream.Follows.setPlays (a : Stream) (ps : List PlayBlock) : a.Follows { a with plays := ps } :=
  ⟨fun _ => rfl, id, id, id⟩

theorem Follow.afterFrame (h : Follow lim d e) (hs : s < 32) (g : Nat) (word : Nat → Nat) :
    Follow lim d (e.afterFrame s g word) := by
  have hplay : Follow lim d (match e.playAt s g with
      | some (b, n) => (e.captureSample s 1 b.block n g word).playedSample s b.block n
      | none => e) := by
    split
    · exact (h.captureSample _ _ _ _ _).playedSample _ _
    · exact h
  rw [Dev.afterFrame]
  refine Follow.ite (fun h2 => ?_) (hplay.setStream s (.setPlays _ _))
  exact (hplay.setStream s (.setPlays _ _)).endStream hs (by rw [stream_setStream_same]; exact h2.1)

theorem Follow.sendFrame (h : Follow lim d e) (p : Nat) (ws : List Nat) : Follow lim d (e.sendFrame p ws) := by
  rw [Dev.sendFrame]
  split
  · split
    · exact h
    · exact h.emit _
  · split
    · exact h
    · exact h.emit _

theorem lt_of_mem_streams {s : Nat} {p : Nat → Bool} (h : s ∈ streams.filter p) : s < 32 :=
  List.mem_range.mp (List.mem_of_mem_filter h)

theorem Follow.framesOut (h : Follow lim d e) (p g : Nat) (sent : Bool) : Follow lim d (e.framesOut p g sent) := by
  rw [Dev.framesOut]
  refine Follow.foldl ?_ (fun e he s hs => he.afterFrame (lt_of_mem_streams hs) _ _)
  cases sent with
  | true => exact (h.setPort p _).sendFrame _ _
  | false => exact h.setPort p _

theorem Follow.servePoint (h : Follow lim d e) (p g : Nat) (ws : Option (List Nat)) : Follow lim d (e.servePoint p g ws) :=
  ((h.setPort p _).foldl (fun _ he _ hs => he.takeSample (lt_of_mem_streams hs) _ _)).framesOut _ _ _

theorem Follow.catchUp (h : Follow lim d e) (p t k : Nat) : Follow lim d (e.catchUp p t k) := by
  induction k generalizing e with
  | zero => exact h
  | succ k ih =>
    rw [Dev.catchUp]
    split
    · exact ih (h.servePoint _ _ _)
    · exact h

theorem Follow.fillTo (h : Follow lim d e) (p t : Nat) : Follow lim d (e.fillTo p t) := h.catchUp _ _ _

theorem Follow.zcTimeout (h : Follow lim d e) (hs : s < 32) : Follow lim d (zcTimeout s e) := by
  rw [Machine.zcTimeout]
  split
  · split
    · have hfade : Follow lim d (if e.watching s then e.wr (R.SEQ_PROMO_STAT_STATE s) 4 else e) := by
        split
        · exact h.wrPromo (k := 0x100) hs (by decide) 4
        · exact h
      exact ((hfade.setDet hs none).wrContext (k := 0x330) hs (by decide) 1).irqSeq _
    · exact h
  · exact h

end Sys2Proof.Machine
end

section
/-! SUPPORT. PORTs, and the settling of a block, as work between two launches (spec/03 R51-R64). -/
namespace Sys2Proof.Machine

variable {d e f : Dev} {lim s : Nat}

/-! ## PORTs at a boundary -/

theorem putBytes_siloWork {t : TroughId} {a : Nat} {bs : List Byte} (h : d.putBytes t a bs = .ok () e) : SiloWork d e := by
  rw [Dev.putBytes] at h
  split at h
  · cases h
  · split at h
    · cases h
    · split at h
      next hdone =>
        split at h
        · cases h
        · cases h
          exact pathWrite_siloWork hdone
      next => cases h
      next => cases h

/-- Work after work that is done: both are. -/
theorem Work.bind_eq_ok {α β : Type} {w : Work α} {op : α → Dev → Work β} {b : β} (h : w.bind op = .ok b e) :
    ∃ a d', w = .ok a d' ∧ op a d' = .ok b e := by
  cases w with
  | ok a d' => exact ⟨a, d', rfl, h⟩
  | wait => cases h
  | fail st d' => cases h

/-- What each step keeps, all steps that are done keep. -/
theorem steps_keeps {P : Dev → Prop} {op : Dev → Work Bool} (hop : ∀ e b f, P e → op e = .ok b f → P f) (n : Nat) (h : P d)
    (hd : Dev.steps op n d = .ok () e) : P e := by
  induction n generalizing d with
  | zero =>
    cases hd
    exact h
  | succ n ih =>
    rw [Dev.steps] at hd
    split at hd
    next hw => exact ih (hop _ _ _ h hw) hd
    next hw =>
      cases hd
      exact hop _ _ _ h hw
    next =>
      cases hd
      exact h
    next => cases hd

theorem stream_lt (b : DescWord) : (PortB.of b).stream < 32 := bits_lt _ _ _

/-- A sample that reaches its buffer: it is carried no more, counted where it is late, and its PORT moves on. -/
theorem Follow.stored (h : Follow lim d e) (cs : List Cap) (hs : s < 32) (late : Nat) (y : Desc) :
    Follow lim d (((e.setCaps cs).bump (R.SEQ_STRM_PORT_LATE_COUNT s) late).updDesc y) :=
  ((h.setCaps cs).wrContext (k := 0x354) hs (by decide) _).updDesc y

theorem Follow.captureStep {t : TroughId} {pos : Nat} {b : Bool} (h : Follow lim d e)
    (hb : Machine.captureStep t pos e = .ok b f) : Follow lim d f := by
  have hput : ∀ {a bs late y} {x : PortB} {c : Dev → List Cap} {b' : Bool}, x.stream < 32 →
      ((e.putBytes t a bs).bind fun _ d =>
        Work.ok b' (((d.setCaps (c d)).bump (R.SEQ_STRM_PORT_LATE_COUNT x.stream) late).updDesc y)) = .ok b f →
      Follow lim d f := by
    intro a bs late y x c b' hx hw
    obtain ⟨_, d', hd', hok⟩ := Work.bind_eq_ok hw
    cases hok
    exact (h.silo (putBytes_siloWork hd')).stored _ hx _ _
  rw [Machine.captureStep] at hb
  split at hb
  · cases hb
  · dsimp only at hb
    split at hb
    · split at hb
      · exact hput (stream_lt _) hb
      · exact hput (stream_lt _) hb
    · split at hb
      · exact hput (stream_lt _) hb
      · cases hb

theorem Follow.dropLeft (h : Follow lim d e) : Follow lim d (e.dropLeft s) := by
  refine h.foldl (fun e he y _ => ?_)
  refine (Follow.setCaps ?_ _).dropDesc _ _
  split
  next hok => exact steps_keeps (P := Follow lim d) (fun _ _ _ hp hop => hp.captureStep hop) _ he hok
  next => exact he

theorem Follow.endPorts (h : Follow lim d e) (hs : s < 32) : Follow lim d (e.endPorts s) := by
  refine Follow.foldl (Follow.foldl h fun e he y _ => ?_) fun e he y _ => ?_
  · exact (he.wrContext (k := 0x354) hs (by decide) _).updDesc _
  · exact ((he.wrContext (k := 0x354) hs (by decide) _).setCaps _).updDesc _

theorem Follow.playOver (h : Follow lim d e) (hs : s < 32) (y : Desc) (k : Nat) (ws : List (List Nat)) :
    Follow lim d (e.playOver y s k ws).2 := h.stored _ hs _ _

theorem Follow.withPlay (h : Follow lim d e) (hs : s < 32) (k : Nat) (ws : List (List Nat)) :
    Follow lim d (e.withPlay s k ws).2 := by
  rw [Dev.withPlay]
  split
  · exact h.playOver hs _ _ _
  · exact h

/-! ## Settling -/

theorem Follow.monitor (h : Follow lim d e) (hs : s < 32) : Follow lim d (e.monitor s) :=
  ((h.setStream s (by exact ⟨fun _ => rfl, id, id, id⟩)).wrContext (k := 0x344) hs (by decide) _).wrContext (k := 0x330) hs
    (by decide) _

theorem Follow.addLoad (h : Follow lim d e) (v : Nat) : Follow lim d (e.addLoad s v) := h.of_regs rfl rfl rfl

theorem Follow.missBlock (h : Follow lim d e) (hs : s < 32) (k : Nat) : Follow lim d (e.missBlock s k) := by
  have hmiss := (((h.wrContext (k := 0x334) (lo := 0) (w := 32) hs (by decide) (min (e.rd (R.SEQ_STRM_MISS_COUNT s) + 1) (2 ^ 32 - 1))).wr
    (spares_low (f := R.SEQ_MISS_LAST_STREAM) (by decide) (by decide)) s).irqSeq seqMiss).addLoad (s := s) 65535
  rw [Dev.missBlock]
  split
  next hn => exact (Follow.event hmiss (stallOfStream_mem hn) _ _ _ _ _).raise _ _
  next => exact hmiss

/-- Whether stream `s` has a trough of a kind that runs. -/
def Stream.runOf (a : Stream) (b : Bool) : Option RtRun := if b then a.standby else a.live

/-- The stream without its trough of that kind. -/
def Stream.endRun (a : Stream) (b : Bool) : Stream := if b then { a with standby := none } else { a with live := none }

theorem Stream.Follows.endRun (a : Stream) (b : Bool) : a.Follows (a.endRun b) := by
  cases b
  · exact ⟨fun _ => rfl, fun _ => rfl, id, id⟩
  · exact ⟨fun _ => rfl, id, fun _ => rfl, id⟩

theorem abortLate_eq (d : Dev) (s : Nat) (b : Bool) : d.abortLate s b = match (d.stream s).runOf b with
    | none => d
    | some r => if r.dead then d.setStream s ((d.stream s).endRun b) else d.failRealtime s b := rfl

theorem Follow.abortLate (h : Follow lim d e) (hl : lim ≤ 0x30000) (b : Bool) : Follow lim d (e.abortLate s b) := by
  rw [abortLate_eq]
  split
  · exact h
  · split
    · exact h.setStream s (.endRun _ _)
    · exact h.failRealtime hl s b

theorem abortLate_of_none {b : Bool} (h : (d.stream s).runOf b = none) : d.abortLate s b = d := by rw [abortLate_eq, h]

/-- Block `k`, which ended as `x`, counts among those met. -/
def Dev.countMet (d : Dev) (s : Nat) (x : Ended) : Dev :=
  if x.met then d.setStream s { d.stream s with met := (d.stream s).met + 1 } else d

/-- Whether the stream crossfades. -/
def Dev.fading (d : Dev) (s : Nat) : Bool := d.rd (R.SEQ_PROMO_STAT_STATE s) == 4

/-- Block `k`, which ended as `x`, is told where it missed its deadline. -/
def Dev.tellMiss (d : Dev) (s k : Nat) (x : Ended) : Dev :=
  if (x.launched && !x.ok && !x.slip) || (d.fading s && x.shadow && !x.shadowOk && !x.slip) then d.missBlock s k else d

/-- The words chosen for block `k`, and the device after the choice. -/
def Dev.chosen (d : Dev) (s k : Nat) (x : Ended) : List (List Nat) × Dev :=
  if d.bypassing then (d.sleepWords s, d)
  else match (d.stream s).promo with
  | some p => if d.rd (R.SEQ_PROMO_STAT_STATE s) < 2 then d.liveWords s k x else d.selectPromo s k p x
  | none => d.liveWords s k x

/-- The chosen words of block `k` are queued to play. -/
def Dev.queuePlay (d : Dev) (s k due : Nat) (bad : Bool) (ws : List (List Nat)) : Dev :=
  let tk := d.smpTicks (d.outPort s)
  let t0 := due + 4 * d.strmTicks s
  let start := t0 + ((d.port (d.outPort s)).grid % tk + tk - t0 % tk) % tk
  let st := d.stream s
  let d := d.setStream s { st with plays := st.plays ++ [⟨k, start, ws⟩], liveMet := false, standbyMet := false }
  d.wr (R.SEQ_STRM_STAT_LAST_FB s) (b2n (d.bypassing || bad))

/-- The device once block `k`, which ended as `x`, is counted and told, and what is late is aborted. -/
def Dev.counted (d : Dev) (s k : Nat) (x : Ended) : Dev :=
  (((d.countMet s x).tellMiss s k x).abortLate s false).abortLate s true

/-- Settling counts the block, aborts what is late, chooses and queues. -/
theorem settleBlock_eq (d : Dev) (s k due : Nat) : d.settleBlock s k due =
    let x := d.ended s k
    let c := (d.counted s k x).chosen s k x
    let w := c.2.withPlay s k c.1
    w.2.queuePlay s k due (!x.ok || ((d.countMet s x).fading s && !x.shadowOk)) w.1 := by
  rw [Dev.settleBlock]
  simp only [Dev.queuePlay, ← Bool.or_assoc]
  rfl

theorem Follow.tellMiss (h : Follow lim d e) (hs : s < 32) (k : Nat) (x : Ended) :
    Follow lim d ((e.countMet s x).tellMiss s k x) := by
  have hmet : Follow lim d (e.countMet s x) := Follow.ite (fun _ => h.setStream s (by exact ⟨fun _ => rfl, id, id, id⟩)) h
  exact Follow.ite (fun _ => hmet.missBlock hs k) hmet

theorem Follow.counted (h : Follow lim d e) (hs : s < 32)
    (hl : lim ≤ 0x30000 ∨ (e.stream s).live = none ∧ (e.stream s).standby = none) (k : Nat) (x : Ended) :
    Follow lim d (e.counted s k x) := by
  have hmiss := (Follow.refl lim e).tellMiss hs k x
  rw [Dev.counted]
  obtain hl | ⟨hlive, hstand⟩ := hl
  · exact h.trans ((hmiss.abortLate hl _).abortLate hl _)
  · rw [abortLate_of_none (b := false) ((hmiss.stream s).live hlive),
      abortLate_of_none (b := true) ((hmiss.stream s).standby hstand)]
    exact h.trans hmiss

theorem Follow.queuePlay (h : Follow lim d e) (hs : s < 32) (k due : Nat) (bad : Bool) (ws : List (List Nat)) :
    Follow lim d (e.queuePlay s k due bad ws) :=
  (h.setStream s (by exact ⟨fun _ => rfl, id, id, id⟩)).wrContext (k := 0x330) hs (by decide) _

/-- With no promotion the choice only reads memory. -/
theorem Follow.chosen (h : Follow lim d e) (hp : (e.stream s).promo = none) (k : Nat) (x : Ended) :
    Follow lim d (e.chosen s k x).2 := by
  rw [Dev.chosen]
  split
  · exact h
  · rw [hp]
    exact h.silo (liveWords_siloWork _ _ _ _)

theorem Follow.settleBlock (h : Follow lim d e) (hs : s < 32) (hp : (e.stream s).promo = none)
    (hl : lim ≤ 0x30000 ∨ (e.stream s).live = none ∧ (e.stream s).standby = none) (k due : Nat) :
    Follow lim d (e.settleBlock s k due) := by
  have hcount := fun k x => (Follow.refl lim e).counted hs hl k x
  rw [settleBlock_eq]
  exact h.trans ((((hcount _ _).chosen (((hcount _ _).stream s).promo hp) _ _).withPlay hs _ _).queuePlay hs _ _ _ _)

end Sys2Proof.Machine
end

section
/-! SUPPORT. What a promotion that ends, and a descriptor that fails on the way, leave of the streams (spec/11 R211-R214,
spec/19 R392). -/
namespace Sys2Proof.Machine

variable {d e f : Dev} {s : Nat}

/-- The pages up to those of the stream contexts. -/
abbrev seqEnd : Nat := 0xC000

/-- A word past the stream contexts. -/
theorem spares_above {f : Fld} (h : 0xC000 ≤ f.addr) : f.spares seqEnd := by
  intro g hg hlt
  refine apart_of_addr (.inr ?_)
  have hlt' : g.addr < 0xC000 := hlt
  obtain ⟨hw, h1 | h1 | ⟨x, hx, h1⟩ | ⟨n, h1, h8, h2 | h2⟩ | ⟨p, hp, h1, -⟩⟩ := hg.place <;> omega

theorem Follow.wrAbove (h : Follow seqEnd d e) {g : Fld} (hg : 0xC000 ≤ g.addr) (v : Nat) : Follow seqEnd d (e.wr g v) :=
  h.wr (spares_above hg) v

/-! ## A job fault -/

theorem above_stall (n k : Nat) : 0xC000 ≤ 0x10000 + n * 4096 + k := by omega

theorem above_trough (n k t : Nat) : 0xC000 ≤ 0x20000 + n * 4096 + k + t * 64 := by omega

theorem Follow.eventAny (h : Follow seqEnd d e) (n status kind index pos : Nat) (quiet : Bool) :
    Follow seqEnd d (e.event n status kind index pos quiet) := by
  refine event_keeps (P := Follow seqEnd d) (fun e g hg v he => he.wrAbove ?_ v) (fun e f hs he => he.silo hs)
    (fun e v he => he.raise n v) (fun e o he => he.owe o) h status kind index pos quiet
  simp only [eventFlds, List.mem_cons, List.not_mem_nil, or_false] at hg
  obtain rfl | rfl | rfl := hg
  · exact above_stall n 0x8c
  · exact above_stall n 0x88
  · exact above_stall n 0x80

theorem Follow.mgmtIrq {lim : Nat} (h : Follow lim d e) (b : Nat) : Follow lim d (e.mgmtIrq b) := by
  have hset : Follow lim d (e.setWord A.SYS_MGMT_IRQ_STAT (setBit (e.word A.SYS_MGMT_IRQ_STAT) b)) := by
    refine h.of_streams (fun g hg hlt => ?_) rfl rfl
    refine rd_of_word hg.place.1 (word_setWord_ne _ _ ?_)
    simp only [A.SYS_MGMT_IRQ_STAT]
    obtain ⟨hw, h1 | h1 | ⟨x, hx, h1⟩ | ⟨n, h1, h8, h2 | h2⟩ | ⟨p, hp, h1, -⟩⟩ := hg.place <;> omega
  exact Follow.ite (fun _ => hset.emit _) hset

theorem Follow.setJob {lim : Nat} (h : Follow lim d e) (n : Nat) (j : Job) : Follow lim d (e.setJob n j) := h.of_regs rfl rfl rfl

theorem Follow.setWaiters {lim : Nat} (h : Follow lim d e) (ws : List Waiter) : Follow lim d (e.setWaiters ws) :=
  h.of_regs rfl rfl rfl

theorem Follow.sendAborts (h : Follow seqEnd d e) (n : Nat) : Follow seqEnd d (e.sendAborts n) :=
  ((h.setJob n _).wrAbove (g := R.STL_FAULT_STAT_ABORT_PEND n) (above_stall n _) _).foldl
    (fun _ he _ _ => he.sendPacket _ _ _)

theorem Follow.stopUnits (h : Follow seqEnd d e) (n : Nat) : Follow seqEnd d (e.stopUnits n) := h.stopWork (by decide) _ _

theorem Follow.dropWaits {lim : Nat} (h : Follow lim d e) (n : Nat) : Follow lim d (e.dropWaits n) :=
  h.of_regs rfl rfl rfl

theorem Follow.leavePorts {lim : Nat} (h : Follow lim d e) (n t : Nat) : Follow lim d (e.leavePorts n t) :=
  (h.setCaps _).setLive _

theorem Follow.dropSends {lim : Nat} (h : Follow lim d e) (t : TroughId) : Follow lim d (e.dropSends t) :=
  h.foldl (fun _ he _ _ => he.setLink _ _)

theorem Follow.setTrough {lim : Nat} (h : Follow lim d e) (n t : Nat) (x : TroughSt) : Follow lim d (e.setTrough n t x) :=
  h.of_regs rfl rfl rfl

theorem Follow.setChecked {lim : Nat} (h : Follow lim d e) (op : Audio → Audio) (hop : (op e.au).streams = e.au.streams) :
    Follow lim d { e with au := op e.au } := h.of_regs rfl rfl hop

theorem Follow.discardTrough (h : Follow seqEnd d e) (n t st : Nat) (status : Option Nat) :
    Follow seqEnd d (e.discardTrough n t st status) := by
  have hregs := ((h.wrAbove (g := R.TRG_T_DISCARD_COUNT n t) (above_trough n _ t)
    (min (e.rd (R.TRG_T_DISCARD_COUNT n t) + ((e.rd (R.TRG_T_TAIL n t) + 2 ^ 32 - e.rd (R.TRG_T_HEAD n t)) % 2 ^ 32 -
      (e.trough n t).retired.length)) (2 ^ (R.TRG_T_DISCARD_COUNT n t).width - 1))).wrAbove (g := R.TRG_T_HEAD n t)
    (above_trough n _ t) (e.rd (R.TRG_T_TAIL n t))).wrAbove (g := R.TRG_T_STAT_STATE n t) (above_trough n _ t) st
  have hports := ((hregs.setTrough n t ⟨e.rd (R.TRG_T_TAIL n t), [], []⟩).leavePorts n t).dropSends (.batch n t)
  have hall := fun xs ys => ((hports.setChecked
    (fun a => { a with checked := a.checked.filter (fun p => !(p.trough == .batch n t)) }) rfl).setLive xs).setWaiters ys
  cases status with
  | none => exact hall _ _
  | some v => exact (hall _ _).wrAbove (g := R.TRG_T_STAT_STATUS n t) (above_trough n _ t) v

/-! ## Streams hold steady -/

/-- `e` comes of `d` by work that brings no stream before its last boundary nearer to its end, and enables none. -/
structure Steady (d e : Dev) : Prop where
  stopping : ∀ x, (d.stream x).stopping ≠ 2 → (e.stream x).stopping = (d.stream x).stopping
  off : ∀ x < 32, d.rd (R.SEQ_STRM_CFG_EN x) = 0 → e.rd (R.SEQ_STRM_CFG_EN x) = 0

theorem Steady.refl (d : Dev) : Steady d d := ⟨fun _ _ => rfl, fun _ _ h => h⟩

theorem Steady.trans (h : Steady d e) (h' : Steady e f) : Steady d f :=
  ⟨fun x hx => (h'.stopping x (by rwa [h.stopping x hx])).trans (h.stopping x hx), fun x hx h0 => h'.off x hx (h.off x hx h0)⟩

theorem Follow.steady (h : Follow seqEnd d e) : Steady d e where
  stopping x hx := (h.stream x).stopping hx
  off x hx h0 := by
    rw [h.rd _ (.enable hx) (by simp only [A.SEQ_STRM_CFG, seqEnd]; omega), h0]

/-- The rule for one more piece of work. -/
theorem Steady.follow (h : Steady d e) (hf : Follow seqEnd e e → Follow seqEnd e f) : Steady d f :=
  h.trans (hf (.refl seqEnd e)).steady

theorem Steady.setStream (h : Steady d e) (s : Nat) {y : Stream} (hy : y.stopping = (e.stream s).stopping) :
    Steady d (e.setStream s y) := by
  refine h.trans ⟨fun x _ => ?_, fun x _ h0 => by simpa using h0⟩
  by_cases hx : x = s
  · rw [hx, stream_setStream_same, hy]
  · rw [stream_setStream_ne _ _ hx]

/-- A write of zeros clears bits and sets none. -/
theorem rd_wr_zero_of_zero (d : Dev) {g : Fld} (hg : g.words = 1) {f : Fld} (hf : f.words = 1) (hw : f.width = 1)
    (h : d.rd f = 0) : (d.wr g 0).rd f = 0 := by
  rw [rd_eq_testBit _ hf hw] at h ⊢
  by_cases ha : f.addr = g.addr
  · have hbit : (d.word g.addr).testBit f.lo = false := by
      rw [← ha]
      cases hb : (d.word f.addr).testBit f.lo
      · rfl
      · rw [hb] at h
        cases h
    have hset : (setBits (d.word g.addr) g.lo g.width 0).testBit f.lo = false := by
      rw [testBit_setBits, hbit, Nat.zero_testBit]
      simp
    rw [ha, wr_of_one_word d 0 hg, word_setWord_same, Nat.testBit_mod_two_pow, hset, Bool.and_false]
    rfl
  · rw [word_wr_of_one_word d 0 hg ha, h]

theorem Steady.wrZero (h : Steady d e) {g : Fld} (hg : g.words = 1) : Steady d (e.wr g 0) :=
  h.trans ⟨fun x _ => by rw [wr_stream], fun x _ h0 => rd_wr_zero_of_zero e hg (words_of_le (by decide) (by decide)) rfl h0⟩

theorem Follow.setOwed {lim : Nat} (h : Follow lim d e) (os : List Owed) : Follow lim d (e.setOwed os) := h.of_regs rfl rfl rfl

theorem Follow.setLossScale {lim : Nat} (h : Follow lim d e) (n : Nat) (x : LossScale) : Follow lim d (e.setLossScale n x) :=
  h.of_regs rfl rfl rfl

/-- The mode of a loss-scale context, of whatever number, is a word in which zeros enable nothing. -/
theorem Steady.offLossScale (h : Steady d e) (n : Nat) : Steady d (e.offLossScale n) := by
  rw [Dev.offLossScale]
  split
  · exact h
  · have hmode := (h.follow (·.setOwed (e.tn.owed.filter (· != .lossScale n)))).wrZero (g := R.WIN_LS_CFG_MODE (n - 1))
      (words_of_le (by decide) (by decide))
    exact hmode.follow (·.setLossScale _ _)

/-- What a fault of a job writes first: what caused it, and its count. -/
theorem Follow.faultFields (h : Follow seqEnd d e) (n status kind index pos : Nat) : Follow seqEnd d
    (((((((e.wr (R.STL_JOB_STAT_STATE n) jobFaulted).wr (R.STL_JOB_STAT_STATUS n) status).wr (R.STL_FAULT_STAT_KIND n) kind).wr
      (R.STL_FAULT_STAT_INDEX n) index).wr (R.STL_FAULT_POS n) pos).wr (R.STL_FAULT_STAT_RETURNED n) 0).bump
      (R.STL_FAULT_COUNT n)) :=
  ((((((h.wrAbove (above_stall n _) _).wrAbove (above_stall n _) _).wrAbove (above_stall n _) _).wrAbove
    (above_stall n _) _).wrAbove (above_stall n _) _).wrAbove (above_stall n _) _).wrAbove (above_stall n _) _

theorem Steady.faultJob (h : Steady d e) (n status kind index pos : Nat) (aborts : Bool) :
    Steady d (e.faultJob n status kind index pos aborts) := by
  rw [Dev.faultJob]
  split
  · exact h.follow (·.wrAbove (above_stall n _) _)
  · split
    · exact h
    · have htold := fun (f : Dev) (hf : Follow seqEnd e f) => ((hf.mgmtIrq irqFault).eventAny n status kindJob 0 0 false).raise n 5
      have hsent := fun f hf => Follow.ite (c := aborts = true) (fun _ => (htold f hf).sendAborts n) (htold f hf)
      have hstop := fun f hf => (h.follow (fun _ => ((hsent f hf).stopUnits n).dropWaits n)).offLossScale n
      exact (hstop _ ((Follow.refl _ e).faultFields n status kind index pos)).follow
        (·.foldl fun _ he _ _ => Follow.ite (fun _ => he) (he.discardTrough _ _ _ _))

theorem Steady.failDesc (h : Steady d e) (t : TroughId) (pos status : Nat) : Steady d (e.failDesc t pos status) := by
  cases t with
  | batch n q => exact h.faultJob _ _ _ _ _ _
  | realtime s b =>
    have hstop := h.follow (·.failRealtime (by decide) s b)
    rw [Dev.failDesc]
    split
    · exact hstop.faultJob _ _ _ _ _ _
    · exact hstop

/-! ## A promotion ends -/

theorem Steady.silo (h : Steady d e) (hs : SiloWork e f) : Steady d f := h.follow (·.silo hs)

theorem Steady.swapDone (h : Steady d e) (t : TroughId) (pos s status block : Nat) :
    Steady d (e.swapDone t pos s status block) := by
  have hevent := h.follow (·.eventAny (e.stallOf t) status kindStream s block false)
  rw [Dev.swapDone]
  split
  · exact hevent.follow (·.updDesc _)
  · exact hevent

theorem Steady.swapWrite (h : Steady d e) {t : TroughId} {pos s result status block : Nat} {bs : List Byte}
    (hf : e.swapWrite t pos s result status block bs = some f) : Steady d f := by
  rw [Dev.swapWrite] at hf
  split at hf
  · exact Option.some.inj hf ▸ h.swapDone _ _ _ _ _
  · split at hf
    · exact Option.some.inj hf ▸ h.failDesc _ _ _
    · split at hf
      next hw => exact Option.some.inj hf ▸ (h.silo (pathWrite_siloWork hw)).swapDone _ _ _ _ _
      next => cases hf
      next => exact Option.some.inj hf ▸ h.failDesc _ _ _

theorem Steady.swapRecord (h : Steady d e) (t : TroughId) (pos s result status outcome p block stc : Nat) :
    Steady d (e.swapRecord t pos s result status outcome p block stc) := by
  rw [Dev.swapRecord]
  cases hw : e.swapWrite t pos s result status block
    (leBytes 2 status ++ leBytes 1 outcome ++ leBytes 1 p ++ leBytes 4 block ++ leBytes 8 stc) with
  | none => exact h.follow (·.owe _)
  | some f => exact h.swapWrite hw

theorem Steady.setPromo (h : Steady d e) (s : Nat) (p : Option Promo) : Steady d (e.setPromo s p) := h.setStream s rfl

theorem Follow.showOutcome {lim : Nat} (h : Follow lim d e) (hs : s < 32) (outcome : Nat) (good : Bool) :
    Follow lim d (e.showOutcome s outcome good) := by
  have hout : Follow lim d (e.wr (R.SEQ_PROMO_STAT_OUTCOME s) outcome) := h.wrPromo (k := 0x100) hs (by decide) outcome
  rw [Dev.showOutcome]
  cases good with
  | true => exact Follow.irqSeq (hout.wrPromo (k := 0x108) (lo := 0) (w := 16) hs (by decide) _) _
  | false => exact Follow.irqSeq (hout.wrPromo (k := 0x108) (lo := 16) (w := 16) hs (by decide) _) _

/-- The promotion is over: its state is 0 and its outcome shows. -/
theorem Steady.closePromo (h : Steady d e) (hs : s < 32) (outcome : Nat) (good : Bool) :
    Steady d ((e.wr (R.SEQ_PROMO_STAT_STATE s) 0).showOutcome s outcome good) :=
  h.follow (fun hr => (hr.wrPromo (k := 0x100) hs (by decide) 0).showOutcome hs _ _)

theorem Steady.ite {c : Prop} [Decidable c] {a b : Dev} (ha : Steady d a) (hb : Steady d b) :
    Steady d (if c then a else b) := by
  split
  · exact ha
  · exact hb

theorem Steady.abandon (h : Steady d e) (hs : s < 32) (outcome status : Nat) (told : Bool) :
    Steady d (e.abandon s outcome status told) := by
  have hdet : Steady d (if e.watching s then e.setDet s none else e) := .ite (h.follow (·.setDet hs none)) h
  have hstop : ∀ f, Steady d f → Steady d (if (f.stream s).standby.isSome then f.failRealtime s true else f) :=
    fun f hf => .ite (hf.follow (·.failRealtime (by decide) s true)) hf
  rw [Dev.abandon]
  split
  · exact h
  · have hover := ((hstop _ hdet).setPromo s none).closePromo hs outcome false
    exact .ite (hover.swapRecord _ _ _ _ _ _ _ _ _) hover

theorem Follow.pinBays {lim : Nat} (hl : lim ≤ 0x30000) (h : Follow lim d e) : Follow lim d (e.pinBays s) := by
  refine h.foldl (fun e he b _ => Follow.ite (fun _ => ?_) he)
  exact ((he.wrUnit hl (g := R.THR_GANG_PINNED b) (le_page _ _ _) 1).wrUnit hl (g := R.THR_GANG_STREAM b) (le_page _ _ _) s).wrUnit
    hl (g := R.THR_GANG_STANDBY b) (le_page _ _ _) _

/-- A commit writes the context's words of the new trough. -/
theorem Follow.commitWords {lim : Nat} (h : Follow lim d e) (hs : s < 32) (trgBase trgLen outBase stBase stLen pinned spare : Nat) :
    Follow lim d (((((((e.wr (R.SEQ_STRM_TRG_BASE s) trgBase).wr (R.SEQ_STRM_TRG_LEN s) trgLen).wr (R.SEQ_STRM_OUT_BASE s)
      outBase).wr (R.SEQ_STRM_STATE_BASE s) stBase).wr (R.SEQ_STRM_STATE_LEN s) stLen).wr (R.SEQ_STRM_BAYS_PINNED s) pinned).wr
      (R.SEQ_STRM_BAYS_STANDBY s) spare) :=
  ((((((h.wrContext (k := 0x308) hs (by decide) _).wrContext (k := 0x30c) hs (by decide) _).wrContext (k := 0x318) hs
    (by decide) _).wrContext (k := 0x31c) hs (by decide) _).wrContext (k := 0x320) hs (by decide) _).wrContext (k := 0x310) hs
    (by decide) _).wrContext (k := 0x310) hs (by decide) _

theorem Steady.commit (h : Steady d e) (hs : s < 32) (outcome pos block stc : Nat) :
    Steady d (e.commit s outcome pos block stc) := by
  rw [Dev.commit]
  split
  · exact h
  next p _ =>
    have hwords := h.follow (fun hr => Follow.pinBays (s := s) (by decide) (hr.commitWords hs p.trgBase p.trgLen p.outBase p.stateBase
      (p.stateLen / 64) (e.rd (R.SEQ_STRM_BAYS_STANDBY s)) (e.rd (R.SEQ_STRM_BAYS_PINNED s))))
    exact ((hwords.setStream s (y := { (Dev.stream _ s) with met := p.met, promo := none, standbyMet := false }) rfl).closePromo
      hs outcome true).swapRecord _ _ _ _ _ _ _ _ _

/-! ## The choice of a block's words while a promotion runs -/

theorem Steady.liveWords (h : Steady d e) (s k : Nat) (x : Ended) : Steady d (e.liveWords s k x).2 :=
  h.silo (liveWords_siloWork _ _ _ _)

theorem Steady.wrPromo (h : Steady d e) (hs : s < 32) {k lo w : Nat}
    (hk : 0x100 ≤ k ∧ k + 4 * (max 1 ((lo + w + 31) / 32)) ≤ 0x110) (v : Nat) :
    Steady d (e.wr ⟨0xB000 + k + s * 16, lo, w⟩ v) := h.follow (·.wrPromo hs hk v)

/-- The promotion with its fade begun at block `k`, where none was before. -/
def Promo.fadeFrom (p : Promo) (k stc : Nat) : Promo := if p.fadeBlock = 0 then { p with fadeBlock := k, fadeStc := stc } else p

/-- The words of a block at fade position `n0`. -/
def Dev.fadeWords (d : Dev) (s k n0 : Nat) (p : Promo) (x : Ended) : List (List Nat) × Dev :=
  if x.ok ∧ x.shadowOk then
    let (old, d) := d.outWords s (d.rd (R.SEQ_STRM_OUT_BASE s)) k
    let (new, d) := d.outWords s p.outBase k
    (fadeBlock p.fadeLen n0 old new, d)
  else d.fallback s k

theorem selectFade_dev (d : Dev) (s k : Nat) (p : Promo) (x : Ended) : (d.selectFade s k p x).2 =
    let q := p.fadeFrom k d.stc
    let n0 := (k - q.fadeBlock) * d.blkLen s
    let e := (d.setPromo s (some q)).wr (R.SEQ_PROMO_XPOS_POS s) (min (q.fadeLen - 1) (n0 + d.blkLen s - 1))
    let f := (e.fadeWords s k n0 q x).2
    if q.fadeLen ≤ n0 + f.blkLen s then f.commit s (if q.requested then 3 else 2) 0 q.fadeBlock q.fadeStc else f := rfl

theorem fadeWords_siloWork (d : Dev) (s k n0 : Nat) (p : Promo) (x : Ended) : SiloWork d (d.fadeWords s k n0 p x).2 := by
  rw [Dev.fadeWords]
  split
  · exact (outWords_siloWork d _ _ _).trans (outWords_siloWork _ _ _ _)
  · exact fallback_siloWork d s k

theorem Steady.selectFade (h : Steady d e) (hs : s < 32) (k : Nat) (p : Promo) (x : Ended) :
    Steady d (e.selectFade s k p x).2 := by
  have hpos := fun q v => (h.setPromo s (some q)).wrPromo (k := 0x104) (lo := 0) (w := 13) hs (by decide) v
  have hwords := fun q v n0 => (hpos q v).silo (fadeWords_siloWork _ s k n0 q x)
  rw [selectFade_dev]
  exact .ite ((hwords _ _ _).commit hs _ _ _ _) (hwords _ _ _)

theorem Steady.selectSplit (h : Steady d e) (hs : s < 32) (k pos stc : Nat) (p : Promo) (x : Ended) :
    Steady d (e.selectSplit s k pos stc p x).2 :=
  Steady.commit (((h.liveWords s k x).silo (outWords_siloWork _ s p.outBase k)).wrPromo (k := 0x10c) (lo := 0) (w := 8) hs
    (by decide) pos) hs _ _ _ _

theorem Steady.selectWarm (h : Steady d e) (hs : s < 32) (k : Nat) (p : Promo) (x : Ended) :
    Steady d (e.selectWarm s k p x).2 := by
  have hleft := h.wrPromo (k := 0x100) (lo := 8) (w := 8) hs (by decide) (e.rd (R.SEQ_PROMO_STAT_WARM_LEFT s) - b2n x.shadowOk)
  have hstate := fun {f : Dev} (hf : Steady d f) v => hf.wrPromo (k := 0x100) (lo := 0) (w := 3) hs (by decide) v
  rw [Dev.selectWarm]
  dsimp only
  split
  · exact hleft.liveWords _ _ _
  · split
    · refine Steady.commit ?_ hs _ _ _ _
      split
      · exact hleft.silo (outWords_siloWork _ _ _ _)
      · exact hleft.silo (fallback_siloWork _ _ _)
    · split
      · exact (hstate hleft 4).selectFade hs _ _ _
      · exact (hstate (hleft.follow (·.setDet hs _)) 3).liveWords _ _ _

theorem Steady.selectWatch (h : Steady d e) (hs : s < 32) (k : Nat) (p : Promo) (x : Ended) :
    Steady d (e.selectWatch s k p x).2 := by
  rw [Dev.selectWatch]
  split
  · split
    · exact h.selectSplit hs _ _ _ _ _
    · exact h.liveWords _ _ _
  · exact h.liveWords _ _ _

theorem Steady.addMet (h : Steady d e) (s : Nat) :
    Steady d (e.setStream s { e.stream s with met := (e.stream s).met + 1 }) := h.setStream s rfl

theorem Steady.selectPromo (h : Steady d e) (hs : s < 32) (k : Nat) (p : Promo) (x : Ended) :
    Steady d (e.selectPromo s k p x).2 := by
  have hpromo := h.setPromo s (some { p with met := p.met + b2n (x.shadowOk || e.rd (R.SEQ_PROMO_STAT_STATE s) == 4) })
  have hmet := Steady.ite (c := e.rd (R.SEQ_PROMO_STAT_STATE s) = 4 ∧ (!x.met) = true)
    (hpromo.addMet s) hpromo
  rw [Dev.selectPromo]
  dsimp only
  split
  · exact hmet.selectFade hs _ _ _
  · split
    · exact (hmet.abandon hs 9 stDeadline true).liveWords _ _ _
    · split
      · exact hmet.selectWarm hs _ _ _
      · exact hmet.selectWatch hs _ _ _

theorem Steady.chosen (h : Steady d e) (hs : s < 32) (k : Nat) (x : Ended) : Steady d (e.chosen s k x).2 := by
  rw [Dev.chosen]
  split
  · exact h
  · split
    · split
      · exact h.liveWords _ _ _
      · exact h.selectPromo hs _ _ _
    · exact h.liveWords _ _ _

theorem Steady.settleBlock (h : Steady d e) (hs : s < 32) (k due : Nat) : Steady d (e.settleBlock s k due) := by
  have hcount := fun x => h.follow (·.counted hs (.inl (by decide)) k x)
  rw [settleBlock_eq]
  exact ((hcount _).chosen hs k _).follow (fun hr => (hr.withPlay hs _ _).queuePlay hs _ _ _ _)

end Sys2Proof.Machine
end

section
/-! SUPPORT. The boundary of a block, cut at its launch (spec/03 R51, R52, R60). -/
namespace Sys2Proof.Machine

variable {d e f : Dev} {lim s : Nat}

/-! ## What a launch is decided by -/

theorem Follow.stallOfStream (h : Follow lim d e) (hl : 0x19000 ≤ lim) (s : Nat) : e.stallOfStream s = d.stallOfStream s := by
  refine List.find?_congr (fun n hn => ?_)
  obtain ⟨h1, h8⟩ := mem_hostStalls.mp hn
  rw [h.rd _ (.grant hn) (by simp only [A.STL_Q_STREAMS]; omega)]

theorem Follow.bypassing (h : Follow lim d e) (hl : 0x19000 ≤ lim) : e.bypassing = d.bypassing := by
  rw [Dev.bypassing, Dev.bypassing, h.rd _ .power (by simp only [A.PWR_STAT]; omega), h.entry]

theorem Follow.mayLaunch (h : Follow lim d e) (hl : 0x19000 ≤ lim) (s : Nat) : e.mayLaunch s = d.mayLaunch s := by
  have hlimp : e.limp = d.limp := on_eq_of_rd (h.rd _ .limp (by simp only [A.SYS_LIMP_CAUSE]; omega))
  rw [Dev.mayLaunch, Dev.mayLaunch, hlimp, h.bypassing hl, h.stallOfStream hl]
  cases hs : d.stallOfStream s with
  | none => rfl
  | some n =>
    have hn := stallOfStream_mem hs
    obtain ⟨h1, h8⟩ := mem_hostStalls.mp hn
    have hjob : e.jobState n = d.jobState n := h.rd _ (.job hn) (by simp only [A.STL_JOB_STAT]; omega)
    simp only [hjob]

theorem Follow.blkLen (h : Follow lim d e) (hl : 0xC000 ≤ lim) (hs : s < 32) : e.blkLen s = d.blkLen s := by
  rw [Dev.blkLen, Dev.blkLen, h.rd _ (.size hs) (by simp only [A.SEQ_STRM_CFG]; omega)]

theorem Follow.strmTicks (h : Follow lim d e) (hl : 0x60000 ≤ lim) (hs : s < 32) : e.strmTicks s = d.strmTicks s := by
  have hin : e.inPort s = d.inPort s := h.rd _ (.input hs) (by simp only [A.SEQ_STRM_CFG]; omega)
  have hp : d.inPort s < 4 := rd_lt d _
  rw [Dev.strmTicks, Dev.strmTicks, Dev.smpTicks, Dev.smpTicks, hin, h.rd _ (.rate hp) (by simp only [A.AUD_PORT_CTL]; omega)]

/-! ## The block is filled and settled -/

/-- The tick of the boundary that the block being filled by stream `s` comes to. -/
def Dev.blockEnd (d : Dev) (s : Nat) : Nat := (d.stream s).blkStart + d.blkLen s * d.strmTicks s

theorem blockEnd_def (d : Dev) (s : Nat) : d.blockEnd s = (d.stream s).blkStart + d.blkLen s * d.strmTicks s := rfl

/-- The device once the block is filled. -/
def Dev.blockFilled (d : Dev) (s : Nat) : Dev :=
  ((zcTimeout s (d.fillTo (d.inPort s) (d.blockEnd s))).dropLeft s).monitor s

/-- The device once the block before it is settled. -/
def Dev.blockSettled (d : Dev) (s : Nat) : Dev :=
  if (d.stream s).block ≤ (d.stream s).first then d.blockFilled s
  else (d.blockFilled s).settleBlock s ((d.stream s).block - 1) (d.blockEnd s)

/-- Block `k` is launched, and the next is filled with the samples that came early. -/
def Dev.blockLaunched (d : Dev) (s k due : Nat) : Dev :=
  let d := d.tryLaunch s k due
  let st := d.stream s
  st.early.foldl (fun d x => d.takeSample s x.1 x.2) (d.setStream s { st with filling := false, block := k + 1, early := [] })

/-- A boundary that is due. -/
theorem blockBoundary_of_due (hon : d.domOn 57 = true) (href : d.on R.CLK_REF_STAT_MISMATCH = false)
    (hlow : d.lowerDue s (d.blockEnd s) = false) (hfill : (d.stream s).filling = true) (hstc : d.blockEnd s ≤ d.stc)
    (hstop : (d.stream s).stopping ≠ 2) : blockBoundary s d =
      let e := d.blockSettled s
      if (e.stream s).stopping = 1 then e.lastBoundary s
      else e.blockLaunched s (d.stream s).block (d.blockEnd s + e.blkLen s * e.strmTicks s) := by
  rw [blockEnd_def] at hlow hstc
  rw [blockBoundary]
  exact if_neg (by simp [hon, href, hlow, hfill, hstc, hstop])

/-- A boundary behind that of a lower stream at the same tick waits. -/
theorem blockBoundary_of_lowerDue (h : d.lowerDue s (d.blockEnd s) = true) : blockBoundary s d = d := by
  rw [blockBoundary]
  exact if_pos (by simp only [← blockEnd_def]; simp [h])

theorem blockFilled_follow (d : Dev) (hs : s < 32) : Follow lim d (d.blockFilled s) :=
  ((((Follow.refl lim d).fillTo _ _).zcTimeout hs).dropLeft).monitor hs

theorem blockSettled_steady (d : Dev) (hs : s < 32) : Steady d (d.blockSettled s) := by
  have hfill : Steady d (d.blockFilled s) := (blockFilled_follow d hs).steady
  exact .ite hfill (hfill.settleBlock hs _ _)

theorem blockSettled_follow (hs : s < 32) (hp : (d.stream s).promo = none)
    (hl : lim ≤ 0x30000 ∨ (d.stream s).live = none ∧ (d.stream s).standby = none) : Follow lim d (d.blockSettled s) := by
  have hfill := blockFilled_follow (lim := lim) d hs
  rw [Dev.blockSettled]
  split
  · exact hfill
  · exact hfill.settleBlock hs ((hfill.stream s).promo hp) (hl.imp_right fun h =>
      ⟨(hfill.stream s).live h.1, (hfill.stream s).standby h.2⟩) _ _

/-! ## The launch -/

theorem ungate_regsOnly (d : Dev) : RegsOnly d d.ungate [A.PWR_DOM_GATED, A.PWR_DOM_GATED + 4, A.PWR_STAT] := by
  have hgate : RegsOnly d (d.wr R.PWR_DOM_GATED 0) [A.PWR_DOM_GATED, A.PWR_DOM_GATED + 4, A.PWR_STAT] :=
    (RegsOnly.refl d _).wr _ _ (by decide)
  rw [Dev.ungate]
  split
  · exact hgate.wr _ _ (by decide)
  · exact hgate

/-- The stream with block `k` launched. -/
def Stream.launch (a : Stream) (k due : Nat) : Stream :=
  { a with live := some ⟨k, 0, due, false, false⟩, liveMet := false, delayed := none }

theorem launchBlock_of_no_promo (h : (d.stream s).promo = none) (k due : Nat) :
    d.launchBlock s k due = d.ungate.setStream s ((d.stream s).launch k due) := by
  rw [Dev.launchBlock]
  simp only [h, Stream.launch]

/-- A launch leaves the words of the stream contexts. -/
theorem launchBlock_rd (d : Dev) (hs : s < 32) (k due : Nat) {g : Fld} (hg : 0xB300 ≤ g.addr) :
    (d.launchBlock s k due).rd g = d.rd g := by
  have hstat : ∀ lo w, 0 < lo + w → lo + w ≤ 32 → (⟨A.SEQ_PROMO_STAT s, lo, w⟩ : Fld).apart g = true := by
    intro lo w h0 hw
    refine apart_of_addr (.inl ?_)
    rw [words_of_le h0 hw]
    simp only [A.SEQ_PROMO_STAT]
    omega
  have hun : d.ungate.rd g = d.rd g := by
    rw [Dev.rd, Dev.rd, words_congr]
    intro i _
    refine (ungate_regsOnly d).word _ ?_
    simp only [A.PWR_DOM_GATED, A.PWR_STAT, List.mem_cons, List.not_mem_nil, or_false]
    omega
  rw [Dev.launchBlock]
  dsimp only
  split
  · rw [setStream_rd, hun]
  · split
    · rw [setStream_rd, rd_wr_ne _ _ (hstat _ _ (by decide) (by decide)), rd_wr_ne _ _ (hstat _ _ (by decide) (by decide)),
        setStream_rd, hun]
    · rw [setStream_rd, setStream_rd, hun]

/-- The context of stream `s` once block `k` reaches its launch. -/
def Dev.shown (d : Dev) (s k : Nat) : Dev := (d.wr (R.SEQ_STRM_BLOCK s) k).wr (R.SEQ_STRM_STAT_RUN s) (b2n (d.mayLaunch s))

theorem shown_follow (d : Dev) (hs : s < 32) (k : Nat) : Follow lim d (d.shown s k) :=
  ((Follow.refl lim d).wrContext (k := 0x33c) hs (by decide) _).wrContext (k := 0x330) hs (by decide) _

theorem shown_stream (d : Dev) (k : Nat) : (d.shown s k).stream s = d.stream s := by rw [Dev.shown, wr_stream, wr_stream]

theorem shown_run (d : Dev) (s k : Nat) : (d.shown s k).rd (R.SEQ_STRM_STAT_RUN s) = b2n (d.mayLaunch s) := by
  rw [Dev.shown, rd_wr_same]
  cases d.mayLaunch s <;> rfl

theorem shown_block (d : Dev) (s k : Nat) : (d.shown s k).rd (R.SEQ_STRM_BLOCK s) = k % 2 ^ 64 := by
  rw [Dev.shown, rd_wr_ne _ _ (apart_of_addr (by simp only [Fld.words, A.SEQ_STRM_BLOCK, A.SEQ_STRM_STAT]; omega)), rd_wr_same]

/-- A block that reaches its launch: where troughs may not be launched, or one still runs, no trough starts. -/
theorem tryLaunch_eq (d : Dev) (s k due : Nat) : d.tryLaunch s k due =
    if !(d.shown s k).mayLaunch s then (d.shown s k).setStream s { d.stream s with delayed := none }
    else if (d.stream s).live.isSome || (d.stream s).standby.isSome then
      (d.shown s k).setStream s { d.stream s with delayed := some due }
    else (d.shown s k).launchBlock s k due := rfl

theorem tryLaunch_rd (d : Dev) (hs : s < 32) (k due : Nat) {g : Fld} (hg : 0xB300 ≤ g.addr) :
    (d.tryLaunch s k due).rd g = (d.shown s k).rd g := by
  rw [tryLaunch_eq]
  split
  · exact setStream_rd _ _ _ _
  · split
    · exact setStream_rd _ _ _ _
    · exact launchBlock_rd _ hs _ _ hg

theorem tryLaunch_live (hs : s < 32) (k due : Nat) (hmay : d.mayLaunch s = true) (hlive : (d.stream s).live = none)
    (hstand : (d.stream s).standby = none) (hp : (d.stream s).promo = none) :
    ((d.tryLaunch s k due).stream s).live = some ⟨k, 0, due, false, false⟩ := by
  have hmay' : (d.shown s k).mayLaunch s = true := by
    rw [(shown_follow (lim := 0x30000) d hs k).mayLaunch (by decide), hmay]
  rw [tryLaunch_eq, hmay', if_neg (by simp), hlive, hstand, if_neg (by simp),
    launchBlock_of_no_promo (by rw [shown_stream, hp]), stream_setStream_same]
  rfl

/-- What a launch shows stays while the next block takes the samples that came early. -/
theorem blockLaunched_fed (d : Dev) (hs : s < 32) (k due : Nat) :
    ((d.blockLaunched s k due).stream s).block = k + 1 ∧
    ((d.blockLaunched s k due).stream s).live = ((d.tryLaunch s k due).stream s).live ∧
    (d.blockLaunched s k due).rd (R.SEQ_STRM_BLOCK s) = k % 2 ^ 64 ∧
    (d.blockLaunched s k due).rd (R.SEQ_STRM_STAT_RUN s) = b2n (d.mayLaunch s) := by
  have hfed := foldl_keeps (Fed s _) (fun d (x : Nat × List Nat) => d.takeSample s x.1 x.2)
    (fun e x h => h.trans (takeSample_fed e hs x.1 x.2)) ((d.tryLaunch s k due).stream s).early
    (.refl ((d.tryLaunch s k due).setStream s
      { (d.tryLaunch s k due).stream s with filling := false, block := k + 1, early := [] }))
  refine ⟨hfed.block.trans ?_, hfed.live.trans ?_, hfed.named.trans ?_, hfed.run.trans ?_⟩
  · rw [stream_setStream_same]
  · rw [stream_setStream_same]
  · rw [setStream_rd, tryLaunch_rd d hs _ _ (by simp only [A.SEQ_STRM_BLOCK]; omega), shown_block]
  · rw [setStream_rd, tryLaunch_rd d hs _ _ (by simp only [A.SEQ_STRM_STAT]; omega), shown_run]

/-! ## The last boundary -/

theorem freePins_stream (d : Dev) (x : Nat) : d.freePins.stream x = d.stream x := by
  refine foldl_keeps (fun e => e.stream x = d.stream x) _ (fun e b he => ?_) _ rfl
  dsimp only
  split
  · simpa using he
  · exact he

theorem freePins_rd (d : Dev) {g : Fld} (hg : g.addr + 4 * g.words ≤ 0x30000) : d.freePins.rd g = d.rd g := by
  have hne : ∀ (e : Dev) (f : Fld) v, 0x30000 ≤ f.addr → (e.wr f v).rd g = e.rd g := fun e f v hf =>
    rd_wr_ne e v (apart_of_addr (.inr (by omega)))
  refine foldl_keeps (fun e => e.rd g = d.rd g) _ (fun e b he => ?_) _ rfl
  dsimp only
  split
  · rw [hne _ _ _ (le_page _ _ _), hne _ _ _ (le_page _ _ _), hne _ _ _ (le_page _ _ _), he]
  · exact he

theorem endStream_run (d : Dev) (s : Nat) : (d.endStream s).rd (R.SEQ_STRM_STAT_RUN s) = 0 := rd_wr_same _ _ _

/-- A stream that stops takes no more input, and does not run. -/
theorem lastBoundary_stopped (d : Dev) (hs : s < 32) : ((d.lastBoundary s).stream s).filling = false ∧
    (d.lastBoundary s).rd (R.SEQ_STRM_STAT_RUN s) = 0 := by
  have hrun : (R.SEQ_STRM_STAT_RUN s).addr + 4 * (R.SEQ_STRM_STAT_RUN s).words ≤ 0x30000 := by
    simp only [Fld.words, A.SEQ_STRM_STAT]
    omega
  rw [Dev.lastBoundary]
  split
  · exact ⟨by rw [endStream_stream]; rfl, endStream_run _ _⟩
  · refine ⟨?_, ?_⟩
    · rw [freePins_stream, wr_stream, stream_setStream_same]
    · exact (freePins_rd _ hrun).trans (rd_wr_same _ _ _)

/-! ## An abort is complete -/

/-- The stream with no trough that runs. -/
def Stream.unlaunched (a : Stream) : Stream := { a with live := none, standby := none }

theorem unlaunched_follow (d : Dev) (s : Nat) : Follow lim d (d.setStream s (d.stream s).unlaunched) :=
  (Follow.refl lim d).setStream s ⟨fun _ => rfl, fun _ => rfl, fun _ => rfl, id⟩

theorem realtimeAbortDone_launch {r : RtRun} {due : Nat} (hlive : (d.stream s).live = some r) (hr : r.aborting = true)
    (hstand : (d.stream s).standby = none) (hdue : (d.stream s).delayed = some due) (hmay : d.mayLaunch s = true) :
    realtimeAbortDone s d = (d.setStream s (d.stream s).unlaunched).launchBlock s (d.rd (R.SEQ_STRM_BLOCK s)) due := by
  have hmay' : (d.setStream s (d.stream s).unlaunched).mayLaunch s = true := by
    rw [(unlaunched_follow (lim := 0x30000) d s).mayLaunch (by decide), hmay]
  rw [realtimeAbortDone]
  dsimp only
  rw [if_neg (by simp [hlive, hr])]
  split
  next hn => rw [hn] at hdue; cases hdue
  next due' hd =>
    obtain rfl : due' = due := Option.some.inj (hd.symm.trans hdue)
    simp only [hlive, hr, hstand, if_true, Option.isSome_none, Bool.or_self, Bool.false_eq_true, if_false, setStream_rd, ite_self]
    exact if_pos hmay'

end Sys2Proof.Machine
end

section
/-! The boundary of a block (spec/03 R51, R52, R60). -/
namespace Sys2Proof.Machine

variable {s : Nat} {d : Dev}

/-- A boundary of a stream that does not stop (R51). -/
theorem blockBoundary_launches (hs : s < 32) (hon : d.domOn 57 = true) (href : d.on R.CLK_REF_STAT_MISMATCH = false)
    (hlow : d.lowerDue s (d.blockEnd s) = false) (hfill : (d.stream s).filling = true) (hstc : d.blockEnd s ≤ d.stc)
    (hstop : (d.stream s).stopping = 0) :
    ((blockBoundary s d).stream s).block = (d.stream s).block + 1 ∧
    (blockBoundary s d).rd (R.SEQ_STRM_BLOCK s) = (d.stream s).block % 2 ^ 64 ∧
    ((d.stream s).promo = none → (blockBoundary s d).rd (R.SEQ_STRM_STAT_RUN s) = b2n (d.mayLaunch s)) ∧
    (d.mayLaunch s = true → (d.stream s).live = none → (d.stream s).standby = none → (d.stream s).promo = none →
      ((blockBoundary s d).stream s).live =
        some ⟨(d.stream s).block, 0, d.blockEnd s + d.blkLen s * d.strmTicks s, false, false⟩) := by
  have hsettled : ((d.blockSettled s).stream s).stopping = 0 := by
    rw [(blockSettled_steady d hs).stopping s (by omega), hstop]
  rw [blockBoundary_of_due hon href hlow hfill hstc (by omega)]
  dsimp only
  rw [if_neg (by omega)]
  obtain ⟨hblock, hlive, hnamed, hrun⟩ := blockLaunched_fed (d.blockSettled s) hs (d.stream s).block
    (d.blockEnd s + (d.blockSettled s).blkLen s * (d.blockSettled s).strmTicks s)
  refine ⟨hblock, hnamed, fun hp => ?_, fun hmay hl hb hp => ?_⟩
  · rw [hrun, (blockSettled_follow (lim := 0x30000) hs hp (.inl (Nat.le_refl _))).mayLaunch (by decide)]
  · have hf := blockSettled_follow (lim := 0x60000) hs hp (.inr ⟨hl, hb⟩)
    rw [hlive, tryLaunch_live hs _ _ ((hf.mayLaunch (by decide) s).trans hmay) ((hf.stream s).live hl)
      ((hf.stream s).standby hb) ((hf.stream s).promo hp), hf.blkLen (by decide) hs, hf.strmTicks (by decide) hs]

/-- A boundary of a stream that stops (R60). -/
theorem blockBoundary_stops (hs : s < 32) (hon : d.domOn 57 = true) (href : d.on R.CLK_REF_STAT_MISMATCH = false)
    (hlow : d.lowerDue s (d.blockEnd s) = false) (hfill : (d.stream s).filling = true) (hstc : d.blockEnd s ≤ d.stc)
    (hstop : (d.stream s).stopping = 1) :
    ((blockBoundary s d).stream s).filling = false ∧ (blockBoundary s d).rd (R.SEQ_STRM_STAT_RUN s) = 0 := by
  have hsettled : ((d.blockSettled s).stream s).stopping = 1 := by
    rw [(blockSettled_steady d hs).stopping s (by omega), hstop]
  rw [blockBoundary_of_due hon href hlow hfill hstc (by omega)]
  dsimp only
  rw [if_pos hsettled]
  exact lastBoundary_stopped _ hs

/-- Settles O27: what is done before the launch leaves alone what the launch is decided by, and samples that come after it
leave what it set. -/
theorem streamBlocks : Obligations.StreamBlocks := by
  intro s x hc
  refine ⟨fun hlow => ?_, fun hon href hlow hfill hstc hstop => ?_, fun hon href hlow hfill hstc hstop => ?_,
    fun r due hlive hr hstand hdue hp hmay => ?_⟩
  · obtain ⟨t, ht, rfl⟩ := completes_of_act (i := .blockBoundary x) (P := fun t => t = s) (f := blockBoundary x.val) rfl hc
      (by rw [blockBoundary_of_lowerDue hlow])
    exact ht
  · exact completes_of_act (f := blockBoundary x.val) rfl hc
      ⟨rfl, blockBoundary_launches x.isLt hon href hlow hfill hstc hstop⟩
  · exact completes_of_act (f := blockBoundary x.val) rfl hc ⟨rfl, blockBoundary_stops x.isLt hon href hlow hfill hstc hstop⟩
  · refine completes_of_act (f := realtimeAbortDone x.val) rfl hc ?_
    have hfree : ((s.dev.setStream x (s.dev.stream x).unlaunched).stream x).promo = none := by
      rw [stream_setStream_same]
      exact hp
    rw [realtimeAbortDone_launch hlive hr hstand hdue hmay, launchBlock_of_no_promo hfree, stream_setStream_same]
    have hun := ungate_regsOnly (s.dev.setStream x (s.dev.stream x).unlaunched)
    refine ⟨?_, fun a ha => hun.word a ha, ?_, fun y hy => ?_⟩
    · rw [hun.rest]
      rfl
    · rw [stream_setStream_same]
      rfl
    · rw [stream_setStream_ne _ _ hy, hun.stream, stream_setStream_ne _ _ hy]

end Sys2Proof.Machine
end

section
/-! SUPPORT. The words of a stream's context: what stands there, and how a write stores them (spec/03 R47). -/
namespace Sys2Proof.Machine

variable {d e : Dev} {x : Nat}

/-! ## A register word whose fields a write stores -/

/-- A register whose fields stand side by side in one word, each of them RW. -/
def RegRow.plain (r : RegRow) : Bool :=
  r.fields.all (fun f => decide (f.acc = .rw ∧ f.lo + f.width ≤ 32)) &&
    decide (r.fields.Pairwise (fun f g => f.lo + f.width ≤ g.lo))

/-- `u` with field `f` as `v` has it. -/
def putField (v u : Nat) (f : FieldRow) : Nat := setBits u f.lo f.width (bits v f.lo f.width)

theorem bits_putField_same (v u : Nat) (f : FieldRow) : bits (putField v u f) f.lo f.width = bits v f.lo f.width := by
  rw [putField, bits_setBits_same, Nat.mod_eq_of_lt (bits_lt _ _ _)]

/-- Fields above `f` leave its bits. -/
theorem bits_foldl_putField_above (v : Nat) (f : FieldRow) (fs : List FieldRow) (u : Nat) (h : ∀ g ∈ fs, f.lo + f.width ≤ g.lo) :
    bits (fs.foldl (putField v) u) f.lo f.width = bits u f.lo f.width := by
  induction fs generalizing u with
  | nil => rfl
  | cons g gs ih =>
    rw [List.foldl_cons, ih _ (fun k hk => h k (.tail _ hk)), putField, bits_setBits_ne _ _ (.inl (h g (.head _)))]

theorem bits_foldl_putField (v : Nat) (fs : List FieldRow) (u : Nat) (h : fs.Pairwise (fun f g => f.lo + f.width ≤ g.lo)) :
    ∀ f ∈ fs, bits (fs.foldl (putField v) u) f.lo f.width = bits v f.lo f.width := by
  induction fs generalizing u with
  | nil => exact fun f hf => absurd hf List.not_mem_nil
  | cons g gs ih =>
    obtain ⟨hg, hgs⟩ := List.pairwise_cons.mp h
    intro f hf
    obtain rfl | hf := List.mem_cons.mp hf
    · rw [List.foldl_cons, bits_foldl_putField_above v f gs _ hg, bits_putField_same]
    · exact ih _ hgs f hf

theorem bits_mod_word {v lo w : Nat} (h : lo + w ≤ 32) : bits (v % 2 ^ 32) lo w = bits v lo w := by
  apply Nat.eq_of_testBit_eq
  intro i
  rw [testBit_bits, testBit_bits, Nat.testBit_mod_two_pow]
  by_cases hi : i < w
  · simp [show lo + i < 32 by omega]
  · simp [hi]

/-- A write of a plain register stores its fields. -/
theorem storeWord_bits (d : Dev) {addr : Nat} (v : Nat) {h : RegHit} (hh : regHit addr = some h) (hw : h.word = 0)
    (hp : h.row.plain = true) : ∀ f ∈ h.row.fields, bits ((d.storeWord addr v).word addr) f.lo f.width = bits v f.lo f.width := by
  rw [RegRow.plain, Bool.and_eq_true, List.all_eq_true, decide_eq_true_eq] at hp
  obtain ⟨hall, hpair⟩ := hp
  have hfit : ∀ f ∈ h.row.fields, f.acc = .rw ∧ f.lo + f.width ≤ 32 := fun f hf => of_decide_eq_true (hall f hf)
  have hstore : d.storeWord addr v = d.setWord addr (h.row.fields.foldl (putField v) (d.word addr)) := by
    rw [Dev.storeWord, hh]
    dsimp only
    congr 1
    refine List.foldl_ext _ _ _ (fun u f hf => ?_)
    obtain ⟨hacc, hle⟩ := hfit f hf
    have hin : f.inWord h.word = (f.lo, f.width, 0) := by
      simp only [FieldRow.inWord, hw, if_true, Nat.sub_zero, Nat.min_eq_right (show f.width ≤ 32 - f.lo by omega)]
    simp only [hin, hacc, putField]
  intro f hf
  rw [hstore, word_setWord_same, bits_mod_word (hfit f hf).2, bits_foldl_putField v _ _ hpair f hf]

/-! ## The contexts' registers -/

/-- A register of the streams' contexts: one in each of the 32 stretches of 96 bytes from 0x300. -/
def RegRow.inContext (r : RegRow) : Bool :=
  decide (r.count = 32 ∧ r.stride = 96 ∧ r.first = false ∧ 0x300 ≤ r.off ∧ r.off + 4 * r.words ≤ 0x360)

/-- A register that ends before the contexts. -/
def RegRow.beforeContext (r : RegRow) : Bool :=
  decide (r.count ≤ 1 ∧ r.off + 4 * r.words ≤ 0x300 ∨ 1 < r.count ∧ r.off + r.stride * (r.count - 1) + 4 * r.words ≤ 0x300)

theorem hit_of_beforeContext {r : RegRow} (h : r.beforeContext = true) {n off : Nat} (ho : 0x300 ≤ off) : r.hit n off = none := by
  rw [RegRow.beforeContext, decide_eq_true_eq] at h
  rw [RegRow.hit]
  split
  · rfl
  · split
    · rfl
    · obtain ⟨hc, hb⟩ | ⟨hc, hb⟩ := h
      · simp only [hc, if_true]
        rw [if_neg (by omega)]
      · have hout : ¬ ((off - r.off) / r.stride < r.count ∧ (off - r.off) % r.stride < 4 * r.words) := by
          rintro ⟨hq, hr⟩
          have hle := Nat.mul_le_mul_left r.stride (Nat.le_sub_one_of_lt hq)
          have hdm := Nat.div_add_mod (off - r.off) r.stride
          omega
        simp only [show ¬ r.count ≤ 1 by omega, if_false, hout]

/-- Every stream's context holds the same registers. -/
theorem hit_of_inContext {r : RegRow} (h : r.inContext = true) {o : Nat} (hx : x < 32) (ho : 0x300 ≤ o ∧ o < 0x360) :
    r.hit 0 (o + 96 * x) = (r.hit 0 o).map (fun p => (x, p.2)) := by
  rw [RegRow.inContext, decide_eq_true_eq] at h
  obtain ⟨hc, hs, hf, hlo, hhi⟩ := h
  simp only [RegRow.hit, hc, hs, hf, Bool.false_eq_true, false_and, if_false, show ¬ 32 ≤ 1 by decide]
  by_cases hoff : o < r.off
  · rw [if_pos hoff]
    split
    · rfl
    · rw [if_neg (by omega)]
      rfl
  · rw [if_neg hoff, if_neg (by omega)]
    by_cases hin : (o - r.off) % 96 < 4 * r.words
    · rw [if_pos (by omega), if_pos (by omega), Option.map_some]
      congr 2 <;> omega
    · rw [if_neg (by omega), if_neg (by omega)]
      rfl

theorem findRow_context {o : Nat} (hx : x < 32) (ho : 0x300 ≤ o ∧ o < 0x360) (rs : List RegRow)
    (h : ∀ r ∈ rs, (r.beforeContext || r.inContext) = true) :
    findRow 0 (o + 96 * x) rs = (findRow 0 o rs).map (fun h => { h with copy := x }) := by
  induction rs with
  | nil => rfl
  | cons r rs ih =>
    have hrs := ih (fun k hk => h k (.tail _ hk))
    simp only [findRow]
    obtain hb | hi := Bool.or_eq_true_iff.mp (h r (.head _))
    · rw [hit_of_beforeContext hb (by omega), hit_of_beforeContext hb ho.1]
      exact hrs
    · rw [hit_of_inContext hi hx ho]
      cases r.hit 0 o with
      | none => exact hrs
      | some p => rfl

theorem context_page (hx : x < 32) (w : Fin 24) : (A.SEQ_STRM_CFG x + 4 * w.val) / 4096 = 11 := by
  simp only [A.SEQ_STRM_CFG]
  omega

theorem context_offset (hx : x < 32) (w : Fin 24) : (A.SEQ_STRM_CFG x + 4 * w.val) % 4096 = 0x300 + 96 * x + 4 * w.val := by
  have hdm := Nat.div_add_mod (A.SEQ_STRM_CFG x + 4 * w.val) 4096
  rw [context_page hx w] at hdm
  simp only [A.SEQ_STRM_CFG] at hdm ⊢
  omega

/-- Word `w` of stream `x`'s context. -/
theorem regHit_context (hx : x < 32) (w : Fin 24) :
    regHit (A.SEQ_STRM_CFG x + 4 * w.val) = (findRow 0 (0x300 + 4 * w.val) (rowsHdr ++ rowsSeq)).map (fun h => { h with copy := x }) := by
  have hrows : ∀ r ∈ rowsHdr ++ rowsSeq, (r.beforeContext || r.inContext) = true := by decide
  rw [regHit, context_page hx w, context_offset hx w, Nat.add_right_comm]
  exact findRow_context hx (by omega) _ hrows

/-- Of a context's words, those that a write reaches and that have no rule of their own are plain. -/
theorem context_plain (w : Fin 24) (h0 : w ≠ 0) (h10 : w ≠ 10) (h12 : w ≠ 12) {h : RegHit}
    (hh : findRow 0 (0x300 + 4 * w.val) (rowsHdr ++ rowsSeq) = some h) (hr : h.row.readOnly = false) :
    h.word = 0 ∧ h.row.plain = true := by
  have hall : ∀ w : Fin 24, w ≠ 0 → w ≠ 10 → w ≠ 12 → (findRow 0 (0x300 + 4 * w.val) (rowsHdr ++ rowsSeq)).all
      (fun h => h.row.readOnly || (h.word == 0 && h.row.plain)) = true := by decide
  have hw := hall w h0 h10 h12
  rw [hh, Option.all_some, hr, Bool.false_or, Bool.and_eq_true, beq_iff_eq] at hw
  exact hw

/-! ## A write of a context -/

/-- Where a word of a context stands among the contexts. -/
theorem context_place (hx : x < 32) (w : Fin 24) : ∃ off, (A.SEQ_STRM_CFG x + 4 * w.val) % 4096 - 0x300 = off ∧ off / 0x60 = x ∧
    off % 0x60 = 4 * w.val := by
  refine ⟨96 * x + 4 * w.val, ?_, by omega, by omega⟩
  rw [context_offset hx w]
  omega

theorem contextWrite_config (d : Dev) (q : Req) (hx : x < 32) (v : Nat) :
    d.contextWrite q (A.SEQ_STRM_CFG x + 4 * (0 : Fin 24).val) v = d.strmCfg q x v := by
  obtain ⟨off, hoff, hdiv, hmod⟩ := context_place hx 0
  unfold Dev.contextWrite
  rw [hoff]
  dsimp only
  rw [hdiv, hmod]
  rfl

/-- A word that has no rule of its own is stored while EN is 0. -/
theorem contextWrite_plain (d : Dev) (q : Req) (hx : x < 32) (w : Fin 24) (h0 : w ≠ 0) (h10 : w ≠ 10) (h12 : w ≠ 12) (v : Nat) :
    d.contextWrite q (A.SEQ_STRM_CFG x + 4 * w.val) v =
      if d.on (R.SEQ_STRM_CFG_EN x) then d.perr (A.SEQ_STRM_CFG x + 4 * w.val) q causeValue
      else d.storeWord (A.SEQ_STRM_CFG x + 4 * w.val) v := by
  obtain ⟨off, hoff, hdiv, hmod⟩ := context_place hx w
  unfold Dev.contextWrite
  rw [hoff]
  dsimp only
  rw [hdiv, hmod]
  split
  next h => exact absurd (Fin.ext (show w.val = 0 by omega)) h0
  next h => exact absurd (Fin.ext (show w.val = 10 by omega)) h10
  next h => exact absurd (Fin.ext (show w.val = 12 by omega)) h12
  next => rfl

/-- On a live stream a write of STRM_CFG that does anything but clear EN is ignored. -/
theorem strmCfg_of_other (q : Req) {v : Nat} (hen : (d.word (A.SEQ_STRM_CFG x)).testBit 0 = true)
    (hv : v ≠ clrBit (d.word (A.SEQ_STRM_CFG x)) 0) : d.strmCfg q x v = d.perr (A.SEQ_STRM_CFG x) q causeValue := by
  rw [Dev.strmCfg]
  dsimp only
  rw [if_pos hen, if_neg]
  intro h
  rw [Bool.and_eq_true, Bool.not_eq_true', beq_iff_eq] at h
  obtain ⟨h0, hset⟩ := h
  exact hv (by rw [← hset, clrBit_setBit v 0 h0])

theorem setBit_clrBit {v i : Nat} (h : v.testBit i = true) : setBit (clrBit v i) i = v := by
  apply Nat.eq_of_testBit_eq
  intro j
  rw [testBit_setBit, testBit_clrBit]
  by_cases hj : i = j
  · simp [← hj, h]
  · simp [hj]

/-- A write that clears EN and changes nothing else stops the stream. -/
theorem strmCfg_of_clear (q : Req) (hen : (d.word (A.SEQ_STRM_CFG x)).testBit 0 = true) :
    d.strmCfg q x (clrBit (d.word (A.SEQ_STRM_CFG x)) 0) = d.stopStream x := by
  rw [Dev.strmCfg]
  rw [if_pos hen, if_pos]
  rw [setBit_clrBit hen, testBit_clrBit]
  simp

theorem testBit_of_enabled (h : d.on (R.SEQ_STRM_CFG_EN x) = true) : (d.word (A.SEQ_STRM_CFG x)).testBit 0 = true := by
  have hrd := rd_of_on rfl h
  rw [rd_eq_testBit d (words_of_le (by decide) (by decide)) rfl] at hrd
  cases hb : (d.word (A.SEQ_STRM_CFG x)).testBit 0 with
  | true => rfl
  | false =>
    simp only [hb] at hrd
    cases hrd

/-! ## A stream starts and stops -/

theorem pinBays_stream (d : Dev) (x k : Nat) : (d.pinBays x).stream k = d.stream k := by
  refine foldl_keeps (fun e => e.stream k = d.stream k) _ (fun e b he => ?_) _ rfl
  split
  · simpa using he
  · exact he

theorem startStream_stream (d : Dev) (x : Nat) : (d.startStream x).stream x =
    { Stream.idle with
      block := d.rd (R.SEQ_STRM_BLOCK x) + 1, first := d.rd (R.SEQ_STRM_BLOCK x) + 1, det := (d.stream x).det } := by
  have hblock : ((d.wr (R.SEQ_STRM_CFG_EN x) 1).wr (R.SEQ_STRM_STAT_SILENT x) 0).rd (R.SEQ_STRM_BLOCK x) = d.rd (R.SEQ_STRM_BLOCK x) := by
    rw [rd_wr_ne _ _ (apart_of_addr (by simp only [Fld.words, A.SEQ_STRM_BLOCK, A.SEQ_STRM_STAT]; omega)),
      rd_wr_ne _ _ (apart_of_addr (by simp only [Fld.words, A.SEQ_STRM_BLOCK, A.SEQ_STRM_CFG]; omega))]
  rw [Dev.startStream, pinBays_stream, stream_setStream_same, hblock, wr_stream, wr_stream]

theorem startStream_enabled (d : Dev) (hx : x < 32) : (d.startStream x).rd (R.SEQ_STRM_CFG_EN x) = 1 := by
  have hpin := fun (e : Dev) => (Follow.pinBays (lim := seqEnd) (s := x) (by decide) (.refl _ e)).rd _ (.enable hx)
    (by simp only [A.SEQ_STRM_CFG, seqEnd]; omega)
  rw [Dev.startStream, hpin, setStream_rd, rd_wr_ne _ _ (apart_of_addr (by simp only [Fld.words, A.SEQ_STRM_STAT, A.SEQ_STRM_CFG]; omega))]
  exact rd_wr_same _ _ _

/-- The end of a stream writes its status alone. -/
theorem endStream_rd (d : Dev) {g : Fld} (hg : g.addr + 4 * g.words ≤ A.SEQ_STRM_STAT x) : (d.endStream x).rd g = d.rd g := by
  have hne : ∀ (e : Dev) lo w v, (e.wr ⟨A.SEQ_STRM_STAT x, lo, w⟩ v).rd g = e.rd g := fun e lo w v =>
    rd_wr_ne e v (apart_of_addr (.inr hg))
  rw [Dev.endStream, hne, setStream_rd, Dev.setDet, hne, setStream_rd]
  exact rd_of_regs (d := d) (e := d.startFade (d.outPort x) (d.outSlots x)) rfl g

theorem enabled_below : (R.SEQ_STRM_CFG_EN x).addr + 4 * (R.SEQ_STRM_CFG_EN x).words ≤ A.SEQ_STRM_STAT x := by
  simp only [Fld.words, A.SEQ_STRM_CFG, A.SEQ_STRM_STAT]
  omega

/-- However it stops, a stream that stops is not enabled. -/
theorem stopStream_off (d : Dev) (hx : x < 32) : (d.stopStream x).rd (R.SEQ_STRM_CFG_EN x) = 0 := by
  have habandon : ((d.wr (R.SEQ_STRM_CFG_EN x) 0).abandon x 11 stDisabled).rd (R.SEQ_STRM_CFG_EN x) = 0 :=
    ((Steady.refl _).abandon hx _ _ _).off x hx (rd_wr_same _ _ _)
  have hwork := fun (e : Dev) => ((((Follow.refl seqEnd e).failRealtime (by decide) x false).failRealtime (by decide) x
    true).endPorts hx).dropLeft (s := x)
  rw [Dev.stopStream]
  split
  · rw [freePins_rd _ (enabled_below.trans (by simp only [A.SEQ_STRM_STAT]; omega)), endStream_rd _ enabled_below]
    exact (hwork _).steady.off x hx habandon
  · exact (setStream_rd _ _ _ _).trans habandon

/-- A stream with no promotion that has launched a block, and whose input port has its grid, goes on to its next boundary. -/
theorem stopStream_at_boundary (hx : x < 32) (hp : (d.stream x).promo = none) (hk : (d.stream x).block ≠ (d.stream x).first)
    (hon : d.portOn (d.inPort x) = true) (hgrid : (d.port (d.inPort x)).framed = true) :
    d.stopStream x = (d.wr (R.SEQ_STRM_CFG_EN x) 0).setStream x { d.stream x with stopping := 1 } := by
  have hoff := RegsOnly.wr (RegsOnly.refl d [A.SEQ_STRM_CFG x]) (R.SEQ_STRM_CFG_EN x) 0 (by simp [Fld.within, Fld.words])
  have hrd : ∀ g : Fld, g.addr + 4 * g.words ≤ 0xB300 ∨ 0xC000 ≤ g.addr →
      (d.wr (R.SEQ_STRM_CFG_EN x) 0).rd g = d.rd g := by
    refine fun g hg => rd_wr_ne d 0 (apart_of_addr ?_)
    simp only [Fld.words, A.SEQ_STRM_CFG] at hg ⊢
    omega
  have hin : (d.wr (R.SEQ_STRM_CFG_EN x) 0).inPort x = d.inPort x := rd_wr_ne d 0 (apart_of_bits rfl (.inl (by decide)))
  have hport : (d.wr (R.SEQ_STRM_CFG_EN x) 0).portOn (d.inPort x) = d.portOn (d.inPort x) := by
    have h1 := on_eq_of_rd (hrd (R.AUD_PORT_CTL_EN (d.inPort x)) (.inr (by simp only [A.AUD_PORT_CTL]; omega)))
    have h2 := hrd R.PWR_DOM_ON (.inl (by decide))
    have h3 := on_eq_of_rd (hrd R.CLK_REF_STAT_MISMATCH (.inl (by decide)))
    rw [Dev.portOn, Dev.portOn, Dev.domOn, Dev.domOn, h1, h2, h3]
  have habandon : (d.wr (R.SEQ_STRM_CFG_EN x) 0).abandon x 11 stDisabled = d.wr (R.SEQ_STRM_CFG_EN x) 0 := by
    rw [Dev.abandon, wr_stream, hp]
  have hframed : (d.wr (R.SEQ_STRM_CFG_EN x) 0).port (d.inPort x) = d.port (d.inPort x) := by
    rw [hoff.rest]
    rfl
  rw [Dev.stopStream, habandon, wr_stream, hin, hport, hframed, if_neg (by simp [hk, hon, hgrid])]

end Sys2Proof.Machine
end

section
/-! Binding, writing and disabling a stream (spec/03 R47, R48, R60). -/
namespace Sys2Proof.Machine

theorem lastStatus_regsOnly (d : Dev) (n v : Nat) : RegsOnly d (d.wr (R.STL_LAST_STATUS n) v) [A.STL_LAST_STATUS n] :=
  (RegsOnly.refl d _).wr _ _ (by simp [Fld.within, Fld.words])

/-- In LIMP no stream is bound. -/
theorem bindCheck_of_limp {d : Dev} (h : d.limp = true) (n x : Nat) : d.bindCheck n x = .fail stDisabled d := by
  rw [Dev.bindCheck]
  dsimp only
  rw [if_pos (by rw [h, Bool.true_or])]

/-- Settles O28: each clause by the equation of its operation; that EN stays 0 while a stopping stream's promotion is abandoned
is the one fact with depth (`stopStream_off`). -/
theorem streamContexts : Obligations.StreamContexts := by
  intro s x hc
  refine ⟨fun n hn => ?_, fun n hn hl => ?_, fun q w v h0 h10 h12 hp hen => ?_, fun q w v h0 h10 h12 hp hen => ?_,
    fun q v hp hen hv => ?_, fun q hp hen => ?_⟩
  · refine completes_of_act (f := streamBind n x) rfl hc ⟨rfl, ?_⟩
    rw [streamBind, if_neg hn]
    cases s.dev.bindCheck n x with
    | ok _ d => exact ⟨startStream_enabled d x.isLt, by rw [startStream_stream]; exact ⟨rfl, rfl, rfl, rfl⟩⟩
    | wait => rfl
    | fail st d => rfl
  · refine completes_of_act (f := streamBind n x) rfl hc ?_
    rw [streamBind, if_neg hn, bindCheck_of_limp hl]
    exact ⟨(onlyRegs_iff s).mpr (lastStatus_regsOnly _ _ _), rd_wr_same _ _ _⟩
  · refine completes_of_permits rfl hc hp ?_
    obtain ⟨h, -, hh, -, -, hr, -⟩ := hp
    rw [contextWrite_plain s.dev q x.isLt w h0 h10 h12, if_neg (by simp [hen])]
    refine ⟨(onlyRegs_iff s).mpr (storeWord_regsOnly _ _ _), fun h' hh' f hf => ?_⟩
    rw [regHit_context x.isLt w, Option.map_eq_some_iff] at hh
    obtain ⟨k, hk, rfl⟩ := hh
    have hplain := context_plain w h0 h10 h12 hk hr
    have hhit : regHit (A.SEQ_STRM_CFG x + 4 * w.val) = some { k with copy := x } := by
      rw [regHit_context x.isLt w, hk, Option.map_some]
    obtain rfl : h' = { k with copy := x } := Option.some.inj (hh'.symm.trans hhit)
    exact storeWord_bits s.dev _ hhit hplain.1 hplain.2 f hf
  · refine completes_of_permits rfl hc hp ?_
    rw [contextWrite_plain s.dev q x.isLt w h0 h10 h12, if_pos hen]
    have hcount := counted_perr s q (addr := A.SEQ_STRM_CFG x + 4 * w.val) (cause := causeValue)
      (by simp only [A.SEQ_STRM_CFG]; omega) (by decide)
    rwa [context_page x.isLt w, context_offset x.isLt w, Nat.mul_comm 96] at hcount
  · refine completes_of_permits rfl hc hp ?_
    have hcount := counted_perr s q (addr := A.SEQ_STRM_CFG x + 4 * (0 : Fin 24).val) (cause := causeValue)
      (by simp only [A.SEQ_STRM_CFG]; omega) (by decide)
    rw [context_page x.isLt 0, context_offset x.isLt 0, Nat.mul_comm 96] at hcount
    rw [contextWrite_config s.dev q x.isLt, strmCfg_of_other q (testBit_of_enabled hen) hv]
    exact hcount
  · refine completes_of_permits (op := fun v d => d.strmCfg q x v) rfl hc hp ?_
    rw [strmCfg_of_clear q (testBit_of_enabled hen)]
    refine ⟨rfl, stopStream_off s.dev x.isLt, fun hpromo hk hon hgrid => ?_⟩
    rw [stopStream_at_boundary x.isLt hpromo hk hon hgrid]
    refine ⟨fun a ha => ?_, stream_setStream_same _ _ _⟩
    rw [setStream_word]
    exact word_wr_of_one_word _ _ (words_of_le (by decide) (by decide)) (by simpa using ha)

end Sys2Proof.Machine
end

section
/-! SUPPORT. Fields at fixed offsets of a page, a word that a write stores whole, and an access that no stall's binding leads to
(spec/04 R69). -/
namespace Sys2Proof.Machine

variable {d e : Dev}

/-! ## Fields at fixed offsets of one page -/

/-- A field depends on its words alone. -/
theorem rd_of_words {f : Fld} (h : ∀ i < f.words, e.word (f.addr + 4 * i) = d.word (f.addr + 4 * i)) : e.rd f = d.rd f := by
  rw [Dev.rd, Dev.rd, words_congr h]

theorem word_of_regs (h : e.regs = d.regs) (a : Nat) : e.word a = d.word a := by
  rw [Dev.word, h]
  rfl

/-- A field of one word is a stretch of its bits. -/
theorem rd_eq_bits (d : Dev) {f : Fld} (h : f.words = 1) : d.rd f = bits (d.word f.addr) f.lo f.width := by
  rw [Dev.rd, h]
  rfl

/-- Whether two fields meet is a matter of their offsets from one base. -/
theorem apart_at {b k lo w k' lo' w' : Nat} (h : (⟨k, lo, w⟩ : Fld).apart ⟨k', lo', w'⟩ = true) :
    (⟨b + k, lo, w⟩ : Fld).apart ⟨b + k', lo', w'⟩ = true := by
  rw [Fld.apart, decide_eq_true_eq] at h ⊢
  simp only [Fld.words] at h ⊢
  omega

/-- The same of the fields of one trough's context. -/
theorem apart_at_trough {b t k lo w k' lo' w' : Nat} (h : (⟨k, lo, w⟩ : Fld).apart ⟨k', lo', w'⟩ = true) :
    (⟨b + k + t, lo, w⟩ : Fld).apart ⟨b + k' + t, lo', w'⟩ = true := by
  rw [Fld.apart, decide_eq_true_eq] at h ⊢
  simp only [Fld.words] at h ⊢
  omega

/-! ## A word whose fields a write stores, fixed by the page's lock or not -/

/-- A register whose fields stand side by side in one word, each of them RW or RWL. -/
def RegRow.stored (r : RegRow) : Bool :=
  r.fields.all (fun f => decide ((f.acc = .rw ∨ f.acc = .rwl) ∧ f.lo + f.width ≤ 32)) &&
    decide (r.fields.Pairwise (fun f g => f.lo + f.width ≤ g.lo))

/-- A write that is let through stores the fields of such a register. -/
theorem storeWord_fields (d : Dev) {addr : Nat} (v : Nat) {h : RegHit} (hh : regHit addr = some h) (hw : h.word = 0)
    (hp : h.row.stored = true) :
    ∀ f ∈ h.row.fields, bits ((d.storeWord addr v).word addr) f.lo f.width = bits v f.lo f.width := by
  rw [RegRow.stored, Bool.and_eq_true, List.all_eq_true, decide_eq_true_eq] at hp
  obtain ⟨hall, hpair⟩ := hp
  have hfit : ∀ f ∈ h.row.fields, (f.acc = .rw ∨ f.acc = .rwl) ∧ f.lo + f.width ≤ 32 := fun f hf => of_decide_eq_true (hall f hf)
  have hstore : d.storeWord addr v = d.setWord addr (h.row.fields.foldl (putField v) (d.word addr)) := by
    rw [Dev.storeWord, hh]
    dsimp only
    congr 1
    refine List.foldl_ext _ _ _ (fun u f hf => ?_)
    obtain ⟨hacc, hle⟩ := hfit f hf
    have hin : f.inWord h.word = (f.lo, f.width, 0) := by
      simp only [FieldRow.inWord, hw, if_true, Nat.sub_zero, Nat.min_eq_right (show f.width ≤ 32 - f.lo by omega)]
    obtain hacc | hacc := hacc <;> simp only [hin, hacc, putField]
  intro f hf
  rw [hstore, word_setWord_same, bits_mod_word (hfit f hf).2, bits_foldl_putField v _ _ hpair f hf]

/-! ## UNBOUND_ACCESS -/

theorem unboundAccess_of_unbound {f : Nat} (hup : d.hostUp f = true) (hf : d.stallOfFunc f = none) (write : Bool) :
    unboundAccess f write d = if write then d.bump (R.STL_UNBOUND_COUNT 0) else Dev.latch (0, d) := by
  rw [unboundAccess, if_neg (by simp [hup, hf])]

end Sys2Proof.Machine

namespace Sys2Proof
open Machine

/-- Settles O15: a read leaves its zero in the output latch, a write its count. -/
theorem unboundAccess : Obligations.UnboundAccess := by
  intro s p f hc hup hf
  refine ⟨?_, ?_⟩
  · refine completes_of_act (f := Machine.unboundAccess (4 * p.val + f.val) false) rfl hc ?_
    rw [unboundAccess_of_unbound hup hf]
    rfl
  · refine completes_of_act (f := Machine.unboundAccess (4 * p.val + f.val) true) rfl hc ?_
    rw [unboundAccess_of_unbound hup hf]
    exact ⟨(onlyRegs_iff s).mpr ((RegsOnly.refl _ _).bump _ _ (by decide)), rd_bump_same _ _ _⟩

end Sys2Proof
end

section
/-! Binding a stall and writing its grants (spec/04 R67, R68, R70, R71, spec/20 R418). -/
namespace Sys2Proof.Machine

variable {d e : Dev}

/-! ## The words of a stall's page that bind and grant -/

/-- BIND holds KIND, PORT, FUNC and NODE (Table 04-6). -/
theorem regHit_bind (n : Fin 9) : ∃ h, regHit (A.STL_BIND n) = some h ∧ h.word = 0 ∧ h.row.stored = true ∧
    ∀ p ∈ [(0, 2), (2, 1), (3, 2), (16, 16)], ∃ f ∈ h.row.fields, f.lo = p.1 ∧ f.width = p.2 := by
  have hall : ∀ n : Fin 9, (regHit (A.STL_BIND n)).any (fun h => h.word == 0 && h.row.stored &&
      [(0, 2), (2, 1), (3, 2), (16, 16)].all (fun p => h.row.fields.any (fun f => f.lo == p.1 && f.width == p.2))) = true := by
    decide
  have hn := hall n
  rw [Option.any_eq_true] at hn
  obtain ⟨h, hh, hb⟩ := hn
  simp only [Bool.and_eq_true, beq_iff_eq, List.all_eq_true, List.any_eq_true] at hb
  obtain ⟨⟨hw, hs⟩, hf⟩ := hb
  exact ⟨h, hh, hw, hs, hf⟩

/-- Every grant is a word of stored fields. -/
theorem regHit_grant (n : Fin 9) (g : Grant) : ∃ h, regHit (grantAddr n g) = some h ∧ h.word = 0 ∧ h.row.stored = true := by
  have hall : ∀ n : Fin 9, ∀ g ∈ [Grant.silo, .cellar, .bays, .streams, .rick],
      (regHit (grantAddr n g)).any (fun h => h.word == 0 && h.row.stored) = true := by decide
  have hn := hall n g (by cases g <;> simp)
  rw [Option.any_eq_true] at hn
  obtain ⟨h, hh, hb⟩ := hn
  simp only [Bool.and_eq_true, beq_iff_eq] at hb
  exact ⟨h, hh, hb.1, hb.2⟩

/-- A write of BIND stores each of its fields. -/
theorem rd_storeWord_bind (d : Dev) (n : Fin 9) (v lo w : Nat) (h : (lo, w) ∈ [(0, 2), (2, 1), (3, 2), (16, 16)]) :
    (d.storeWord (A.STL_BIND n) v).rd ⟨A.STL_BIND n, lo, w⟩ = bits v lo w := by
  obtain ⟨x, hx, hw, hs, hf⟩ := regHit_bind n
  obtain ⟨f, hmem, rfl, rfl⟩ := hf _ h
  have hone : (⟨A.STL_BIND n, f.lo, f.width⟩ : Fld).words = 1 := by
    simp only [List.mem_cons, Prod.mk.injEq, List.not_mem_nil, or_false] at h
    simp only [Fld.words]
    omega
  rw [rd_eq_bits _ hone]
  exact storeWord_fields d v hx hw hs f hmem

/-! ## Clearing a requester's shadows (R418) -/

@[simp] theorem clearShadows_rd (d : Dev) (c : Nat) (g : Fld) : (d.clearShadows c).rd g = d.rd g := rd_of_regs (by rfl) g

@[simp] theorem clearShadows_jobState (d : Dev) (c n : Nat) : (d.clearShadows c).jobState n = d.jobState n :=
  clearShadows_rd _ _ _

@[simp] theorem clearShadows_bindTaken (d : Dev) (c n v : Nat) : (d.clearShadows c).bindTaken n v = d.bindTaken n v := by
  simp only [Dev.bindTaken, Dev.funcOf, Dev.nodeOf, clearShadows_rd]

theorem shadow_clearShadows (d : Dev) (q : Req) {x : Nat} (hx : x < 2 ^ 24) : (d.clearShadows (reqCode q)).shadow q x = none := by
  have hk : (reqCode q * 2 ^ 24 + x) / 2 ^ 24 = reqCode q := by omega
  rw [Dev.shadow, Dev.clearShadows, NMap.get_keep, hk, bne_self_eq_false, if_neg Bool.false_ne_true]

/-! ## BIND_WRITE -/

theorem bindWrite_of_kept (q : Req) {n v : Nat} (h0 : n ≠ 0) (hk : bits v 0 2 ≠ 3) (ht : d.bindTaken n v = false)
    (hj : d.jobState n = jobClosed) : d.bindWrite q n v = (d.clearShadows n).storeWord (A.STL_BIND n) v := by
  rw [Dev.bindWrite, if_neg (by simp [h0, hk, ht, hj])]

theorem bindWrite_of_broken (q : Req) {n v : Nat}
    (h : n = 0 ∨ bits v 0 2 = 3 ∨ d.bindTaken n v = true ∨ d.jobState n ≠ jobClosed) :
    d.bindWrite q n v = (d.clearShadows n).perr (A.STL_BIND n) q causeValue := by
  rw [Dev.bindWrite, if_pos (by simpa using h)]

/-- What stands on a stall's page, by its offset. -/
theorem stall_page (n : Fin 9) {k : Nat} (hk : k < 4096) :
    (0x10000 + n.val * 4096 + k) / 4096 = 0x10 + n.val ∧ (0x10000 + n.val * 4096 + k) % 4096 = k := by
  omega

/-- Counting an ignored write to a word of a stall's page. -/
theorem counted_perr_stall (s : State) (q : Req) (n : Fin 9) {k : Nat} (hk : k < 4096) :
    Counted s { s with dev := s.dev.perr (0x10000 + n.val * 4096 + k) q causeValue }
      (0x10 + n.val) (0x10 + n.val) k q causeValue := by
  have h := counted_perr s q (addr := 0x10000 + n.val * 4096 + k) (cause := causeValue) (by omega) (by decide)
  rwa [(stall_page n hk).1, (stall_page n hk).2] at h

/-! ## GRANT_WRITE -/

/-- A grant stands on its stall's page below GRANT_STAT. -/
theorem grantAddr_eq (n : Nat) (g : Grant) : ∃ k, grantAddr n g = 0x10000 + n * 4096 + k ∧ k < 0x58 := by
  cases g
  · exact ⟨0x44, rfl, by decide⟩
  · exact ⟨0x48, rfl, by decide⟩
  · exact ⟨0x4c, rfl, by decide⟩
  · exact ⟨0x50, rfl, by decide⟩
  · exact ⟨0x54, rfl, by decide⟩

theorem grantWrite_of_kept (q : Req) {n v : Nat} {g : Grant} (hf : d.grantFits n v g = true) (hc : d.grantCovers n v g = true) :
    d.grantWrite q n g v = d.storeWord (grantAddr n g) v := if_pos (by rw [hf, hc]; rfl)

theorem grantWrite_of_broken (q : Req) {n v : Nat} {g : Grant}
    (h : d.grantFits n v g = false ∨ d.grantCovers n v g = false) :
    d.grantWrite q n g v = (d.perr (grantAddr n g) q causeValue).wr (R.STL_GRANT_STAT_SHORT n) 1 := by
  refine if_neg ?_
  obtain h | h := h <;> simp [h]

/-- Counting an ignored write moves the page's error count, and its record at the first. -/
theorem perrAt_regsOnly (d : Dev) (p a o r c : Nat) : RegsOnly d (d.perrAt p a o r c) [A.PERR_COUNT p, A.PERR_FIRST p] := by
  by_cases h : d.rd (R.PERR_COUNT p) = 0
  · rw [perrAt_of_first _ _ _ _ _ h]
    exact ((perrRecord_regsOnly ..).mono (by simp)).bump _ _ (perrCount_within p _)
  · rw [perrAt_of_later _ _ _ _ _ h]
    exact (RegsOnly.refl _ _).bump _ _ (perrCount_within p _)

/-- A write of a grant that is ignored: it is counted and sets SHORT (R71). -/
theorem grantWrite_broken_leaves (q : Req) (n : Fin 9) (g : Grant) :
    let e := (d.perr (grantAddr n g) q causeValue).wr (R.STL_GRANT_STAT_SHORT n) 1
    RegsOnly d e [A.PERR_COUNT (0x10 + n.val), A.PERR_FIRST (0x10 + n.val), A.STL_GRANT_STAT n] ∧
    e.rd (R.PERR_COUNT (0x10 + n.val)) = min (d.rd (R.PERR_COUNT (0x10 + n.val)) + 1) maxWord ∧
    e.rd (R.STL_GRANT_STAT_SHORT n) = 1 := by
  obtain ⟨k, hk, hlt⟩ := grantAddr_eq n g
  have hpage : d.perr (grantAddr n g) q causeValue = d.perrAt (0x10 + n.val) (0x10 + n.val) k (reqCode q) causeValue := by
    rw [hk, Dev.perr, (stall_page n (k := k) (by omega)).1, (stall_page n (k := k) (by omega)).2]
  have hapart : (R.STL_GRANT_STAT_SHORT n).apart (R.PERR_COUNT (0x10 + n.val)) = true :=
    apart_of_addr (.inr (by simp only [A.PERR_COUNT, A.STL_GRANT_STAT, Fld.words]; omega))
  intro e
  refine ⟨?_, ?_, rd_wr_same _ _ _⟩
  · simp only [e, hpage]
    exact ((perrAt_regsOnly d _ _ _ _ _).mono (by simp)).wr _ _ (by simp [Fld.within, Fld.words])
  · simp only [e, hpage]
    rw [rd_wr_ne _ _ hapart, perrAt_count]
    rfl

end Sys2Proof.Machine

namespace Sys2Proof
open Machine

/-- Settles O30: BIND and the grants are words whose fields a write stores whole; a write that breaks a rule is counted. -/
theorem bindAndGrantWrites : Obligations.BindAndGrantWrites := by
  intro s q n v hc
  refine ⟨fun hp => ⟨fun h0 hk ht hj => ?_, fun h => ?_⟩, fun g hp => ⟨fun hf hcov => ?_, fun h => ?_⟩⟩
  · refine completes_of_permits (op := fun v d => d.bindWrite q n.val v) rfl hc hp ?_
    rw [bindWrite_of_kept q (fun h => h0 (Fin.ext h)) hk ht hj]
    have ho := storeWord_regsOnly (s.dev.clearShadows n) (A.STL_BIND n) v.toNat
    have hrd := rd_storeWord_bind (s.dev.clearShadows n) n v.toNat
    refine ⟨congrArg (fun x => { s with dev := x }) ho.rest, fun a ha => ho.word a ha, hrd _ _ (by simp), hrd _ _ (by simp),
      hrd _ _ (by simp), hrd _ _ (by simp), fun x hx => ?_⟩
    have hbus : ((s.dev.clearShadows n).storeWord (A.STL_BIND n) v.toNat).bus = (s.dev.clearShadows n).bus := by rw [ho.rest]
    rw [Dev.shadow, hbus]
    exact shadow_clearShadows s.dev (.stall n) hx
  · refine completes_of_permits (op := fun v d => d.bindWrite q n.val v) rfl hc hp ?_
    rw [bindWrite_of_broken q (h.imp_left (congrArg Fin.val))]
    exact counted_perr_stall { s with dev := s.dev.clearShadows n } q n (by decide)
  · refine completes_of_permits (op := fun v d => d.grantWrite q n.val g v) rfl hc hp ?_
    rw [grantWrite_of_kept q hf hcov]
    refine ⟨(onlyRegs_iff s).mpr (storeWord_regsOnly _ _ _), fun h hh f hf => ?_⟩
    obtain ⟨x, hx, hw, hs⟩ := regHit_grant n g
    obtain rfl : h = x := Option.some.inj (hh.symm.trans hx)
    exact storeWord_fields s.dev _ hx hw hs f hf
  · refine completes_of_permits (op := fun v d => d.grantWrite q n.val g v) rfl hc hp ?_
    rw [grantWrite_of_broken q h]
    obtain ⟨ho, hcount, hshort⟩ := grantWrite_broken_leaves (d := s.dev) q n g
    exact ⟨(onlyRegs_iff s).mpr ho, hcount, hshort⟩

end Sys2Proof
end

section
/-! SUPPORT. What packets, vectors, memory accesses and event records leave alone: registers below the Furrow pages, and what
the stalls have under way (spec/04 R83, R84). -/
namespace Sys2Proof.Machine

variable {d e f : Dev}

/-! ## Packets and vectors -/

/-- `e` comes of `d` by packets that are sent and vectors that are raised: memory, tenancy and audio state stay, and the
registers below the Furrow pages. -/
structure Sends (d e : Dev) : Prop where
  tn : e.tn = d.tn
  mem : e.mem = d.mem
  au : e.au = d.au
  word : ∀ a < 0x48000, e.word a = d.word a

theorem Sends.refl (d : Dev) : Sends d d := ⟨rfl, rfl, rfl, fun _ _ => rfl⟩

theorem Sends.trans (h : Sends d e) (h' : Sends e f) : Sends d f :=
  ⟨h'.tn.trans h.tn, h'.mem.trans h.mem, h'.au.trans h.au, fun a ha => (h'.word a ha).trans (h.word a ha)⟩

theorem Sends.rd (h : Sends d e) {g : Fld} (hg : g.addr + 4 * g.words ≤ 0x48000) : e.rd g = d.rd g :=
  rd_of_words (fun i hi => h.word _ (by omega))

theorem Sends.of_regs (h : Sends d e) (ht : f.tn = e.tn) (hm : f.mem = e.mem) (ha : f.au = e.au) (hr : f.regs = e.regs) :
    Sends d f := h.trans ⟨ht, hm, ha, fun a _ => by rw [Dev.word, hr]; rfl⟩

/-- A write of a register of the Furrow pages or above. -/
theorem Sends.wr (h : Sends d e) {g : Fld} (hg : 0x48000 ≤ g.addr) (v : Nat) : Sends d (e.wr g v) :=
  h.trans ⟨by simp, by simp, by simp, fun a ha => word_wr_ne e g v (fun i _ => by omega)⟩

theorem Sends.setLink (h : Sends d e) (p : Nat) (x : Link) : Sends d (e.setLink p x) := h.of_regs rfl rfl rfl rfl

theorem Sends.emit (h : Sends d e) (o : Out) : Sends d (e.emit o) := h.of_regs rfl rfl rfl rfl

theorem Sends.setBar4 (h : Sends d e) (g off v : Nat) : Sends d (e.setBar4 g off v) := h.of_regs rfl rfl rfl rfl

theorem Sends.firstSend (h : Sends d e) (p : Nat) (x : Flit) : Sends d (e.firstSend p x) := by
  have htx : 0x48000 ≤ (R.FUR_TX_FLITS p).addr := by
    simp only [A.FUR_TX_FLITS]
    omega
  have hav : 0x48000 ≤ (R.FUR_VC_AVAIL p x.vc).addr := by
    simp only [A.FUR_VC]
    omega
  exact ((((h.setLink _ _).wr htx _).wr hav _).setLink _ _).emit _

theorem Sends.pump (h : Sends d e) (p k : Nat) : Sends d (e.pump p k) := by
  induction k generalizing e with
  | zero => exact h
  | succ k ih =>
    rw [Dev.pump]
    split
    · split
      · exact ih ((h.setLink _ _).firstSend _ _)
      · exact h
    · exact h

theorem sendPacket_sends (d : Dev) (v : Nat) (x : Packet) (o : Option (TroughId × Nat)) : Sends d (d.sendPacket v x o) := by
  rw [Dev.sendPacket]
  split
  · exact (Sends.refl d).of_regs rfl rfl rfl rfl
  · split
    · exact .refl d
    · exact ((Sends.refl d).setLink _ _).pump _ _

theorem raise_sends (d : Dev) (n v : Nat) : Sends d (d.raise n v) := by
  rw [Dev.raise]
  split
  · split
    · exact (Sends.refl d).setBar4 _ _ _
    · split
      · exact .refl d
      · exact (Sends.refl d).emit _
  · split
    · exact sendPacket_sends d _ _ _
    · exact .refl d

/-! ## Memory accesses -/

/-- `e` comes of `d` by reads and writes of memory: all but the memories and the registers of the SIL pages stays. -/
structure Stores (d e : Dev) : Prop where
  rest : e = { d with regs := e.regs, mem := e.mem }
  word : ∀ a < 0x60000, e.word a = d.word a

theorem Stores.refl (d : Dev) : Stores d d := ⟨rfl, fun _ _ => rfl⟩

theorem Stores.trans (h : Stores d e) (h' : Stores e f) : Stores d f := by
  refine ⟨?_, fun a ha => (h'.word a ha).trans (h.word a ha)⟩
  obtain ⟨he, -⟩ := h
  obtain ⟨hf, -⟩ := h'
  rw [he] at hf
  exact hf

theorem Stores.tn (h : Stores d e) : e.tn = d.tn := by
  rw [h.rest]

theorem Stores.au (h : Stores d e) : e.au = d.au := by
  rw [h.rest]

theorem Stores.rd (h : Stores d e) {g : Fld} (hg : g.addr + 4 * g.words ≤ 0x60000) : e.rd g = d.rd g :=
  rd_of_words (fun i hi => h.word _ (by omega))

theorem Stores.wr (h : Stores d e) {g : Fld} (hg : 0x60000 ≤ g.addr) (v : Nat) : Stores d (e.wr g v) := by
  refine h.trans ⟨?_, fun a ha => word_wr_ne e g v (fun i _ => by omega)⟩
  obtain ⟨r, hr⟩ := wr_eq e g v
  rw [hr]

theorem eccTouch_stores (d : Dev) (w : Nat) : Stores d (d.eccTouch w) := by
  rw [Dev.eccTouch]
  split
  · exact .refl d
  · exact ((Stores.refl d).wr (le_page _ _ _) _).trans ⟨rfl, fun _ _ => rfl⟩
  · refine ((((Stores.refl d).wr (le_page _ _ _) _).wr (le_page _ _ _) _).wr (le_page _ _ _) _).wr ?_ _
    simp only [A.PIRQ_RAW, PageKind.page]
    omega

/-- What each step of a fold does, the fold does. -/
theorem Stores.foldl {α : Type} {op : Dev → α → Dev} (hop : ∀ e a, Stores e (op e a)) (xs : List α) (d : Dev) :
    Stores d (xs.foldl op d) := foldl_keeps (Stores d) op (fun e a h => h.trans (hop e a)) xs (.refl d)

theorem readLocs_stores (d : Dev) (ls : List Loc) : Stores d (d.readLocs ls).2.2 := Stores.foldl eccTouch_stores _ d

theorem poke_stores (d : Dev) (l : Loc) (b : Byte) : Stores d (d.poke l b) := by
  cases l <;> exact ⟨rfl, fun _ _ => rfl⟩

theorem writeLocs_stores (d : Dev) (ls : List Loc) (bs : List Byte) : Stores d (d.writeLocs ls bs).2 := by
  have hmark : ∀ (ws : List Nat) e, Stores e (ws.foldl (fun d w => d.setEcc w none) e) := fun ws e =>
    Stores.foldl (op := fun d w => d.setEcc w none) (fun e _ => ⟨rfl, fun _ _ => rfl⟩) ws e
  rw [Dev.writeLocs]
  refine ((Stores.foldl eccTouch_stores _ d).trans (hmark _ _)).trans (Stores.foldl (fun e p => ?_) _ _)
  split
  · split
    · exact .refl e
    · exact poke_stores e _ _
  · exact poke_stores e _ _

theorem pathRead_stores {n a len : Nat} {rt : Option Nat} {bs : List Byte} {ue : Bool}
    (h : d.pathRead n rt a len = .data bs ue e) : Stores d e := by
  rw [Dev.pathRead] at h
  split at h
  · cases h
    exact readLocs_stores d _
  · cases h
  · cases h

theorem pathWrite_stores {n a : Nat} {rt : Option Nat} {bs : List Byte} {ue : Bool} (h : d.pathWrite n rt a bs = .done ue e) :
    Stores d e := by
  rw [Dev.pathWrite] at h
  split at h
  · cases h
    exact writeLocs_stores d _ _
  · cases h
  · cases h

/-! ## Event records -/

/-- The words of a stall's page that an event record moves. -/
abbrev eventWords (n : Nat) : List Nat := [A.STL_EV_HEAD n, A.STL_EV_LOST n, A.STL_LAST_STATUS n]

/-- `e` comes of `d` by telling stall `n`: of the tenancy only the list of accesses that wait may change, audio state stays,
and the registers below the Furrow pages but for the event ring's own. -/
structure Tells (n : Nat) (d e : Dev) : Prop where
  tn : e.tn = { d.tn with owed := e.tn.owed }
  au : e.au = d.au
  word : ∀ a < 0x48000, a ∉ eventWords n → e.word a = d.word a

theorem Tells.refl (n : Nat) (d : Dev) : Tells n d d := ⟨rfl, rfl, fun _ _ _ => rfl⟩

theorem Tells.trans {n : Nat} (h : Tells n d e) (h' : Tells n e f) : Tells n d f := by
  refine ⟨?_, h'.au.trans h.au, fun a hlt ha => (h'.word a hlt ha).trans (h.word a hlt ha)⟩
  rw [h'.tn, h.tn]

theorem Sends.tells (h : Sends d e) (n : Nat) : Tells n d e := ⟨by rw [h.tn], h.au, fun a hlt _ => h.word a hlt⟩

theorem Stores.tells (h : Stores d e) (n : Nat) : Tells n d e := ⟨by rw [h.tn], h.au, fun a hlt _ => h.word a (by omega)⟩

theorem Tells.wr {n : Nat} (h : Tells n d e) {g : Fld} (hw : g.words = 1) (hg : g.addr ∈ eventWords n) (v : Nat) :
    Tells n d (e.wr g v) :=
  h.trans ⟨by simp, by simp, fun a _ ha => word_wr_of_one_word e v hw (fun hx => ha (hx ▸ hg))⟩

theorem Tells.owe {n : Nat} (h : Tells n d e) (o : Owed) : Tells n d (e.owe o) := h.trans ⟨rfl, rfl, fun _ _ _ => rfl⟩

theorem Tells.raise {n : Nat} (h : Tells n d e) (m v : Nat) : Tells n d (e.raise m v) := h.trans ((raise_sends e m v).tells n)

theorem Tells.rd {n : Nat} (h : Tells n d e) {g : Fld} (hlt : g.addr + 4 * g.words ≤ 0x48000)
    (hg : g.outside (eventWords n) = true) : e.rd g = d.rd g := by
  simp only [Fld.outside, List.all_eq_true, List.mem_range, Bool.not_eq_true', List.contains_eq_mem,
    decide_eq_false_iff_not] at hg
  exact rd_of_words (fun i hi => h.word _ (by omega) (hg i hi))

/-- The event lost: its count goes up (R83). -/
theorem bumpLost_tells (d : Dev) (n : Nat) : Tells n d (d.bump (R.STL_EV_LOST_COUNT n)) :=
  (Tells.refl n d).wr (words_of_le (by decide) (by decide)) (.tail _ (.head _)) _

theorem putEvent_tells {n : Nat} {bs : List Byte} {quiet : Bool} (h : d.putEvent n bs quiet = some e) : Tells n d e := by
  rw [Dev.putEvent] at h
  dsimp only at h
  split at h
  · exact Option.some.inj h ▸ bumpLost_tells d n
  · split at h
    next hdone =>
      have hhead := ((pathWrite_stores hdone).tells n).wr (g := R.STL_EV_HEAD n) (words_of_le (by decide) (by decide)) (.head _)
        (d.rd (R.STL_EV_HEAD n) + 1)
      rw [← Option.some.inj h]
      split
      · exact hhead.raise _ _
      · exact hhead
    next => cases h
    next => exact Option.some.inj h ▸ bumpLost_tells d n

/-- The device with the status of an event noted: a MARK's record carries none. -/
def Dev.noteStatus (d : Dev) (n status kind : Nat) : Dev := if kind = kindMark then d else d.wr (R.STL_LAST_STATUS n) status

theorem event_eq (d : Dev) (n status kind index pos : Nat) (quiet : Bool) :
    d.event n status kind index pos quiet =
      let e := d.noteStatus n status kind
      let bs := eventBytes status kind index pos e.stc
      if 2 ^ e.rd (R.STL_EV_CFG_LOG2SIZE n) ≤ e.ringUsed n + e.owedEvents n then e.bump (R.STL_EV_LOST_COUNT n)
      else if e.owedEvents n ≠ 0 then e.owe (.event n bs quiet)
      else (e.putEvent n bs quiet).getD (e.owe (.event n bs quiet)) := rfl

theorem noteStatus_tells (d : Dev) (n status kind : Nat) : Tells n d (d.noteStatus n status kind) := by
  rw [Dev.noteStatus]
  split
  · exact .refl n d
  · exact (Tells.refl n d).wr (words_of_le (by decide) (by decide)) (.tail _ (.tail _ (.head _))) _

theorem event_tells (d : Dev) (n status kind index pos : Nat) (quiet : Bool) :
    Tells n d (d.event n status kind index pos quiet) := by
  rw [event_eq]
  refine (noteStatus_tells d n status kind).trans ?_
  generalize d.noteStatus n status kind = e
  dsimp only
  split
  · exact bumpLost_tells e n
  · split
    · exact (Tells.refl n e).owe _
    · cases hp : e.putEvent n (eventBytes status kind index pos e.stc) quiet with
      | none => exact (Tells.refl n e).owe _
      | some f => exact putEvent_tells hp

end Sys2Proof.Machine
end

section
/-! SUPPORT. Control words, a trough's own registers, and the retirement of a descriptor that asks for no completion (spec/04
R74-R79). -/
namespace Sys2Proof.Machine

variable {d e f : Dev}

/-! ## Control words and troughs -/

/-- The command of a control word of an OPEN, and its epoch. -/
theorem bits_open (e : BitVec 16) : bits (1 + e.toNat * 65536) 0 2 = 1 ∧ bits (1 + e.toNat * 65536) 16 16 = e.toNat := by
  have he := e.isLt
  simp only [bits, Nat.shiftRight_eq_div_pow]
  omega

/-- Counting an ignored write to a word of a trough's page. -/
theorem counted_perr_trough (s : State) (q : Req) (n : Fin 9) {k : Nat} (hk : k < 4096) :
    Counted s { s with dev := s.dev.perr (0x20000 + n.val * 4096 + k) q causeValue }
      (0x20 + n.val) (0x20 + n.val) k q causeValue := by
  have h := counted_perr s q (addr := 0x20000 + n.val * 4096 + k) (cause := causeValue) (by omega) (by decide)
  rwa [show (0x20000 + n.val * 4096 + k) / 4096 = 0x20 + n.val by omega,
    show (0x20000 + n.val * 4096 + k) % 4096 = k by omega] at h

@[simp] theorem trough_setTrough_same (d : Dev) (n t : Nat) (x : TroughSt) : (d.setTrough n t x).trough n t = x :=
  NMap.get_set_same _ _ _ _

theorem trough_of_troughs (h : e.tn.troughs = d.tn.troughs) (n t : Nat) : e.trough n t = d.trough n t := by
  rw [Dev.trough, h]
  rfl

@[simp] theorem wr_trough (d : Dev) (g : Fld) (v n t : Nat) : (d.wr g v).trough n t = d.trough n t :=
  trough_of_troughs (by simp) n t

theorem RegsOnly.tn {ws : List Nat} (h : RegsOnly d e ws) : e.tn = d.tn := by
  rw [h.rest]

theorem RegsOnly.mem {ws : List Nat} (h : RegsOnly d e ws) : e.mem = d.mem := by
  rw [h.rest]

theorem RegsOnly.setTrough {ws : List Nat} (h : RegsOnly d e ws) (n t : Nat) (x : TroughSt) :
    RegsOnly (d.setTrough n t x) (e.setTrough n t x) ws :=
  ⟨congrArg (fun y => y.setTrough n t x) h.rest, h.word⟩

/-- Telling a stall leaves the troughs' registers. -/
theorem Tells.rdTrough {n : Nat} (h : Tells n d e) (hn : n < 9) {g : Fld} (hlo : 0x20000 ≤ g.addr)
    (hhi : g.addr + 4 * g.words ≤ 0x30000) : e.rd g = d.rd g := by
  refine rd_of_words (fun i hi => h.word _ (by omega) ?_)
  simp only [List.mem_cons, List.not_mem_nil, or_false, A.STL_EV_HEAD, A.STL_EV_LOST, A.STL_LAST_STATUS]
  omega

theorem Tells.trough {n : Nat} (h : Tells n d e) (m t : Nat) : e.trough m t = d.trough m t :=
  trough_of_troughs (by rw [h.tn]) m t

/-- The registers of a trough stand on the trough pages. -/
theorem trough_place {n t k lo w : Nat} (hn : n < 9) (ht : t < 4) (hk : k < 0x140) (h0 : 0 < lo + w) (hw : lo + w ≤ 64) :
    0x20000 ≤ (⟨0x20000 + n * 4096 + k + t * 64, lo, w⟩ : Fld).addr ∧ (⟨0x20000 + n * 4096 + k + t * 64, lo, w⟩ : Fld).addr +
      4 * (⟨0x20000 + n * 4096 + k + t * 64, lo, w⟩ : Fld).words ≤ 0x30000 := by
  simp only [Fld.words]
  omega

/-! ## HEAD moves over what has retired (R76) -/

/-- With nothing retired out of order HEAD moves past the descriptor exactly if it stands there. -/
theorem markRetired_of_none {n t pos : Nat} (h : (d.trough n t).retired = []) :
    d.markRetired n t pos = if d.rd (R.TRG_T_HEAD n t) = pos then
      (d.wr (R.TRG_T_HEAD n t) ((pos + 1) % 2 ^ 32)).setTrough n t { d.trough n t with retired := [] }
    else (d.wr (R.TRG_T_HEAD n t) (d.rd (R.TRG_T_HEAD n t))).setTrough n t { d.trough n t with retired := [pos] } := by
  have hlt : d.rd (R.TRG_T_HEAD n t) < 2 ^ 32 := rd_lt d _
  rw [Dev.markRetired]
  simp only [h, List.nil_append, List.length_singleton, advance, List.contains_cons, List.contains_nil, Bool.or_false,
    List.range_one, List.any_cons, List.any_nil, Nat.add_zero, Nat.mod_eq_of_lt hlt, List.filter_cons, List.filter_nil]
  by_cases hp : d.rd (R.TRG_T_HEAD n t) = pos
  · have hmove : ((pos + 1) % 4294967296 + 4294967296 - pos) % 4294967296 ≠ 0 := by omega
    simp [hp, hmove]
  · simp [hp]

theorem markRetired_regsOnly (d : Dev) (n t pos : Nat) :
    ∃ x : TroughSt, (d.markRetired n t pos).trough n t = x ∧ x.next = (d.trough n t).next ∧ x.halted = (d.trough n t).halted ∧
      RegsOnly (d.setTrough n t x) (d.markRetired n t pos) [A.TRG_T_HEAD n t] := by
  refine ⟨_, trough_setTrough_same _ _ _ _, rfl, rfl, ?_⟩
  exact ((RegsOnly.refl d _).wr _ _ (by simp [Fld.within, Fld.words])).setTrough n t _

/-- A retirement of which no completion is asked raises its vector at most (R76, R84). -/
theorem completion_sends (d : Dev) (n t : Nat) {x : Desc} (hc : x.cmpl = false) : Sends d (d.completion n t x) := by
  rw [Dev.completion]
  simp only [hc, Bool.false_eq_true, false_and, if_false]
  split
  · exact raise_sends d _ _
  · exact .refl d

/-- What the retirement of trough `t`'s descriptor at `pos` leaves, where no completion is asked. -/
structure Retires (n t pos : Nat) (d e : Dev) : Prop where
  tn : e.tn = ((d.markRetired n t pos).progress n).tn
  mem : e.mem = d.mem
  head : e.rd (R.TRG_T_HEAD n t) = (d.markRetired n t pos).rd (R.TRG_T_HEAD n t)
  word : ∀ a < 0x48000, a ≠ A.TRG_T_HEAD n t → e.word a = d.word a

theorem retires_of_quiet (d : Dev) {n t : Nat} (hn : n < 9) (ht : t < 4) {x : Desc} (hc : x.cmpl = false) :
    Retires n t x.pos d (((d.markRetired n t x.pos).progress n).completion n t x) := by
  obtain ⟨y, -, -, -, ho⟩ := markRetired_regsOnly d n t x.pos
  have hs := completion_sends ((d.markRetired n t x.pos).progress n) n t hc
  have hword : ∀ a < 0x48000, (((d.markRetired n t x.pos).progress n).completion n t x).word a =
      (d.markRetired n t x.pos).word a :=
    fun a ha => hs.word a ha
  refine ⟨hs.tn, ?_, rd_of_words (fun i hi => hword _ ?_), fun a hlt ha => ?_⟩
  · rw [hs.mem, Dev.progress, setJob_mem, ho.mem, setTrough_mem]
  · have hhi : (R.TRG_T_HEAD n t).addr + 4 * (R.TRG_T_HEAD n t).words ≤ 0x30000 :=
      (trough_place hn ht (by decide) (by decide) (by decide)).2
    omega
  · rw [hword a hlt, ho.word a (by simpa using ha)]
    rfl

/-- Of the tenancy a retirement moves the trough's state and restarts the job's watchdog. -/
theorem markRetired_tn (d : Dev) (n t pos : Nat) : ∃ ts, (d.markRetired n t pos).tn = { d.tn with troughs := ts } := by
  obtain ⟨y, -, -, -, ho⟩ := markRetired_regsOnly d n t pos
  exact ⟨_, ho.tn⟩

theorem Retires.rest {n t pos : Nat} (h : Retires n t pos d e) :
    ∃ ts js, e.tn = { d.tn with troughs := ts, jobs := js } ∧ (js.get (fun _ => Job.none) n).wdog = 0 := by
  obtain ⟨ts, hts⟩ := markRetired_tn d n t pos
  have htn := h.tn
  generalize d.markRetired n t pos = f at htn hts
  refine ⟨ts, f.tn.jobs.set (fun _ => Job.none) n { f.job n with wdog := 0 }, htn.trans ?_, ?_⟩
  · rw [Dev.progress, Dev.setJob]
    dsimp only
    rw [hts]
  · rw [NMap.get_set_same]

theorem Retires.trough {n t pos : Nat} (h : Retires n t pos d e) : e.trough n t = (d.markRetired n t pos).trough n t :=
  trough_of_troughs (by rw [h.tn]; rfl) n t

end Sys2Proof.Machine
end

section
/-! Opening, closing, skipping and ringing a trough (spec/04 R74, R75, R77, R78). -/
namespace Sys2Proof.Machine

variable {d e : Dev}

/-! ## TROUGH_OPEN (R74) -/

/-- A refused OPEN leaves the trough's STATE, and STATUS takes the code. -/
theorem refuseTrough_stat (d : Dev) {n t : Nat} (hn : n < 9) (ht : t < 4) {status : Nat} (hs : status < 2 ^ 16) :
    (d.refuseTrough n t status).troughState n t = d.troughState n t ∧
    (d.refuseTrough n t status).rd (R.TRG_T_STAT_STATUS n t) = status := by
  have htell := event_tells (d.wr (R.TRG_T_STAT_STATUS n t) status) n status kindTrough t 0 false
  have hrd : ∀ lo w, 0 < lo + w → lo + w ≤ 64 → (d.refuseTrough n t status).rd ⟨A.TRG_T_STAT n t, lo, w⟩ =
      (d.wr (R.TRG_T_STAT_STATUS n t) status).rd ⟨A.TRG_T_STAT n t, lo, w⟩ := fun lo w h0 h =>
    have hplace := trough_place (k := 0x110) hn ht (by decide) h0 h
    htell.rdTrough hn hplace.1 hplace.2
  refine ⟨(hrd _ _ (by decide) (by decide)).trans (rd_wr_ne _ _ (apart_at_trough (by decide))),
    (hrd _ _ (by decide) (by decide)).trans ?_⟩
  rw [rd_wr_same, Nat.mod_eq_of_lt hs]

theorem openTrough_of_disabled {n t epoch : Nat} (h : d.limp = true ∨ d.jobState n ≠ jobOpen) :
    d.openTrough n t epoch = d.refuseTrough n t stDisabled := by
  rw [Dev.openTrough]
  split
  · rfl
  next hl => rw [if_pos (h.resolve_left hl)]

theorem openTrough_of_stale {n t epoch : Nat} (h : ¬(d.limp = true ∨ d.jobState n ≠ jobOpen)) (he : d.epochServed epoch = false) :
    d.openTrough n t epoch = d.refuseTrough n t stEpoch := by
  rw [not_or] at h
  rw [Dev.openTrough, if_neg h.1, if_neg h.2, if_pos (by simp [he])]

theorem openTrough_of_misplaced {n t epoch : Nat} (h : ¬(d.limp = true ∨ d.jobState n ≠ jobOpen))
    (he : d.epochServed epoch = true) (hp : d.troughPlaced n t = false) :
    d.openTrough n t epoch = d.refuseTrough n t stDesc := by
  rw [not_or] at h
  rw [Dev.openTrough, if_neg h.1, if_neg h.2, if_neg (by simp [he]), if_pos (by simp [hp])]

/-- A trough that opens: HEAD and TAIL at 0, nothing fetched, STATUS OK, STATE 1. -/
def Dev.troughOpened (d : Dev) (n t : Nat) : Dev :=
  ((((d.wr (R.TRG_T_HEAD n t) 0).wr (R.TRG_T_TAIL n t) 0).setTrough n t TroughSt.reset).wr (R.TRG_T_STAT_STATUS n t) stOk).wr
    (R.TRG_T_STAT_STATE n t) trgOpen

theorem openTrough_of_ok {n t epoch : Nat} (h : ¬(d.limp = true ∨ d.jobState n ≠ jobOpen)) (he : d.epochServed epoch = true)
    (hp : d.troughPlaced n t = true) : d.openTrough n t epoch = d.troughOpened n t := by
  rw [not_or] at h
  rw [Dev.openTrough, if_neg h.1, if_neg h.2, if_neg (by simp [he]), if_neg (by simp [hp])]
  rfl

theorem troughOpened_regsOnly (d : Dev) (n t : Nat) : RegsOnly (d.setTrough n t TroughSt.reset) (d.troughOpened n t)
    [A.TRG_T_HEAD n t, A.TRG_T_TAIL n t, A.TRG_T_STAT n t] :=
  (((((RegsOnly.refl d _).wr _ _ (by simp [Fld.within, Fld.words])).wr _ _ (by simp [Fld.within, Fld.words])).setTrough n t _).wr _ _
    (by simp [Fld.within, Fld.words])).wr _ _ (by simp [Fld.within, Fld.words])

theorem rd_troughOpened (d : Dev) (n t : Nat) :
    (d.troughOpened n t).troughState n t = trgOpen ∧ (d.troughOpened n t).rd (R.TRG_T_STAT_STATUS n t) = stOk ∧
    (d.troughOpened n t).rd (R.TRG_T_HEAD n t) = 0 ∧ (d.troughOpened n t).rd (R.TRG_T_TAIL n t) = 0 := by
  simp (disch := exact apart_at_trough (by decide)) [Dev.troughOpened, Dev.troughState, rd_wr_ne]

/-! ## The commands of T_CTL -/

theorem tCtlWrite_open (d : Dev) (q : Req) (n t : Nat) (e : BitVec 16) : d.tCtlWrite q n t (1 + e.toNat * 65536) =
    if d.troughState n t ≠ trgClosed then d.perr (A.TRG_T_CTL n t) q causeValue else d.openTrough n t e.toNat := by
  obtain ⟨h1, h2⟩ := bits_open e
  simp only [Dev.tCtlWrite, h1, h2]

theorem tCtlWrite_close (q : Req) {n t : Nat} (h : d.troughState n t = trgOpen ∨ d.troughState n t = trgHalted) :
    d.tCtlWrite q n t 2 = d.wr (R.TRG_T_STAT_STATE n t) trgClosing := by
  have hne : ¬(d.troughState n t = trgClosed ∨ d.troughState n t = trgClosing) := by
    obtain h | h := h <;> rw [h] <;> decide
  exact if_neg hne

/-- The trough once the oldest descriptor that halted it is let go. -/
def Dev.unhalted (d : Dev) (n t : Nat) (xs : List Desc) : Dev :=
  let d := d.setTrough n t { d.trough n t with halted := xs }
  if xs.isEmpty then d.wr (R.TRG_T_STAT_STATE n t) trgOpen else d

theorem tCtlWrite_skip (q : Req) {n t : Nat} {x : Desc} {xs : List Desc} (hs : d.troughState n t = trgHalted)
    (hx : (d.trough n t).halted = x :: xs) :
    d.tCtlWrite q n t 3 = (((d.unhalted n t xs).markRetired n t x.pos).progress n).completion n t x := by
  have hskip : bits 3 0 2 = 3 := by decide
  simp only [Dev.tCtlWrite, hskip, hs, hx, beq_self_eq_true]
  rfl

/-- A retirement leaves its trough's STATE. -/
theorem Retires.state {n t pos : Nat} (h : Retires n t pos d e) (hn : n < 9) (ht : t < 4) :
    e.troughState n t = d.troughState n t := by
  refine rd_of_words (fun i hi => h.word _ ?_ ?_) <;> simp only [A.TRG_T_STAT, A.TRG_T_HEAD, Fld.words] at hi ⊢ <;> omega

theorem unhalted_trough (d : Dev) (n t : Nat) (xs : List Desc) :
    (d.unhalted n t xs).trough n t = { d.trough n t with halted := xs } := by
  rw [Dev.unhalted]
  dsimp only
  split
  · rw [wr_trough, trough_setTrough_same]
  · rw [trough_setTrough_same]

/-- Of the trough's registers only STATE may move, when the last descriptor that halted it is let go. -/
theorem unhalted_rd (d : Dev) (n t : Nat) (xs : List Desc) :
    (d.unhalted n t xs).troughState n t = (if xs.isEmpty then trgOpen else d.troughState n t) ∧
    (d.unhalted n t xs).rd (R.TRG_T_HEAD n t) = d.rd (R.TRG_T_HEAD n t) := by
  cases h : xs.isEmpty <;> simp (disch := exact apart_at_trough (by decide)) [Dev.unhalted, h, Dev.troughState, rd_wr_ne]

/-! ## TROUGH_CLOSE_DONE (R77, R78) -/

/-- What discarding a trough's descriptors writes: the count, HEAD and STATE. -/
def Dev.discardNoted (d : Dev) (n t state : Nat) : Dev :=
  ((d.bump (R.TRG_T_DISCARD_COUNT n t) ((d.rd (R.TRG_T_TAIL n t) + 2 ^ 32 - d.rd (R.TRG_T_HEAD n t)) % 2 ^ 32 -
    (d.trough n t).retired.length)).wr (R.TRG_T_HEAD n t) (d.rd (R.TRG_T_TAIL n t))).wr (R.TRG_T_STAT_STATE n t) state

theorem discardNoted_regsOnly (d : Dev) (n t state : Nat) : RegsOnly d (d.discardNoted n t state)
    [A.TRG_T_HEAD n t, A.TRG_T_STAT n t, A.TRG_T_DISCARD n t] :=
  (((RegsOnly.refl d _).bump _ _ (by simp [Fld.within, Fld.words])).wr _ _ (by simp [Fld.within, Fld.words])).wr _ _
    (by simp [Fld.within, Fld.words])

theorem rd_discardNoted (d : Dev) (n t state : Nat) :
    (d.discardNoted n t state).troughState n t = state % 2 ^ 2 ∧
    (d.discardNoted n t state).rd (R.TRG_T_HEAD n t) = d.rd (R.TRG_T_TAIL n t) ∧
    (d.discardNoted n t state).rd (R.TRG_T_TAIL n t) = d.rd (R.TRG_T_TAIL n t) := by
  have hlt : d.rd (R.TRG_T_TAIL n t) < 2 ^ 32 := rd_lt d _
  refine ⟨rd_wr_same _ _ _, ?_, ?_⟩
  · rw [Dev.discardNoted, rd_wr_ne _ _ (apart_at_trough (by decide)), rd_wr_same, Nat.mod_eq_of_lt hlt]
  · simp (disch := exact apart_at_trough (by decide)) only [Dev.discardNoted, rd_wr_ne, rd_bump_ne]

/-- The descriptors of a trough, what its PORTs carry, its queued SWAPs and waits, and what it had still to send are dropped. -/
def Dev.dropWork (d : Dev) (n t : Nat) : Dev :=
  let d := (d.leavePorts n t).dropSends (.batch n t)
  let d : Dev := { d with au := { d.au with checked := d.au.checked.filter (fun p => !(p.trough == .batch n t)) } }
  let d := d.setLive (d.tn.live.filter (fun x => !(x.trough == .batch n t)))
  d.setWaiters (d.tn.waiters.filter (fun w => !(w.trough == .batch n t)))

theorem discardTrough_none (d : Dev) (n t state : Nat) : d.discardTrough n t state none =
    ((d.discardNoted n t state).setTrough n t ⟨d.rd (R.TRG_T_TAIL n t), [], []⟩).dropWork n t := rfl

theorem discardTrough_some (d : Dev) (n t state status : Nat) : d.discardTrough n t state (some status) =
    (((d.discardNoted n t state).setTrough n t ⟨d.rd (R.TRG_T_TAIL n t), [], []⟩).dropWork n t).wr (R.TRG_T_STAT_STATUS n t)
      status := rfl

theorem dropSends_rest (d : Dev) (t : TroughId) :
    d.dropSends t = { d with fu := { d.fu with links := (d.dropSends t).fu.links } } := by
  refine foldl_keeps (fun e => e = { d with fu := { d.fu with links := e.fu.links } }) _ (fun e p h => ?_) furPorts rfl
  rw [h]
  rfl

theorem dropWork_rest (d : Dev) (n t : Nat) : d.dropWork n t = { d with
    tn := (d.dropWork n t).tn
    au := { d.au with caps := (d.dropWork n t).au.caps, checked := (d.dropWork n t).au.checked }
    fu := { d.fu with links := (d.dropWork n t).fu.links } } := by
  rw [Dev.dropWork, dropSends_rest]
  rfl

theorem dropWork_regs (d : Dev) (n t : Nat) : (d.dropWork n t).regs = d.regs := by
  rw [dropWork_rest]

/-- Past registers and the trough's own state too, dropping a trough's work moves nothing else. -/
theorem dropWork_rest_of_regsOnly {ws : List Nat} (h : RegsOnly d e ws) (n t : Nat) (x : TroughSt) :
    (e.setTrough n t x).dropWork n t = { d with
      regs := ((e.setTrough n t x).dropWork n t).regs
      tn := ((e.setTrough n t x).dropWork n t).tn
      au := { d.au with caps := ((e.setTrough n t x).dropWork n t).au.caps
                        checked := ((e.setTrough n t x).dropWork n t).au.checked }
      fu := { d.fu with links := ((e.setTrough n t x).dropWork n t).fu.links } } := by
  have hregs := dropWork_regs (e.setTrough n t x) n t
  have hrest := dropWork_rest (e.setTrough n t x) n t
  generalize (e.setTrough n t x).dropWork n t = f at hregs hrest
  rw [h.rest] at hrest
  rw [hregs]
  exact hrest

theorem dropWork_live (d : Dev) (n t : Nat) : ∀ x ∈ (d.dropWork n t).tn.live, x.trough ≠ .batch n t := by
  intro x hx
  simpa using (List.mem_filter.mp hx).2

theorem closeDone_of_ended {n t : Nat} (hs : d.troughState n t = trgClosing)
    (hl : ∀ x ∈ d.tn.live, x.trough = .batch n t → x.phase = .held) : d.closeDone n t = d.discardTrough n t trgClosed none := by
  refine if_pos ⟨hs, List.all_eq_true.mpr (fun x hx => ?_)⟩
  by_cases ht : x.trough = .batch n t
  · simp [hl x hx ht]
  · simp [ht]

/-! ## DOORBELL (R75) -/

/-- Whether a tail does not go back and stays within the ring. -/
def Dev.tailFits (d : Dev) (n t v : Nat) : Prop :=
  (d.rd (R.TRG_T_TAIL n t) + 2 ^ 32 - d.rd (R.TRG_T_HEAD n t)) % 2 ^ 32 ≤ (v + 2 ^ 32 - d.rd (R.TRG_T_HEAD n t)) % 2 ^ 32 ∧
    (v + 2 ^ 32 - d.rd (R.TRG_T_HEAD n t)) % 2 ^ 32 ≤ d.troughSize n t

theorem doorbell_of_fits (q : Req) {n t v : Nat} (hs : d.troughState n t = trgOpen) (h : d.tailFits n t v) :
    d.doorbell q n t v = d.wr (R.TRG_T_TAIL n t) v := (if_neg (not_not.mpr hs)).trans (if_pos h)

theorem doorbell_of_beyond (q : Req) {n t v : Nat} (hs : d.troughState n t = trgOpen) (h : ¬d.tailFits n t v) :
    d.doorbell q n t v = (d.perrAt (0x20 + n) (0x20 + n) (t * 8) (reqCode q) causeValue).wr (R.TRG_T_STAT_DB_BAD n t) 1 :=
  (if_neg (not_not.mpr hs)).trans (if_neg h)

theorem doorbell_of_not_open (q : Req) {n t v : Nat} (hs : d.troughState n t ≠ trgOpen) :
    d.doorbell q n t v = d.perrAt (0x20 + n) (0x20 + n) (t * 8) (reqCode q) causeValue := if_pos hs

/-- A tail beyond the ring is counted and sets DB_BAD. -/
theorem doorbell_beyond_leaves (d : Dev) (q : Req) {n t : Nat} (ht : t < 4) :
    let e := (d.perrAt (0x20 + n) (0x20 + n) (t * 8) (reqCode q) causeValue).wr (R.TRG_T_STAT_DB_BAD n t) 1
    RegsOnly d e [A.TRG_T_STAT n t, A.PERR_COUNT (0x20 + n), A.PERR_FIRST (0x20 + n)] ∧
    e.rd (R.TRG_T_STAT_DB_BAD n t) = 1 ∧ e.troughState n t = d.troughState n t ∧
    e.rd (R.PERR_COUNT (0x20 + n)) = min (d.rd (R.PERR_COUNT (0x20 + n)) + 1) maxWord := by
  have hcount : (R.TRG_T_STAT_DB_BAD n t).apart (R.PERR_COUNT (0x20 + n)) = true :=
    apart_of_addr (.inr (by simp only [A.PERR_COUNT, A.TRG_T_STAT, Fld.words]; omega))
  refine ⟨((perrAt_regsOnly d _ _ _ _ _).mono (by simp)).wr _ _ (by simp [Fld.within, Fld.words]), rd_wr_same _ _ _, ?_, ?_⟩
  · rw [Dev.troughState, rd_wr_ne _ _ (apart_at_trough (by decide)), perrAt_rd_ne]
    · rfl
    · exact .inr (by simp only [A.PERR_FIRST]; omega)
  · rw [rd_wr_ne _ _ hcount, perrAt_count]
    rfl

end Sys2Proof.Machine

namespace Sys2Proof
open Machine

/-- Settles O32, clause by clause from the equations of T_CTL, of the discarding of a trough, and of the doorbell. -/
theorem troughCommands : Obligations.TroughCommands := by
  intro s q n i e hc
  refine ⟨fun hp => ⟨fun hst => ?_, fun hst => ?_⟩, fun hp hst => ?_, fun hst hl => ?_, fun x xs hp hst hx hcm => ?_,
    fun v hq ha => ?_⟩
  · refine completes_of_permits (op := fun v d => d.tCtlWrite q n.val i.val v) rfl hc hp ?_
    rw [tCtlWrite_open, if_neg (not_not.mpr hst)]
    refine ⟨rfl, ?_⟩
    have hrefuse : ∀ st < 2 ^ 16, (s.dev.refuseTrough n i st).troughState n i = trgClosed ∧
        (s.dev.refuseTrough n i st).rd (R.TRG_T_STAT_STATUS n i) = st := fun st h => by
      obtain ⟨h1, h2⟩ := refuseTrough_stat s.dev n.isLt i.isLt h
      exact ⟨h1.trans hst, h2⟩
    split
    next h => rw [openTrough_of_disabled h]; exact hrefuse _ (by decide)
    next h =>
      split
      next he => rw [openTrough_of_stale h he]; exact hrefuse _ (by decide)
      next he =>
        rw [Bool.not_eq_false] at he
        split
        next hpl => rw [openTrough_of_misplaced h he hpl]; exact hrefuse _ (by decide)
        next hpl =>
          rw [openTrough_of_ok h he (Bool.eq_true_of_not_eq_false hpl)]
          obtain ⟨h1, h2, h3, h4⟩ := rd_troughOpened s.dev n i
          have ho := troughOpened_regsOnly s.dev n i
          refine ⟨h1, h2, h3, h4, ?_, ho.word⟩
          exact (trough_of_troughs (by rw [ho.tn]) n i).trans (trough_setTrough_same _ _ _ _)
  · refine completes_of_permits (op := fun v d => d.tCtlWrite q n.val i.val v) rfl hc hp ?_
    rw [tCtlWrite_open, if_pos hst]
    have hoff : A.TRG_T_CTL n i % 4096 = 0x10c + i.val * 64 := by
      simp only [A.TRG_T_CTL]
      omega
    rw [hoff, A.TRG_T_CTL, Nat.add_assoc]
    exact counted_perr_trough s q n (by omega)
  · refine completes_of_permits (op := fun v d => d.tCtlWrite q n.val i.val v) rfl hc hp ?_
    rw [tCtlWrite_close q hst]
    exact ⟨(onlyRegs_iff s).mpr ((RegsOnly.refl _ _).wr _ _ (by simp [Fld.within, Fld.words])), rd_wr_same _ _ _,
      rd_wr_ne _ _ (apart_at_trough (by decide))⟩
  · refine completes_of_act (f := fun d => d.closeDone n.val i.val) rfl hc ?_
    rw [closeDone_of_ended hst hl, discardTrough_none]
    have hnoted := discardNoted_regsOnly s.dev n i trgClosed
    obtain ⟨hstate, hhead, htail⟩ := rd_discardNoted s.dev n i trgClosed
    have hrest := dropWork_rest_of_regsOnly hnoted n i ⟨s.dev.rd (R.TRG_T_TAIL n i), [], []⟩
    have hregs : _ = (s.dev.discardNoted n i trgClosed).regs :=
      dropWork_regs ((s.dev.discardNoted n i trgClosed).setTrough n i ⟨s.dev.rd (R.TRG_T_TAIL n i), [], []⟩) n i
    have hlive := dropWork_live ((s.dev.discardNoted n i trgClosed).setTrough n i ⟨s.dev.rd (R.TRG_T_TAIL n i), [], []⟩) n i
    generalize ((s.dev.discardNoted n i trgClosed).setTrough n i ⟨s.dev.rd (R.TRG_T_TAIL n i), [], []⟩).dropWork n i = f at *
    exact ⟨(rd_of_regs hregs _).trans hstate, (rd_of_regs hregs _).trans hhead, (rd_of_regs hregs _).trans htail,
      hlive, fun a ha => (word_of_regs hregs a).trans (hnoted.word a ha), congrArg (fun x => { s with dev := x }) hrest⟩
  · refine completes_of_permits (op := fun v d => d.tCtlWrite q n.val i.val v) rfl hc hp ?_
    rw [tCtlWrite_skip q hst hx]
    have hr := retires_of_quiet (s.dev.unhalted n i xs) n.isLt i.isLt hcm
    have htrough := unhalted_trough s.dev n i xs
    obtain ⟨hstate, hhead⟩ := unhalted_rd s.dev n i xs
    obtain ⟨y, hy, hnext, hhalt, -⟩ := markRetired_regsOnly (s.dev.unhalted n i xs) n i x.pos
    rw [htrough] at hnext hhalt
    refine ⟨rfl, ?_, ?_, ?_, fun hp hret => ?_⟩
    · rw [hr.state n.isLt i.isLt, hstate, hst]
    · rw [hr.trough, hy, hhalt]
    · rw [hr.trough, hy, hnext]
    · rw [hr.head, markRetired_of_none (by rw [htrough]; exact hret), hhead, if_pos hp]
      refine (rd_of_regs (by rfl) _).trans ((rd_wr_same _ _ _).trans (Nat.mod_eq_of_lt (Nat.mod_lt _ (by decide))))
  · intro fits
    have hop : ∀ {P : State → Prop}, P { s with dev := s.dev.doorbell q n i v.toNat } → Completes (.doorbell q n i v) s P :=
      fun h => completes_of_act
        (f := fun d => if (q = .stall n ∨ q = .steward) ∧ d.arrives q then d.doorbell q n.val i.val v.toNat else d) rfl hc
        (by rwa [if_pos ⟨hq, ha⟩])
    refine ⟨fun hst hfit => hop ?_, fun hst hfit => hop ?_, fun hst => hop ?_⟩
    · rw [doorbell_of_fits q hst hfit]
      exact ⟨(onlyRegs_iff s).mpr ((RegsOnly.refl _ _).wr _ _ (by simp [Fld.within, Fld.words])),
        (rd_wr_same _ _ _).trans (Nat.mod_eq_of_lt v.isLt)⟩
    · rw [doorbell_of_beyond q hst hfit]
      obtain ⟨ho, hbad, hstate, hcount⟩ := doorbell_beyond_leaves s.dev q (n := n) i.isLt
      exact ⟨(onlyRegs_iff s).mpr ho, hbad, hstate.trans hst, hcount⟩
    · rw [doorbell_of_not_open q hst, Nat.mul_comm]
      exact counted_perrAt s (0x20 + n.val) q (by omega) (by omega) (by decide)

end Sys2Proof
end

section
/-! SUPPORT. What waits for a place that is not ready has no part in what the map, the memories and a declaration give (spec/04
R72, spec/12 R222, R223). -/
namespace Sys2Proof.Machine

variable {d e : Dev} (os : List Owed)

/-! ## The map with another list of waiting accesses -/

@[simp] theorem setOwed_jobState (n : Nat) : (d.setOwed os).jobState n = d.jobState n := setOwed_rd d os _

@[simp] theorem setOwed_siloExtents (n : Nat) : (d.setOwed os).siloExtents n = d.siloExtents n := by simp [Dev.siloExtents]

@[simp] theorem setOwed_celExtents (n : Nat) : (d.setOwed os).celExtents n = d.celExtents n := by simp [Dev.celExtents]

@[simp] theorem setOwed_siloOwner : (d.setOwed os).siloOwner = d.siloOwner := funext (fun g => by simp [Dev.siloOwner])

@[simp] theorem setOwed_celOwner : (d.setOwed os).celOwner = d.celOwner := funext (fun g => by simp [Dev.celOwner])

@[simp] theorem setOwed_bankOf (a : Nat) : (d.setOwed os).bankOf a = d.bankOf a := by simp [Dev.bankOf]

@[simp] theorem setOwed_siloReady (a : Nat) : (d.setOwed os).siloReady a = d.siloReady a := by simp [Dev.siloReady, Dev.domOn]

@[simp] theorem setOwed_cellarReady (a : Nat) : (d.setOwed os).cellarReady a = d.cellarReady a := by
  simp [Dev.cellarReady, Dev.domOn, Dev.padsOff]

@[simp] theorem setOwed_funcOf (n : Nat) : (d.setOwed os).funcOf n = d.funcOf n := by simp [Dev.funcOf]

@[simp] theorem setOwed_nodeOf (n : Nat) : (d.setOwed os).nodeOf n = d.nodeOf n := by simp [Dev.nodeOf]

@[simp] theorem setOwed_hostUp (f : Nat) : (d.setOwed os).hostUp f = d.hostUp f := by simp [Dev.hostUp]

@[simp] theorem setOwed_reach (n a : Nat) : (d.setOwed os).reach n none a = d.reach n none a := by
  simp [Dev.reach, Dev.siloReach]

@[simp] theorem setOwed_inMap (n a len : Nat) : (d.setOwed os).inMap n none a len = d.inMap n none a len := by
  simp [Dev.inMap]

theorem setOwed_declPlaced (n a len : Nat) : (d.setOwed os).declPlaced n a len = d.declPlaced n a len := by
  simp [Dev.declPlaced]

theorem setOwed_declGranted (n : Nat) (j : Decl) : (d.setOwed os).declGranted n j = d.declGranted n j := by
  simp [Dev.declGranted, Dev.inRick]

@[simp] theorem setOwed_reachSpan (n a k : Nat) : (d.setOwed os).reachSpan n none a k = d.reachSpan n none a k := by
  induction k generalizing a with
  | zero => rfl
  | succ k ih => simp only [Dev.reachSpan, setOwed_reach, ih]

/-! ## Reads -/

theorem setWords_setOwed (d : Dev) (a k v : Nat) : (d.setOwed os).setWords a k v = (d.setWords a k v).setOwed os := by
  induction k generalizing d a v with
  | zero => rfl
  | succ k ih => exact ih (d.setWord a (v % 2 ^ 32)) _ _

theorem wr_setOwed (d : Dev) (f : Fld) (v : Nat) : (d.setOwed os).wr f v = (d.wr f v).setOwed os := by
  rw [Dev.wr, words_of_regs (by rfl : (d.setOwed os).regs = d.regs), setWords_setOwed]
  rfl

theorem eccTouch_setOwed (d : Dev) (w : Nat) : (d.setOwed os).eccTouch w = (d.eccTouch w).setOwed os := by
  have hecc : (d.setOwed os).eccOf w = d.eccOf w := rfl
  simp only [Dev.eccTouch, hecc, Dev.irq, Dev.setBitOf, Dev.bump, wr_setOwed, setOwed_rd, setOwed_bankOf, setOwed_siloOwner]
  split <;> rfl

theorem readLocs_setOwed (d : Dev) (ls : List Loc) :
    (d.setOwed os).readLocs ls = ((d.readLocs ls).1, (d.readLocs ls).2.1, (d.readLocs ls).2.2.setOwed os) := by
  have hfold : ∀ (ws : List Nat) (e : Dev), ws.foldl Dev.eccTouch (e.setOwed os) = (ws.foldl Dev.eccTouch e).setOwed os := by
    intro ws
    induction ws with
    | nil => exact fun _ => rfl
    | cons w ws ih =>
      intro e
      rw [List.foldl_cons, eccTouch_setOwed, ih]
      rfl
  rw [Dev.readLocs, hfold]
  rfl

/-- The same read, with the accesses that wait as they are. -/
def PathRead.setOwed (os : List Owed) : PathRead → PathRead
  | .data bs ue d => .data bs ue (d.setOwed os)
  | .wait => .wait
  | .quota => .quota

theorem pathRead_setOwed (d : Dev) (n a len : Nat) :
    (d.setOwed os).pathRead n none a len = (d.pathRead n none a len).setOwed os := by
  simp only [Dev.pathRead, setOwed_reachSpan, readLocs_setOwed]
  split <;> rfl

/-! ## Reading a declaration (R72) -/

/-- The same declaration, with the accesses that wait as they are. -/
def DeclRead.setOwed (os : List Owed) : DeclRead → DeclRead
  | .good j d => .good j (d.setOwed os)
  | .bad => .bad
  | .wait => .wait

theorem readDecl_setOwed (d : Dev) (n a : Nat) : (d.setOwed os).readDecl n a = (d.readDecl n a).setOwed os := by
  simp only [Dev.readDecl, setOwed_declPlaced, pathRead_setOwed]
  split
  · rfl
  · cases hp : d.pathRead n none a 16 with
    | wait => rfl
    | quota => rfl
    | data h ue d1 =>
      simp only [PathRead.setOwed, pathRead_setOwed]
      split
      · rfl
      · split
        · rfl
        · cases d1.pathRead n none a
            (16 + 8 * leNat (h.take 2) + 8 * leNat ((h.drop 2).take 2) + 4 * leNat ((h.drop 4).take 2)) with
          | wait => rfl
          | quota => rfl
          | data bs ue2 d2 =>
            dsimp only
            split <;> rfl

/-- A declaration that is good was read: memory accesses apart, the device is the one it was. -/
theorem readDecl_stores {n a : Nat} {j : Decl} (h : d.readDecl n a = .good j e) : Stores d e := by
  rw [Dev.readDecl] at h
  split at h
  · cases h
  · split at h
    next d1 h1 =>
      dsimp only at h
      split at h
      · cases h
      · split at h
        · cases h
        · split at h
          next d2 h2 =>
            split at h
            · cases h
              exact (pathRead_stores h1).trans (pathRead_stores h2)
            · cases h
          next => cases h
          next => cases h
    next => cases h
    next => cases h

end Sys2Proof.Machine
end

section
/-! Opening and closing a job (spec/04 R72, R73, spec/05 R101, spec/19 R395). -/
namespace Sys2Proof.Machine

variable {d e f : Dev}

/-! ## Counters -/

@[simp] theorem ctr_setCtr_same (d : Dev) (c v : Nat) : (d.setCtr c v).ctr c = v % 2 ^ 32 := by
  rw [Dev.ctr, Dev.setCtr, NMap.get_set_same, BitVec.toNat_ofNat]

theorem ctr_setCtr_ne (d : Dev) {c x : Nat} (v : Nat) (h : c ≠ x) : (d.setCtr x v).ctr c = d.ctr c := by
  rw [Dev.ctr, Dev.setCtr, NMap.get_set_ne _ _ _ h]
  rfl

theorem ctr_of_rick (h : e.tn.rick = d.tn.rick) (c : Nat) : e.ctr c = d.ctr c := by
  rw [Dev.ctr, h]
  rfl

@[simp] theorem ctr_wr (d : Dev) (g : Fld) (v c : Nat) : (d.wr g v).ctr c = d.ctr c := ctr_of_rick (by simp) c

@[simp] theorem ctr_addTo (d : Dev) (g : Fld) (k c : Nat) : (d.addTo g k).ctr c = d.ctr c := ctr_wr d g _ c

/-- A counter that no step of a fold names stays as it was. -/
theorem foldl_ctr_of_not_mem {op : Dev → Nat × Nat → Dev} (hop : ∀ d x c, x.1 ≠ c → (op d x).ctr c = d.ctr c)
    {xs : List (Nat × Nat)} {c : Nat} (h : ∀ x ∈ xs, x.1 ≠ c) (d : Dev) : (xs.foldl op d).ctr c = d.ctr c := by
  induction xs generalizing d with
  | nil => rfl
  | cons x xs ih =>
    rw [List.forall_mem_cons] at h
    exact (ih h.2 _).trans (hop d x c h.1)

/-- `e` comes of `d` by counters that change: the waits on them, the totals of Rick's page and the loss-scale contexts that
count by them may follow. -/
structure Counts (d e : Dev) : Prop where
  rest : e = { d with regs := e.regs, wn := e.wn,
                      tn := { d.tn with rick := e.tn.rick, waiters := e.tn.waiters, latched := e.tn.latched } }
  word : ∀ a, 0x6000 ≤ a → e.word a = d.word a

theorem Counts.refl (d : Dev) : Counts d d := ⟨rfl, fun _ _ => rfl⟩

theorem Counts.trans (h : Counts d e) (h' : Counts e f) : Counts d f := by
  refine ⟨?_, fun a ha => (h'.word a ha).trans (h.word a ha)⟩
  obtain ⟨he, -⟩ := h
  obtain ⟨hf, -⟩ := h'
  rw [he] at hf
  exact hf

theorem Counts.setCtr (h : Counts d e) (c v : Nat) : Counts d (e.setCtr c v) := h.trans ⟨rfl, fun _ _ => rfl⟩

theorem Counts.wr (h : Counts d e) {g : Fld} (hg : g.addr + 4 * g.words ≤ 0x6000) (v : Nat) : Counts d (e.wr g v) := by
  refine h.trans ⟨?_, fun a ha => word_wr_ne e g v (fun i hi => by omega)⟩
  obtain ⟨r, hr⟩ := wr_eq e g v
  rw [hr]

theorem Counts.rd (h : Counts d e) {g : Fld} (hg : 0x6000 ≤ g.addr) : e.rd g = d.rd g :=
  rd_of_words (fun i _ => h.word _ (by omega))

theorem Counts.job (h : Counts d e) (n : Nat) : e.job n = d.job n := by
  rw [h.rest]
  rfl

theorem Counts.trough (h : Counts d e) (n t : Nat) : e.trough n t = d.trough n t := by
  rw [h.rest]
  rfl

theorem Counts.live (h : Counts d e) : e.tn.live = d.tn.live := by
  rw [h.rest]

theorem Counts.owed (h : Counts d e) : e.tn.owed = d.tn.owed := by
  rw [h.rest]

theorem Counts.mem (h : Counts d e) : e.mem = d.mem := by
  rw [h.rest]

/-! ## The counters a declaration sets, and their release (R72, R73, R101) -/

/-- The totals of Rick's page stand below the other pages. -/
theorem rckTotal_le {n k : Nat} (hn : n < 9) (hk : k ≤ 0x174) :
    (⟨0x5000 + k + n * 128, 0, 96⟩ : Fld).addr + 4 * (⟨0x5000 + k + n * 128, 0, 96⟩ : Fld).words ≤ 0x6000 := by
  simp only [Fld.words]
  omega

theorem setCounters_counts (d : Dev) {n : Nat} (hn : n < 9) (cs : List (Nat × Nat)) : Counts d (d.setCounters n cs) :=
  foldl_keeps (Counts d) _ (fun _ _ h => (h.setCtr _ _).wr (rckTotal_le hn (by decide)) _) cs (.refl d)

theorem releaseCtrs_counts (d : Dev) {n : Nat} (hn : n < 9) : Counts d (d.releaseCtrs n) :=
  foldl_keeps (Counts d) _ (fun _ _ h => (h.wr (rckTotal_le hn (by decide)) _).setCtr _ _) _ (.refl d)

theorem ctr_setCounters_of_not_mem (d : Dev) (n : Nat) {cs : List (Nat × Nat)} {c : Nat} (h : ∀ x ∈ cs, x.1 ≠ c) :
    (d.setCounters n cs).ctr c = d.ctr c :=
  foldl_ctr_of_not_mem (fun d _ _ hx => (ctr_addTo _ _ _ _).trans (ctr_setCtr_ne d _ hx.symm)) h d

theorem ctr_setCounters_of_mem (d : Dev) (n : Nat) {cs : List (Nat × Nat)} (hd : distinct (cs.map (·.1)) = true) :
    ∀ c ∈ cs, (d.setCounters n cs).ctr c.1 = c.2 % 2 ^ 32 := by
  induction cs generalizing d with
  | nil => simp
  | cons x xs ih =>
    simp only [List.map_cons, distinct, Bool.and_eq_true, Bool.not_eq_true', List.contains_eq_mem, decide_eq_false_iff_not,
      List.mem_map, not_exists, not_and] at hd
    obtain ⟨hx, hxs⟩ := hd
    rw [List.forall_mem_cons]
    refine ⟨?_, ih _ hxs⟩
    refine (ctr_setCounters_of_not_mem _ n (cs := xs) (fun y hy => hx y hy)).trans ?_
    rw [ctr_addTo, ctr_setCtr_same]

theorem ctr_releaseCtrs_of_not_mem (d : Dev) (n : Nat) {c : Nat} (h : ∀ x ∈ (d.job n).decl.counters, x.1 ≠ c) :
    (d.releaseCtrs n).ctr c = d.ctr c :=
  foldl_ctr_of_not_mem (fun _ _ _ hx => (ctr_setCtr_ne _ _ hx.symm).trans (ctr_addTo _ _ _ _)) h d

theorem ctr_releaseCtrs_of_mem (d : Dev) (n : Nat) : ∀ c ∈ (d.job n).decl.counters, (d.releaseCtrs n).ctr c.1 = 0 := by
  rw [Dev.releaseCtrs]
  generalize (d.job n).decl.counters = cs
  have hkeep : ∀ (d : Dev) (x : Nat × Nat) (c : Nat), d.ctr c = 0 →
      ((d.addTo (R.RCK_REL_TOTAL n) (d.ctr x.1)).setCtr x.1 0).ctr c = 0 := by
    intro d x c h
    by_cases hx : c = x.1
    · rw [hx, ctr_setCtr_same, Nat.zero_mod]
    · rw [ctr_setCtr_ne _ _ hx, ctr_addTo, h]
  induction cs generalizing d with
  | nil => simp
  | cons x xs ih =>
    rw [List.forall_mem_cons]
    exact ⟨foldl_keeps (fun d => d.ctr x.1 = 0) _ (fun d y h => hkeep d y _ h) xs (ctr_setCtr_same _ _ _), ih _⟩

/-! ## JOB_OPEN (R72) -/

@[simp] theorem job_setJob_same (d : Dev) (n : Nat) (j : Job) : (d.setJob n j).job n = j := NMap.get_set_same _ _ _ _

@[simp] theorem job_wr (d : Dev) (g : Fld) (v n : Nat) : (d.wr g v).job n = d.job n := by
  rw [Dev.job, wr_tn]
  rfl

/-- A refused OPEN leaves the job's STATE, and STATUS takes the code. -/
theorem refuseJob_stat (d : Dev) (n : Fin 9) {status : Nat} (hs : status < 2 ^ 16) :
    (d.refuseJob n status).jobState n = d.jobState n ∧ (d.refuseJob n status).rd (R.STL_JOB_STAT_STATUS n) = status := by
  have htell := event_tells (d.wr (R.STL_JOB_STAT_STATUS n) status) n status kindJob 0 0 false
  have hword : (d.refuseJob n status).word (A.STL_JOB_STAT n) =
      (d.wr (R.STL_JOB_STAT_STATUS n) status).word (A.STL_JOB_STAT n) := by
    refine htell.word _ ?_ ?_
    · simp only [A.STL_JOB_STAT]
      omega
    · simp
  have hrd : ∀ g : Fld, g.addr = A.STL_JOB_STAT n → g.words = 1 →
      (d.refuseJob n status).rd g = (d.wr (R.STL_JOB_STAT_STATUS n) status).rd g := fun g ha hw => by
    rw [rd_eq_bits _ hw, rd_eq_bits _ hw, ha, hword]
  refine ⟨(hrd _ rfl (words_of_le (by decide) (by decide))).trans (rd_wr_ne _ _ (apart_at (by decide))),
    (hrd _ rfl (words_of_le (by decide) (by decide))).trans ?_⟩
  rw [rd_wr_same, Nat.mod_eq_of_lt hs]

theorem jobCtlWrite_open (d : Dev) (q : Req) (n : Nat) (e : BitVec 16) : d.jobCtlWrite q n (1 + e.toNat * 65536) =
    if d.jobState n = jobClosed then d.openJob n e.toNat else if d.jobState n = jobFaulted then d.reopenJob q n e.toNat
    else d.perr (A.STL_JOB_CTL n) q causeValue := by
  obtain ⟨h1, h2⟩ := bits_open e
  simp only [Dev.jobCtlWrite, h1, h2]

theorem openJob_of_limp {n ep : Nat} (h : d.limp = true) : d.openJob n ep = (d.dropOpen n).refuseJob n stDisabled := if_pos h

theorem epochServed_dropOpen (d : Dev) (n ep : Nat) : (d.dropOpen n).epochServed ep = d.epochServed ep := by
  simp [Dev.epochServed, Dev.dropOpen]

theorem openJob_of_stale {n ep : Nat} (hl : ¬d.limp = true) (he : d.epochServed ep = false) :
    d.openJob n ep = (d.dropOpen n).refuseJob n stEpoch :=
  (if_neg hl).trans (if_pos (by rw [epochServed_dropOpen, he]; rfl))

theorem openJob_of_served {n ep : Nat} (hl : ¬d.limp = true) (he : d.epochServed ep = true) : d.openJob n ep =
    ((d.dropOpen n).openDecl n ep (d.rd (R.STL_JOB_DECL n))).getD
      ((d.dropOpen n).owe (.jobOpen n ep (d.rd (R.STL_JOB_DECL n)))) := by
  have hrd : (d.dropOpen n).rd (R.STL_JOB_DECL n) = d.rd (R.STL_JOB_DECL n) := setOwed_rd _ _ _
  refine (if_neg hl).trans ((if_neg ?_).trans ?_)
  · rw [epochServed_dropOpen, he]
    decide
  · rw [hrd]

/-- An OPEN whose declaration cannot be read yet joins what waits, and no more. -/
theorem openJob_of_wait {n ep : Nat} (hl : ¬d.limp = true) (he : d.epochServed ep = true)
    (h : d.readDecl n (d.rd (R.STL_JOB_DECL n)) = .wait) :
    ∃ os, Owed.jobOpen n ep (d.rd (R.STL_JOB_DECL n)) ∈ os ∧ d.openJob n ep = d.setOwed os := by
  have hread : (d.dropOpen n).readDecl n (d.rd (R.STL_JOB_DECL n)) = .wait := by rw [Dev.dropOpen, readDecl_setOwed, h]; rfl
  refine ⟨(d.dropOpen n).tn.owed ++ [.jobOpen n ep (d.rd (R.STL_JOB_DECL n))], by simp, ?_⟩
  rw [openJob_of_served hl he, Dev.openDecl, hread]
  rfl

/-- A job that opens: its declaration and epoch are kept, its counters set, STATUS is OK and STATE 1. -/
def Dev.jobOpened (d : Dev) (n epoch : Nat) (j : Decl) : Dev :=
  (((d.setJob n { d.job n with decl := j, epoch := epoch, wdog := 0, abortPeers := [], okRecordDue := false }).setCounters n
    j.counters).wr (R.STL_JOB_STAT_STATUS n) stOk).wr (R.STL_JOB_STAT_STATE n) jobOpen

theorem openDecl_of_bad {n ep a : Nat} (h : d.readDecl n a = .bad) : d.openDecl n ep a = some (d.refuseJob n stDesc) := by
  rw [Dev.openDecl, h]

theorem openDecl_of_ungranted {n ep a : Nat} {j : Decl} (h : d.readDecl n a = .good j e) (hg : ¬e.declGranted n j = true) :
    d.openDecl n ep a = some (e.refuseJob n stQuota) := by
  rw [Dev.openDecl, h]
  exact if_pos (by simp [hg])

theorem openDecl_of_granted {n ep a : Nat} {j : Decl} (h : d.readDecl n a = .good j e) (hg : e.declGranted n j = true) :
    d.openDecl n ep a = some (e.jobOpened n ep j) := by
  rw [Dev.openDecl, h]
  exact if_neg (by simp [hg])

theorem jobOpened_stat (d : Dev) (n ep : Nat) (j : Decl) : (d.jobOpened n ep j).jobState n = jobOpen ∧
    (d.jobOpened n ep j).rd (R.STL_JOB_STAT_STATUS n) = stOk :=
  ⟨rd_wr_same _ _ _, (rd_wr_ne _ _ (apart_at (by decide))).trans (rd_wr_same _ _ _)⟩

theorem jobOpened_job (d : Dev) {n : Nat} (hn : n < 9) (ep : Nat) (j : Decl) :
    ((d.jobOpened n ep j).job n).decl = j ∧ ((d.jobOpened n ep j).job n).epoch = ep := by
  rw [Dev.jobOpened, job_wr, job_wr, (setCounters_counts _ hn _).job, job_setJob_same]
  exact ⟨rfl, rfl⟩

theorem jobOpened_ctr (d : Dev) (n ep : Nat) (j : Decl) :
    (distinct (j.counters.map (·.1)) = true → ∀ c ∈ j.counters, (d.jobOpened n ep j).ctr c.1 = c.2 % 2 ^ 32) ∧
    (∀ c, (∀ x ∈ j.counters, x.1 ≠ c) → (d.jobOpened n ep j).ctr c = d.ctr c) := by
  simp only [Dev.jobOpened, ctr_wr]
  exact ⟨ctr_setCounters_of_mem _ n, fun c h => ctr_setCounters_of_not_mem _ n h⟩

/-! ## The OPEN of a faulted job (R73) -/

/-- Whether a faulted job has returned, its troughs closed and its aborts acknowledged. -/
def Dev.jobReturned (d : Dev) (n : Nat) : Bool :=
  d.troughsClosed n && d.on (R.STL_FAULT_STAT_RETURNED n) && d.rd (R.STL_FAULT_STAT_ABORT_PEND n) == 0

/-- A faulted job that opens again: its epoch is kept, STATUS is OK, RETURNED 0 and STATE 1. -/
def Dev.jobReopened (d : Dev) (n epoch : Nat) : Dev :=
  (((d.setJob n { d.job n with epoch := epoch, wdog := 0 }).wr (R.STL_JOB_STAT_STATUS n) stOk).wr
    (R.STL_FAULT_STAT_RETURNED n) 0).wr (R.STL_JOB_STAT_STATE n) jobOpen

theorem reopenJob_of_returned (q : Req) {n ep : Nat} (h : d.jobReturned n = true) (hl : d.limp = false)
    (he : d.epochServed ep = true) : d.reopenJob q n ep = d.jobReopened n ep :=
  (if_neg (by rw [← Dev.jobReturned, h]; decide)).trans ((if_neg (by simp [hl])).trans (if_neg (by simp [he])))

theorem reopenJob_of_unreturned (q : Req) {n ep : Nat} (h : d.jobReturned n = false) :
    d.reopenJob q n ep = d.perr (A.STL_JOB_CTL n) q causeValue := if_pos (by rw [← Dev.jobReturned, h]; rfl)

theorem jobReopened_regsOnly (d : Dev) (n ep : Nat) : RegsOnly (d.setJob n { d.job n with epoch := ep, wdog := 0 })
    (d.jobReopened n ep) [A.STL_JOB_STAT n, A.STL_FAULT_STAT n] :=
  (((RegsOnly.refl _ _).wr _ _ (by simp [Fld.within, Fld.words])).wr _ _ (by simp [Fld.within, Fld.words])).wr _ _
    (by simp [Fld.within, Fld.words])

theorem rd_jobReopened (d : Dev) (n ep : Nat) : (d.jobReopened n ep).jobState n = jobOpen ∧
    (d.jobReopened n ep).rd (R.STL_JOB_STAT_STATUS n) = stOk ∧ (d.jobReopened n ep).rd (R.STL_FAULT_STAT_RETURNED n) = 0 := by
  simp (disch := exact apart_at (by decide)) [Dev.jobReopened, Dev.jobState, rd_wr_ne]

/-! ## JOB_CLOSE (R73) -/

/-- A job that is let go: its counters released, STATE 0 and RETURNED 0. -/
def Dev.jobLetGo (d : Dev) (n : Nat) : Dev :=
  ((d.releaseCtrs n).wr (R.STL_JOB_STAT_STATE n) jobClosed).wr (R.STL_FAULT_STAT_RETURNED n) 0

theorem closeJob_eq (d : Dev) (n : Nat) : ∃ os, let e := ((d.jobLetGo n).offLossScale n).setOwed os
    d.closeJob n = e.setJob n { e.job n with decl := Job.none.decl, wdog := 0, okRecordDue := false } := ⟨_, rfl⟩

theorem jobCtlWrite_close_of_closed (q : Req) {n : Nat} (h : d.jobState n = jobClosed) : d.jobCtlWrite q n 2 = d := if_pos h

theorem jobCtlWrite_close_of_busy (q : Req) {n : Nat} (hst : d.jobState n ≠ jobClosed)
    (h : d.troughsClosed n = false ∨ (d.jobState n = jobFaulted ∧ d.on (R.STL_FAULT_STAT_RETURNED n) = false)) :
    d.jobCtlWrite q n 2 = d.perr (A.STL_JOB_CTL n) q causeValue := by
  refine (if_neg hst).trans (if_pos ?_)
  obtain h | ⟨h1, h2⟩ := h
  · simp [h]
  · simp [h1, h2]

theorem jobCtlWrite_close_of_idle (q : Req) {n : Nat} (hst : d.jobState n ≠ jobClosed) (ht : d.troughsClosed n = true)
    (h : d.jobState n = jobFaulted → d.on (R.STL_FAULT_STAT_RETURNED n) = true) : d.jobCtlWrite q n 2 = d.closeJob n := by
  refine (if_neg hst).trans (if_neg ?_)
  simpa [ht] using h

/-- Turning a loss-scale context off leaves memory, the tenancy but for what waits, and all registers above Winnow's page. -/
structure ScalesOff (d e : Dev) : Prop where
  mem : e.mem = d.mem
  tn : e.tn = { d.tn with owed := e.tn.owed }
  word : ∀ a, 0x7000 ≤ a ∨ a < 0x6000 → e.word a = d.word a

theorem offLossScale_scalesOff (d : Dev) {n : Nat} (hn : n < 9) : ScalesOff d (d.offLossScale n) := by
  rw [Dev.offLossScale]
  split
  · exact ⟨rfl, rfl, fun _ _ => rfl⟩
  · refine ⟨by simp, by rw [setLossScale_tn, wr_tn]; rfl, fun a ha => ?_⟩
    refine (word_wr_of_one_word _ _ (words_of_le (by decide) (by decide)) ?_).trans rfl
    simp only [A.WIN_LS_CFG]
    omega

theorem ScalesOff.rd (h : ScalesOff d e) {g : Fld} (hg : 0x7000 ≤ g.addr) : e.rd g = d.rd g :=
  rd_of_words (fun i _ => h.word _ (.inl (by omega)))

theorem closeJob_leaves (d : Dev) {n : Nat} (hn : n < 9) :
    let e := d.closeJob n
    e.jobState n = jobClosed ∧ e.rd (R.STL_FAULT_STAT_RETURNED n) = 0 ∧ (e.job n).decl = Job.none.decl ∧
    (∀ c, e.ctr c = (d.releaseCtrs n).ctr c) ∧ e.mem = d.mem := by
  obtain ⟨os, hclose⟩ := closeJob_eq d n
  have hoff := offLossScale_scalesOff (d.jobLetGo n) hn
  have hrd : ∀ g : Fld, 0x7000 ≤ g.addr → (d.closeJob n).rd g = (d.jobLetGo n).rd g := fun g hg => by
    rw [hclose, setJob_rd, setOwed_rd, hoff.rd hg]
  have hrick : (d.closeJob n).tn.rick = (d.releaseCtrs n).tn.rick := by
    rw [hclose, Dev.setJob]
    dsimp only
    rw [Dev.setOwed]
    dsimp only
    rw [hoff.tn, Dev.jobLetGo, wr_tn, wr_tn]
  refine ⟨?_, ?_, ?_, ctr_of_rick hrick, ?_⟩
  · refine (hrd _ (by simp only [A.STL_JOB_STAT]; omega)).trans ?_
    exact (rd_wr_ne _ _ (apart_at (by decide))).trans (rd_wr_same _ _ _)
  · exact (hrd _ (by simp only [A.STL_FAULT_STAT]; omega)).trans (rd_wr_same _ _ _)
  · rw [hclose, job_setJob_same]
  · rw [hclose, setJob_mem, setOwed_mem, hoff.mem, Dev.jobLetGo, wr_mem, wr_mem, (releaseCtrs_counts d hn).mem]

end Sys2Proof.Machine

namespace Sys2Proof
open Machine

/-- Settles O31: the checks of R72 in their order, each with the equation of the branch it takes. -/
theorem jobCommands : Obligations.JobCommands := by
  intro s q n e hc
  have hcount := counted_perr_stall s q n (k := 0x6c) (by decide)
  have hoff : A.STL_JOB_CTL n % 4096 = 0x6c := (stall_page n (by decide)).2
  refine ⟨fun hp => ?_, fun hp => ?_⟩
  · have hop : ∀ {P : State → Prop}, P { s with dev := s.dev.jobCtlWrite q n (1 + e.toNat * 65536) } →
        Completes (.jobOpen q n e) s P :=
      completes_of_permits (op := fun v d => d.jobCtlWrite q n.val v) rfl hc hp
    simp only [jobCtlWrite_open] at hop
    refine ⟨fun hst => hop ?_, fun hst => hop ?_, fun hst htr hret hpend hl he => hop ?_, fun hst hun => hop ?_⟩
    · rw [if_pos hst]
      refine ⟨rfl, ?_⟩
      have hrefuse : ∀ (d : Dev) st, d.jobState n = jobClosed → st < 2 ^ 16 → (d.refuseJob n st).jobState n = jobClosed ∧
          (d.refuseJob n st).rd (R.STL_JOB_STAT_STATUS n) = st := fun d st hd h =>
        ⟨(refuseJob_stat d n h).1.trans hd, (refuseJob_stat d n h).2⟩
      obtain ⟨os, hos⟩ : ∃ os, s.dev.dropOpen n = s.dev.setOwed os := ⟨_, rfl⟩
      have hstate : (s.dev.setOwed os).jobState n = jobClosed := (setOwed_jobState os n).trans hst
      split
      next hl => rw [openJob_of_limp hl, hos]; exact hrefuse _ _ hstate (by decide)
      next hl =>
        split
        next he => rw [openJob_of_stale hl he, hos]; exact hrefuse _ _ hstate (by decide)
        next he =>
          rw [Bool.not_eq_false] at he
          have hread := readDecl_setOwed os s.dev n (s.dev.rd (R.STL_JOB_DECL n))
          cases hr : s.dev.readDecl n (s.dev.rd (R.STL_JOB_DECL n)) with
          | bad =>
            rw [hr] at hread
            rw [openJob_of_served hl he, hos, openDecl_of_bad hread, Option.getD_some]
            exact hrefuse _ _ hstate (by decide)
          | wait =>
            obtain ⟨ws, hmem, hopen⟩ := openJob_of_wait hl he hr
            rw [hopen]
            exact ⟨rfl, hmem⟩
          | good j d =>
            rw [hr] at hread
            rw [openJob_of_served hl he, hos]
            have hst' := readDecl_stores hr
            dsimp only
            split
            next hg =>
              rw [openDecl_of_granted hread ((setOwed_declGranted os n j).trans hg), Option.getD_some]
              obtain ⟨h1, h2⟩ := jobOpened_stat (d.setOwed os) n e.toNat j
              obtain ⟨h3, h4⟩ := jobOpened_job (d.setOwed os) n.isLt e.toNat j
              obtain ⟨h5, h6⟩ := jobOpened_ctr (d.setOwed os) n e.toNat j
              have hrick : d.tn.rick = s.dev.tn.rick := congrArg Tenancy.rick hst'.tn
              exact ⟨h1, h2, h3, h4, h5, fun c hcs => (h6 c hcs).trans (ctr_of_rick (e := d.setOwed os) hrick c)⟩
            next hg =>
              rw [openDecl_of_ungranted hread (fun h => hg ((setOwed_declGranted os n j).symm.trans h)), Option.getD_some]
              refine hrefuse _ _ ((setOwed_jobState os n).trans ?_) (by decide)
              exact (hst'.rd (by simp only [A.STL_JOB_STAT, Fld.words]; omega)).trans hst
    · rw [if_neg (by rw [hst]; decide), if_neg (by rw [hst]; decide), hoff]
      exact hcount
    · rw [if_neg (by rw [hst]; decide), if_pos hst]
      have hback : s.dev.jobReturned n = true := by rw [Dev.jobReturned, htr, hret, hpend]; rfl
      rw [reopenJob_of_returned q hback hl he]
      have ho := jobReopened_regsOnly s.dev n e.toNat
      obtain ⟨h1, h2, h3⟩ := rd_jobReopened s.dev n e.toNat
      have hjob : (s.dev.jobReopened n e.toNat).job n = { s.dev.job n with epoch := e.toNat, wdog := 0 } := by
        rw [Dev.jobReopened, job_wr, job_wr, job_wr, job_setJob_same]
      exact ⟨rfl, h1, h2, h3, by rw [hjob], by rw [hjob], by rw [ho.tn]; rfl, ho.word⟩
    · rw [if_neg (by rw [hst]; decide), if_pos hst]
      have hback : s.dev.jobReturned n = false := by
        rw [Dev.jobReturned]
        obtain h | h | h := hun <;> simp [h]
      rw [reopenJob_of_unreturned q hback, hoff]
      exact hcount
  · have hop : ∀ {P : State → Prop}, P { s with dev := s.dev.jobCtlWrite q n 2 } → Completes (.jobClose q n) s P :=
      completes_of_permits (op := fun v d => d.jobCtlWrite q n.val v) rfl hc hp
    refine ⟨fun hst => ?_, fun hst hun => hop ?_, fun hst htr hret => hop ?_⟩
    · obtain ⟨t, ht, hts⟩ := hop (P := fun t => t = s) (by rw [jobCtlWrite_close_of_closed q hst])
      rw [ht, hts]
    · rw [jobCtlWrite_close_of_busy q hst hun, hoff]
      exact hcount
    · rw [jobCtlWrite_close_of_idle q hst htr hret]
      obtain ⟨h1, h2, h3, h4, h5⟩ := closeJob_leaves s.dev n.isLt
      exact ⟨rfl, h1, h2, h3, fun c hm => (h4 _).trans (ctr_releaseCtrs_of_mem s.dev n c hm),
        fun c hm => (h4 _).trans (ctr_releaseCtrs_of_not_mem s.dev n hm), h5⟩

end Sys2Proof
end

section
/-! SUPPORT. What the job fault procedure leaves: STATE, STATUS, the counters and Rick's page (spec/19 R390, R392). -/
namespace Sys2Proof.Machine

variable {d e f : Dev}

/-! ## Stopping the units -/

/-- `e` comes of `d` by work of the units: the tenancy stays, the registers below Winnow's page and those of the stalls and
troughs. -/
structure UnitWork (d e : Dev) : Prop where
  tn : e.tn = d.tn
  word : ∀ a, a < 0x6000 ∨ 0x10000 ≤ a ∧ a < 0x30000 → e.word a = d.word a

theorem UnitWork.refl (d : Dev) : UnitWork d d := ⟨rfl, fun _ _ => rfl⟩

theorem UnitWork.trans (h : UnitWork d e) (h' : UnitWork e f) : UnitWork d f :=
  ⟨h'.tn.trans h.tn, fun a ha => (h'.word a ha).trans (h.word a ha)⟩

theorem UnitWork.of_regs (h : UnitWork d e) (ht : f.tn = e.tn) (hr : f.regs = e.regs) : UnitWork d f :=
  h.trans ⟨ht, fun a _ => word_of_regs hr a⟩

theorem UnitWork.foldl {α : Type} (h : UnitWork d e) {xs : List α} {op : Dev → α → Dev}
    (hop : ∀ e, UnitWork d e → ∀ x ∈ xs, UnitWork d (op e x)) : UnitWork d (xs.foldl op e) := by
  induction xs generalizing e with
  | nil => exact h
  | cons x xs ih => exact ih (hop e h x (.head _)) (fun e he y hy => hop e he y (.tail _ hy))

/-- A write of a register of the units' pages. -/
theorem UnitWork.setWords (h : UnitWork d e) {a : Nat} (ha : 0x30000 ≤ a) (k v : Nat) : UnitWork d (e.setWords a k v) := by
  obtain ⟨r, hr⟩ := setWords_eq e a k v
  exact h.trans ⟨by rw [hr], fun b hb => word_setWords_ne e _ _ _ (fun i _ => by omega)⟩

theorem UnitWork.wr (h : UnitWork d e) {g : Fld} (hg : 0x30000 ≤ g.addr) (v : Nat) : UnitWork d (e.wr g v) := h.setWords hg _ _

/-- A write of a register of Winnow, the Turner or the Baler. -/
theorem UnitWork.wrLow (h : UnitWork d e) {g : Fld} (hg : 0x6000 ≤ g.addr) (hg' : g.addr + 4 * g.words ≤ 0x10000) (v : Nat) :
    UnitWork d (e.wr g v) := h.trans ⟨by simp, fun a ha => word_wr_ne e g v (fun i hi => by omega)⟩

theorem UnitWork.setThr (h : UnitWork d e) (x : Thresher) : UnitWork d (e.setThr x) := h.of_regs rfl rfl

theorem UnitWork.eachBay (h : UnitWork d e) (bs : List Nat) {op : Nat → Dev → Dev}
    (hop : ∀ b e, UnitWork d e → UnitWork d (op b e)) : UnitWork d (e.eachBay bs op) :=
  h.foldl (fun e he b _ => hop b e he)

theorem UnitWork.rampDown (h : UnitWork d e) (bs : List Nat) : UnitWork d (e.rampDown bs) := by
  have hb := h.eachBay bs (op := fun b d => d.wr (R.THR_ACT_STAT_PHASE b) 3) (fun b e he => he.wr (le_page _ _ _) _)
  rw [Dev.rampDown]
  dsimp only
  split
  · exact hb
  · exact hb.setThr _

theorem UnitWork.clearRun (h : UnitWork d e) (r : TileRun) (drain : Nat) : UnitWork d (e.clearRun r drain) := by
  have hb := (h.setThr { e.cp.thr with runs := e.cp.thr.runs.filter (fun x => x.leader != r.leader) }).eachBay r.bays
    (op := fun b d =>
      let d := (((d.setWords (A.THR_PROG_CTX b) 4 0).setWords (A.THR_FOLDS_DONE b) 4 0).wr (R.THR_ACT_STAT_FRONT b) 0).wr
        (R.THR_ACT_STAT_HELD b) 0
      (d.wr (R.THR_GANG_SHAPE b) 0).wr (R.THR_GANG_LEADER b) 0)
    (fun b e he => (((((he.setWords (le_page _ _ _) _ _).setWords (le_page _ _ _) _ _).wr (le_page _ _ _) _).wr
      (le_page _ _ _) _).wr (le_page _ _ _) _).wr (le_page _ _ _) _)
  rw [Dev.clearRun]
  dsimp only
  split
  · exact hb
  · exact hb.setThr _
  · exact hb.rampDown _

theorem UnitWork.hideSpill (h : UnitWork d e) (r : TileRun) : UnitWork d (e.hideSpill r) := by
  refine h.eachBay _ (fun b e he => ?_)
  split
  · exact he
  · exact (he.setWords (le_page _ _ _) _ _).setWords (le_page _ _ _) _ _

theorem UnitWork.freeSlot (h : UnitWork d e) (s : Nat) : UnitWork d (e.freeSlot s) :=
  h.setWords (by simp only [A.THR_SLOT_CTX]; omega) _ _

theorem UnitWork.settleGangs (h : UnitWork d e) (gone : TroughId → Bool) : UnitWork d (e.settleGangs gone) :=
  (h.setThr _).foldl (fun _ he _ _ => (he.eachBay _ (fun _ _ hb => hb.wr (le_page _ _ _) _)).rampDown _)

theorem UnitWork.stopTiles (h : UnitWork d e) (p : TroughId → Bool) : UnitWork d (e.stopTiles p) := by
  refine UnitWork.settleGangs (UnitWork.setThr (UnitWork.foldl (h.foldl fun _ he r _ => he.clearRun r 0) fun e he r _ => ?_) _) p
  have hspill : UnitWork d (if r.spilling then e.hideSpill r else e) := by
    split
    · exact he.hideSpill r
    · exact he
  dsimp only
  split
  · exact hspill.freeSlot _
  · exact hspill

theorem UnitWork.setChannel (h : UnitWork d e) {c : Nat} (hc : c < 4) (x : Channel) : UnitWork d (e.setChannel c x) := by
  have h0 : UnitWork d { e with tr := e.tr.set (fun _ => Channel.idle) c x } := h.of_regs rfl rfl
  have hlo : 0x6000 ≤ A.TRN_CH_STAT c := by
    simp only [A.TRN_CH_STAT]
    omega
  have hhi : ∀ lo w, lo + w ≤ 32 → A.TRN_CH_STAT c + 4 * (⟨A.TRN_CH_STAT c, lo, w⟩ : Fld).words ≤ 0x10000 := by
    intro lo w hw
    simp only [A.TRN_CH_STAT, Fld.words]
    omega
  exact (h0.wrLow (g := R.TRN_CH_STAT_STATE c) hlo (hhi _ _ (by decide)) _).wrLow (g := R.TRN_CH_STAT_RT c) hlo
    (hhi _ _ (by decide)) _

theorem UnitWork.stopMoves (h : UnitWork d e) (p : TroughId → Bool) : UnitWork d (e.stopMoves p) := by
  refine h.foldl (fun e he c hc => he.setChannel ?_ _)
  simp only [channels, List.mem_cons, List.not_mem_nil, or_false] at hc
  omega

theorem UnitWork.setWin (h : UnitWork d e) (x : Option WinRun) : UnitWork d (e.setWin x) := by
  have h0 : UnitWork d { e with wn := { e.wn with win := x } } := h.of_regs rfl rfl
  exact h0.wrLow (g := R.WIN_STAT_BUSY) (by decide) (by decide) _

theorem UnitWork.setBale (h : UnitWork d e) (x : Option BaleRun) : UnitWork d (e.setBale x) := by
  have h0 : UnitWork d { e with ba := { e.ba with bale := x } } := h.of_regs rfl rfl
  exact h0.wrLow (g := R.BAL_STAT_BUSY) (by decide) (by decide) _

theorem UnitWork.stopWinnow (h : UnitWork d e) (p : TroughId → Bool) : UnitWork d (e.stopWinnow p) := h.setWin _

theorem UnitWork.setPath (h : UnitWork d e) (k : Nat) (x : Option PathRun) : UnitWork d (e.setPath k x) := by
  have h0 : UnitWork d { e with ba := { e.ba with paths := e.ba.paths.set (fun _ => none) k x } } := h.of_regs rfl rfl
  have hw := fun v => h0.wrLow (g := R.BAL_STAT_PATHS) (by decide) (by decide) v
  rw [Dev.setPath]
  dsimp only
  split
  · exact hw _
  · exact hw _

theorem UnitWork.stopBaler (h : UnitWork d e) (p : TroughId → Bool) : UnitWork d (e.stopBaler p) :=
  (h.setBale _).foldl (fun _ he _ _ => he.setPath _ _)

theorem UnitWork.setSifter (h : UnitWork d e) (k : Nat) (x : Sifter) : UnitWork d (e.setSifter k x) := by
  have hk : 0x30000 ≤ A.SFT_STAT k := by
    simp only [A.SFT_STAT]
    omega
  have h0 : UnitWork d { e with cp := { e.cp with sifts := e.cp.sifts.set (fun _ => Sifter.idle) k x } } := h.of_regs rfl rfl
  have hs := (h0.wr (g := R.SFT_STAT_SAVED k) hk (b2n x.saved.isSome)).wr (g := R.SFT_STAT_PARKED k) hk x.parked.length
  have hmode := fun a b c => ((hs.wr (g := R.SFT_STAT_MODE k) hk a).wr (g := R.SFT_STAT_RT k) hk b).wr (g := R.SFT_STAT_STALL k)
    hk c
  rw [Dev.setSifter]
  dsimp only
  split
  · exact hmode _ _ _
  · exact hmode _ _ _

theorem UnitWork.setHopper (h : UnitWork d e) (k : Nat) (x : Hopper) : UnitWork d (e.setHopper k x) := by
  have hk : 0x30000 ≤ A.HOP_CREDIT k := by
    simp only [A.HOP_CREDIT]
    omega
  have h0 : UnitWork d { e with cp := { e.cp with hops := e.cp.hops.set (fun _ => Hopper.empty) k x } } := h.of_regs rfl rfl
  exact ((h0.wr (g := R.HOP_CREDIT_INFLIGHT k) hk _).wr (g := R.HOP_CREDIT_RT_OCC k) hk _).wr (g := R.HOP_CREDIT_BATCH_OCC k) hk _

theorem UnitWork.discardStrips (h : UnitWork d e) (k : Nat) (p : Strip → Bool) : UnitWork d (e.discardStrips k p) := by
  have hk : 0x30000 ≤ A.HOP_CREDIT k ∧ 0x30000 ≤ A.HOP_DISCARD k := by
    simp only [A.HOP_CREDIT, A.HOP_DISCARD]
    omega
  exact ((h.setHopper k _).wr (g := R.HOP_CREDIT_FREE k) hk.1 _).wr (g := R.HOP_DISCARD k) hk.2 _

theorem stopWork_unitWork (d : Dev) (p : TroughId → Bool) (q : Strip → Bool) : UnitWork d (d.stopWork p q) := by
  have hunits := ((((UnitWork.refl d).stopTiles p).stopMoves p).stopWinnow p).stopBaler p
  have hall : UnitWork d (Dev.dropSifts _ p) := hunits.foldl (fun _ he _ _ => he.setSifter _ _)
  exact hall.foldl (fun _ he k _ => he.discardStrips k q)

/-! ## The fault procedure -/

/-- `e` comes of `d` by steps of stall `n`'s job fault: the counters, Rick's page and JOB_STAT stay. -/
structure Halts (n : Nat) (d e : Dev) : Prop where
  rick : e.tn.rick = d.tn.rick
  word : ∀ a, a = A.STL_JOB_STAT n ∨ 0x5000 ≤ a ∧ a < 0x6000 → e.word a = d.word a

theorem Halts.refl (n : Nat) (d : Dev) : Halts n d d := ⟨rfl, fun _ _ => rfl⟩

theorem Halts.trans {n : Nat} (h : Halts n d e) (h' : Halts n e f) : Halts n d f :=
  ⟨h'.rick.trans h.rick, fun a ha => (h'.word a ha).trans (h.word a ha)⟩

theorem Halts.of_regs {n : Nat} (h : Halts n d e) (ht : f.tn.rick = e.tn.rick) (hr : f.regs = e.regs) : Halts n d f :=
  h.trans ⟨ht, fun a _ => word_of_regs hr a⟩

theorem Halts.wr {n : Nat} (h : Halts n d e) {g : Fld} (hw : g.words = 1) (hg : g.addr ≠ A.STL_JOB_STAT n)
    (hr : g.addr < 0x5000 ∨ 0x6000 ≤ g.addr) (v : Nat) : Halts n d (e.wr g v) :=
  h.trans ⟨by simp, fun a ha => word_wr_of_one_word e v hw (by omega)⟩

theorem Halts.jobState {n : Nat} (h : Halts n d e) : e.jobState n = d.jobState n := by
  have hw : (R.STL_JOB_STAT_STATE n).words = 1 := words_of_le (by decide) (by decide)
  rw [Dev.jobState, Dev.jobState, rd_eq_bits _ hw, rd_eq_bits _ hw, h.word _ (.inl rfl)]

/-- A write of a word of the stall's page beside JOB_STAT. -/
theorem Halts.wrStall {n k lo w : Nat} (h : Halts n d e) (hk : k ≠ 0x70) (h0 : 0 < lo + w) (hw : lo + w ≤ 32) (v : Nat) :
    Halts n d (e.wr ⟨0x10000 + n * 4096 + k, lo, w⟩ v) :=
  h.wr (words_of_le h0 hw) (by simp only [A.STL_JOB_STAT]; omega) (.inr (by simp only; omega)) v

theorem Tells.halts {n : Nat} (h : Tells n d e) (hn : n < 9) : Halts n d e := by
  refine ⟨by rw [h.tn], fun a ha => h.word a ?_ ?_⟩
  · simp only [A.STL_JOB_STAT] at ha
    omega
  · simp only [List.mem_cons, List.not_mem_nil, or_false, A.STL_JOB_STAT, A.STL_EV_HEAD, A.STL_EV_LOST, A.STL_LAST_STATUS] at ha ⊢
    omega

theorem UnitWork.halts {n : Nat} (h : UnitWork d e) (hn : n < 9) : Halts n d e := by
  refine ⟨by rw [h.tn], fun a ha => h.word a ?_⟩
  simp only [A.STL_JOB_STAT] at ha
  omega

theorem ScalesOff.halts {n : Nat} (h : ScalesOff d e) : Halts n d e := by
  refine ⟨by rw [h.tn], fun a ha => h.word a ?_⟩
  simp only [A.STL_JOB_STAT] at ha
  omega

theorem mgmtIrq_halts (d : Dev) (n b : Nat) : Halts n d (d.mgmtIrq b) := by
  have hset : Halts n d (d.setWord A.SYS_MGMT_IRQ_STAT (setBit (d.word A.SYS_MGMT_IRQ_STAT) b)) := by
    refine ⟨rfl, fun a ha => word_setWord_ne _ _ ?_⟩
    simp only [A.STL_JOB_STAT, A.SYS_MGMT_IRQ_STAT] at ha ⊢
    omega
  rw [Dev.mgmtIrq]
  split
  · exact hset.of_regs rfl rfl
  · exact hset

theorem sendAborts_halts (d : Dev) {n : Nat} (hn : n < 9) : Halts n d (d.sendAborts n) := by
  have hpend := ((Halts.refl n d).of_regs (f := d.setJob n { d.job n with abortPeers := (d.job n).decl.peers }) rfl rfl).wrStall
    (k := 0xa0) (lo := 8) (w := 7) (by decide) (by decide) (by decide) (d.job n).decl.peers.length
  exact foldl_keeps (Halts n d) _ (fun e _ he => he.trans (((sendPacket_sends e _ _ _).tells n).halts hn)) _ hpend

theorem dropWork_rick (d : Dev) (n t : Nat) : (d.dropWork n t).tn.rick = d.tn.rick := by
  rw [Dev.dropWork, dropSends_rest]
  rfl

theorem discardNoted_halts (d : Dev) {n t : Nat} (hn : n < 9) (ht : t < 4) (state : Nat) :
    Halts n d (d.discardNoted n t state) := by
  have hnoted := discardNoted_regsOnly d n t state
  refine ⟨by rw [hnoted.tn], fun a ha => hnoted.word a ?_⟩
  simp only [List.mem_cons, List.not_mem_nil, or_false, A.STL_JOB_STAT, A.TRG_T_HEAD, A.TRG_T_STAT, A.TRG_T_DISCARD] at ha ⊢
  omega

theorem Halts.dropWork {n : Nat} (h : Halts n d e) (m t : Nat) : Halts n d (e.dropWork m t) :=
  h.of_regs (dropWork_rick e m t) (dropWork_regs e m t)

theorem Halts.setTrough {n : Nat} (h : Halts n d e) (m t : Nat) (x : TroughSt) : Halts n d (e.setTrough m t x) :=
  h.of_regs rfl rfl

theorem discardTrough_halts (d : Dev) {n t : Nat} (hn : n < 9) (ht : t < 4) (state status : Nat) :
    Halts n d (d.discardTrough n t state (some status)) := by
  rw [discardTrough_some]
  have hdrop := ((discardNoted_halts d hn ht state).setTrough n t ⟨d.rd (R.TRG_T_TAIL n t), [], []⟩).dropWork n t
  refine hdrop.wr (g := R.TRG_T_STAT_STATUS n t) (words_of_le (by decide) (by decide)) ?_ (.inr ?_) status
  · simp only [A.STL_JOB_STAT, A.TRG_T_STAT]
    omega
  · simp only [A.TRG_T_STAT]
    omega

theorem Halts.dropWaits {n : Nat} (h : Halts n d e) (m : Nat) : Halts n d (e.dropWaits m) := h.of_regs rfl rfl

theorem Halts.stopUnits {n : Nat} (h : Halts n d e) (hn : n < 9) (m : Nat) : Halts n d (e.stopUnits m) :=
  h.trans ((stopWork_unitWork e _ _).halts hn)

/-- The registers of a stall's page in which its fault is told. -/
def Dev.faultNoted (d : Dev) (n kind index pos : Nat) : Dev :=
  ((((d.wr (R.STL_FAULT_STAT_KIND n) kind).wr (R.STL_FAULT_STAT_INDEX n) index).wr (R.STL_FAULT_POS n) pos).wr
    (R.STL_FAULT_STAT_RETURNED n) 0).bump (R.STL_FAULT_COUNT n)

theorem faultNoted_halts (d : Dev) (n kind index pos : Nat) : Halts n d (d.faultNoted n kind index pos) :=
  (((((Halts.refl n d).wrStall (by decide) (by decide) (by decide) _).wrStall (by decide) (by decide) (by decide) _).wrStall
    (by decide) (by decide) (by decide) _).wrStall (by decide) (by decide) (by decide) _).wrStall (by decide) (by decide)
    (by decide) _

/-- The registers of an open job that faults, and what the fault then tells and stops. -/
theorem faultJob_of_open {n status kind index pos : Nat} (h : d.jobState n = jobOpen) : d.faultJob n status kind index pos =
    let d := (d.wr (R.STL_JOB_STAT_STATE n) jobFaulted).wr (R.STL_JOB_STAT_STATUS n) status
    let d := ((((d.faultNoted n kind index pos).mgmtIrq irqFault).event n status kindJob 0 0).raise n 5).sendAborts n
    troughNums.foldl (fun d t => if d.troughState n t = trgClosed then d else d.discardTrough n t trgHalted (some status))
      (((d.stopUnits n).dropWaits n).offLossScale n) :=
  (if_neg (by rw [h]; decide)).trans (if_neg (by rw [h]; decide))

/-- An open job that faults: once STATE and STATUS are set, the counters, Rick's page and JOB_STAT stay. -/
theorem faultJob_halts {n : Nat} (hn : n < 9) (h : d.jobState n = jobOpen) (status kind index pos : Nat) :
    Halts n ((d.wr (R.STL_JOB_STAT_STATE n) jobFaulted).wr (R.STL_JOB_STAT_STATUS n) status)
      (d.faultJob n status kind index pos) := by
  rw [faultJob_of_open h]
  generalize (d.wr (R.STL_JOB_STAT_STATE n) jobFaulted).wr (R.STL_JOB_STAT_STATUS n) status = e
  have htold := ((faultNoted_halts e n kind index pos).trans (mgmtIrq_halts _ n irqFault)).trans
    ((((event_tells _ n status kindJob 0 0 false).raise n 5).halts hn).trans (sendAborts_halts _ hn))
  have hoff := ((htold.stopUnits hn n).dropWaits n).trans (offLossScale_scalesOff _ hn).halts
  dsimp only
  refine List.foldlRecOn (motive := Halts n e) _ _ hoff (fun f hf t ht => ?_)
  have ht4 : t < 4 := by
    simp only [troughNums, List.mem_cons, List.not_mem_nil, or_false] at ht
    omega
  split
  · exact hf
  · exact hf.trans (discardTrough_halts f hn ht4 trgHalted status)

/-- An open job that faults is in STATE 2 with its status; no counter and no word of Rick's page moves. -/
theorem faultJob_leaves {n : Nat} (hn : n < 9) (h : d.jobState n = jobOpen) (status kind index pos : Nat) :
    let e := d.faultJob n status kind index pos
    e.jobState n = jobFaulted ∧ e.rd (R.STL_JOB_STAT_STATUS n) = status % 65536 ∧ e.tn.rick = d.tn.rick ∧
    ∀ a, 0x5000 ≤ a → a < 0x6000 → e.word a = d.word a := by
  have hf := faultJob_halts hn h status kind index pos
  have hrd : ∀ g : Fld, g.addr = A.STL_JOB_STAT n → g.words = 1 → (d.faultJob n status kind index pos).rd g =
      ((d.wr (R.STL_JOB_STAT_STATE n) jobFaulted).wr (R.STL_JOB_STAT_STATUS n) status).rd g := fun g ha hw => by
    rw [rd_eq_bits _ hw, rd_eq_bits _ hw, ha, hf.word _ (.inl rfl)]
  have hstat : ∀ a < 0x6000, ∀ (e : Dev) lo w v, 0 < lo + w → lo + w ≤ 32 →
      (e.wr ⟨A.STL_JOB_STAT n, lo, w⟩ v).word a = e.word a :=
    fun a ha e lo w v h0 h => word_wr_of_one_word e v (words_of_le h0 h) (by simp only [A.STL_JOB_STAT]; omega)
  refine ⟨?_, ?_, ?_, fun a h5 h6 => ?_⟩
  · exact (hrd _ rfl (words_of_le (by decide) (by decide))).trans ((rd_wr_ne _ _ (apart_at (by decide))).trans (rd_wr_same _ _ _))
  · exact (hrd _ rfl (words_of_le (by decide) (by decide))).trans (rd_wr_same _ _ _)
  · rw [hf.rick, wr_tn, wr_tn]
  · rw [hf.word a (.inr ⟨h5, h6⟩), hstat a h6 _ _ _ _ (by decide) (by decide), hstat a h6 _ _ _ _ (by decide) (by decide)]

end Sys2Proof.Machine
end

section
/-! SUPPORT. The live descriptors by their places, and how one is fetched (spec/04 R80, spec/11 R208). -/
namespace Sys2Proof.Machine

variable {d e f : Dev}

/-! ## The live descriptors -/

theorem findDesc_place {t : TroughId} {p : Nat} {x : Desc} (h : d.findDesc t p = some x) : x.trough = t ∧ x.pos = p := by
  simpa using List.find?_some h

theorem findDesc_of_live {t : TroughId} {p : Nat} (h : e.tn.live = d.tn.live) : e.findDesc t p = d.findDesc t p := by
  rw [Dev.findDesc, h]
  rfl

/-- A descriptor that is replaced stands where the old one stood. -/
theorem findDesc_updDesc {t : TroughId} {p : Nat} {x y : Desc} (h : d.findDesc t p = some x) (ht : y.trough = t)
    (hp : y.pos = p) :
    (d.updDesc y).findDesc t p = some y := by
  have hkey : (fun z : Desc => z.trough == t && z.pos == p) ∘ (fun z => if z.trough = y.trough ∧ z.pos = y.pos then y else z)
      = fun z => z.trough == t && z.pos == p := by
    funext z
    by_cases hz : z.trough = t ∧ z.pos = p
    · simp [hz, ht, hp]
    · simp [hz, ht, hp]
  have hfind : d.tn.live.find? (fun z => z.trough == t && z.pos == p) = some x := h
  obtain ⟨hxt, hxp⟩ := findDesc_place h
  rw [Dev.findDesc, Dev.updDesc, Dev.setLive]
  dsimp only
  rw [List.find?_map, hkey, hfind, Option.map_some, if_pos ⟨hxt.trans ht.symm, hxp.trans hp.symm⟩]

theorem findDesc_dropDesc (d : Dev) (t : TroughId) (p : Nat) : (d.dropDesc t p).findDesc t p = none := by
  refine List.find?_eq_none.mpr (fun x hx hk => ?_)
  have hkeep := (List.mem_filter.mp hx).2
  rw [hk] at hkeep
  exact absurd hkeep (by decide)

/-! ## Fetching a descriptor of a batch trough -/

theorem declares_of {n : Nat} (hs : e.jobState n = d.jobState n) (hj : e.job n = d.job n) (c : Nat) :
    e.declares n c = d.declares n c := by
  rw [Dev.declares, Dev.declares, hs, hj]

/-- The status of a bad header is one of Table 19-2. -/
theorem headerFault_lt {n : Nat} {x : Desc} {st : Nat} (h : d.headerFault n x = some st) : st < 65536 := by
  rw [Dev.headerFault] at h
  split at h
  · exact Option.some.inj h ▸ (by decide)
  · split at h
    · exact Option.some.inj h ▸ (by decide)
    · cases h

/-- What a batch descriptor with a good header leaves as it is held: it is live, and its header wait is queued. -/
def Dev.joined (d : Dev) (x : Desc) : Dev :=
  if x.waitEn then (d.setLive (d.tn.live ++ [x])).enqueue x.wait else d.setLive (d.tn.live ++ [x])

theorem hold_of_good {n q : Nat} {x : Desc} (hx : x.trough = .batch n q) (h : d.headerFault n x = none) :
    d.hold x = d.joined x := by
  rw [Dev.hold, hx]
  dsimp only
  rw [h]
  rfl

theorem hold_of_bad {n q st : Nat} {x : Desc} (hx : x.trough = .batch n q) (h : d.headerFault n x = some st) :
    d.hold x = d.faultJob n st kindTrough q x.pos := by
  rw [Dev.hold, hx]
  dsimp only
  rw [h]
  rfl

theorem enqueue_rest (d : Dev) (w : Waiter) : ∃ ls, d.enqueue w = { d with tn := { d.tn with
    waiters := if w ∉ d.tn.waiters then d.tn.waiters ++ [w] else d.tn.waiters, latched := ls } } := by
  by_cases h : w ∈ d.tn.waiters
  · rw [Dev.enqueue, if_pos (by simpa using h), if_neg (not_not.mpr h)]
    exact ⟨d.tn.latched, rfl⟩
  · rw [Dev.enqueue, if_neg (by simpa using h), if_pos h]
    exact ⟨_, rfl⟩

theorem joined_rest (d : Dev) (x : Desc) : ∃ ls, d.joined x = { d with tn := { d.tn with
    live := d.tn.live ++ [x]
    waiters := if x.waitEn = true ∧ x.wait ∉ d.tn.waiters then d.tn.waiters ++ [x.wait] else d.tn.waiters
    latched := ls } } := by
  cases hw : x.waitEn with
  | false =>
    refine ⟨d.tn.latched, ?_⟩
    simp only [Dev.joined, hw, Bool.false_eq_true, if_false, false_and]
    rfl
  | true =>
    obtain ⟨ls, h⟩ := enqueue_rest (d.setLive (d.tn.live ++ [x])) x.wait
    refine ⟨ls, ?_⟩
    simp only [Dev.joined, hw, if_true, true_and, h]
    rfl

/-- The trough past its next position. -/
def Dev.stepped (d : Dev) (n q pos : Nat) : Dev := d.setTrough n q { d.trough n q with next := (pos + 1) % 2 ^ 32 }

/-- A descriptor that joins the live ones, and its trough that steps on. -/
theorem joined_leaves (d : Dev) (n q pos : Nat) (x : Desc) :
    let e := (d.stepped n q pos).joined x
    e.tn.live = d.tn.live ++ [x] ∧ (e.trough n q).next = (pos + 1) % 2 ^ 32 ∧ e.regs = d.regs ∧ e.mem = d.mem ∧
    e.tn.rick = d.tn.rick ∧ e.tn.waiters =
      if x.waitEn = true ∧ x.wait ∉ d.tn.waiters then d.tn.waiters ++ [x.wait] else d.tn.waiters := by
  obtain ⟨ls, hjoin⟩ := joined_rest (d.stepped n q pos) x
  have htrough : (d.stepped n q pos).trough n q = { d.trough n q with next := (pos + 1) % 2 ^ 32 } :=
    trough_setTrough_same _ _ _ _
  refine ⟨by rw [hjoin]; rfl, ?_, by rw [hjoin]; rfl, by rw [hjoin]; rfl, by rw [hjoin]; rfl, by rw [hjoin]; rfl⟩
  rw [trough_of_troughs (by rw [hjoin] : _ = (d.stepped n q pos).tn.troughs), htrough]

theorem stepped_headerFault (d : Dev) (n q pos : Nat) (x : Desc) : (d.stepped n q pos).headerFault n x = d.headerFault n x := by
  have hd := declares_of (d := d) (e := d.stepped n q pos) (n := n) (rd_of_regs (by rfl) _) rfl
  rw [Dev.headerFault, Dev.headerFault, hd, hd]

theorem nextBatch_of_data {n q : Nat} {bs : List Byte} {ue : Bool} (hc : d.coreOn = true) (hs : d.troughState n q = trgOpen)
    (hj : d.jobState n = jobOpen) (ht : (d.trough n q).next ≠ d.rd (R.TRG_T_TAIL n q))
    (hl : ∀ y ∈ d.tn.live, y.trough = .batch n q → y.phase ≠ .held ∧ y.opcode ≠ 8)
    (hr : d.pathRead n none (d.slotAddr n q (d.trough n q).next) 64 = .data bs ue e) :
    d.nextBatch n q = if ue && n != 0 then e.faultJob n stEcc kindTrough q (d.trough n q).next
      else (e.stepped n q (d.trough n q).next).hold (.fetched (.batch n q) (d.trough n q).next bs) := by
  have hidle : d.tn.live.any (fun x => x.trough == .batch n q && (decide (x.phase = .held) || x.opcode == 8)) = false := by
    rw [List.any_eq_false]
    intro y hy
    by_cases hyt : y.trough = .batch n q
    · simp [hl y hy hyt]
    · simp [hyt]
  rw [Dev.nextBatch]
  dsimp only
  rw [if_neg (by simp [hc, hs, hj, ht, hidle]), hr]
  rfl

/-! ## Fetching a descriptor of a realtime trough -/

theorem rtTrough_of {s : Nat} (ha : e.stream s = d.stream s) (hb : e.rd (R.SEQ_STRM_TRG_BASE s) = d.rd (R.SEQ_STRM_TRG_BASE s))
    (hl : e.rd (R.SEQ_STRM_TRG_LEN s) = d.rd (R.SEQ_STRM_TRG_LEN s)) (b : Bool) : e.rtTrough s b = d.rtTrough s b := by
  rw [Dev.rtTrough, Dev.rtTrough, ha, hb, hl]

/-- Reads of memory leave a stream's troughs. -/
theorem Stores.rtTrough (h : Stores d e) {s : Nat} (hs : s < 32) (b : Bool) : e.rtTrough s b = d.rtTrough s b := by
  refine rtTrough_of (stream_of_streams (by rw [h.au]) s) (h.rd ?_) (h.rd ?_) b
  · simp only [A.SEQ_STRM_TRG_BASE, Fld.words]
    omega
  · simp only [A.SEQ_STRM_TRG_LEN, Fld.words]
    omega

@[simp] theorem rtTrough_setLive (d : Dev) (ls : List Desc) (s : Nat) (b : Bool) : (d.setLive ls).rtTrough s b = d.rtTrough s b :=
  rtTrough_of (stream_of_streams (by rfl) s) (rd_of_regs (by rfl) _) (rd_of_regs (by rfl) _) b

/-- The run of a trough that is replaced, at the same place. -/
theorem rtTrough_setRtRun {s base len : Nat} {b : Bool} {r : RtRun} (h : d.rtTrough s b = some (r, base, len)) (y : RtRun) :
    (d.setRtRun s b (some y)).rtTrough s b = some (y, base, len) := by
  have hrd : ∀ g, (d.setRtRun s b (some y)).rd g = d.rd g := fun g => rd_of_regs (by rfl) g
  have hst : (d.setRtRun s b (some y)).stream s = _ := stream_setStream_same d s _
  rw [Dev.rtTrough] at h ⊢
  rw [hst, hrd, hrd]
  cases b with
  | true =>
    simp only [if_true] at h ⊢
    split at h
    next hp =>
      rw [hp]
      cases h
      rfl
    next => cases h
  | false =>
    simp only [Bool.false_eq_true, if_false, Option.map_eq_some_iff, Prod.mk.injEq] at h ⊢
    obtain ⟨_, -, -, h1, h2⟩ := h
    exact ⟨y, rfl, rfl, h1, h2⟩

theorem hold_of_kept {s : Nat} {b : Bool} {x : Desc} (hx : x.trough = .realtime s b) (ho : x.opcode ≤ 12) (hr : x.fld 13 3 = 0) :
    d.hold x = d.setLive (d.tn.live ++ [x]) := by
  rw [Dev.hold, hx]
  exact if_neg (by rw [not_or, not_lt, not_not]; exact ⟨ho, hr⟩)

theorem nextRealtime_of_data {s base len : Nat} {b : Bool} {r : RtRun} {bs : List Byte} (hc : d.coreOn = true)
    (h : d.rtTrough s b = some (r, base, len)) (ha : r.aborting = false) (hn : r.next < len)
    (hl : ∀ y ∈ d.tn.live, y.trough ≠ .realtime s b) (hs : ∀ i < 64, d.siloReady (base + 64 * r.next + i) = true)
    (hr : d.siloRead (base + 64 * r.next) 64 = (bs, false, e)) :
    d.nextRealtime s b = (e.setRtRun s b (some { r with next := r.next + 1 })).hold (.fetched (.realtime s b) r.next bs) := by
  have hidle : d.tn.live.any (fun x => x.trough == .realtime s b) = false := by
    rw [List.any_eq_false]
    intro y hy
    simp [hl y hy]
  have hready : (List.range 64).all (fun i => d.siloReady (base + 64 * r.next + i)) = true := by
    rw [List.all_eq_true]
    exact fun i hi => hs i (List.mem_range.mp hi)
  rw [Dev.nextRealtime, h]
  dsimp only
  rw [if_neg (by simp [hc, ha, hidle]; omega), if_neg (by rw [hready]; decide), hr]
  rfl

end Sys2Proof.Machine
end

section
/-! A descriptor is fetched behind the last one that started, and starts, fails, or halts its trough (spec/04 R75, R80, R81,
spec/05 R93). -/
namespace Sys2Proof.Machine

variable {d e f : Dev}

/-! ## A header wait that is met (spec/05 R91, R93) -/

theorem ctrStall_lt {c n : Nat} (h : d.ctrStall c = some n) : n < 9 := by
  rw [Dev.ctrStall] at h
  split at h
  · cases h
    decide
  · have hmem := List.mem_of_find?_eq_some h
    simp only [hostStalls, List.mem_cons, List.not_mem_nil, or_false] at hmem
    omega

/-- The stall a counter's totals are counted for. -/
theorem ctrStall_getD_lt (d : Dev) (c : Nat) : (d.ctrStall c).getD 0 < 9 := by
  cases h : d.ctrStall c with
  | none => decide
  | some n => exact ctrStall_lt h

theorem ctr_lt (d : Dev) (c : Nat) : d.ctr c < 2 ^ 32 := BitVec.isLt _

theorem applyConsume_counts (d : Dev) (c v : Nat) : Counts d (d.applyConsume c v) :=
  ((Counts.refl d).setCtr _ _).wr (rckTotal_le (ctrStall_getD_lt d c) (by decide)) _

theorem ctr_applyConsume (d : Dev) (c v x : Nat) : (d.applyConsume c v).ctr x = if x = c then d.ctr x - v else d.ctr x := by
  rw [Dev.applyConsume, ctr_addTo]
  split
  next h =>
    have hlt := ctr_lt d c
    rw [h, ctr_setCtr_same, Nat.mod_eq_of_lt (by omega)]
  next h => exact ctr_setCtr_ne d _ h

/-- A wait that is met leaves its queue, and a consume takes its amount. -/
theorem takeWait_counts (d : Dev) (w : Waiter) : Counts d (d.takeWait w) := by
  have hset : Counts d (d.setWaiters (d.tn.waiters.filter (fun x => x != w))) := ⟨rfl, fun _ _ => rfl⟩
  rw [Dev.takeWait]
  split
  · exact hset.trans (applyConsume_counts _ _ _)
  · exact hset

theorem ctr_takeWait (d : Dev) (w : Waiter) (c : Nat) :
    (d.takeWait w).ctr c = if w.consume = true ∧ c = w.ctr then d.ctr c - w.amount else d.ctr c := by
  have hset : (d.setWaiters (d.tn.waiters.filter (fun x => x != w))).ctr c = d.ctr c := rfl
  rw [Dev.takeWait]
  split
  next h =>
    obtain ⟨hc, -⟩ := Bool.and_eq_true_iff.mp h
    rw [ctr_applyConsume, hset]
    simp only [hc, true_and]
  next h =>
    rw [hset]
    split
    next hc => rw [show w.amount = 0 by simpa [hc.1] using h, Nat.sub_zero]
    next => rfl

/-- The device a descriptor starts on: its header wait taken, where it has one. -/
def Dev.admitted (d : Dev) (x : Desc) : Dev := if x.waitEn then d.takeWait x.wait else d

theorem admitted_counts (d : Dev) (x : Desc) : Counts d (d.admitted x) := by
  rw [Dev.admitted]
  split
  · exact takeWait_counts d x.wait
  · exact .refl d

theorem ctr_admitted (d : Dev) (x : Desc) (c : Nat) : (d.admitted x).ctr c =
    if x.waitEn = true ∧ x.consume = true ∧ c = x.waitCtr then d.ctr c - x.waitVal else d.ctr c := by
  rw [Dev.admitted]
  cases hw : x.waitEn with
  | false => simp
  | true =>
    refine (ctr_takeWait d x.wait c).trans (if_congr ?_ rfl rfl)
    exact (and_iff_right rfl).symm

/-! ## What a start does (spec/04 R80, R81) -/

theorem descriptorStart_batch {n q p : Nat} {x : Desc} (hf : d.findDesc (.batch n q) p = some x) (hh : x.phase = .held)
    (hc : d.coreOn = true) : descriptorStart (.batch n q) p d = d.startBatch n q x := by
  rw [descriptorStart, hf]
  exact if_neg (by rw [hh, hc]; decide)

theorem descriptorStart_realtime {s p : Nat} {b : Bool} {x : Desc} (hf : d.findDesc (.realtime s b) p = some x)
    (hh : x.phase = .held) (hc : d.coreOn = true) : descriptorStart (.realtime s b) p d = d.startRealtime s b x := by
  rw [descriptorStart, hf]
  exact if_neg (by rw [hh, hc]; decide)

theorem startBatch_of_unmet {n q : Nat} {x : Desc} (hw : x.waitEn = true) (hm : d.waitMet x.wait = false) :
    d.startBatch n q x = d := by
  rw [Dev.startBatch]
  split
  · rfl
  · exact if_pos (by rw [hw, hm]; rfl)

theorem startBatch_of_met {n q : Nat} {x : Desc} (ht : x.trough = .batch n q) (hs : d.troughState n q = trgOpen)
    (hm : x.waitEn = true → d.waitMet x.wait = true) : d.startBatch n q x = match (d.admitted x).bodyFault x.trough x with
      | some st => (d.admitted x).faultJob n st kindTrough q x.pos
      | none =>
        if (d.admitted x).aimedAtDisabled x.trough x then (d.admitted x).haltTrough n q x else (d.admitted x).begin x := by
  rw [Dev.startBatch, if_neg (not_not.mpr hs), if_neg (by simpa using hm), ht]
  rfl

/-- The device without a descriptor that waits to start, nor its waits. -/
def Dev.withdrawn (d : Dev) (x : Desc) : Dev :=
  (d.dropDesc x.trough x.pos).setWaiters (d.tn.waiters.filter (fun w => !(w.trough == x.trough && w.pos == x.pos)))

/-- The trough that halts on a descriptor. -/
def Dev.halted (d : Dev) (n q : Nat) (x : Desc) : Dev :=
  (((d.withdrawn x).wr (R.TRG_T_STAT_STATE n q) trgHalted).setTrough n q
    { d.trough n q with halted := (d.trough n q).halted ++ [x] }).wr (R.TRG_T_STAT_STATUS n q) stDisabled

theorem haltTrough_of_open {n q : Nat} {x : Desc} (h : d.troughState n q = trgOpen) :
    d.haltTrough n q x = (d.halted n q x).event n stDisabled kindTrough q x.pos := by
  have hs : (d.withdrawn x).troughState n q = trgOpen := (rd_of_regs (by rfl) _).trans h
  have hneg : ¬(d.withdrawn x).troughState n q = trgClosing := by
    rw [hs]
    decide
  rw [Dev.haltTrough]
  refine (congrArg (fun e : Dev => (e.wr (R.TRG_T_STAT_STATUS n q) stDisabled).event n stDisabled kindTrough q x.pos)
    (if_neg hneg)).trans rfl

theorem halted_live (d : Dev) (n q : Nat) (x : Desc) : (d.halted n q x).tn.live = (d.dropDesc x.trough x.pos).tn.live := by
  rw [Dev.halted, wr_tn, Dev.setTrough]
  dsimp only
  rw [wr_tn]
  rfl

theorem halted_halts (d : Dev) {n q : Nat} (hn : n < 9) (x : Desc) : Halts n d (d.halted n q x) := by
  have hplace : A.TRG_T_STAT n q ≠ A.STL_JOB_STAT n ∧ 0x6000 ≤ A.TRG_T_STAT n q := by
    simp only [A.TRG_T_STAT, A.STL_JOB_STAT]
    omega
  have hdrop : Halts n d (d.withdrawn x) := (Halts.refl n d).of_regs rfl rfl
  exact ((hdrop.wr (g := R.TRG_T_STAT_STATE n q) (words_of_le (by decide) (by decide)) hplace.1 (.inr hplace.2) _).setTrough n q
    _).wr (g := R.TRG_T_STAT_STATUS n q) (words_of_le (by decide) (by decide)) hplace.1 (.inr hplace.2) _

/-- A descriptor that aims at a disabled unit halts its trough, and no job faults. -/
theorem haltTrough_leaves {n q : Nat} (hn : n < 9) (hq : q < 4) {x : Desc} (h : d.troughState n q = trgOpen) :
    let e := d.haltTrough n q x
    e.troughState n q = trgHalted ∧ e.rd (R.TRG_T_STAT_STATUS n q) = stDisabled ∧
    (e.trough n q).halted = (d.trough n q).halted ++ [x] ∧ e.findDesc x.trough x.pos = none ∧ e.jobState n = d.jobState n := by
  have htell := event_tells (d.halted n q x) n stDisabled kindTrough q x.pos false
  have hrd : ∀ lo w, 0 < lo + w → lo + w ≤ 64 → (d.haltTrough n q x).rd ⟨A.TRG_T_STAT n q, lo, w⟩ =
      (d.halted n q x).rd ⟨A.TRG_T_STAT n q, lo, w⟩ := fun lo w h0 hw => by
    have hplace := trough_place (k := 0x110) hn hq (by decide) h0 hw
    rw [haltTrough_of_open h]
    exact htell.rdTrough hn hplace.1 hplace.2
  refine ⟨(hrd _ _ (by decide) (by decide)).trans ?_, (hrd _ _ (by decide) (by decide)).trans (rd_wr_same _ _ _), ?_, ?_, ?_⟩
  · rw [Dev.halted, rd_wr_ne _ _ (apart_at_trough (by decide)), setTrough_rd]
    exact rd_wr_same _ _ _
  · rw [haltTrough_of_open h, htell.trough, Dev.halted, wr_trough, trough_setTrough_same]
  · rw [haltTrough_of_open h, findDesc_of_live (by rw [htell.tn] : _ = (d.halted n q x).tn.live),
      findDesc_of_live (halted_live d n q x)]
    exact findDesc_dropDesc d _ _
  · rw [haltTrough_of_open h]
    exact ((halted_halts d hn x).trans (htell.halts hn)).jobState

/-! ## A descriptor begins -/

/-- What a start leaves: the rank, the descriptor, the power state, and a pair that a LINK makes. -/
theorem begin_rest (d : Dev) (x : Desc) : ∃ rs ps, d.begin x = { d with
    regs := rs
    tn := { d.tn with
      starts := d.tn.starts + 1
      live := (d.updDesc { x with phase := .started, order := d.tn.starts + 1 }).tn.live
      rsigNext := ps } } := by
  have hun := (ungate_regsOnly { d with tn := { d.tn with starts := d.tn.starts + 1 } }).rest
  rw [Dev.begin]
  generalize Dev.ungate _ = e at hun
  obtain ⟨rs, rfl⟩ : ∃ rs, e = { d with tn := { d.tn with starts := d.tn.starts + 1 }, regs := rs } := ⟨_, hun⟩
  dsimp only
  split
  · rw [Dev.makePair]
    split
    · exact ⟨rs, _, rfl⟩
    · exact ⟨rs, _, rfl⟩
  · exact ⟨rs, _, rfl⟩

theorem begin_leaves (d : Dev) (x : Desc) : (d.begin x).tn.starts = d.tn.starts + 1 ∧ (d.begin x).tn.rick = d.tn.rick ∧
    (d.begin x).mem = d.mem ∧ (d.begin x).tn.waiters = d.tn.waiters ∧ (d.begin x).outs = d.outs := by
  obtain ⟨rs, ps, hb⟩ := begin_rest d x
  rw [hb]
  exact ⟨rfl, rfl, rfl, rfl, rfl⟩

/-- A descriptor that begins stands at its place, started. -/
theorem begin_findDesc {t : TroughId} {p : Nat} {x : Desc} (h : d.findDesc t p = some x) :
    (d.begin x).findDesc t p = some { x with phase := .started, order := d.tn.starts + 1 } := by
  obtain ⟨rfl, rfl⟩ := findDesc_place h
  obtain ⟨rs, ps, hb⟩ := begin_rest d x
  have hlive : (d.begin x).tn.live = (d.updDesc { x with phase := .started, order := d.tn.starts + 1 }).tn.live := by rw [hb]
  rw [findDesc_of_live hlive]
  exact findDesc_updDesc h rfl rfl

/-! ## Realtime descriptors -/

theorem failRealtime_live (d : Dev) (s : Nat) (b : Bool) : ∀ y ∈ (d.failRealtime s b).tn.live, y.trough ≠ .realtime s b := by
  intro y hy
  rw [Dev.failRealtime] at hy
  generalize d.stopWork _ _ = e at hy
  simpa using (List.mem_filter.mp hy).2

theorem startRealtime_of_broken {s : Nat} {b : Bool} {x : Desc}
    (h : d.rtRulesKept s b x = false ∨ d.bodyFault x.trough x ≠ none ∨ d.aimedAtDisabled x.trough x = true) :
    d.startRealtime s b x = d.failRealtime s b := by
  refine if_pos ?_
  obtain h | h | h := h
  · simp [h]
  · simp [Option.isSome_iff_ne_none.mpr h]
  · simp [h]

theorem startRealtime_of_kept {s : Nat} {b : Bool} {x : Desc} (hr : d.rtRulesKept s b x = true)
    (hb : d.bodyFault x.trough x = none) (ha : d.aimedAtDisabled x.trough x = false) (ho : x.opcode ≠ 2) :
    d.startRealtime s b x = d.begin x := by
  refine (if_neg ?_).trans (if_neg ho)
  rw [hr, hb, ha]
  decide

end Sys2Proof.Machine

namespace Sys2Proof
open Machine

/-- Settles O34: fetching by the equation of the read, starting by the check that decides it. -/
theorem descriptorFetchAndStart : Obligations.DescriptorFetchAndStart := by
  intro s hcold hcore
  refine ⟨fun n q bs ue d => ?_, fun x b r base len bs d hrt hab hnext hlive hready hread hop hrsv => ?_,
    fun n q p x hf hh hst => ?_, fun z b p x hf hh => ⟨fun hbad => ?_, fun hkept hbody haim hop => ?_⟩⟩
  · intro ts x hst hj htail hlive hread
    have hfetch := nextBatch_of_data hcore hst hj htail hlive hread
    have hdata := pathRead_stores hread
    have hjd : d.jobState n = jobOpen := (hdata.rd (by simp only [A.STL_JOB_STAT, Fld.words]; omega)).trans hj
    have hop : ∀ {P : State → Prop}, P { s with dev := s.dev.nextBatch n q } → Completes (.descriptorNext (.batch n q)) s P :=
      completes_of_act (f := descriptorNext (.batch n.val q.val)) rfl hcold
    rw [hfetch] at hop
    have hserved : (ue = false ∨ n = 0) → (ue && n.val != 0) = false := by
      rintro (h | h) <;> simp [h]
    refine ⟨fun hue hgood => hop ?_, fun st hue hbad => hop ?_, fun hue h0 => hop ?_⟩
    · rw [hserved hue, if_neg Bool.false_ne_true, hold_of_good rfl ((stepped_headerFault d n q _ _).trans hgood)]
      obtain ⟨h1, h2, h3, h4, h5, h6⟩ := joined_leaves d n q ts.next x
      rw [hdata.tn] at h1 h5 h6
      exact ⟨rfl, h1, h2, h3, h4, h5, h6⟩
    · rw [hserved hue, if_neg Bool.false_ne_true, hold_of_bad rfl ((stepped_headerFault d n q _ _).trans hbad)]
      obtain ⟨h1, h2, -, -⟩ := faultJob_leaves (d := d.stepped n q ts.next) n.isLt
        ((rd_of_regs (by rfl) _).trans hjd) st kindTrough q x.pos
      exact ⟨h1, h2.trans (Nat.mod_eq_of_lt (headerFault_lt hbad))⟩
    · have hecc : (ue && n.val != 0) = true := by
        rw [hue, Bool.true_and, bne_iff_ne]
        exact fun h => h0 (Fin.ext h)
      rw [hecc, if_pos rfl]
      obtain ⟨h1, h2, -, -⟩ := faultJob_leaves n.isLt hjd stEcc kindTrough q ts.next
      exact ⟨h1, h2⟩
  · refine completes_of_act (f := descriptorNext (.realtime x.val b)) rfl hcold ?_
    have hdata := readLocs_stores s.dev (siloSpan (base + 64 * r.next) 64)
    rw [show s.dev.readLocs (siloSpan (base + 64 * r.next) 64) = (bs, false, d) from hread] at hdata
    have hfetch : descriptorNext (.realtime x.val b) s.dev = _ := nextRealtime_of_data hcore hrt hab hnext hlive hready hread
    rw [hfetch, hold_of_kept rfl hop hrsv]
    have hrun := rtTrough_setRtRun ((hdata.rtTrough x.isLt b).trans hrt) { r with next := r.next + 1 }
    refine ⟨rfl, ?_, (rtTrough_setLive _ _ _ _).trans hrun, rfl, rfl⟩
    exact congrArg (fun t : Tenancy => t.live ++ [_]) hdata.tn
  · intro d
    obtain ⟨ht, hp⟩ := findDesc_place hf
    have hstart : descriptorStart (.batch n.val q.val) p.toNat s.dev = s.dev.startBatch n q x := descriptorStart_batch hf hh hcore
    refine ⟨fun hw hm => ?_, fun hm => ?_⟩
    · have hact : exec (.descriptorStart (.batch n q) p) s = s.act (descriptorStart (.batch n.val q.val) p.toNat) := rfl
      rw [hact, State.act, State.always, if_neg (by simp [hcold]), hstart, startBatch_of_unmet hw hm]
    have hop : ∀ {P : State → Prop}, P { s with dev := s.dev.startBatch n q x } →
        Completes (.descriptorStart (.batch n q) p) s P :=
      fun h => completes_of_act (f := descriptorStart (.batch n.val q.val) p.toNat) rfl hcold (by rwa [hstart])
    have hadm := admitted_counts s.dev x
    have hd : s.dev.admitted x = d := rfl
    rw [startBatch_of_met ht hst hm] at hop
    rw [hd] at hop hadm
    have hopen : d.troughState n q = trgOpen := (hadm.rd (by simp only [A.TRG_T_STAT]; omega)).trans hst
    have hjob : d.jobState n = s.dev.jobState n := hadm.rd (by simp only [A.STL_JOB_STAT]; omega)
    refine ⟨fun st hj hbody => hop ?_, fun hbody haim => hop ?_, fun hbody haim => hop ?_⟩
    · rw [hbody]
      obtain ⟨h1, h2, -, -⟩ := faultJob_leaves n.isLt (hjob.trans hj) st kindTrough q x.pos
      exact ⟨h1, h2⟩
    · rw [hbody]
      dsimp only
      rw [if_pos haim]
      obtain ⟨h1, h2, h3, h4, h5⟩ := haltTrough_leaves n.isLt q.isLt (x := x) hopen
      rw [ht, hp] at h4
      exact ⟨rfl, h1, h2, by rw [h3, hadm.trough], h4, h5.trans hjob⟩
    · rw [hbody]
      dsimp only
      rw [if_neg (by simp [haim])]
      obtain ⟨h1, h2, h3, h4, h5⟩ := begin_leaves d x
      have hstarts : d.tn.starts = s.dev.tn.starts := by rw [hadm.rest]
      have hfind := begin_findDesc ((findDesc_of_live hadm.live).trans hf)
      rw [hstarts] at h1 hfind
      exact ⟨rfl, h1, hfind, fun c => (ctr_of_rick h2 c).trans (ctr_admitted s.dev x c), h3.trans hadm.mem, h4,
        h5.trans (by rw [hadm.rest])⟩
  · refine completes_of_act (f := descriptorStart (.realtime z.val b) p.toNat) rfl hcold ?_
    rw [descriptorStart_realtime hf hh hcore, startRealtime_of_broken hbad]
    exact ⟨rfl, failRealtime_live _ _ _⟩
  · refine completes_of_act (f := descriptorStart (.realtime z.val b) p.toNat) rfl hcold ?_
    rw [descriptorStart_realtime hf hh hcore, startRealtime_of_kept hkept hbody haim hop]
    obtain ⟨-, h2, h3, -, -⟩ := begin_leaves s.dev x
    exact ⟨rfl, begin_findDesc hf, h2, h3⟩

end Sys2Proof
end

section
/-! A descriptor that is done retires: its signal, HEAD, and what MARK records (spec/04 R76, R79, R82, R83, spec/05 R90,
spec/03 R49). -/
namespace Sys2Proof.Machine

variable {d e f : Dev}

/-! ## The header signal (spec/05 R90) -/

/-- The device once a descriptor's header signal is applied, where it has one. -/
def Dev.signalled (d : Dev) (x : Desc) : Dev := if x.sigEn then d.applySignal x.sigCtr x.sigInc else d

theorem latchWaits_counts (d : Dev) (c : Nat) : Counts d (d.latchWaits c) := ⟨rfl, fun _ _ => rfl⟩

theorem noteStep_counts (d : Dev) (n : Nat) : Counts d (d.noteStep n) := by
  rw [Dev.noteStep]
  split
  · exact ⟨rfl, fun _ _ => rfl⟩
  · exact .refl d

theorem applySignal_counts (d : Dev) (c v : Nat) : Counts d (d.applySignal c v) :=
  ((((Counts.refl d).setCtr c _).wr (rckTotal_le (ctrStall_getD_lt d c) (by decide)) _).trans (latchWaits_counts _ c)).trans
    (noteStep_counts _ _)

theorem ctr_noteStep (d : Dev) (n c : Nat) : (d.noteStep n).ctr c = d.ctr c := by
  rw [Dev.noteStep]
  split <;> rfl

theorem ctr_applySignal (d : Dev) {c v : Nat} (h : d.wraps c v = false) (x : Nat) :
    (d.applySignal c v).ctr x = if x = c then d.ctr x + v else d.ctr x := by
  have hlatch : ∀ e : Dev, (e.latchWaits c).ctr x = e.ctr x := fun _ => rfl
  rw [Dev.applySignal, ctr_noteStep, hlatch, ctr_addTo]
  split
  next hx =>
    have hfit : ¬2 ^ 32 - 1 < d.ctr c + v := of_decide_eq_false h
    rw [hx, ctr_setCtr_same, Nat.mod_eq_of_lt (by omega)]
  next hx => exact ctr_setCtr_ne d _ hx

theorem signalled_counts (d : Dev) (x : Desc) : Counts d (d.signalled x) := by
  rw [Dev.signalled]
  split
  · exact applySignal_counts d _ _
  · exact .refl d

theorem ctr_signalled {x : Desc} (h : x.sigEn = true → d.wraps x.sigCtr x.sigInc = false) (c : Nat) :
    (d.signalled x).ctr c = if x.sigEn = true ∧ c = x.sigCtr then d.ctr c + x.sigInc else d.ctr c := by
  rw [Dev.signalled]
  cases hs : x.sigEn with
  | false => simp
  | true =>
    refine (ctr_applySignal d (h hs) c).trans (if_congr ?_ rfl rfl)
    exact (and_iff_right rfl).symm

theorem sends_of_not_sync {x : Desc} (h : x.opcode ≠ 7) : x.sends = if x.sigEn then [(x.sigCtr, x.sigInc)] else [] := by
  rw [Desc.sends, if_neg h, List.nil_append]

/-- Only a SYNC signals by its slots: without a wrap the header signal is applied. -/
theorem signals_of_fits {n : Nat} {x : Desc} (h7 : x.opcode ≠ 7) (h : x.sigEn = true → d.wraps x.sigCtr x.sigInc = false) :
    d.signals n x.sends = (d.signalled x, true) := by
  rw [sends_of_not_sync h7, Dev.signalled]
  cases hs : x.sigEn with
  | false => rfl
  | true =>
    rw [if_pos rfl, if_pos rfl, Dev.signals, Dev.signal, h hs]
    rfl

theorem signals_of_wrap {n : Nat} {x : Desc} (h7 : x.opcode ≠ 7) (hs : x.sigEn = true)
    (h : d.wraps x.sigCtr x.sigInc = true) : d.signals n x.sends = (d.refuseSignal x.sigCtr n refuseWrap, false) := by
  rw [sends_of_not_sync h7, hs, if_pos rfl, Dev.signals, Dev.signal, h]
  rfl

/-! ## Retirement of a batch descriptor (R76, R79) -/

theorem descriptorRetire_batch {n q p : Nat} {x : Desc} (hf : d.findDesc (.batch n q) p = some x) (hd : x.phase = .done)
    (hc : d.coreOn = true) (h2 : x.opcode ≠ 2) : descriptorRetire (.batch n q) p d = d.retireBatch n q x := by
  rw [descriptorRetire, hf]
  dsimp only
  rw [if_neg (by rw [hd, hc]; decide), Dev.siftRetire, if_pos h2]

theorem descriptorRetire_realtime {s p : Nat} {b : Bool} {x : Desc} (hf : d.findDesc (.realtime s b) p = some x)
    (hd : x.phase = .done) (hc : d.coreOn = true) (h2 : x.opcode ≠ 2) :
    descriptorRetire (.realtime s b) p d = d.retireRealtime s b x := by
  rw [descriptorRetire, hf]
  dsimp only
  rw [if_neg (by rw [hd, hc]; decide), Dev.siftRetire, if_pos h2]

theorem retireBatch_of_fits {n q : Nat} {x : Desc} (h7 : x.opcode ≠ 7)
    (h : x.sigEn = true → d.wraps x.sigCtr x.sigInc = false) : d.retireBatch n q x =
      ((((d.signalled x).dropDesc x.trough x.pos).markRetired n q x.pos).progress n).completion n q x := by
  rw [Dev.retireBatch, signals_of_fits h7 h]

theorem retireBatch_of_wrap {n q : Nat} {x : Desc} (ht : x.trough = .batch n q) (h7 : x.opcode ≠ 7) (hs : x.sigEn = true)
    (h : d.wraps x.sigCtr x.sigInc = true) :
    d.retireBatch n q x = (d.refuseSignal x.sigCtr n refuseWrap).faultJob n stWrap kindTrough q x.pos := by
  rw [Dev.retireBatch, signals_of_wrap h7 hs h, ht]
  rfl

/-- What retires without a completion and without a wrap: it is no longer live, its signal is in, and of the registers above
Rick's page HEAD alone may move. -/
theorem retireBatch_leaves {n q : Nat} (hn : n < 9) (hq : q < 4) {x : Desc} (h7 : x.opcode ≠ 7)
    (hs : x.sigEn = true → d.wraps x.sigCtr x.sigInc = false) (hc : x.cmpl = false) :
    let e := d.retireBatch n q x
    e.findDesc x.trough x.pos = none ∧ e.mem = d.mem ∧ (e.job n).wdog = 0 ∧ e.tn.owed = d.tn.owed ∧
    (∀ c, e.ctr c = if x.sigEn = true ∧ c = x.sigCtr then d.ctr c + x.sigInc else d.ctr c) ∧
    ∀ a, 0x6000 ≤ a → a < 0x20000 → e.word a = d.word a := by
  rw [retireBatch_of_fits h7 hs]
  have hcount := signalled_counts d x
  have hr := retires_of_quiet ((d.signalled x).dropDesc x.trough x.pos) hn hq hc
  obtain ⟨ts, js, htn, hwdog⟩ := hr.rest
  have hlive := congrArg Tenancy.live htn
  have howed := congrArg Tenancy.owed htn
  have hrick := congrArg Tenancy.rick htn
  have hjobs := congrArg Tenancy.jobs htn
  dsimp only at hlive howed hrick hjobs ⊢
  refine ⟨?_, hr.mem.trans hcount.mem, ?_, ?_, fun c => ?_, fun a h6 h2 => ?_⟩
  · rw [findDesc_of_live hlive]
    exact findDesc_dropDesc _ _ _
  · rw [Dev.job, hjobs, hwdog]
  · exact howed.trans hcount.owed
  · exact (ctr_of_rick hrick c).trans (ctr_signalled hs c)
  · have hlow : a ≠ A.TRG_T_HEAD n q := by
      simp only [A.TRG_T_HEAD]
      omega
    exact (hr.word a (by omega) hlow).trans (hcount.word a h6)

/-- With nothing retired out of order HEAD moves past the descriptor exactly if it stands there. -/
theorem retireBatch_head {n q : Nat} (hn : n < 9) (hq : q < 4) {x : Desc} (h7 : x.opcode ≠ 7)
    (hs : x.sigEn = true → d.wraps x.sigCtr x.sigInc = false) (hc : x.cmpl = false) (hret : (d.trough n q).retired = []) :
    let e := d.retireBatch n q x
    if d.rd (R.TRG_T_HEAD n q) = x.pos then e.rd (R.TRG_T_HEAD n q) = (x.pos + 1) % 2 ^ 32 ∧ (e.trough n q).retired = []
    else e.rd (R.TRG_T_HEAD n q) = d.rd (R.TRG_T_HEAD n q) ∧ (e.trough n q).retired = [x.pos] := by
  rw [retireBatch_of_fits h7 hs]
  have hcount := signalled_counts d x
  have hr := retires_of_quiet ((d.signalled x).dropDesc x.trough x.pos) hn hq hc
  have hret' : (((d.signalled x).dropDesc x.trough x.pos).trough n q).retired = [] :=
    (congrArg TroughSt.retired (hcount.trough n q)).trans hret
  have hhead : ((d.signalled x).dropDesc x.trough x.pos).rd (R.TRG_T_HEAD n q) = d.rd (R.TRG_T_HEAD n q) :=
    (rd_of_regs (by rfl) _).trans (hcount.rd (by simp only [A.TRG_T_HEAD]; omega))
  have hlt : d.rd (R.TRG_T_HEAD n q) < 2 ^ 32 := rd_lt d _
  dsimp only
  rw [hr.head, hr.trough, markRetired_of_none hret', hhead]
  split
  · rw [setTrough_rd, rd_wr_same, trough_setTrough_same]
    exact ⟨Nat.mod_mod _ _, rfl⟩
  · rw [setTrough_rd, rd_wr_same, trough_setTrough_same]
    exact ⟨Nat.mod_eq_of_lt hlt, rfl⟩

/-! ## A signal that would wrap (spec/05 R90) -/

theorem refuseSignal_counts (d : Dev) (c n cause : Nat) : Counts d (d.refuseSignal c n cause) :=
  (((((Counts.refl d).wr (by decide) _).wr (by decide) _).wr (by decide) _).wr (by decide) _).wr (by decide) _

theorem refuseSignal_rick (d : Dev) (c n cause : Nat) : (d.refuseSignal c n cause).tn.rick = d.tn.rick := by
  simp [Dev.refuseSignal]

theorem refuseSignal_count (d : Dev) (c n cause : Nat) :
    (d.refuseSignal c n cause).rd R.RCK_REFUSE_COUNT = min (d.rd R.RCK_REFUSE_COUNT + 1) maxWord := by
  rw [Dev.refuseSignal, Dev.irq, Dev.setBitOf, rd_wr_ne _ _ (by decide), rd_bump_same, rd_wr_ne _ _ (by decide),
    rd_wr_ne _ _ (by decide), rd_wr_ne _ _ (by decide)]
  rfl

theorem retireBatch_of_wrap_leaves {n q : Nat} (hn : n < 9) {x : Desc} (ht : x.trough = .batch n q) (h7 : x.opcode ≠ 7)
    (hs : x.sigEn = true) (h : d.wraps x.sigCtr x.sigInc = true) (hj : d.jobState n = jobOpen) :
    let e := d.retireBatch n q x
    e.jobState n = jobFaulted ∧ e.rd (R.STL_JOB_STAT_STATUS n) = stWrap ∧ e.tn.rick = d.tn.rick ∧
    e.rd R.RCK_REFUSE_COUNT = min (d.rd R.RCK_REFUSE_COUNT + 1) maxWord := by
  have hcount := refuseSignal_counts d x.sigCtr n refuseWrap
  have hopen : (d.refuseSignal x.sigCtr n refuseWrap).jobState n = jobOpen :=
    (hcount.rd (by simp only [A.STL_JOB_STAT]; omega)).trans hj
  obtain ⟨h1, h2, h3, h4⟩ := faultJob_leaves hn hopen stWrap kindTrough q x.pos
  rw [retireBatch_of_wrap ht h7 hs h]
  refine ⟨h1, h2, h3.trans (refuseSignal_rick d _ _ _), (rd_of_words (fun i hi => h4 _ ?_ ?_)).trans (refuseSignal_count d _ _ _)⟩
  · simp only [A.RCK_REFUSE_COUNT]
    omega
  · simp only [A.RCK_REFUSE_COUNT, Fld.words] at hi ⊢
    omega

/-! ## Retirement of a realtime descriptor (spec/03 R49) -/

theorem rtTrough_dropDesc (d : Dev) (t : TroughId) (p s : Nat) (b : Bool) : (d.dropDesc t p).rtTrough s b = d.rtTrough s b :=
  rtTrough_setLive d _ s b

/-- One of several descriptors that retires leaves its trough running. -/
theorem retireRealtime_of_more {s base len : Nat} {b : Bool} {x : Desc} {r : RtRun} (h : d.rtTrough s b = some (r, base, len))
    (hn : r.next < len) : d.retireRealtime s b x = d.dropDesc x.trough x.pos := by
  rw [Dev.retireRealtime]
  dsimp only
  rw [rtTrough_dropDesc, h]
  exact if_pos (.inl hn)

/-- A run that ends by its deadline: its block has met. -/
def Dev.runMet (d : Dev) (s : Nat) (b : Bool) : Dev :=
  let e := d.setRtRun s b none
  let st := e.stream s
  e.setStream s (if b then { st with standbyMet := true } else { st with liveMet := true })

theorem retireRealtime_of_last {s base len : Nat} {b : Bool} {x : Desc} {r : RtRun} (h : d.rtTrough s b = some (r, base, len))
    (hn : len ≤ r.next) (hd : d.stc ≤ r.due) :
    ∃ e : Dev, e.regs = d.regs ∧ e.au = d.au ∧ d.retireRealtime s b x = e.runMet s b := by
  have hlate : ¬(r.next < len ∨ r.due < (d.dropDesc x.trough x.pos).stc) := by
    have hstc : (d.dropDesc x.trough x.pos).stc = d.stc := rd_of_regs (by rfl) _
    rw [hstc]
    omega
  refine ⟨if b then d.dropDesc x.trough x.pos else
    (d.dropDesc x.trough x.pos).addLoad s ((d.dropDesc x.trough x.pos).blockLoad s r.due), ?_, ?_, ?_⟩
  · cases b <;> rfl
  · cases b <;> rfl
  · rw [Dev.retireRealtime]
    dsimp only
    rw [rtTrough_dropDesc, h]
    exact if_neg hlate

theorem stream_runMet (d : Dev) (s : Nat) (b : Bool) : (d.runMet s b).stream s =
    if b then { d.stream s with standby := none, standbyMet := true } else { d.stream s with live := none, liveMet := true } := by
  rw [Dev.runMet]
  dsimp only
  rw [stream_setStream_same, Dev.setRtRun, stream_setStream_same]
  cases b <;> rfl

theorem runMet_leaves (d : Dev) (s : Nat) (b : Bool) : (d.runMet s b).rtTrough s b = none ∧
    (if b then ((d.runMet s b).stream s).standbyMet = true ∧ ((d.runMet s b).stream s).liveMet = (d.stream s).liveMet
    else ((d.runMet s b).stream s).liveMet = true ∧ ((d.runMet s b).stream s).standbyMet = (d.stream s).standbyMet) := by
  rw [Dev.rtTrough, stream_runMet]
  cases b <;> exact ⟨rfl, rfl, rfl⟩

/-- The registers of a stall's page stand below the Furrow pages. -/
theorem stall_place {n k lo w : Nat} (hn : n < 9) (hk : k < 4096) (hw : lo + w ≤ 32) :
    (⟨0x10000 + n * 4096 + k, lo, w⟩ : Fld).addr + 4 * (⟨0x10000 + n * 4096 + k, lo, w⟩ : Fld).words ≤ 0x48000 := by
  simp only [Fld.words]
  omega

/-! ## MARK (spec/04 R82, R83) -/

theorem mark_of_started {n q p : Nat} {x : Desc} (hf : d.findDesc (.batch n q) p = some x) (ho : x.opcode = 12)
    (hs : x.phase = .started) (hc : d.coreOn = true) : mark (.batch n q) p d =
      (if 8 ≤ x.fld 128 8 ∧ x.fld 128 8 ≤ 31 then (d.event n x.tag kindMark q p).raise n (x.fld 128 8)
        else d.event n x.tag kindMark q p).retireBatch n q x := by
  unfold mark
  rw [hf]
  exact if_neg (by rw [ho, hs, hc]; decide)

/-- Past its event record a MARK retires. -/
theorem mark_leaves {n q p : Nat} (hn : n < 9) (hq : q < 4) {x : Desc} (hf : d.findDesc (.batch n q) p = some x)
    (ho : x.opcode = 12) (hs : x.phase = .started) (hc : d.coreOn = true) (hcm : x.cmpl = false)
    (hw : x.sigEn = true → d.wraps x.sigCtr x.sigInc = false) :
    let f := d.event n x.tag kindMark q p
    let e := mark (.batch n q) p d
    e.findDesc (.batch n q) p = none ∧ e.mem = f.mem ∧ e.tn.owed = f.tn.owed ∧
    ∀ k lo w, k < 0x1000 → 0 < lo + w → lo + w ≤ 32 →
      e.rd ⟨0x10000 + n * 4096 + k, lo, w⟩ = f.rd ⟨0x10000 + n * 4096 + k, lo, w⟩ := by
  intro f
  obtain ⟨hxt, hxp⟩ := findDesc_place hf
  have htell : Tells n d f := event_tells d n x.tag kindMark q p false
  have hvec : Sends f (if 8 ≤ x.fld 128 8 ∧ x.fld 128 8 ≤ 31 then f.raise n (x.fld 128 8) else f) := by
    split
    · exact raise_sends f n _
    · exact .refl f
  rw [mark_of_started hf ho hs hc]
  generalize (if 8 ≤ x.fld 128 8 ∧ x.fld 128 8 ≤ 31 then f.raise n (x.fld 128 8) else f) = g at hvec
  have hrick : g.tn.rick = d.tn.rick := by rw [hvec.tn, htell.tn]
  have hfits : x.sigEn = true → g.wraps x.sigCtr x.sigInc = false := fun h => by
    rw [Dev.wraps, ctr_of_rick hrick]
    exact hw h
  obtain ⟨h1, h2, -, h4, -, h6⟩ := retireBatch_leaves (d := g) hn hq (by rw [ho]; decide) hfits hcm
  rw [hxt, hxp] at h1
  refine ⟨h1, h2.trans hvec.mem, h4.trans (congrArg Tenancy.owed hvec.tn), fun k lo w hk h0 hlw => ?_⟩
  have hone : (⟨0x10000 + n * 4096 + k, lo, w⟩ : Fld).words = 1 := words_of_le h0 hlw
  rw [rd_eq_bits _ hone, rd_eq_bits _ hone, h6 _ (by simp only; omega) (by simp only; omega), hvec.word _ (by simp only; omega)]

/-- The records in the ring and those that wait fill it: MARK's is lost. -/
theorem event_mark_of_full {n tag q p : Nat} (h : 2 ^ d.rd (R.STL_EV_CFG_LOG2SIZE n) ≤ d.ringUsed n + d.owedEvents n) :
    d.event n tag kindMark q p = d.bump (R.STL_EV_LOST_COUNT n) := by
  rw [event_eq]
  exact if_pos h

/-- Where the next event record of stall `n` goes. -/
def Dev.eventAddr (d : Dev) (n : Nat) : Nat :=
  ringAddr (d.on (R.STL_EV_CFG_LOC n)) (d.rd (R.STL_EV_BASE n) * 4096)
    (d.rd (R.STL_EV_HEAD n) % 2 ^ d.rd (R.STL_EV_CFG_LOG2SIZE n) * 16)

theorem event_mark_of_room {n tag q p : Nat} (h : ¬2 ^ d.rd (R.STL_EV_CFG_LOG2SIZE n) ≤ d.ringUsed n + d.owedEvents n)
    (ho : d.owedEvents n = 0) : d.event n tag kindMark q p =
      (d.putEvent n (eventBytes tag kindMark q p d.stc) false).getD
        (d.owe (.event n (eventBytes tag kindMark q p d.stc) false)) := by
  rw [event_eq]
  exact (if_neg h).trans (if_neg (not_not.mpr ho))

/-- A record for the Silo that lies in it is not lost for its place. -/
theorem eventAddr_fits {n : Nat} (hl : d.on (R.STL_EV_CFG_LOC n) = true → d.eventAddr n + 16 ≤ siloBytes) :
    ¬(d.on (R.STL_EV_CFG_LOC n) && decide (siloBytes < d.eventAddr n + 16)) = true := by
  rw [Bool.and_eq_true, decide_eq_true_eq]
  exact fun hx => absurd (hl hx.1) (by omega)

/-- A record whose place is ready is written: HEAD moves, and the first in an empty ring raises vector 0. -/
theorem putEvent_of_done {n : Nat} {bs : List Byte} {ue : Bool}
    (hl : d.on (R.STL_EV_CFG_LOC n) = true → d.eventAddr n + 16 ≤ siloBytes)
    (h : d.pathWrite n none (d.eventAddr n) bs = .done ue e) : ∃ f, d.putEvent n bs false = some f ∧
      Sends (e.wr (R.STL_EV_HEAD n) (d.rd (R.STL_EV_HEAD n) + 1)) f := by
  refine ⟨if d.rd (R.STL_EV_HEAD n) = d.rd (R.STL_EV_TAIL n) ∧ !false then
    (e.wr (R.STL_EV_HEAD n) (d.rd (R.STL_EV_HEAD n) + 1)).raise n 0
    else e.wr (R.STL_EV_HEAD n) (d.rd (R.STL_EV_HEAD n) + 1), ?_, ?_⟩
  · refine (if_neg (eventAddr_fits hl)).trans ?_
    rw [← Dev.eventAddr, h]
  · split
    · exact raise_sends _ _ _
    · exact .refl _

/-- A record whose place is not ready waits. -/
theorem putEvent_of_wait {n : Nat} {bs : List Byte} (hl : d.on (R.STL_EV_CFG_LOC n) = true → d.eventAddr n + 16 ≤ siloBytes)
    (h : d.pathWrite n none (d.eventAddr n) bs = .wait) : d.putEvent n bs false = none := by
  refine (if_neg (eventAddr_fits hl)).trans ?_
  rw [← Dev.eventAddr, h]

end Sys2Proof.Machine

namespace Sys2Proof
open Machine

/-- Settles O35: the signal and HEAD of a retirement, the end of a realtime run, and MARK by what becomes of its record. -/
theorem descriptorRetirement : Obligations.DescriptorRetirement := by
  intro s hcold hcore
  refine ⟨fun n q p x hf hd h2 h7 => ⟨fun hs hcm hret => ?_, fun hs hwrap hj => ?_⟩,
    fun z b p x r base len hf hd h2 hrt => ⟨fun hn => ?_, fun hn hdue => ?_⟩, fun tr p x hf ho hst => ?_,
    fun n q p x hf ho hst hcm hs => ?_⟩
  · obtain ⟨hxt, hxp⟩ := findDesc_place hf
    refine completes_of_act (f := descriptorRetire (.batch n.val q.val) p.toNat) rfl hcold ?_
    rw [descriptorRetire_batch hf hd hcore h2]
    obtain ⟨h1, h2, h3, -, h5, -⟩ := retireBatch_leaves n.isLt q.isLt h7 hs hcm
    have hhead := retireBatch_head n.isLt q.isLt h7 hs hcm hret
    rw [hxt, hxp] at h1
    rw [hxp] at hhead
    exact ⟨rfl, h1, h2, h3, h5, hhead⟩
  · refine completes_of_act (f := descriptorRetire (.batch n.val q.val) p.toNat) rfl hcold ?_
    rw [descriptorRetire_batch hf hd hcore h2]
    exact retireBatch_of_wrap_leaves n.isLt (findDesc_place hf).1 h7 hs hwrap hj
  · refine completes_of_act (f := descriptorRetire (.realtime z.val b) p.toNat) rfl hcold ?_
    obtain ⟨hxt, hxp⟩ := findDesc_place hf
    rw [descriptorRetire_realtime hf hd hcore h2, retireRealtime_of_more hrt hn, hxt, hxp]
  · refine completes_of_act (f := descriptorRetire (.realtime z.val b) p.toNat) rfl hcold ?_
    obtain ⟨e, hregs, hau, hlast⟩ := retireRealtime_of_last (x := x) hrt hn hdue
    rw [descriptorRetire_realtime hf hd hcore h2, hlast]
    obtain ⟨h1, h2⟩ := runMet_leaves e z b
    rw [stream_of_streams (by rw [hau] : e.au.streams = s.dev.au.streams)] at h2
    exact ⟨rfl, h1, hregs, h2⟩
  · refine completes_of_act (f := nop (troughOf tr) p.toNat) rfl hcold ?_
    obtain ⟨hxt, hxp⟩ := findDesc_place hf
    have hnop : nop (troughOf tr) p.toNat s.dev = s.dev.updDesc { x with phase := .done } := by
      rw [nop, hf]
      exact if_pos ⟨ho, hst, hcore⟩
    rw [hnop]
    exact ⟨rfl, findDesc_updDesc hf hxt hxp⟩
  · intro size head used at0
    have hop : ∀ {P : State → Prop}, P { s with dev := mark (.batch n.val q.val) p.toNat s.dev } →
        Completes (.mark (.batch n q) p) s P :=
      completes_of_act (f := mark (.batch n.val q.val) p.toNat) rfl hcold
    obtain ⟨h1, h2, h3, h4⟩ := mark_leaves n.isLt q.isLt hf ho hst hcore hcm hs
    have hlost := h4 0x88 0 32 (by decide) (by decide) (by decide)
    have hhead := h4 0x80 0 32 (by decide) (by decide) (by decide)
    have hlast := h4 0x8c 0 16 (by decide) (by decide) (by decide)
    refine ⟨fun hfull => hop ?_, fun hroom howed hloc => ?_⟩
    · rw [event_mark_of_full hfull] at h2 hlost hhead hlast
      exact ⟨rfl, h1, h2.trans (wr_mem _ _ _), hlost.trans (rd_bump_same _ _ _),
        hlast.trans (rd_bump_ne _ _ (apart_at (by decide))), hhead.trans (rd_bump_ne _ _ (apart_at (by decide)))⟩
    · have hevent := event_mark_of_room (tag := x.tag) (q := q.val) (p := p.toNat) (Nat.not_le.mpr hroom) howed
      rw [hevent] at h2 h3 hhead hlast
      refine ⟨fun ue d hw => hop ?_, fun hw => hop ?_⟩
      · obtain ⟨g, hg, hsend⟩ := putEvent_of_done hloc hw
        rw [hg, Option.getD_some] at h2 hhead hlast
        have hplace := stall_place (k := 0x80) n.isLt (lo := 0) (w := 32) (by decide) (by decide)
        have hplace' := stall_place (k := 0x8c) n.isLt (lo := 0) (w := 16) (by decide) (by decide)
        refine ⟨rfl, h1, h2.trans (hsend.mem.trans (wr_mem _ _ _)), hhead.trans ((hsend.rd hplace).trans (rd_wr_same _ _ _)),
          hlast.trans ((hsend.rd hplace').trans ((rd_wr_ne _ _ (apart_at (by decide))).trans ?_))⟩
        exact (pathWrite_stores hw).rd (hplace'.trans (by decide))
      · rw [putEvent_of_wait hloc hw, Option.getD_none] at h2 h3 hhead hlast
        exact ⟨rfl, h1, h2, hhead.trans (rd_of_regs (by rfl) _), hlast.trans (rd_of_regs (by rfl) _), by rw [h3]; simp [Dev.owe]⟩

end Sys2Proof
end

section
/-! A write of the counter window: the signal it gives a counter, and how it is counted where it is refused (spec/05 R90, R101,
R104, R445). -/
namespace Sys2Proof.Machine

variable {d : Dev} {q : Req} {c v : Nat}

/-! ## What the write does -/

/-- The low word of a counter's window entry leads to the counter. -/
theorem counterWindowWrite_eq (h : d.arrives q = true) (hc : c < 2 ^ 16) :
    counterWindowWrite q c v d = d.windowWrite q c v := by
  rw [counterWindowWrite, Dev.bar2Write, if_neg (by simp [h]), if_pos (by omega), if_pos (by omega),
    Nat.mul_div_cancel_left c (by decide)]

theorem windowHides_of_reach (h : q = .steward ∨ ∃ n, q = .stall n ∧ d.inRick n c = true) : d.windowHides q c = false := by
  obtain rfl | ⟨n, rfl, hn⟩ := h
  · rfl
  · rw [Dev.windowHides, hn, Bool.not_true]

theorem windowWrite_of_hidden (h : d.windowHides q c = true) :
    d.windowWrite q c v = d.perrAt 5 5 (c * 8) (reqCode q) causeAccess := if_pos h

theorem windowWrite_of_fits (h : d.windowHides q c = false) (ht : d.takesSignal c false = true) (hw : d.wraps c v = false) :
    d.windowWrite q c v = d.applySignal c v := by
  unfold Dev.windowWrite
  rw [if_neg (by simp [h]), if_neg (by simp [ht]), if_neg (by simp [hw])]

/-- A counter in reach that takes no signal, or would wrap. -/
theorem windowWrite_of_refused (h : d.windowHides q c = false) (hr : d.takesSignal c false = false ∨ d.wraps c v = true) :
    ∃ who cause, d.windowWrite q c v = (d.perrAt 5 5 (c * 8) (reqCode q) causeValue).refuseSignal c who cause := by
  unfold Dev.windowWrite
  rw [if_neg (by simp [h])]
  cases ht : d.takesSignal c false with
  | false => exact ⟨_, refuseWindow, if_pos (by decide)⟩
  | true => exact ⟨_, refuseWrap, (if_neg (by decide)).trans (if_pos (hr.resolve_left (by simp [ht])))⟩

/-! ## A signal that is applied (R101) -/

/-- Of the registers a signal moves the total of its counter's stall alone. -/
theorem applySignal_regs (d : Dev) (c v : Nat) :
    (d.applySignal c v).regs = ((d.setCtr c (d.ctr c + v)).addTo (R.RCK_SIG_TOTAL ((d.ctrStall c).getD 0)) v).regs := by
  rw [Dev.applySignal, Dev.noteStep]
  split <;> rfl

theorem applySignal_total (d : Dev) (c v : Nat) :
    let m := (d.ctrStall c).getD 0
    (d.applySignal c v).rd (R.RCK_SIG_TOTAL m) = (d.rd (R.RCK_SIG_TOTAL m) + v) % 2 ^ 96 ∧
    ∀ a, a ∉ [A.RCK_SIG_TOTAL m, A.RCK_SIG_TOTAL m + 4, A.RCK_SIG_TOTAL m + 8] → (d.applySignal c v).word a = d.word a := by
  intro m
  have hregs := applySignal_regs d c v
  have honly := (RegsOnly.refl (d.setCtr c (d.ctr c + v)) [A.RCK_SIG_TOTAL m, A.RCK_SIG_TOTAL m + 4, A.RCK_SIG_TOTAL m + 8]).addTo
    (R.RCK_SIG_TOTAL m) v (by simp [Fld.within, Fld.words, List.range_succ])
  refine ⟨(rd_of_regs hregs _).trans ?_, fun a ha => (word_of_regs hregs a).trans (honly.word a ha)⟩
  rw [rd_addTo_same, setCtr_rd]

/-! ## A signal that is refused (R90, Table 05-5) -/

/-- The words of Rick's page that a refused signal moves. -/
abbrev refusalWords : List Nat := [A.RCK_LAST_REFUSE, A.RCK_REFUSE_COUNT, A.PIRQ_RAW 5]

theorem refuseSignal_regsOnly (d : Dev) (c n cause : Nat) : RegsOnly d (d.refuseSignal c n cause) refusalWords :=
  (((((RegsOnly.refl d _).wr _ _ (by decide)).wr _ _ (by decide)).wr _ _ (by decide)).bump _ _ (by decide)).irq .rck 0 0 (by decide)

theorem refuseSignal_counter (d : Dev) {c : Nat} (hc : c < 2 ^ 16) (n cause : Nat) :
    (d.refuseSignal c n cause).rd R.RCK_LAST_REFUSE_COUNTER = c := by
  rw [Dev.refuseSignal, rd_irq_ne _ _ _ _ (by decide), rd_bump_ne _ _ (by decide), rd_wr_ne _ _ (by decide),
    rd_wr_ne _ _ (by decide), rd_wr_same]
  exact Nat.mod_eq_of_lt hc

/-- A refused window write is counted on Rick's page both as an ignored write and as a refused signal. -/
theorem refused_leaves (d : Dev) {c : Nat} (hc : c < 2 ^ 16) (o r w cause : Nat) :
    let e := (d.perrAt 5 5 o r causeValue).refuseSignal c w cause
    e = { d with regs := e.regs } ∧ e.rd (R.PERR_COUNT 5) = min (d.rd (R.PERR_COUNT 5) + 1) maxWord ∧
    e.rd R.RCK_REFUSE_COUNT = min (d.rd R.RCK_REFUSE_COUNT + 1) maxWord ∧ e.rd R.RCK_LAST_REFUSE_COUNTER = c := by
  have hperr := perrAt_regsOnly d 5 5 o r causeValue
  have hrefuse := refuseSignal_regsOnly (d.perrAt 5 5 o r causeValue) c w cause
  have hrest := ((hperr.mono (List.subset_append_left _ refusalWords)).trans (hrefuse.mono (List.subset_append_right _ _))).rest
  refine ⟨hrest, ?_, ?_, refuseSignal_counter _ hc _ _⟩
  · rw [hrefuse.rd _ (by decide)]
    exact perrAt_count d 5 5 o r causeValue
  · rw [refuseSignal_count, hperr.rd _ (by decide)]

/-! ## A write outside the requester's range -/

/-- PERR_FIRST holds the 12 low bits of an offset. -/
theorem perrAt_offset (d : Dev) (p a o r cause : Nat) : d.perrAt p a o r cause = d.perrAt p a (o % 4096) r cause := by
  have hwr : d.wr (R.PERR_FIRST_OFFSET p) o = d.wr (R.PERR_FIRST_OFFSET p) (o % 4096) := by
    rw [Dev.wr, Dev.wr, setBits, setBits, show o % 4096 % 2 ^ 12 = o % 2 ^ 12 from Nat.mod_mod o _]
  rw [Dev.perrAt, Dev.perrAt, hwr]

end Sys2Proof.Machine

namespace Sys2Proof
open Machine

/-- Settles O33: by whether the counter is in the requester's reach, takes a signal, and would wrap. -/
theorem counterWindowWrites : Obligations.CounterWindowWrites := by
  intro s q c v hcold harr
  have hc : c.toNat < 2 ^ 16 := c.isLt
  have hop : ∀ {P : State → Prop}, P { s with dev := s.dev.windowWrite q c.toNat v.toNat } →
      Completes (.counterWindowWrite q c v) s P := fun h =>
    completes_of_act (f := Machine.counterWindowWrite q c.toNat v.toNat) rfl hcold (by rwa [counterWindowWrite_eq harr hc])
  refine ⟨fun hreach => ?_, fun n hq hn => hop ?_⟩
  · have hseen := windowHides_of_reach hreach
    refine ⟨fun htakes hfits => hop ?_, fun hrefused => hop ?_⟩
    · have hw : s.dev.wraps c.toNat v.toNat = false := decide_eq_false (Nat.not_lt.mpr hfits)
      have hcounts := applySignal_counts s.dev c.toNat v.toNat
      obtain ⟨htotal, hwords⟩ := applySignal_total s.dev c.toNat v.toNat
      rw [windowWrite_of_fits hseen htakes hw]
      exact ⟨rfl, (ctr_applySignal s.dev hw _).trans (if_pos rfl), fun x hx => (ctr_applySignal s.dev hw x).trans (if_neg hx),
        hcounts.mem, hcounts.live, htotal, hwords⟩
    · obtain ⟨who, cause, heq⟩ := windowWrite_of_refused hseen (hrefused.imp_right decide_eq_true)
      obtain ⟨hrest, hperr, hcount, hlast⟩ := refused_leaves s.dev hc (c.toNat * 8) (reqCode q) who cause
      rw [heq]
      exact ⟨congrArg (fun e => { s with dev := e }) hrest, hperr, hcount, hlast⟩
  · subst hq
    rw [windowWrite_of_hidden (by rw [Dev.windowHides, hn, Bool.not_false]), perrAt_offset, Nat.mul_comm c.toNat]
    exact counted_perrAt s 5 (.stall n) (by decide) (Nat.mod_lt _ (by decide)) (by decide)

end Sys2Proof
end

section
/-! A SYNC goes through its slots (spec/05 R91, R92). -/
namespace Sys2Proof.Machine

variable {d e : Dev} {t : TroughId} {p : Nat} {y : Desc}

/-! ## Replacing a descriptor -/

/-- Of two replacements at one place the second counts. -/
theorem updDesc_updDesc (d : Dev) {y z : Desc} (ht : y.trough = z.trough) (hp : y.pos = z.pos) :
    (d.updDesc y).updDesc z = d.updDesc z := by
  have hput : (fun x : Desc => if x.trough = z.trough ∧ x.pos = z.pos then z else x) ∘
      (fun x => if x.trough = y.trough ∧ x.pos = y.pos then y else x) =
      fun x => if x.trough = z.trough ∧ x.pos = z.pos then z else x := by
    funext x
    by_cases hx : x.trough = z.trough ∧ x.pos = z.pos
    · simp [hx, ht, hp]
    · simp [hx, ht, hp]
  simp only [Dev.updDesc, Dev.setLive, List.map_map, hput]

theorem waitMet_updDesc (d : Dev) (y : Desc) (w : Waiter) : (d.updDesc y).waitMet w = d.waitMet w := rfl

theorem enqueue_updDesc (d : Dev) (y : Desc) (w : Waiter) : (d.updDesc y).enqueue w = (d.enqueue w).updDesc y := by
  have hw : (d.updDesc y).tn.waiters = d.tn.waiters := rfl
  rw [Dev.enqueue, Dev.enqueue, hw]
  split <;> rfl

/-! ## The run through the slots -/

/-- What slot `i` of the SYNC at a place waits for. -/
def syncWait (b : DescWord) (i : Nat) (t : TroughId) (p : Nat) : Waiter :=
  ⟨(syncSlot b i).1, (syncSlot b i).2.2, (syncSlot b i).2.1 == 3, t, p⟩

theorem syncRun_of_end (hf : d.findDesc t p = some y) (h : 4 ≤ y.prog) (k : Nat) :
    d.syncRun t p (k + 1) = d.updDesc { y with phase := .done } := by
  rw [Dev.syncRun, hf]
  exact if_pos h

theorem syncRun_of_signal (hf : d.findDesc t p = some y) (h : y.prog < 4) (hs : (syncSlot y.bits y.prog).2.1 < 2) (k : Nat) :
    d.syncRun t p (k + 1) = (d.updDesc { y with prog := y.prog + 1 }).syncRun t p k := by
  rw [Dev.syncRun, hf]
  exact (if_neg (Nat.not_le.mpr h)).trans (if_pos hs)

theorem syncRun_of_wait (hf : d.findDesc t p = some y) (h : y.prog < 4) (hs : 2 ≤ (syncSlot y.bits y.prog).2.1) (k : Nat) :
    d.syncRun t p (k + 1) =
      let w := syncWait y.bits y.prog t p
      if (d.enqueue w).waitMet w then (((d.enqueue w).takeWait w).updDesc { y with prog := y.prog + 1 }).syncRun t p k
      else d.enqueue w := by
  rw [Dev.syncRun, hf]
  exact (if_neg (Nat.not_le.mpr h)).trans (if_neg (Nat.not_lt.mpr hs))

/-- With no wait or consume slot left a run comes to the end. -/
theorem syncRun_of_signals {k : Nat} (hf : d.findDesc t p = some y) (hp : y.prog ≤ 4) (hk : 4 < y.prog + k)
    (hs : ∀ i < 4, y.prog ≤ i → (syncSlot y.bits i).2.1 < 2) :
    d.syncRun t p k = d.updDesc { y with phase := .done, prog := 4 } := by
  induction k generalizing d y with
  | zero => omega
  | succ k ih =>
    obtain h4 | hlt := hp.eq_or_lt
    · rw [syncRun_of_end hf h4.ge, ← h4]
    · obtain ⟨ht, hpos⟩ := findDesc_place hf
      have hf' := findDesc_updDesc (y := { y with prog := y.prog + 1 }) hf ht hpos
      rw [syncRun_of_signal hf hlt (hs _ hlt le_rfl),
        ih hf' hlt (by simp only; omega) (fun i hi hle => hs i hi (Nat.le_of_succ_le hle))]
      exact updDesc_updDesc d rfl rfl

/-- A SYNC that started goes through its slots. -/
theorem sync_eq (hf : d.findDesc t p = some y) (ho : y.opcode = 7) (hc : d.coreOn = true)
    (hph : y.phase = .started ∨ y.phase = .working) : sync t p d = (d.updDesc { y with phase := .working }).syncRun t p 5 := by
  rw [sync, hf]
  exact (if_neg (by simp [ho, hc])).trans (if_pos hph)

theorem sync_of_signals (hf : d.findDesc t p = some y) (ho : y.opcode = 7) (hc : d.coreOn = true)
    (hph : y.phase = .started ∨ y.phase = .working) (hp : y.prog ≤ 4)
    (hs : ∀ i < 4, y.prog ≤ i → (syncSlot y.bits i).2.1 < 2) :
    sync t p d = d.updDesc { y with phase := .done, prog := 4 } := by
  obtain ⟨ht, hpos⟩ := findDesc_place hf
  have hf' := findDesc_updDesc (y := { y with phase := .working }) hf ht hpos
  rw [sync_eq hf ho hc hph, syncRun_of_signals hf' hp (by simp only; omega) hs]
  exact updDesc_updDesc d rfl rfl

theorem sync_of_unmet (hf : d.findDesc t p = some y) (ho : y.opcode = 7) (hc : d.coreOn = true)
    (hph : y.phase = .started ∨ y.phase = .working) (hp : y.prog < 4) (hs : 2 ≤ (syncSlot y.bits y.prog).2.1)
    (hm : (d.enqueue (syncWait y.bits y.prog t p)).waitMet (syncWait y.bits y.prog t p) = false) :
    sync t p d = (d.enqueue (syncWait y.bits y.prog t p)).updDesc { y with phase := .working } := by
  obtain ⟨ht, hpos⟩ := findDesc_place hf
  have hf' := findDesc_updDesc (y := { y with phase := .working }) hf ht hpos
  rw [sync_eq hf ho hc hph, syncRun_of_wait hf' hp hs]
  dsimp only
  rw [enqueue_updDesc, waitMet_updDesc, hm, if_neg Bool.false_ne_true]

/-! ## The last slot is met -/

theorem enqueue_counts (d : Dev) (w : Waiter) : Counts d (d.enqueue w) := by
  obtain ⟨ls, h⟩ := enqueue_rest d w
  rw [h]
  exact ⟨rfl, fun _ _ => rfl⟩

theorem ctr_enqueue (d : Dev) (w : Waiter) (c : Nat) : (d.enqueue w).ctr c = d.ctr c := by
  obtain ⟨ls, h⟩ := enqueue_rest d w
  rw [h]
  rfl

theorem takeWait_waiters (d : Dev) (w : Waiter) : (d.takeWait w).tn.waiters = d.tn.waiters.filter (fun x => x != w) := by
  rw [Dev.takeWait]
  split
  · rw [Dev.applyConsume, Dev.addTo, wr_tn]
    rfl
  · rfl

/-- The device with a wait put in its queue and taken out, met. -/
def Dev.waited (d : Dev) (w : Waiter) : Dev := (d.enqueue w).takeWait w

theorem waited_counts (d : Dev) (w : Waiter) : Counts d (d.waited w) := (enqueue_counts d w).trans (takeWait_counts _ w)

theorem ctr_waited (d : Dev) (w : Waiter) (c : Nat) :
    (d.waited w).ctr c = if w.consume = true ∧ c = w.ctr then d.ctr c - w.amount else d.ctr c := by
  rw [Dev.waited, ctr_takeWait, ctr_enqueue]

theorem not_mem_waited (d : Dev) (w : Waiter) : w ∉ (d.waited w).tn.waiters := by
  rw [Dev.waited, takeWait_waiters]
  simp

/-- A SYNC whose last slot is met takes its wait and is done. -/
theorem sync_of_last (hf : d.findDesc t p = some y) (ho : y.opcode = 7) (hc : d.coreOn = true)
    (hph : y.phase = .started ∨ y.phase = .working) (hp : y.prog = 3) (hs : 2 ≤ (syncSlot y.bits y.prog).2.1)
    (hm : (d.enqueue (syncWait y.bits y.prog t p)).waitMet (syncWait y.bits y.prog t p) = true) :
    sync t p d = ((d.updDesc { y with phase := .working }).waited (syncWait y.bits y.prog t p)).updDesc
      { y with phase := .done, prog := 4 } := by
  obtain ⟨ht, hpos⟩ := findDesc_place hf
  have hf' := findDesc_updDesc (y := { y with phase := .working }) hf ht hpos
  have hlive := (waited_counts (d.updDesc { y with phase := .working }) (syncWait y.bits y.prog t p)).live
  have hnext := findDesc_updDesc (y := { y with phase := .working, prog := y.prog + 1 }) ((findDesc_of_live hlive).trans hf') ht hpos
  rw [sync_eq hf ho hc hph, syncRun_of_wait hf' (by simp only; omega) hs]
  dsimp only
  rw [if_pos (by rw [enqueue_updDesc, waitMet_updDesc, hm])]
  refine (syncRun_of_end hnext (by simp only; omega) 3).trans ?_
  rw [hp]
  exact updDesc_updDesc _ rfl rfl

end Sys2Proof.Machine
end

section
/-! A FENCE waits for what it covers and for its peers' packets (spec/05 R96, R97). -/
namespace Sys2Proof.Machine

variable {d e : Dev} {t : TroughId} {p : Nat} {y : Desc}

/-! ## FENCE and FENCE_CONDITION_MET -/

/-- A command that leaves the device as it is leaves the state. -/
theorem exec_of_act_same {i : Instr} {s : State} {f : Dev → Dev} (hx : exec i s = s.act f) (h : f s.dev = s.dev) :
    exec i s = .next s := by
  rw [hx, State.act, State.always, h, ite_self]

theorem fence_of_started (hf : d.findDesc t p = some y) (ho : y.opcode = 8) (hph : y.phase = .started) (hc : d.coreOn = true) :
    fence t p d = d.updDesc { y with phase := .working, aux := 0 } := by
  rw [fence, hf]
  exact if_pos ⟨ho, hph, hc⟩

theorem fenceConditionMet_of_unmet (hf : d.findDesc t p = some y) (h : d.fenceMet y = false) : fenceConditionMet t p d = d := by
  rw [fenceConditionMet, hf]
  exact if_neg (by simp [h])

/-- The FENCE at its barrier, its packets sent to the declared peers of its stall. -/
def Dev.sentBarriers (d : Dev) (n id : Nat) (y : Desc) : Dev :=
  (d.job n).decl.peers.foldl (fun d p => d.sendPacket 0 (d.packet pkBarrier p 0 n (leBytes 2 id) [])) (d.updDesc { y with aux := 1 })

theorem fenceConditionMet_of_met (hf : d.findDesc t p = some y) (ho : y.opcode = 8) (hph : y.phase = .working) (ha : y.aux = 0)
    (hc : d.coreOn = true) (h : d.fenceMet y = true) : fenceConditionMet t p d =
      if (Fence.of y.bits).barrier then
        (d.sentBarriers (d.stallOf t) (Fence.of y.bits).barId y).barrierDone { y with aux := 1 } (d.stallOf t)
      else d.updDesc { y with phase := .done } := by
  rw [fenceConditionMet, hf]
  exact if_pos ⟨ho, hph, ha, hc, h⟩

theorem sentBarriers_tn (d : Dev) (n id : Nat) (y : Desc) :
    (d.sentBarriers n id y).tn = (d.updDesc { y with aux := 1 }).tn :=
  (foldl_keeps (Sends _) _ (fun _ _ h => h.trans (sendPacket_sends _ _ _ _)) _ (.refl _)).tn

/-- The barrier packets of its peers that a FENCE uses up leave the counters and the descriptors. -/
theorem usedBarriers_leaves (d : Dev) (n id : Nat) (ps : List Nat) :
    let e := ps.foldl (fun d p => d.setBarriers (d.tn.barriers.erase (n, p, id))) d
    e.tn.rick = d.tn.rick ∧ e.tn.live = d.tn.live :=
  foldl_keeps (fun e => e.tn.rick = d.tn.rick ∧ e.tn.live = d.tn.live)
    (fun d p => d.setBarriers (d.tn.barriers.erase (n, p, id))) (fun _ _ h => h) ps ⟨rfl, rfl⟩

theorem barrierDone_leaves (hf : d.findDesc t p = some y) (n : Nat) :
    (d.barrierDone y n).tn.rick = d.tn.rick ∧ (d.barrierDone y n).findDesc t p = some { y with
      phase := if ∀ x ∈ (d.job n).decl.peers, (n, x, (Fence.of y.bits).barId) ∈ d.tn.barriers then .done else y.phase } := by
  obtain ⟨ht, hp⟩ := findDesc_place hf
  rw [Dev.barrierDone]
  split
  next hall =>
    have hin : ∀ x ∈ (d.job n).decl.peers, (n, x, (Fence.of y.bits).barId) ∈ d.tn.barriers := by simpa using hall
    obtain ⟨hrick, hlive⟩ := usedBarriers_leaves d n (Fence.of y.bits).barId (d.job n).decl.peers
    rw [if_pos hin]
    exact ⟨hrick, findDesc_updDesc ((findDesc_of_live hlive).trans hf) ht hp⟩
  next hall =>
    rw [if_neg (by simpa using hall)]
    exact ⟨rfl, hf⟩

/-- A FENCE whose condition is met sends its packets and is done if every peer's packet is in. -/
theorem fenceConditionMet_of_barrier (hf : d.findDesc t p = some y) (ho : y.opcode = 8) (hph : y.phase = .working) (ha : y.aux = 0)
    (hc : d.coreOn = true) (h : d.fenceMet y = true) (hb : (Fence.of y.bits).barrier = true) :
    let n := d.stallOf t
    (fenceConditionMet t p d).tn.rick = d.tn.rick ∧ (fenceConditionMet t p d).findDesc t p = some { y with
      aux := 1
      phase := if ∀ x ∈ (d.job n).decl.peers, (n, x, (Fence.of y.bits).barId) ∈ d.tn.barriers then .done else .working } := by
  intro n
  obtain ⟨ht, hp⟩ := findDesc_place hf
  have htn := sentBarriers_tn d n (Fence.of y.bits).barId y
  have hsent : (d.sentBarriers n (Fence.of y.bits).barId y).findDesc t p = some { y with aux := 1 } :=
    (findDesc_of_live (congrArg Tenancy.live htn)).trans (findDesc_updDesc hf ht hp)
  obtain ⟨hrick, hfind⟩ := barrierDone_leaves hsent n
  have hjob : (d.sentBarriers n (Fence.of y.bits).barId y).job n = d.job n := by
    rw [Dev.job, htn]
    rfl
  have hbarriers : (d.sentBarriers n (Fence.of y.bits).barId y).tn.barriers = d.tn.barriers := by
    rw [htn]
    rfl
  rw [htn] at hrick
  rw [hjob, hbarriers] at hfind
  rw [fenceConditionMet_of_met hf ho hph ha hc h, if_pos hb, ← hph]
  exact ⟨hrick, hfind⟩

/-! ## BARRIER_RECEIVE -/

theorem receive_of_first {cls v : Nat} {f : Packet → Dev → Option Dev} {x : Packet} {rest : List (Nat × Packet)} (hc : d.coreOn = true)
    (hr : firstRx (fun x => x.dst == d.node && x.cls == cls) [] [] (d.rxList p) = some (v, x, rest))
    (hf : f x (d.popRx p v x rest) = some e) : d.receive p cls f = e := by
  rw [Dev.receive, if_neg (by simp [hc]), hr]
  dsimp only
  rw [hf]

/-- Every open job that declares the sender takes a barrier packet. -/
def Dev.takeBarriers (d : Dev) (src id : Nat) (ns : List Nat) : Dev :=
  ns.foldl (fun d n => if d.openPeer n src then d.takeBarrier n src id else d) d

theorem takeBarriers_of_none {src id : Nat} {ns : List Nat} (h : ∀ m ∈ ns, d.openPeer m src = false) : d.takeBarriers src id ns = d := by
  induction ns with
  | nil => rfl
  | cons n ns ih =>
    rw [List.forall_mem_cons] at h
    rw [Dev.takeBarriers, List.foldl_cons, h.1]
    exact ih h.2

theorem openPeer_setBarriers (d : Dev) (bs : List (Nat × Nat × Nat)) (n src : Nat) :
    (d.setBarriers bs).openPeer n src = d.openPeer n src := by
  rw [Dev.openPeer, Dev.jobState, setBarriers_rd]
  rfl

/-- A packet that comes early is held. -/
theorem takeBarrier_of_early {n src id : Nat} (h16 : (d.setBarriers (d.tn.barriers ++ [(n, src, id)])).earlyBarriers n ≤ 16)
    (hl : ∀ y ∈ d.tn.live, y.atBarrier n id = false) :
    d.takeBarrier n src id = d.setBarriers (d.tn.barriers ++ [(n, src, id)]) := by
  have hnone : d.tn.live.find? (fun y => y.atBarrier n id) = none := List.find?_eq_none.mpr (fun y hy => by simp [hl y hy])
  have hlive : (d.setBarriers (d.tn.barriers ++ [(n, src, id)])).tn.live = d.tn.live := rfl
  rw [Dev.takeBarrier, if_neg (Nat.not_lt.mpr h16), hlive, hnone]

/-- Where one job declares the sender it alone takes the packet. -/
theorem takeBarriers_of_one {n src id : Nat} {ns : List Nat} (hd : ns.Nodup) (hn : n ∈ ns) (ho : d.openPeer n src = true)
    (h : ∀ m ∈ ns, m ≠ n → d.openPeer m src = false) (hk : ∀ m, (d.takeBarrier n src id).openPeer m src = d.openPeer m src) :
    d.takeBarriers src id ns = d.takeBarrier n src id := by
  obtain ⟨pre, post, rfl⟩ := List.append_of_mem hn
  obtain ⟨hpre, hpost⟩ : n ∉ pre ∧ n ∉ post := by
    rw [List.nodup_middle, List.nodup_cons, List.mem_append, not_or] at hd
    exact hd.1
  have hbefore : d.takeBarriers src id pre = d :=
    takeBarriers_of_none (fun m hm => h m (by simp [hm]) (fun he => hpre (he ▸ hm)))
  have hafter : (d.takeBarrier n src id).takeBarriers src id post = d.takeBarrier n src id :=
    takeBarriers_of_none (fun m hm => (hk m).trans (h m (by simp [hm]) (fun he => hpost (he ▸ hm))))
  rw [Dev.takeBarriers] at hbefore ⊢
  rw [List.foldl_append, hbefore, List.foldl_cons, if_pos ho]
  exact hafter

end Sys2Proof.Machine

namespace Sys2Proof
open Machine

/-- Settles O36: SYNC by its next slot, FENCE by its condition and its peers, a barrier packet by the jobs that declare its
sender. -/
theorem syncAndFence : Obligations.SyncAndFence := by
  intro s hcold hcore
  refine ⟨fun tr p y hf => ?_, fun p v x rest hrx => ?_⟩
  · obtain ⟨ht, hp⟩ := findDesc_place hf
    have hsync : ∀ {P : State → Prop}, P { s with dev := Machine.sync (troughOf tr) p.toNat s.dev } → Completes (.sync tr p) s P :=
      completes_of_act (f := Machine.sync (troughOf tr) p.toNat) rfl hcold
    have hcond : ∀ {P : State → Prop}, P { s with dev := Machine.fenceConditionMet (troughOf tr) p.toNat s.dev } →
        Completes (.fenceConditionMet tr p) s P :=
      completes_of_act (f := Machine.fenceConditionMet (troughOf tr) p.toNat) rfl hcold
    refine ⟨fun ho hph => ⟨fun hprog hsig => hsync ?_, fun hprog hkind => ⟨fun hunmet => hsync ?_, fun h3 hmet => hsync ?_⟩⟩,
      fun ho hph => ?_, fun ho hph haux => ⟨fun hunmet => ?_, fun hmet hb => hcond ?_, fun hmet hb => hcond ?_⟩⟩
    · rw [sync_of_signals hf ho hcore hph hprog hsig]
      exact ⟨findDesc_updDesc hf ht hp, rfl⟩
    · rw [sync_of_unmet hf ho hcore hph hprog hkind hunmet]
      have hlive := (enqueue_counts s.dev (syncWait y.bits y.prog (troughOf tr) p.toNat)).live
      refine ⟨findDesc_updDesc ((findDesc_of_live hlive).trans hf) ht hp, ?_⟩
      obtain ⟨ls, hrest⟩ := enqueue_rest s.dev (syncWait y.bits y.prog (troughOf tr) p.toNat)
      rw [hrest]
      exact ⟨ite_not .., rfl⟩
    · rw [sync_of_last hf ho hcore hph h3 hkind hmet]
      have hcounts := waited_counts (s.dev.updDesc { y with phase := .working }) (syncWait y.bits y.prog (troughOf tr) p.toNat)
      have hwork := (findDesc_of_live hcounts.live).trans (findDesc_updDesc (y := { y with phase := .working }) hf ht hp)
      refine ⟨rfl, findDesc_updDesc hwork ht hp, not_mem_waited _ _, fun c => (ctr_waited _ _ c).trans ?_, hcounts.mem⟩
      exact if_congr (and_congr_left' beq_iff_eq) rfl rfl
    · refine completes_of_act (f := Machine.fence (troughOf tr) p.toNat) rfl hcold ?_
      rw [fence_of_started hf ho hph hcore]
      exact ⟨findDesc_updDesc hf ht hp, rfl⟩
    · exact exec_of_act_same (f := Machine.fenceConditionMet (troughOf tr) p.toNat) rfl (fenceConditionMet_of_unmet hf hunmet)
    · rw [fenceConditionMet_of_met hf ho hph haux hcore hmet, if_neg (by simp [hb])]
      exact ⟨findDesc_updDesc hf ht hp, rfl⟩
    · obtain ⟨hrick, hfind⟩ := fenceConditionMet_of_barrier hf ho hph haux hcore hmet hb
      exact ⟨rfl, hrick, hfind⟩
  · intro d
    have hop : ∀ {P : State → Prop}, P { s with dev := d.takeBarriers x.src (x.fld 16 2) allStalls } →
        Completes (.barrierReceive p) s P := fun h =>
      completes_of_act (f := Machine.barrierReceive p) rfl hcold (by rwa [Machine.barrierReceive, receive_of_first hcore hrx rfl])
    refine ⟨fun hnone => hop ?_, fun n hn hopen hother h16 hlive => hop ?_⟩
    · rw [takeBarriers_of_none hnone]
    · have htake := takeBarrier_of_early h16 hlive
      rw [takeBarriers_of_one (by decide) hn hopen hother (fun m => by rw [htake, openPeer_setBarriers]), htake]

end Sys2Proof
end

section
/-! The refutation of the remote signals' rules: a resend writes the AVAIL field of the VC it goes on, which for a VC above 7
stands in a register of another kind. -/
namespace Sys2Proof.Machine

/-- A signal to node 7 on a VC that no LINK gives a signal: the AVAIL field of VC 96 of port 0 would stand in RANGE[0].HI, and
the word that counts as its credits is RANGE[4]. -/
def strayRsig : RSig := ⟨0, 7, 1, 96, 0, 4096, 1, .batch 0 0, 0⟩

/-- A signal to node 5 on VC 3. -/
def strandedRsig : RSig := ⟨0, 5, 1, 3, 0, 4096, 1, .batch 0 0, 1⟩

/-- Stall 0 has both signals pending. Node 7 is reached by port 0, which is ACTIVE, and node 5 by port 1, which is down. -/
def strayRsigDev : Dev :=
  let d := [(R.CLK_SRC_SEL_CORE_SRC, 1), (R.FUR_STAT_STATE 0, furActive), (R.FUR_NODE_ID, 9), (R.FUR_DEFAULT_PORT, 0),
    (R.FUR_RANGE_LO 0, 5), (R.FUR_RANGE_HI 0, 5), (R.FUR_RANGE_PORT 0, 1), (R.FUR_RANGE_PORT_EN 0, 1),
    (R.FUR_RANGE_LO 4, 1)].foldl (fun d p => d.wr p.1 p.2) Dev.reset
  { d with tn := { d.tn with rsigs := [strayRsig, strandedRsig] } }

set_option maxRecDepth 100000 in
/-- The resend may begin, and the signal to node 5 has its route by port 1. -/
theorem strayRsigDev_route : strayRsigDev.sy.coldHold = false ∧ strayRsigDev.coreOn = true ∧ strandedRsig.node ≠ strayRsigDev.node ∧
    strayRsigDev.route strandedRsig.node = some 1 ∧ strayRsigDev.furUp 1 = false := by decide

set_option maxRecDepth 100000 in
/-- The first signal leaves by port 0 and turns RANGE[0].HI into 1: the second goes the default way too, and port 1 gets none. -/
theorem rsigResend_strayRsigDev : ((rsigResend 0 strayRsigDev).link 1).txq = [] := by decide

/-- What the statement's clause of the resend would say of a signal whose port is not up. -/
theorem txq_of_remoteSignals (h : Obligations.RemoteSignals) {d : Dev} (n : Fin 9) (hcold : d.sy.coldHold = false)
    (hcore : d.coreOn = true) {r : RSig} (hr : r ∈ d.tn.rsigs) (hs : r.stall = n.val) (hn : r.node ≠ d.node) {q : Nat}
    (hq : d.route r.node = some q) (hup : d.furUp q = false) : ((rsigResend n d).link q).txq ≠ [] := by
  obtain ⟨-, -, hresend, -⟩ := h ⟨d, []⟩ 0 hcold hcore
  obtain ⟨-, -, -, hsig, -⟩ := of_completes_act (f := rsigResend n) rfl hcold (hresend n)
  obtain ⟨-, hport⟩ := hsig r hr hs
  exact List.ne_nil_of_mem (hport q hn hq hup _ (.head _))

end Sys2Proof.Machine

namespace Sys2Proof
open Machine

/-- Refutes O37: the clause of RSIG_RESEND speaks of every state, and in one where a pending signal rides a VC above 7 its
resend changes a route, so that the signal after it does not go to the port that its route gave. -/
theorem not_remoteSignals : ¬Obligations.RemoteSignals := by
  intro h
  obtain ⟨hcold, hcore, hnode, hroute, hdown⟩ := strayRsigDev_route
  exact txq_of_remoteSignals h 0 hcold hcore (r := strandedRsig) (.tail _ (.head _)) rfl hnode hroute hdown rsigResend_strayRsigDev

end Sys2Proof
end

section
/-! SUPPORT. Pieces of work that end well: what they read, and that of the device they change the memories' own words alone
(spec/04 R80, spec/12 R219, spec/08 R153, spec/11 R205). -/
namespace Sys2Proof.Machine

variable {d e : Dev} {t : TroughId}

/-! ## Work -/

theorem Work.check_eq_ok {b : Bool} {status : Nat} {u : Unit} : Work.check b status d = .ok u e ↔ b = true ∧ d = e := by
  cases b <;> simp [Work.check]

theorem getBytes_stores {a len : Nat} {bs : List Byte} (h : d.getBytes t a len = .ok bs e) : Stores d e := by
  rw [Dev.getBytes] at h
  split at h
  · cases h
  · split at h
    next hread =>
      split at h
      · cases h
      · cases h
        exact pathRead_stores hread
    next => cases h
    next => cases h

/-! ## The block of a SIFT -/

theorem fetch_stores {x : Sift} {ss : List Stage} {d : Dev} {ps : List (List Byte)}
    (h : loadBlock.fetch t x ss d = .ok ps e) : Stores d e := by
  induction ss generalizing d ps with
  | nil =>
    cases h
    exact .refl _
  | cons s ss ih =>
    obtain ⟨p, d1, hp, h⟩ := Work.bind_eq_ok h
    obtain ⟨_, d2, hok, h⟩ := Work.bind_eq_ok h
    obtain ⟨ps', d3, hps, hend⟩ := Work.bind_eq_ok h
    obtain ⟨-, rfl⟩ := Work.check_eq_ok.mp hok
    cases hend
    refine Stores.trans ?_ (ih hps)
    split at hp
    · cases hp
      exact .refl d
    · exact getBytes_stores hp

/-- A SIFT that gets its block has read it and changed nothing else. -/
theorem loadBlock_stores {x : Sift} {b : List Byte × List (List Byte)} (h : loadBlock t x d = .ok b e) : Stores d e := by
  rw [loadBlock] at h
  split at h
  · obtain ⟨blk, d1, hblk, h⟩ := Work.bind_eq_ok h
    obtain ⟨_, d2, hok, h⟩ := Work.bind_eq_ok h
    obtain ⟨ps, d3, hps, hend⟩ := Work.bind_eq_ok h
    obtain ⟨-, rfl⟩ := Work.check_eq_ok.mp hok
    cases hend
    exact (getBytes_stores hblk).trans (fetch_stores hps)
  · obtain ⟨head, d1, hhead, h⟩ := Work.bind_eq_ok h
    obtain ⟨_, d2, hok, h⟩ := Work.bind_eq_ok h
    obtain ⟨blk, d3, hblk, h⟩ := Work.bind_eq_ok h
    obtain ⟨_, d4, hcode, hend⟩ := Work.bind_eq_ok h
    obtain ⟨-, rfl⟩ := Work.check_eq_ok.mp hok
    obtain ⟨-, rfl⟩ := Work.check_eq_ok.mp hcode
    cases hend
    exact (getBytes_stores hhead).trans (getBytes_stores hblk)

/-! ## The checks of a SWAP -/

theorem troughDescs_stores (d : Dev) (base k : Nat) : Stores d (d.troughDescs base k).2 := by
  induction k generalizing d base with
  | zero => exact .refl d
  | succ k ih => exact (readLocs_stores d (siloSpan base 64)).trans (ih _ (base + 64))

/-- A SWAP that passes its checks has read its trough's descriptors and changed nothing else. -/
theorem swapCheck_stores {p : Nat} {b : DescWord} {m : Promo} (h : d.swapCheck t p b = .ok m e) :
    Stores d e ∧ m.trough = t ∧ m.pos = p := by
  simp only [Dev.swapCheck] at h
  iterate 3
    split at h
    · cases h
  split at h
  · cases h
  next trg _ =>
  split at h
  · cases h
  split at h
  · cases h
  split at h
  · cases h
  split at h
  · split at h
    · cases h
    · split at h
      · cases h
      · cases h
        exact ⟨troughDescs_stores d _ _, rfl, rfl⟩
  · cases h

end Sys2Proof.Machine
end

section
/-! A started descriptor of each class of unit is taken up (spec/07 R130, spec/08 R153, spec/12 R230, spec/14 R273, R276, spec/10
R197, spec/15 R299, spec/03 R56, spec/11 R205). -/
namespace Sys2Proof.Machine

variable {d e : Dev} {t : TroughId} {p fuel : Nat} {y : Desc}

/-! ## The units' work and the registers that show it -/

@[simp] theorem updDesc_rd (d : Dev) (y : Desc) (g : Fld) : (d.updDesc y).rd g = d.rd g := setLive_rd _ _ _
@[simp] theorem updDesc_mem (d : Dev) (y : Desc) : (d.updDesc y).mem = d.mem := rfl
@[simp] theorem updDesc_cp (d : Dev) (y : Desc) : (d.updDesc y).cp = d.cp := rfl
@[simp] theorem updDesc_ba (d : Dev) (y : Desc) : (d.updDesc y).ba = d.ba := rfl
@[simp] theorem updDesc_wn (d : Dev) (y : Desc) : (d.updDesc y).wn = d.wn := rfl
@[simp] theorem updDesc_stream (d : Dev) (y : Desc) (s : Nat) : (d.updDesc y).stream s = d.stream s := rfl

@[simp] theorem sifter_setSifter_same (d : Dev) (k : Nat) (x : Sifter) : (d.setSifter k x).sifter k = x := by
  rw [Dev.setSifter]
  dsimp only
  split <;> simp [Dev.sifter]

@[simp] theorem setSifter_tn (d : Dev) (k : Nat) (x : Sifter) : (d.setSifter k x).tn = d.tn := ((UnitWork.refl d).setSifter k x).tn

@[simp] theorem setSifter_mem (d : Dev) (k : Nat) (x : Sifter) : (d.setSifter k x).mem = d.mem := by
  rw [Dev.setSifter]
  dsimp only
  split <;> simp

@[simp] theorem channel_setChannel_same (d : Dev) (c : Nat) (x : Channel) : (d.setChannel c x).channel c = x := by
  simp [Dev.setChannel, Dev.channel]

@[simp] theorem setChannel_tn (d : Dev) (c : Nat) (x : Channel) : (d.setChannel c x).tn = d.tn := by simp [Dev.setChannel]
@[simp] theorem setChannel_mem (d : Dev) (c : Nat) (x : Channel) : (d.setChannel c x).mem = d.mem := by simp [Dev.setChannel]

@[simp] theorem path_setPath_same (d : Dev) (k : Nat) (x : Option PathRun) : (d.setPath k x).path k = x := by
  rw [Dev.setPath]
  dsimp only
  split <;> simp [Dev.path]

@[simp] theorem setPath_tn (d : Dev) (k : Nat) (x : Option PathRun) : (d.setPath k x).tn = d.tn := ((UnitWork.refl d).setPath k x).tn

@[simp] theorem setPath_mem (d : Dev) (k : Nat) (x : Option PathRun) : (d.setPath k x).mem = d.mem := by
  rw [Dev.setPath]
  dsimp only
  split <;> simp

/-- A receive path at work shows in STAT.PATHS. -/
theorem testBit_paths_setPath (d : Dev) {k : Nat} (hk : k < 7) (r : PathRun) :
    ((d.setPath k (some r)).rd R.BAL_STAT_PATHS).testBit k = true := by
  have hset : ∀ e : Dev, ((e.setBitOf R.BAL_STAT_PATHS k).rd R.BAL_STAT_PATHS).testBit k = true := fun e => by
    rw [rd_setBitOf_same, Nat.mod_eq_of_lt (setBit_lt (rd_lt e R.BAL_STAT_PATHS) hk), testBit_setBit_same]
  exact hset _

/-- A channel at work shows the state, the tag and the groups of its MOVE (Table 12-7). -/
theorem takeChannel_shows (d : Dev) (c : Nat) (y : Desc) (t : TroughId) (p : Nat) (h : Option (TroughId × Nat)) :
    let e := d.takeChannel c y ⟨some (t, p), h⟩
    e.channel c = ⟨some (t, p), h⟩ ∧ e.rd (R.TRN_CH_STAT_STATE c) = 1 ∧ e.rd (R.TRN_CH_STAT_TAG c) = y.tag ∧
    e.rd (R.TRN_CH_TOTAL c) = (Move.of y.bits).groups % 2 ^ 64 ∧ e.tn = d.tn ∧ e.mem = d.mem := by
  have htag : y.tag < 2 ^ 16 := bits_lt _ _ _
  refine ⟨?_, ?_, ?_, rd_wr_same _ _ _, by simp [Dev.takeChannel], by simp [Dev.takeChannel]⟩
  · simp [Dev.takeChannel, Dev.channel, Dev.setChannel]
  · simp (disch := exact apart_at_trough (by decide)) [Dev.takeChannel, Dev.setChannel, rd_wr_ne]
  · simp (disch := exact apart_at_trough (by decide)) [Dev.takeChannel, rd_wr_ne]
    exact htag

/-! ## Each class's command on a started descriptor -/

section Started

variable (hf : d.findDesc t p = some y) (hs : y.phase = .started)
include hf hs

theorem tileDesc_of_started (ho : y.opcode = 1) (hc : d.coreOn = true) :
    tileDesc t p d = d.updDesc { y with phase := .working } := by
  rw [tileDesc, hf]
  exact if_pos ⟨ho, hs, hc⟩

theorem sift_of_waiting (ho : y.opcode = 2) (hb : d.siftMayBegin y (Sift.of y.bits).sifter = false) : sift t p fuel d = d := by
  simp [sift, hf, ho, hs, hb]

/-- The run a SIFT begins with the block it read. -/
theorem sift_of_ready {blk : List Byte} {ps : List (List Byte)} (ho : y.opcode = 2)
    (hb : d.siftMayBegin y (Sift.of y.bits).sifter = true) (hl : loadBlock t (Sift.of y.bits) d = .ok (blk, ps) e)
    (hspan : (Sift.of y.bits).kind = 2 → (Sift.of y.bits).hopper = false → e.tineSpans t (Sift.of y.bits) blk = true) :
    let k := (Sift.of y.bits).sifter
    sift t p fuel d = (e.setSifter k { e.sifter k with cur := some (y.siftRun (e.stallOf t) blk ps) }).updDesc
      { y with phase := .working } := by
  have hok : ((Sift.of y.bits).kind != 2 || (Sift.of y.bits).hopper || e.tineSpans t (Sift.of y.bits) blk) = true := by
    by_cases hk : (Sift.of y.bits).kind = 2
    · cases hh : (Sift.of y.bits).hopper with
      | true => simp
      | false => simp [hspan hk hh]
    · simp [hk]
  simp [sift, hf, ho, hs, hb, hl, Work.bind, Work.check, hok, Work.close]

theorem move_of_waiting (ho : y.opcode = 3) (hb : d.moveMayBegin y (Move.of y.bits).chan = false) : move t p fuel d = d := by
  simp [move, hf, ho, hs, hb]

theorem move_of_ready (ho : y.opcode = 3) (hb : d.moveMayBegin y (Move.of y.bits).chan = true) :
    let c := (Move.of y.bits).chan
    move t p fuel d = (d.takeChannel c y ⟨some (t, p), (d.channel c).held⟩).updDesc { y with phase := .working } := by
  simp [move, hf, ho, hs, hb]

theorem bale_of_waiting (ho : y.opcode = 4) (hb : d.baleMayBegin y = false) : bale t p fuel d = d := by
  simp [bale, hf, ho, hs, hb]

/-- A BALE whose tables are good holds the Baler at block 0. -/
theorem bale_of_ready {tb : List Byte} (ho : y.opcode = 4) (hb : d.baleMayBegin y = true)
    (hg : d.getBytes t (Bale.of y.bits).tables (Bale.of y.bits).tableLen = .ok tb e)
    (ht : tablesOk (Bale.of y.bits).format (Bale.of y.bits).ntab tb = true) :
    bale t p fuel d = ((e.setBale (some ⟨t, p, 0, [], false, 0, 0, false⟩)).wr R.BAL_STAT_STALL (e.stallOf t)).updDesc
      { y with phase := .working } := by
  simp [bale, hf, ho, hs, hb, hg, Work.bind, Work.check, ht, Work.close]

theorem unbale_of_waiting {k : Nat} (ho : y.opcode = 5) (hk : d.pathOf (d.stallOf t) (Unbale.of y.bits) = some k)
    (hb : d.unbaleMayBegin y k = false) : unbale t p fuel d = d := by
  simp [unbale, hf, ho, hs, hk, hb]

theorem unbale_of_ready {k : Nat} (ho : y.opcode = 5) (h0 : (Unbale.of y.bits).src = 0)
    (hk : d.pathOf (d.stallOf t) (Unbale.of y.bits) = some k) (hb : d.unbaleMayBegin y k = true) :
    unbale t p fuel d = (d.setPath k (some ⟨t, p, [], false, none, 0, 0, [], false, false⟩)).updDesc
      { y with phase := .working } := by
  simp [unbale, hf, ho, hs, hk, hb, h0]

theorem winnow_of_waiting (ho : y.opcode = 6) (hb : d.winnowMayBegin y = false) : winnow t p fuel d = d := by
  simp [winnow, hf, ho, hs, hb]

theorem winnow_of_ready (ho : y.opcode = 6) (hb : d.winnowMayBegin y = true) (hm : (Winnow.of y.bits).mode ≠ 2) :
    let e := (d.setWin (some ⟨t, p, 0, 16, 0, 0, 0, false⟩)).wr R.WIN_STAT_MODE (Winnow.of y.bits).mode
    winnow t p fuel d = (e.wr R.WIN_STAT_STALL (e.stallOf t)).updDesc { y with phase := .working } := by
  simp [winnow, hf, ho, hs, hb, hm, Work.bind, Work.close]

theorem link_of_waiting (ho : y.opcode = 9) (hb : d.linkMayBegin y = false) : link t p fuel d = d := by
  simp [link, hf, ho, hs, hb]

theorem link_of_ready (ho : y.opcode = 9) (hb : d.linkMayBegin y = true) :
    link t p fuel d = d.updDesc { y with phase := .working } := by
  simp [link, hf, ho, hs, hb]

theorem port_of_behind (ho : y.opcode = 10) (hb : d.portBehind y = true) : port t p fuel d = d := by
  simp [port, hf, ho, hs, hb]

/-- A capture without RESULT on an enabled stream begins at the block it chose (R56). -/
theorem port_of_capture (ho : y.opcode = 10) (hb : d.portBehind y = false) (hk : (PortB.of y.bits).kind ≠ 2)
    (hr : (PortB.of y.bits).result = 0) (hen : d.on (R.SEQ_STRM_CFG_EN (PortB.of y.bits).stream) = true) :
    let next := d.nextBlock (PortB.of y.bits).stream (PortB.of y.bits).kind
    port t p fuel d = d.updDesc { y with
      phase := .working
      aux := if (PortB.of y.bits).atBlock ≠ 0 ∧ next ≤ (PortB.of y.bits).atBlock then (PortB.of y.bits).atBlock else next } := by
  have hen' : ∀ z, (d.updDesc z).on (R.SEQ_STRM_CFG_EN (PortB.of y.bits).stream) = true := fun z => by rw [Dev.updDesc, setLive_on, hen]
  simp [port, hf, ho, hs, hb, portBegin, hr, hk, Work.bind, hen', Work.close]

/-- A checked SWAP waits while a promotion of its stream is under way (R205). -/
theorem swap_of_promoting (ho : y.opcode = 11)
    (hq : d.au.checked.any (fun q => q.trough == t && q.pos == p) = true)
    (hp : d.rd (R.SEQ_PROMO_STAT_STATE (SwapB.of y.bits).stream) ≠ 0) : swap t p d = d := by
  have hwait : d.swapStart y = d := by
    rw [Dev.swapStart]
    split
    · exact if_pos (.inl hp)
    · rfl
  simp [swap, hf, ho, hs, hq, hwait]

end Started

/-! ## The start of a promotion -/

/-- A promotion starts: state 1 and the SWAP's tag show, and its descriptor works (R205, R207). -/
def Dev.promoStarted (d : Dev) (s : Nat) (y : Desc) (m : Promo) : Dev :=
  (((d.setPromo s (some m)).wr (R.SEQ_PROMO_STAT_STATE s) 1).wr (R.SEQ_PROMO_STAT_TAG s) y.tag).updDesc { y with phase := .working }

/-- A SWAP that is the first of its stream's checked ones starts its promotion. -/
theorem swapStart_of_first {m : Promo} {ms : List Promo} (hm : d.checkedOf (SwapB.of y.bits).stream = m :: ms)
    (hp : d.rd (R.SEQ_PROMO_STAT_STATE (SwapB.of y.bits).stream) = 0) (ht : m.trough = y.trough) (hpos : m.pos = y.pos) :
    d.swapStart y = (d.setChecked (d.au.checked.filter (fun q => q != m))).promoStarted (SwapB.of y.bits).stream y m := by
  rw [Dev.swapStart, hm]
  exact if_neg (by simp [hp, ht, hpos])

theorem promoStarted_shows (hf : d.findDesc t p = some y) (s : Nat) (m : Promo) :
    ((d.promoStarted s y m).stream s).promo = some m ∧ (d.promoStarted s y m).rd (R.SEQ_PROMO_STAT_STATE s) = 1 ∧
    (d.promoStarted s y m).rd (R.SEQ_PROMO_STAT_TAG s) = y.tag ∧
    (d.promoStarted s y m).findDesc t p = some { y with phase := .working } := by
  have htag : y.tag < 2 ^ 16 := bits_lt _ _ _
  obtain ⟨hy, hp⟩ := findDesc_place hf
  refine ⟨?_, ?_, ?_, findDesc_updDesc ((findDesc_of_live (by simp)).trans hf) hy hp⟩
  · simp [Dev.promoStarted, Dev.setPromo]
  · rw [Dev.promoStarted, updDesc_rd, rd_wr_ne _ _ (apart_of_bits (by decide) (.inr (by decide))), rd_wr_same]
    rfl
  · rw [Dev.promoStarted, updDesc_rd, rd_wr_same, Nat.mod_eq_of_lt htag]

theorem maskList_any_disabled {v : Nat} (h : ∀ b < 16, v.testBit b = true → d.domEn b = true) :
    (maskList 16 v).any (fun b => !d.domEn b) = false := by
  rw [List.any_eq_false]
  intro b hb
  obtain ⟨hlt, hbit⟩ := List.mem_filter.mp hb
  simp [h b (List.mem_range.mp hlt) hbit]

/-- A SWAP that passes its checks with none before it starts its promotion at once (R205, R207). -/
theorem swap_of_checked {m : Promo} (hf : d.findDesc t p = some y) (hs : y.phase = .started) (ho : y.opcode = 11)
    (hmode : d.sy.mode ≠ .inReset) (hc : d.swapCheck t p y.bits = .ok m e)
    (hnew : d.au.checked.any (fun q => q.trough == t && q.pos == p) = false)
    (hnone : d.checkedOf (SwapB.of y.bits).stream = [])
    (hbays : ∀ b < 16, (d.rd (R.SEQ_STRM_BAYS_STANDBY (SwapB.of y.bits).stream)).testBit b = true → d.domEn b = true)
    (hp : d.rd (R.SEQ_PROMO_STAT_STATE (SwapB.of y.bits).stream) = 0) :
    ∃ f : Dev, f.tn = d.tn ∧ swap t p d = f.promoStarted (SwapB.of y.bits).stream y m := by
  obtain ⟨hstores, ht, hpos⟩ := swapCheck_stores hc
  obtain ⟨hy, hyp⟩ := findDesc_place hf
  have hfind : ∀ q r, (e.setChecked (e.au.checked ++ [m])).findDesc q r = d.findDesc q r := fun q r =>
    findDesc_of_live (congrArg Tenancy.live hstores.tn)
  have hfirst : (e.setChecked (e.au.checked ++ [m])).checkedOf (SwapB.of y.bits).stream = [m] := by
    simp only [Dev.checkedOf, hfind] at hnone ⊢
    have hau : (e.setChecked (e.au.checked ++ [m])).au.checked = d.au.checked ++ [m] := by
      rw [Dev.setChecked, hstores.au]
    rw [hau, List.filter_append, hnone]
    simp [ht, hpos, hf]
  have hstate : (e.setChecked (e.au.checked ++ [m])).rd (R.SEQ_PROMO_STAT_STATE (SwapB.of y.bits).stream) = 0 := by
    have hs32 : (SwapB.of y.bits).stream < 2 ^ 5 := bits_lt _ _ _
    rw [setChecked_rd, hstores.rd (by simp only [Fld.words, A.SEQ_PROMO_STAT]; omega), hp]
  have hswap : swap t p d = (e.setChecked (e.au.checked ++ [m])).swapStart y := by
    simp [swap, hf, ho, hs, hmode, hnew, hc, maskList_any_disabled hbays]
  rw [hswap, swapStart_of_first hfirst hstate (ht.trans hy.symm) (hpos.trans hyp.symm)]
  refine ⟨_, ?_, rfl⟩
  exact hstores.tn

end Sys2Proof.Machine

namespace Sys2Proof
open Machine

/-- Settles O38, class by class: the command's own equation on a started descriptor, and what the unit then shows. -/
theorem unitsTakeUp : Obligations.UnitsTakeUp := by
  intro s tr p g y hcold hf hs
  obtain ⟨ht, hp⟩ := findDesc_place hf
  have hwork : ∀ {e : Dev}, e.tn = s.dev.tn → (e.updDesc { y with phase := .working }).findDesc (troughOf tr) p.toNat =
      some { y with phase := .working } := fun he =>
    findDesc_updDesc ((findDesc_of_live (congrArg Tenancy.live he)).trans hf) ht hp
  refine ⟨fun ho hc => ?_, fun ho => ⟨fun hb => ?_, fun blk ps d hb hl hspan => ?_⟩, fun ho => ⟨fun hb => ?_, fun hb => ?_⟩,
    fun ho => ⟨fun hb => ?_, fun tb d hb hg htab => ?_⟩, fun ho h0 k hk hpath => ⟨fun hb => ?_, fun hb => ?_⟩,
    fun ho => ⟨fun hb => ?_, fun hb hm => ?_⟩, fun ho => ⟨fun hb => ?_, fun hb => ?_⟩, fun ho hb => ?_, fun ho hb hk hr hen => ?_,
    fun ho hq hst => ?_, fun m d ho hmode hc hnew hnone hbays hst => ?_⟩
  · refine completes_of_act (f := tileDesc (troughOf tr) p.toNat) rfl hcold ?_
    rw [tileDesc_of_started hf hs ho hc]
    exact ⟨hwork rfl, rfl⟩
  · exact exec_of_act_same (f := sift (troughOf tr) p.toNat g.toNat) rfl (sift_of_waiting hf hs ho hb)
  · refine completes_of_act (f := sift (troughOf tr) p.toNat g.toNat) rfl hcold ?_
    rw [sift_of_ready hf hs ho hb hl hspan]
    have htn := (loadBlock_stores hl).tn
    exact ⟨rfl, congrArg Sifter.cur (sifter_setSifter_same _ _ _), hwork ((setSifter_tn _ _ _).trans htn), setSifter_mem _ _ _⟩
  · exact exec_of_act_same (f := move (troughOf tr) p.toNat g.toNat) rfl (move_of_waiting hf hs ho hb)
  · refine completes_of_act (f := move (troughOf tr) p.toNat g.toNat) rfl hcold ?_
    rw [move_of_ready hf hs ho hb]
    obtain ⟨hchan, hstate, htag, htotal, htn, hmem⟩ := takeChannel_shows s.dev (Move.of y.bits).chan y (troughOf tr) p.toNat
      (s.dev.channel (Move.of y.bits).chan).held
    exact ⟨rfl, congrArg Channel.cur hchan, (updDesc_rd _ _ _).trans hstate, (updDesc_rd _ _ _).trans htag,
      (updDesc_rd _ _ _).trans htotal, hwork htn, hmem⟩
  · exact exec_of_act_same (f := bale (troughOf tr) p.toNat g.toNat) rfl (bale_of_waiting hf hs ho hb)
  · refine completes_of_act (f := bale (troughOf tr) p.toNat g.toNat) rfl hcold ?_
    rw [bale_of_ready hf hs ho hb hg htab]
    have htn := (getBytes_stores hg).tn
    refine ⟨rfl, by simp [Dev.setBale], ?_, hwork (by simp [Dev.setBale, htn]), by simp [Dev.setBale]⟩
    rw [updDesc_rd, rd_wr_ne _ _ (by decide), Dev.setBale, rd_wr_same]
    rfl
  · exact exec_of_act_same (f := unbale (troughOf tr) p.toNat g.toNat) rfl (unbale_of_waiting hf hs ho hpath hb)
  · refine completes_of_act (f := unbale (troughOf tr) p.toNat g.toNat) rfl hcold ?_
    rw [unbale_of_ready hf hs ho h0 hpath hb]
    exact ⟨rfl, path_setPath_same _ _ _, testBit_paths_setPath _ hk _, hwork (setPath_tn _ _ _), setPath_mem _ _ _⟩
  · exact exec_of_act_same (f := winnow (troughOf tr) p.toNat g.toNat) rfl (winnow_of_waiting hf hs ho hb)
  · refine completes_of_act (f := winnow (troughOf tr) p.toNat g.toNat) rfl hcold ?_
    rw [winnow_of_ready hf hs ho hb hm]
    refine ⟨rfl, by simp [Dev.setWin], ?_, hwork (by simp [Dev.setWin]), by simp [Dev.setWin]⟩
    rw [updDesc_rd, rd_wr_ne _ _ (by decide), rd_wr_ne _ _ (by decide), Dev.setWin, rd_wr_same]
    rfl
  · exact exec_of_act_same (f := link (troughOf tr) p.toNat g.toNat) rfl (link_of_waiting hf hs ho hb)
  · refine completes_of_act (f := link (troughOf tr) p.toNat g.toNat) rfl hcold ?_
    rw [link_of_ready hf hs ho hb]
    exact ⟨hwork rfl, rfl⟩
  · exact exec_of_act_same (f := port (troughOf tr) p.toNat g.toNat) rfl (port_of_behind hf hs ho hb)
  · refine completes_of_act (f := port (troughOf tr) p.toNat g.toNat) rfl hcold ?_
    rw [port_of_capture hf hs ho hb hk hr hen]
    exact ⟨findDesc_updDesc hf ht hp, rfl⟩
  · exact exec_of_act_same (f := swap (troughOf tr) p.toNat) rfl (swap_of_promoting hf hs ho hq hst)
  · refine completes_of_act (f := swap (troughOf tr) p.toNat) rfl hcold ?_
    obtain ⟨f, htn, hswap⟩ := swap_of_checked hf hs ho hmode hc hnew hnone hbays hst
    rw [hswap]
    have hff : f.findDesc (troughOf tr) p.toNat = some y := (findDesc_of_live (congrArg Tenancy.live htn)).trans hf
    exact ⟨rfl, promoStarted_shows hff _ m⟩

end Sys2Proof
end

section
/-! SUPPORT. Words and fields of the bays' pages, and an operation done for each bay of a gang (spec/06 R106, R107). -/
namespace Sys2Proof.Machine

variable {d e f : Dev} {ks bs ws : List Nat} {b k lo w : Nat} {g : Fld}

/-! ## Gangs -/

theorem mem_gangBays {shape leader : Nat} : b ∈ gangBays shape leader ↔ leader ≤ b ∧ b < leader + shapeBays shape := by
  simp only [gangBays, List.mem_map, List.mem_range]
  constructor
  · rintro ⟨i, hi, rfl⟩
    omega
  · intro h
    exact ⟨b - leader, by omega, by omega⟩

theorem gangBays_nodup (shape leader : Nat) : (gangBays shape leader).Nodup :=
  List.nodup_range.map (fun _ _ h => Nat.add_left_cancel h)

theorem lt_of_mem_gangBays {shape leader : Nat} (h : gangOk shape leader = true) (hb : b ∈ gangBays shape leader) : b < 16 := by
  simp only [gangOk, Bool.and_eq_true, decide_eq_true_eq] at h
  obtain ⟨-, hle⟩ := h
  have := mem_gangBays.mp hb
  omega

/-! ## Words at offsets of the bays' pages -/

/-- The register words at the offsets `ks` of the pages of the bays `bs`. -/
def bayWords (ks bs : List Nat) : List Nat := bs.flatMap (fun b => ks.map (fun k => 0x30000 + b * 4096 + k))

theorem mem_bayWords {a : Nat} : a ∈ bayWords ks bs ↔ ∃ b ∈ bs, ∃ k ∈ ks, 0x30000 + b * 4096 + k = a := by
  simp [bayWords]

theorem bayWords_subset {js cs : List Nat} (hk : ks ⊆ js) (hb : bs ⊆ cs) : bayWords ks bs ⊆ bayWords js cs := by
  intro a ha
  obtain ⟨b, hmem, k, hk', rfl⟩ := mem_bayWords.mp ha
  exact mem_bayWords.mpr ⟨b, hb hmem, k, hk hk', rfl⟩

theorem outside_iff : g.outside ws = true ↔ ∀ i < g.words, g.addr + 4 * i ∉ ws := by
  simp [Fld.outside]

theorem outside_append {vs : List Nat} (h : g.outside ws = true) (h' : g.outside vs = true) : g.outside (ws ++ vs) = true := by
  rw [outside_iff] at *
  exact fun i hi hm => (List.mem_append.mp hm).elim (h i hi) (h' i hi)

theorem outside_mono {vs : List Nat} (h : g.outside ws = true) (hs : vs ⊆ ws) : g.outside vs = true := by
  rw [outside_iff] at *
  exact fun i hi hm => h i hi (hs hm)

/-- A field at an offset of a page, and offsets within the page. -/
def Fld.paged (f : Fld) (ks : List Nat) : Bool := decide (f.addr + 4 * f.words ≤ 4096) && ks.all (fun k => decide (k < 4096))

theorem paged_iff : g.paged ks = true ↔ g.addr + 4 * g.words ≤ 4096 ∧ ∀ k ∈ ks, k < 4096 := by
  simp [Fld.paged]

/-- A field at other offsets of the bays' pages. -/
theorem outside_of_offset (h : (⟨k, lo, w⟩ : Fld).outside ks = true) (hp : (⟨k, lo, w⟩ : Fld).paged ks = true) :
    (⟨0x30000 + b * 4096 + k, lo, w⟩ : Fld).outside (bayWords ks bs) = true := by
  obtain ⟨hk, hks⟩ := paged_iff.mp hp
  rw [outside_iff] at *
  intro i hi hm
  obtain ⟨c, -, j, hj, he⟩ := mem_bayWords.mp hm
  have hj' := hks j hj
  refine h i hi ?_
  have hi' : i < (⟨k, lo, w⟩ : Fld).words := hi
  obtain rfl : j = k + 4 * i := by
    simp only at hk he ⊢
    omega
  exact hj

/-- A field of another bay's page. -/
theorem outside_of_bay (hb : b ∉ bs) (hp : (⟨k, lo, w⟩ : Fld).paged ks = true) :
    (⟨0x30000 + b * 4096 + k, lo, w⟩ : Fld).outside (bayWords ks bs) = true := by
  obtain ⟨hk, hks⟩ := paged_iff.mp hp
  rw [outside_iff]
  intro i hi hm
  obtain ⟨c, hc, j, hj, he⟩ := mem_bayWords.mp hm
  have hj' := hks j hj
  have hi' : i < (⟨k, lo, w⟩ : Fld).words := hi
  obtain rfl : c = b := by
    simp only at hk he
    omega
  exact hb hc

/-- A field of a page above the bays'. -/
theorem outside_of_above (hg : 0x40000 ≤ g.addr) (hb : ∀ b ∈ bs, b < 16) (hk : ∀ k ∈ ks, k < 4096) :
    g.outside (bayWords ks bs) = true := by
  rw [outside_iff]
  intro i _ hm
  obtain ⟨c, hc, j, hj, he⟩ := mem_bayWords.mp hm
  have := hb c hc
  have := hk j hj
  omega

theorem within_bayWords_of_mem (hb : b ∈ bs) (h : (⟨k, lo, w⟩ : Fld).within ks = true) :
    (⟨0x30000 + b * 4096 + k, lo, w⟩ : Fld).within (bayWords ks bs) = true := by
  simp only [Fld.within, List.all_eq_true, List.mem_range, List.contains_iff_mem] at h ⊢
  intro i hi
  exact mem_bayWords.mpr ⟨b, hb, k + 4 * i, h i hi, by omega⟩

theorem within_bayWords (h : (⟨k, lo, w⟩ : Fld).within ks = true) :
    (⟨0x30000 + b * 4096 + k, lo, w⟩ : Fld).within (bayWords ks [b]) = true := within_bayWords_of_mem (.head _) h

theorem RegsOnly.setWords {a v : Nat} (h : RegsOnly d e ws) (hw : ∀ i < k, a + 4 * i ∈ ws) : RegsOnly d (e.setWords a k v) ws := by
  obtain ⟨r, hr⟩ := setWords_eq e a k v
  refine h.trans ⟨by rw [hr], fun _ hc => word_setWords_ne e a v k ?_⟩
  rintro i hi rfl
  exact hc (hw i hi)

theorem RegsOnly.setWord {a : Nat} (h : RegsOnly d e ws) (v : Nat) (ha : a ∈ ws) : RegsOnly d (e.setWord a v) ws :=
  h.trans ⟨rfl, fun _ hc => word_setWord_ne e v (fun he => hc (he ▸ ha))⟩

theorem RegsOnly.cp (h : RegsOnly d e ws) : e.cp = d.cp := by rw [h.rest]

/-! ## For each bay -/

/-- What an operation does to the pages of its bays, it does for all bays of a list. -/
theorem eachBay_regsOnly {op : Nat → Dev → Dev} (hop : ∀ b e, RegsOnly e (op b e) (bayWords ks [b])) (bs : List Nat) (d : Dev) :
    RegsOnly d (d.eachBay bs op) (bayWords ks bs) := by
  induction bs generalizing d with
  | nil => exact .refl d _
  | cons b bs ih =>
    have hb := (hop b d).mono (bayWords_subset (List.Subset.refl ks) (by simp : [b] ⊆ b :: bs))
    exact hb.trans ((ih (op b d)).mono (bayWords_subset (List.Subset.refl ks) (List.subset_cons_self b bs)))

/-- A field of one bay's page after an operation on bays that are all different. -/
theorem rd_eachBay {op : Nat → Dev → Dev} {F : Nat → Nat} (hop : ∀ c e, RegsOnly e (op c e) (bayWords ks [c]))
    (hp : (⟨k, lo, w⟩ : Fld).paged ks = true) (hn : bs.Nodup) (hb : b ∈ bs)
    (hF : ∀ e, (op b e).rd ⟨0x30000 + b * 4096 + k, lo, w⟩ = F (e.rd ⟨0x30000 + b * 4096 + k, lo, w⟩)) :
    (d.eachBay bs op).rd ⟨0x30000 + b * 4096 + k, lo, w⟩ = F (d.rd ⟨0x30000 + b * 4096 + k, lo, w⟩) := by
  obtain ⟨pre, post, rfl⟩ := List.append_of_mem hb
  obtain ⟨hpre, hpost⟩ : b ∉ pre ∧ b ∉ post := by
    rw [List.nodup_middle, List.nodup_cons, List.mem_append, not_or] at hn
    exact hn.1
  have hsplit : d.eachBay (pre ++ b :: post) op = (op b (d.eachBay pre op)).eachBay post op := by
    simp [Dev.eachBay]
  rw [hsplit, (eachBay_regsOnly hop post _).rd _ (outside_of_bay hpost hp), hF,
    (eachBay_regsOnly hop pre d).rd _ (outside_of_bay hpre hp)]

/-- A field that the operation sets to one value, whatever it was. -/
theorem rd_eachBay_const {op : Nat → Dev → Dev} {v : Nat} (hop : ∀ c e, RegsOnly e (op c e) (bayWords ks [c]))
    (hp : (⟨k, lo, w⟩ : Fld).paged ks = true) (hb : b ∈ bs) (hv : ∀ e, (op b e).rd ⟨0x30000 + b * 4096 + k, lo, w⟩ = v) :
    (d.eachBay bs op).rd ⟨0x30000 + b * 4096 + k, lo, w⟩ = v := by
  induction bs generalizing d with
  | nil => exact absurd hb List.not_mem_nil
  | cons c cs ih =>
    by_cases hc : b ∈ cs
    · exact ih (d := op c d) hc
    · obtain rfl := (List.mem_cons.mp hb).resolve_right hc
      exact ((eachBay_regsOnly hop cs (op b d)).rd _ (outside_of_bay hc hp)).trans (hv d)

/-! ## Devices that differ in their registers and in the bay sequencer's work -/

/-- `e` is `d` but for the bay sequencer's work and the register words at the BAR0 addresses `ws`. -/
structure BaysOnly (d e : Dev) (ws : List Nat) : Prop where
  rest : e = { d with regs := e.regs, cp := { d.cp with thr := e.cp.thr } }
  word : ∀ a, a ∉ ws → e.word a = d.word a

theorem BaysOnly.refl (d : Dev) (ws : List Nat) : BaysOnly d d ws := ⟨rfl, fun _ _ => rfl⟩

theorem BaysOnly.mono {vs : List Nat} (h : BaysOnly d e vs) (hs : vs ⊆ ws) : BaysOnly d e ws :=
  ⟨h.rest, fun a ha => h.word a (fun hv => ha (hs hv))⟩

theorem BaysOnly.trans {vs : List Nat} (h : BaysOnly d e ws) (h' : BaysOnly e f vs) : BaysOnly d f (ws ++ vs) := by
  obtain ⟨he, hw⟩ := h
  obtain ⟨hf, hw'⟩ := h'
  refine ⟨?_, fun a ha => ?_⟩
  · rw [he] at hf
    exact hf
  · rw [List.mem_append, not_or] at ha
    exact (hw' a ha.2).trans (hw a ha.1)

theorem RegsOnly.baysOnly (h : RegsOnly d e ws) : BaysOnly d e ws := by
  refine ⟨?_, h.word⟩
  obtain ⟨he, -⟩ := h
  rw [he]

theorem setThr_baysOnly (d : Dev) (x : Thresher) (ws : List Nat) : BaysOnly d (d.setThr x) ws := ⟨rfl, fun _ _ => rfl⟩

theorem BaysOnly.rd (h : BaysOnly d e ws) (g : Fld) (hg : g.outside ws = true) : e.rd g = d.rd g :=
  rd_of_words (fun i hi => h.word _ (outside_iff.mp hg i hi))

theorem BaysOnly.mem (h : BaysOnly d e ws) : e.mem = d.mem := by rw [h.rest]
theorem BaysOnly.tn (h : BaysOnly d e ws) : e.tn = d.tn := by rw [h.rest]
theorem BaysOnly.hops (h : BaysOnly d e ws) : e.cp.hops = d.cp.hops := by rw [h.rest]

theorem BaysOnly.foldl {α : Type} {op : Dev → α → Dev} {wf : α → List Nat} {xs : List α} {d : Dev}
    (hop : ∀ x ∈ xs, ∀ e, BaysOnly e (op e x) (wf x)) : BaysOnly d (xs.foldl op d) (xs.flatMap wf) := by
  induction xs generalizing d with
  | nil => exact .refl d _
  | cons x xs ih =>
    rw [List.flatMap_cons]
    exact (hop x (.head _) d).trans (ih (fun y hy => hop y (.tail _ hy)))

theorem BaysOnly.state_eq {s : State} (h : BaysOnly s.dev e ws) :
    ({ s with dev := e } : State) = { s with dev := { s.dev with regs := e.regs, cp := { s.dev.cp with thr := e.cp.thr } } } :=
  congrArg (fun x => ({ s with dev := x } : State)) h.rest

end Sys2Proof.Machine
end

section
/-! SUPPORT. A gang's phases, the run it shows, and the gangs that stay at full activity (spec/06 R116, R117, R128, spec/07 R139). -/
namespace Sys2Proof.Machine

variable {d e f : Dev} {bs ws : List Nat} {b : Nat}

/-- Offsets in a bay's page: ACT_STAT, the two words of BUSY_CYC, GANG, and the words a run's context shows in. -/
abbrev actOff : List Nat := [0x4c]
abbrev busyOff : List Nat := [0x58, 0x5c]
abbrev gangOff : List Nat := [0x44]
abbrev progOff : List Nat := [0x100, 0x104, 0x108, 0x10c, 0x110, 0x114, 0x118, 0x11c]

/-! ## Busy cycles and the ramp down -/

theorem busy_op_regsOnly (k b : Nat) (e : Dev) : RegsOnly e (e.addTo (R.THR_BUSY_CYC b) k) (bayWords busyOff [b]) :=
  (RegsOnly.refl e _).addTo _ _ (within_bayWords (by decide))

theorem busy_regsOnly (d : Dev) (bs : List Nat) (k : Nat) : RegsOnly d (d.busy bs k) (bayWords busyOff bs) :=
  eachBay_regsOnly (busy_op_regsOnly k) bs d

theorem rd_busy (d : Dev) (k : Nat) (hn : bs.Nodup) (hb : b ∈ bs) :
    (d.busy bs k).rd (R.THR_BUSY_CYC b) = (d.rd (R.THR_BUSY_CYC b) + k) % 2 ^ 64 :=
  rd_eachBay (F := fun v => (v + k) % 2 ^ 64) (busy_op_regsOnly k) (by decide) hn hb (fun e => rd_addTo_same e _ _)

theorem phase_op_regsOnly (v b : Nat) (e : Dev) : RegsOnly e (e.wr (R.THR_ACT_STAT_PHASE b) v) (bayWords actOff [b]) :=
  (RegsOnly.refl e _).wr _ _ (within_bayWords (by decide))

/-- The bays of a gang in a phase. -/
theorem rd_phases (d : Dev) {v : Nat} (hv : v < 4) (hb : b ∈ bs) :
    (d.eachBay bs (fun b d => d.wr (R.THR_ACT_STAT_PHASE b) v)).rd (R.THR_ACT_STAT_PHASE b) = v :=
  rd_eachBay_const (phase_op_regsOnly v) (by decide) hb (fun e => (rd_wr_same e _ _).trans (Nat.mod_eq_of_lt hv))

theorem phases_regsOnly (d : Dev) (bs : List Nat) (v : Nat) :
    RegsOnly d (d.eachBay bs (fun b d => d.wr (R.THR_ACT_STAT_PHASE b) v)) (bayWords actOff bs) :=
  eachBay_regsOnly (phase_op_regsOnly v) bs d

/-- A ramp down changes the phases of its bays, and is noted once among those that go on. -/
theorem rampDown_eq (d : Dev) (bs : List Nat) : d.rampDown bs =
    (d.eachBay bs (fun b d => d.wr (R.THR_ACT_STAT_PHASE b) 3)).setThr { d.cp.thr with
      falling := if bs ∈ d.cp.thr.falling then d.cp.thr.falling else d.cp.thr.falling ++ [bs] } := by
  have hcp := (phases_regsOnly d bs 3).cp
  rw [Dev.rampDown]
  dsimp only
  rw [hcp]
  by_cases hm : bs ∈ d.cp.thr.falling
  · rw [if_pos (by simpa using hm), if_pos hm, ← hcp]
    rfl
  · rw [if_neg (by simpa using hm), if_neg hm]

theorem rampDown_baysOnly (d : Dev) (bs : List Nat) : BaysOnly d (d.rampDown bs) (bayWords actOff bs) := by
  rw [rampDown_eq]
  exact ((phases_regsOnly d bs 3).baysOnly.trans (setThr_baysOnly _ _ [])).mono (by simp)

theorem rd_rampDown (d : Dev) (hb : b ∈ bs) : (d.rampDown bs).rd (R.THR_ACT_STAT_PHASE b) = 3 := by
  rw [rampDown_eq, setThr_rd, rd_phases d (by decide) hb]

/-- From `d` to `e` the phases stay, but for bays of `bs` that ramp down. -/
def Falls (d e : Dev) (bs : List Nat) : Prop := ∀ b, e.rd (R.THR_ACT_STAT_PHASE b) = d.rd (R.THR_ACT_STAT_PHASE b) ∨
  e.rd (R.THR_ACT_STAT_PHASE b) = 3 ∧ b ∈ bs

theorem Falls.trans {cs : List Nat} (h : Falls d e bs) (h' : Falls e f cs) : Falls d f (bs ++ cs) := by
  intro b
  obtain he | ⟨he, hb⟩ := h' b
  · rw [he]
    exact (h b).imp_right (fun ⟨h3, hm⟩ => ⟨h3, List.mem_append_left _ hm⟩)
  · exact .inr ⟨he, List.mem_append_right _ hb⟩

theorem rampDown_falls (d : Dev) (bs : List Nat) : Falls d (d.rampDown bs) bs := by
  intro b
  by_cases hb : b ∈ bs
  · exact .inr ⟨rd_rampDown d hb, hb⟩
  · exact .inl ((rampDown_baysOnly d bs).rd _ (outside_of_bay hb (by decide)))

theorem BaysOnly.falls {ks : List Nat} (h : BaysOnly d e (bayWords ks bs)) (hk : (⟨0x4c, 0, 2⟩ : Fld).outside ks = true)
    (hp : (⟨0x4c, 0, 2⟩ : Fld).paged ks = true) : Falls d e [] := fun _ => .inl (h.rd _ (outside_of_offset hk hp))

/-! ## Gangs that stay at full activity -/

/-- A gang that has waited `g.2` cycles at full activity: those of its bays that nothing else takes ramp down. -/
def Dev.standDown (d : Dev) (g : List Nat × Nat) (bs : List Nat) : Dev := (d.busy g.1 g.2).rampDown bs

theorem standDown_baysOnly (d : Dev) (g : List Nat × Nat) (bs : List Nat) :
    BaysOnly d (d.standDown g bs) (bayWords busyOff g.1 ++ bayWords actOff bs) :=
  (busy_regsOnly d g.1 g.2).baysOnly.trans (rampDown_baysOnly _ bs)

theorem standDown_falls (d : Dev) (g : List Nat × Nat) (bs : List Nat) : Falls d (d.standDown g bs) bs :=
  ((busy_regsOnly d g.1 g.2).baysOnly.falls (by decide) (by decide)).trans (rampDown_falls _ bs)

theorem standDown_thr (d : Dev) (g : List Nat × Nat) (bs : List Nat) :
    ∃ fs, (d.standDown g bs).cp.thr = { d.cp.thr with falling := fs } := by
  rw [Dev.standDown, rampDown_eq, (busy_regsOnly d g.1 g.2).cp]
  exact ⟨_, rfl⟩

/-- Several gangs that stand down, `part` of the bays of each. -/
def Dev.standDowns (d : Dev) (gs : List (List Nat × Nat)) (part : List Nat → List Nat) : Dev :=
  gs.foldl (fun d g => d.standDown g (part g.1)) d

theorem standDowns_baysOnly (d : Dev) (gs : List (List Nat × Nat)) (part : List Nat → List Nat) :
    BaysOnly d (d.standDowns gs part) (gs.flatMap (fun g => bayWords busyOff g.1 ++ bayWords actOff (part g.1))) :=
  BaysOnly.foldl (fun g _ e => standDown_baysOnly e g _)

theorem standDowns_falls (d : Dev) (gs : List (List Nat × Nat)) (part : List Nat → List Nat) :
    Falls d (d.standDowns gs part) (gs.flatMap (fun g => part g.1)) := by
  induction gs generalizing d with
  | nil => exact fun _ => .inl rfl
  | cons g gs ih => exact (standDown_falls d g (part g.1)).trans (ih _)

theorem standDowns_thr (d : Dev) (gs : List (List Nat × Nat)) (part : List Nat → List Nat) :
    ∃ fs, (d.standDowns gs part).cp.thr = { d.cp.thr with falling := fs } := by
  refine foldl_keeps (fun e => ∃ fs, e.cp.thr = { d.cp.thr with falling := fs }) _ (fun e g he => ?_) gs ⟨_, rfl⟩
  obtain ⟨fs, he⟩ := he
  obtain ⟨fs', hg⟩ := standDown_thr e g (part g.1)
  exact ⟨fs', by rw [hg, he]⟩

/-- Settling: the gangs that no queued pass keeps stand down whole. -/
theorem settleGangs_eq (d : Dev) (gone : TroughId → Bool) : ∃ stay : List Nat × Nat → Bool,
    d.settleGangs gone = (d.setThr { d.cp.thr with warm := d.cp.thr.warm.filter stay }).standDowns
      (d.cp.thr.warm.filter (fun g => !stay g)) id := ⟨_, rfl⟩

/-- The bays of the gangs that stay at full activity. -/
def Dev.warmBays (d : Dev) : List Nat := d.cp.thr.warm.flatMap (·.1)

theorem mem_warmBays : b ∈ d.warmBays ↔ ∃ g ∈ d.cp.thr.warm, b ∈ g.1 := List.mem_flatMap

theorem settleGangs_baysOnly (d : Dev) (gone : TroughId → Bool) :
    BaysOnly d (d.settleGangs gone) (bayWords (actOff ++ busyOff) d.warmBays) := by
  obtain ⟨stay, h⟩ := settleGangs_eq d gone
  rw [h]
  refine ((setThr_baysOnly d _ []).trans (standDowns_baysOnly _ _ id)).mono ?_
  intro a ha
  rw [List.nil_append, List.mem_flatMap] at ha
  obtain ⟨g, hg, ha⟩ := ha
  have hsub : g.1 ⊆ d.warmBays := fun b hb => mem_warmBays.mpr ⟨g, List.mem_of_mem_filter hg, hb⟩
  exact (List.mem_append.mp ha).elim (fun h => bayWords_subset (by decide) hsub h) (fun h => bayWords_subset (by decide) hsub h)

theorem settleGangs_falls (d : Dev) (gone : TroughId → Bool) : Falls d (d.settleGangs gone) d.warmBays := by
  obtain ⟨stay, h⟩ := settleGangs_eq d gone
  rw [h]
  intro b
  obtain hb | ⟨hb, hm⟩ := standDowns_falls (d.setThr { d.cp.thr with warm := d.cp.thr.warm.filter stay })
    (d.cp.thr.warm.filter (fun g => !stay g)) id b
  · exact .inl (hb.trans (setThr_rd _ _ _))
  · obtain ⟨g, hg, hb'⟩ := List.mem_flatMap.mp hm
    exact .inr ⟨hb, mem_warmBays.mpr ⟨g, List.mem_of_mem_filter hg, hb'⟩⟩

theorem settleGangs_work (d : Dev) (gone : TroughId → Bool) :
    (d.settleGangs gone).cp.thr.runs = d.cp.thr.runs ∧ (d.settleGangs gone).cp.thr.yielded = d.cp.thr.yielded := by
  obtain ⟨stay, h⟩ := settleGangs_eq d gone
  obtain ⟨fs, hthr⟩ := standDowns_thr (d.setThr { d.cp.thr with warm := d.cp.thr.warm.filter stay })
    (d.cp.thr.warm.filter (fun g => !stay g)) id
  rw [h, hthr]
  exact ⟨rfl, rfl⟩

@[simp] theorem settleGangs_runs (d : Dev) (gone : TroughId → Bool) : (d.settleGangs gone).cp.thr.runs = d.cp.thr.runs :=
  (settleGangs_work d gone).1

@[simp] theorem settleGangs_yielded (d : Dev) (gone : TroughId → Bool) :
    (d.settleGangs gone).cp.thr.yielded = d.cp.thr.yielded := (settleGangs_work d gone).2

theorem settleGangs_of_cold (gone : TroughId → Bool) (h : d.cp.thr.warm = []) : d.settleGangs gone = d := by
  obtain ⟨stay, hs⟩ := settleGangs_eq d gone
  rw [hs, h]
  change { d with cp := { d.cp with thr := { d.cp.thr with warm := [] } } } = d
  rw [← h]

end Sys2Proof.Machine
end

section
/-! SUPPORT. The run a gang shows, and a gang that is taken or lost (spec/06 R116, R117, R128, spec/07 R131, R139). -/
namespace Sys2Proof.Machine

variable {d e f : Dev} {bs : List Nat} {b : Nat} {r : TileRun}

theorem TileRun.bays_nodup (r : TileRun) : r.bays.Nodup := gangBays_nodup r.shape r.leader

theorem TileRun.lt_of_mem_bays (h : gangOk r.shape r.leader = true) (hb : b ∈ r.bays) : b < 16 := lt_of_mem_gangBays h hb

/-! ## Showing a run -/

theorem showAs_op_regsOnly (r : TileRun) (st b : Nat) (e : Dev) : RegsOnly e
    (((((((e.setWord (A.THR_PROG_CTX b) (r.ctxWord st)).setWord (A.THR_PROG_POS b) r.pos).setWord (A.THR_PROG_NM b) r.nmWord).setWord
      (A.THR_PROG_K b) r.kWord).wr (R.THR_FOLDS_DONE b) r.folds).wr (R.THR_FOLDS_TOTAL b) r.tile.total))
    (bayWords progOff [b]) := by
  have hw : ∀ k ∈ progOff, 0x30000 + b * 4096 + k ∈ bayWords progOff [b] := fun k hk =>
    mem_bayWords.mpr ⟨b, .head _, k, hk, rfl⟩
  exact ((((((RegsOnly.refl e _).setWord _ (hw _ (by decide))).setWord _ (hw _ (by decide))).setWord _ (hw _ (by decide))).setWord
    _ (hw _ (by decide))).wr _ _ (within_bayWords (by decide))).wr _ _ (within_bayWords (by decide))

theorem showAs_regsOnly (d : Dev) (r : TileRun) (st : Nat) : RegsOnly d (d.showAs r st) (bayWords progOff r.bays) :=
  eachBay_regsOnly (showAs_op_regsOnly r st) r.bays d

/-- A run that replaces the one of its gang. -/
theorem setRun_baysOnly (d : Dev) (r : TileRun) : BaysOnly d (d.setRun r) (bayWords progOff r.bays) :=
  ((setThr_baysOnly d _ []).trans (showAs_regsOnly _ r _).baysOnly).mono (by simp)

theorem setRun_thr (d : Dev) (r : TileRun) : (d.setRun r).cp.thr =
    { d.cp.thr with runs := d.cp.thr.runs.map (fun x => if x.leader = r.leader then r else x) } := by
  rw [Dev.setRun, Dev.showRun, (showAs_regsOnly _ r _).cp]
  rfl

theorem runAt_leader {g : Nat} (h : d.runAt g = some r) : r.leader = g := by simpa using List.find?_some h

theorem runAt_of_runs (h : e.cp.thr.runs = d.cp.thr.runs) (g : Nat) : e.runAt g = d.runAt g := by rw [Dev.runAt, h]; rfl

theorem RegsOnly.runAt {ws : List Nat} (h : RegsOnly d e ws) (g : Nat) : e.runAt g = d.runAt g := runAt_of_runs (by rw [h.cp]) g

/-- The gang's run after it is replaced. -/
theorem runAt_setRun {x : TileRun} (h : d.runAt r.leader = some x) : (d.setRun r).runAt r.leader = some r := by
  have hkey : (fun z : TileRun => z.leader == r.leader) ∘ (fun z => if z.leader = r.leader then r else z) =
      fun z => z.leader == r.leader := by
    funext z
    by_cases hz : z.leader = r.leader <;> simp [hz]
  have hfind : d.cp.thr.runs.find? (fun z => z.leader == r.leader) = some x := h
  rw [Dev.runAt, setRun_thr]
  dsimp only
  rw [List.find?_map, hkey, hfind, Option.map_some, if_pos (runAt_leader h)]

/-- What a run becomes on its gang. -/
theorem runAt_setRun_of {g : Nat} {x : TileRun} (h : d.runAt g = some x) (hr : r.leader = g) : (d.setRun r).runAt g = some r := by
  subst hr
  exact runAt_setRun h

/-! ## A gang loses its run -/

/-- The registers of a bay that no run holds any more. -/
def Dev.blankBay (d : Dev) (b : Nat) : Dev :=
  (((((d.setWords (A.THR_PROG_CTX b) 4 0).setWords (A.THR_FOLDS_DONE b) 4 0).wr (R.THR_ACT_STAT_FRONT b) 0).wr
    (R.THR_ACT_STAT_HELD b) 0).wr (R.THR_GANG_SHAPE b) 0).wr (R.THR_GANG_LEADER b) 0

theorem blankBay_regsOnly (b : Nat) (e : Dev) : RegsOnly e (e.blankBay b) (bayWords (gangOff ++ actOff ++ progOff) [b]) := by
  have hw : ∀ k, (∀ i < 4, k + 4 * i ∈ gangOff ++ actOff ++ progOff) → ∀ i < 4,
      0x30000 + b * 4096 + k + 4 * i ∈ bayWords (gangOff ++ actOff ++ progOff) [b] := fun k hk i hi =>
    mem_bayWords.mpr ⟨b, .head _, k + 4 * i, hk i hi, by omega⟩
  exact ((((((RegsOnly.refl e _).setWords (hw 0x100 (by decide))).setWords (hw 0x110 (by decide))).wr _ _
    (within_bayWords (by decide))).wr _ _ (within_bayWords (by decide))).wr _ _ (within_bayWords (by decide))).wr _ _
    (within_bayWords (by decide))

/-- The device with the run taken off its gang, whose registers show none. -/
def Dev.unplaced (d : Dev) (r : TileRun) : Dev :=
  (d.setThr { d.cp.thr with runs := d.cp.thr.runs.filter (fun x => x.leader != r.leader) }).eachBay r.bays (fun b d => d.blankBay b)

theorem unplaced_baysOnly (d : Dev) (r : TileRun) :
    BaysOnly d (d.unplaced r) (bayWords (gangOff ++ actOff ++ progOff) r.bays) :=
  ((setThr_baysOnly d _ []).trans (eachBay_regsOnly blankBay_regsOnly r.bays _).baysOnly).mono (by simp)

theorem unplaced_thr (d : Dev) (r : TileRun) :
    (d.unplaced r).cp.thr = { d.cp.thr with runs := d.cp.thr.runs.filter (fun x => x.leader != r.leader) } := by
  rw [Dev.unplaced, (eachBay_regsOnly blankBay_regsOnly r.bays _).cp]
  rfl

theorem clearRun_eq (d : Dev) (r : TileRun) (drain : Nat) : d.clearRun r drain =
    match (d.unplaced r).rd (R.THR_ACT_STAT_PHASE r.leader) with
    | 0 => d.unplaced r
    | 2 => (d.unplaced r).setThr { (d.unplaced r).cp.thr with warm := (d.unplaced r).cp.thr.warm ++ [(r.bays, drain)] }
    | _ => (d.unplaced r).rampDown r.bays := rfl

/-- A run that leaves its gang: the gang shows no run, and ramps down, stays at full activity, or was not active. -/
theorem clearRun_cases (d : Dev) (r : TileRun) (drain : Nat) : ∃ x : Thresher,
    (d.clearRun r drain = (d.unplaced r).setThr x ∨ d.clearRun r drain = (d.unplaced r).rampDown r.bays) ∧
    x.runs = (d.unplaced r).cp.thr.runs ∧ x.yielded = (d.unplaced r).cp.thr.yielded ∧ x.falling = (d.unplaced r).cp.thr.falling ∧
    (x.warm = d.cp.thr.warm ∨ x.warm = d.cp.thr.warm ++ [(r.bays, drain)]) := by
  have hwarm : (d.unplaced r).cp.thr.warm = d.cp.thr.warm := by rw [unplaced_thr]
  rw [clearRun_eq]
  split
  · exact ⟨(d.unplaced r).cp.thr, .inl rfl, rfl, rfl, rfl, .inl hwarm⟩
  · exact ⟨_, .inl rfl, rfl, rfl, rfl, .inr (by rw [hwarm])⟩
  · exact ⟨(d.unplaced r).cp.thr, .inr rfl, rfl, rfl, rfl, .inl hwarm⟩

theorem clearRun_baysOnly (d : Dev) (r : TileRun) (drain : Nat) :
    BaysOnly d (d.clearRun r drain) (bayWords (gangOff ++ actOff ++ progOff) r.bays) := by
  have h0 := unplaced_baysOnly d r
  obtain ⟨x, h | h, -⟩ := clearRun_cases d r drain
  · rw [h]
    exact (h0.trans (setThr_baysOnly _ x [])).mono (by simp)
  · rw [h]
    refine (h0.trans (rampDown_baysOnly _ r.bays)).mono (List.append_subset.mpr ⟨List.Subset.refl _, ?_⟩)
    exact bayWords_subset (by decide) (List.Subset.refl _)

theorem clearRun_thr (d : Dev) (r : TileRun) (drain : Nat) :
    (d.clearRun r drain).cp.thr.runs = d.cp.thr.runs.filter (fun x => x.leader ≠ r.leader) ∧
    (d.clearRun r drain).cp.thr.yielded = d.cp.thr.yielded ∧
    ∀ g ∈ (d.clearRun r drain).cp.thr.warm, g ∈ d.cp.thr.warm ∨ g.1 = r.bays := by
  have hthr := unplaced_thr d r
  have hruns : (d.unplaced r).cp.thr.runs = d.cp.thr.runs.filter (fun x => x.leader ≠ r.leader) := by
    rw [hthr]
    simp only [ne_eq, decide_not]
    rfl
  have hyielded : (d.unplaced r).cp.thr.yielded = d.cp.thr.yielded := by rw [hthr]
  obtain ⟨x, h | h, hr, hy, -, hw⟩ := clearRun_cases d r drain
  · rw [h]
    refine ⟨hr.trans hruns, hy.trans hyielded, fun g hg => ?_⟩
    have hg' : g ∈ x.warm := hg
    obtain hw | hw := hw
    · exact .inl (hw ▸ hg')
    · rw [hw, List.mem_append, List.mem_singleton] at hg'
      exact hg'.imp_right (fun he => by rw [he])
  · rw [h, rampDown_eq]
    refine ⟨hruns, hyielded, fun g hg => .inl ?_⟩
    have hg' : g ∈ (d.unplaced r).cp.thr.warm := hg
    rwa [hthr] at hg'

/-- A gang that loses its run shows no shape. -/
theorem rd_shape_clearRun (d : Dev) (r : TileRun) (drain : Nat) (hb : b ∈ r.bays) :
    (d.clearRun r drain).rd (R.THR_GANG_SHAPE b) = 0 := by
  have h0 : (d.unplaced r).rd (R.THR_GANG_SHAPE b) = 0 := by
    refine rd_eachBay_const blankBay_regsOnly (by decide) hb (fun e => ?_)
    rw [Dev.blankBay, rd_wr_ne _ _ (apart_of_bits (by decide) (.inr (by decide))), rd_wr_same]
    rfl
  obtain ⟨x, h | h, -⟩ := clearRun_cases d r drain
  · rw [h, setThr_rd, h0]
  · rw [h, (rampDown_baysOnly _ r.bays).rd _ (outside_of_offset (by decide) (by decide)), h0]

/-! ## A gang takes a run -/

/-- The mode word a run shows. -/
def TileRun.modeWord (r : TileRun) : Nat :=
  let x := r.tile
  x.mode + x.wp * 8 + x.ap * 32 + x.red * 256 + x.ewop * 1024 + (x.taps - 1) * 65536 + Machine.bits r.bits.toNat 143 2 * 2 ^ 20

/-- The registers of a bay that a run takes. -/
def Dev.markBay (d : Dev) (r : TileRun) (b : Nat) : Dev :=
  ((d.setWord (A.THR_CUR_MODE b) r.modeWord).wr (R.THR_GANG_SHAPE b) r.shape).wr (R.THR_GANG_LEADER b) r.leader

theorem markBay_regsOnly (r : TileRun) (b : Nat) (e : Dev) : RegsOnly e (e.markBay r b) (bayWords (0x40 :: gangOff) [b]) :=
  (((RegsOnly.refl e _).setWord _ (mem_bayWords.mpr ⟨b, .head _, 0x40, by decide, rfl⟩)).wr _ _ (within_bayWords (by decide))).wr
    _ _ (within_bayWords (by decide))

theorem placeRun_eq (d : Dev) (r : TileRun) : d.placeRun r =
    ((d.setThr { d.cp.thr with runs := d.cp.thr.runs ++ [r] }).eachBay r.bays (fun b d => d.markBay r b)).showRun r := rfl

theorem placeRun_baysOnly (d : Dev) (r : TileRun) :
    BaysOnly d (d.placeRun r) (bayWords (0x40 :: gangOff ++ progOff) r.bays) := by
  rw [placeRun_eq]
  refine (((setThr_baysOnly d _ []).trans (eachBay_regsOnly (markBay_regsOnly r) r.bays _).baysOnly).trans
    (showAs_regsOnly _ r _).baysOnly).mono ?_
  rw [List.nil_append, List.append_subset]
  exact ⟨bayWords_subset (by decide) (List.Subset.refl _), bayWords_subset (by decide) (List.Subset.refl _)⟩

theorem placeRun_thr (d : Dev) (r : TileRun) : (d.placeRun r).cp.thr = { d.cp.thr with runs := d.cp.thr.runs ++ [r] } := by
  rw [placeRun_eq, Dev.showRun, (showAs_regsOnly _ r _).cp, (eachBay_regsOnly (markBay_regsOnly r) r.bays _).cp]
  rfl

/-- The registers of a bay whose run begins with phase `v`: its front loads. -/
def Dev.loadBay (d : Dev) (v b : Nat) : Dev :=
  ((d.wr (R.THR_ACT_STAT_PHASE b) v).wr (R.THR_ACT_STAT_FRONT b) 1).wr (R.THR_ACT_STAT_FRONT_ROW b) 0

theorem loadBay_regsOnly (v b : Nat) (e : Dev) : RegsOnly e (e.loadBay v b) (bayWords actOff [b]) :=
  (((RegsOnly.refl e _).wr _ _ (within_bayWords (by decide))).wr _ _ (within_bayWords (by decide))).wr _ _
    (within_bayWords (by decide))

theorem rd_loadBay (d : Dev) {v : Nat} (hv : v < 4) (hb : b ∈ bs) :
    (d.eachBay bs (fun b d => d.loadBay v b)).rd (R.THR_ACT_STAT_PHASE b) = v ∧
    (d.eachBay bs (fun b d => d.loadBay v b)).rd (R.THR_ACT_STAT_FRONT b) = 1 := by
  constructor
  · refine rd_eachBay_const (loadBay_regsOnly v) (by decide) hb (fun e => ?_)
    rw [Dev.loadBay, rd_wr_ne _ _ (apart_of_bits (by decide) (.inr (by decide))),
      rd_wr_ne _ _ (apart_of_bits (by decide) (.inr (by decide))), rd_wr_same]
    exact Nat.mod_eq_of_lt hv
  · refine rd_eachBay_const (loadBay_regsOnly v) (by decide) hb (fun e => ?_)
    rw [Dev.loadBay, rd_wr_ne _ _ (apart_of_bits (by decide) (.inr (by decide))), rd_wr_same]
    rfl

/-! ## The ramp up -/

theorem rampLen_dvd (d : Dev) (bs : List Nat) : 16 ∣ d.rampLen bs := by
  refine List.foldlRecOn (motive := fun v => 16 ∣ v) _ _ (dvd_refl 16) (fun v hv x hx => ?_)
  obtain ⟨b, -, rfl⟩ := List.mem_map.mp hx
  obtain h | h := max_choice v (16 * (d.rd (R.THR_RAMP_CFG_LEN b) + 1))
  · rwa [h]
  · rw [h]
    exact dvd_mul_right 16 _

theorem rampLen_congr (h : ∀ b ∈ bs, e.rd (R.THR_RAMP_CFG_LEN b) = d.rd (R.THR_RAMP_CFG_LEN b)) : e.rampLen bs = d.rampLen bs := by
  rw [Dev.rampLen, Dev.rampLen]
  congr 1
  exact List.map_congr_left (fun b hb => by rw [h b hb])

/-- The bays of a gang that ramp down. -/
def Dev.downBays (d : Dev) (bs : List Nat) : List Nat := bs.filter (fun b => d.rd (R.THR_ACT_STAT_PHASE b) == 3)

/-- What a ramp up takes: no more than the full ramp, and that unless the whole gang turns round in its ramp down (R117). -/
theorem climb_leaves (d : Dev) (bs : List Nat) : ∃ k, BaysOnly { d with free := k } (d.climb bs).2 (bayWords busyOff bs) ∧
    (∃ fs, (d.climb bs).2.cp.thr = { d.cp.thr with falling := fs }) ∧ (d.climb bs).1 ≤ d.rampLen bs ∧
    ((∃ b ∈ bs, d.rd (R.THR_ACT_STAT_PHASE b) ≠ 3) → (d.climb bs).1 = d.rampLen bs) := by
  have hlen : 16 * (d.rampLen bs / 16) = d.rampLen bs := Nat.mul_div_cancel' (rampLen_dvd d bs)
  have hpart : d.downBays bs ⊆ bs := fun _ hb => List.mem_of_mem_filter hb
  by_cases hdown : (d.downBays bs).isEmpty = true
  · have hc : d.climb bs = (16 * (d.rampLen bs / 16), d) := if_pos hdown
    rw [hc]
    exact ⟨d.free, .refl _ _, ⟨_, rfl⟩, hlen.le, fun _ => hlen⟩
  · have hc : d.climb bs = (if (d.downBays bs).length = bs.length then d.freeNext.1 % 17 * (d.rampLen bs / 16)
        else 16 * (d.rampLen bs / 16), (d.freeNext.2.busy (d.downBays bs) (d.freeNext.1 % 17 * (d.rampLen bs / 16))).setThr
          { d.cp.thr with
            falling := (d.cp.thr.falling.map (fun g => g.filter (fun b => !bs.contains b))).filter (fun g => !g.isEmpty) }) := by
      rw [Dev.climb]
      exact if_neg hdown
    have hbusy := busy_regsOnly d.freeNext.2 (d.downBays bs) (d.freeNext.1 % 17 * (d.rampLen bs / 16))
    have hk : d.freeNext.1 % 17 * (d.rampLen bs / 16) ≤ 16 * (d.rampLen bs / 16) :=
      Nat.mul_le_mul_right _ (Nat.lt_succ_iff.mp (Nat.mod_lt _ (by decide)))
    rw [hc]
    refine ⟨d.free + 1, ?_, ⟨_, rfl⟩, ?_, fun ⟨b, hb, hne⟩ => ?_⟩
    · exact (hbusy.baysOnly.trans (setThr_baysOnly _ _ [])).mono (by
        rw [List.append_nil]
        exact bayWords_subset (List.Subset.refl _) hpart)
    · dsimp only
      split
      · omega
      · omega
    · have hlt : (d.downBays bs).length < bs.length :=
        List.length_filter_lt_length_iff_exists.mpr ⟨b, hb, by simpa using hne⟩
      rw [if_neg (by omega), hlen]

/-! ## The gang taken -/

/-- The gangs at full activity that a set of bays meets give way, but for those bays. -/
def Dev.yieldWarm (d : Dev) (bs : List Nat) : Dev :=
  let e := d.standDowns (d.cp.thr.warm.filter (fun g => g.1 != bs && overlap g.1 bs)) (fun g => g.filter (fun b => !bs.contains b))
  e.setThr { e.cp.thr with warm := e.cp.thr.warm.filter (fun g => !overlap g.1 bs) }

/-- The cycles of the ramp up of the bays `bs`: none where they stayed at full activity. -/
def Dev.rampFor (d : Dev) (active : Bool) (bs : List Nat) : Nat × Dev := if active then (0, d) else d.climb bs

/-- The run as its gang takes it, with a ramp of `n` cycles, or at full activity. -/
def TileRun.begun (r : TileRun) (active : Bool) (n : Nat) : TileRun :=
  { r with ramped := active, loaded := false, rampCyc := n, lead := some n }

/-- A gang takes up run `r` with phase `v`, and its front loads. -/
def Dev.beginRun (d : Dev) (r : TileRun) (v : Nat) : Dev := (d.placeRun r).eachBay r.bays (fun b d => d.loadBay v b)

theorem beginRun_leaves (d : Dev) (r : TileRun) {v : Nat} (hv : v < 4) :
    BaysOnly d (d.beginRun r v) (bayWords (0x40 :: gangOff ++ progOff ++ actOff) r.bays) ∧
    (d.beginRun r v).cp.thr = { d.cp.thr with runs := d.cp.thr.runs ++ [r] } ∧
    ∀ b ∈ r.bays, (d.beginRun r v).rd (R.THR_ACT_STAT_PHASE b) = v ∧ (d.beginRun r v).rd (R.THR_ACT_STAT_FRONT b) = 1 := by
  have hload := eachBay_regsOnly (loadBay_regsOnly v) r.bays (d.placeRun r)
  refine ⟨((placeRun_baysOnly d r).trans hload.baysOnly).mono (List.append_subset.mpr ⟨?_, ?_⟩), ?_, fun b hb => rd_loadBay _ hv hb⟩
  · exact bayWords_subset (by decide) (List.Subset.refl _)
  · exact bayWords_subset (by decide) (List.Subset.refl _)
  · rw [Dev.beginRun, hload.cp, placeRun_thr]

/-- Whether the gang of bays `bs` stays at full activity. -/
def Dev.activeGang (d : Dev) (bs : List Nat) : Bool := d.cp.thr.warm.any (fun g => g.1 == bs)

theorem takeGang_eq (d : Dev) (r : TileRun) : d.takeGang r =
    ((d.yieldWarm r.bays).rampFor (d.activeGang r.bays) r.bays).2.beginRun
      (r.begun (d.activeGang r.bays) ((d.yieldWarm r.bays).rampFor (d.activeGang r.bays) r.bays).1)
      (if d.activeGang r.bays then 2 else 1) := rfl

theorem yieldWarm_leaves (d : Dev) (bs : List Nat) :
    BaysOnly d (d.yieldWarm bs) (bayWords busyOff d.warmBays ++ bayWords actOff (d.warmBays.filter (fun b => !bs.contains b))) ∧
    Falls d (d.yieldWarm bs) (d.warmBays.filter (fun b => !bs.contains b)) ∧
    (d.yieldWarm bs).cp.thr.runs = d.cp.thr.runs ∧ (d.yieldWarm bs).cp.thr.yielded = d.cp.thr.yielded ∧
    (d.yieldWarm bs).cp.thr.warm = d.cp.thr.warm.filter (fun g => !overlap g.1 bs) := by
  let part : List Nat → List Nat := fun g => g.filter (fun b => !bs.contains b)
  let met := d.cp.thr.warm.filter (fun g => g.1 != bs && overlap g.1 bs)
  have hin : ∀ g ∈ met, g.1 ⊆ d.warmBays := fun g hg b hb => mem_warmBays.mpr ⟨g, List.mem_of_mem_filter hg, hb⟩
  have hpart : ∀ g ∈ met, part g.1 ⊆ d.warmBays.filter (fun b => !bs.contains b) := fun g hg b hb => by
    obtain ⟨hb, hne⟩ := List.mem_filter.mp hb
    exact List.mem_filter.mpr ⟨hin g hg hb, hne⟩
  obtain ⟨fs, hthr⟩ := standDowns_thr d met part
  refine ⟨((standDowns_baysOnly d met part).trans (setThr_baysOnly _ _ [])).mono ?_, fun b => ?_, ?_, ?_, ?_⟩
  · intro a ha
    rw [List.append_nil, List.mem_flatMap] at ha
    obtain ⟨g, hg, ha⟩ := ha
    obtain ha | ha := List.mem_append.mp ha
    · exact List.mem_append_left _ (bayWords_subset (List.Subset.refl _) (hin g hg) ha)
    · exact List.mem_append_right _ (bayWords_subset (List.Subset.refl _) (hpart g hg) ha)
  · obtain hb | ⟨hb, hm⟩ := standDowns_falls d met part b
    · exact .inl ((setThr_rd _ _ _).trans hb)
    · obtain ⟨g, hg, hb'⟩ := List.mem_flatMap.mp hm
      exact .inr ⟨(setThr_rd _ _ _).trans hb, hpart g hg hb'⟩
  · have hruns : (d.standDowns met part).cp.thr.runs = d.cp.thr.runs := by rw [hthr]
    exact hruns
  · have hyielded : (d.standDowns met part).cp.thr.yielded = d.cp.thr.yielded := by rw [hthr]
    exact hyielded
  · exact congrArg (fun x : Thresher => x.warm.filter (fun g => !overlap g.1 bs)) hthr

theorem rampFor_leaves (d : Dev) (active : Bool) (bs : List Nat) :
    ∃ k, BaysOnly { d with free := k } (d.rampFor active bs).2 (bayWords busyOff bs) ∧
    (∃ fs, (d.rampFor active bs).2.cp.thr = { d.cp.thr with falling := fs }) ∧
    (active = true → (d.rampFor active bs).1 = 0) ∧ (d.rampFor active bs).1 ≤ d.rampLen bs ∧
    (active = false → (∃ b ∈ bs, d.rd (R.THR_ACT_STAT_PHASE b) ≠ 3) → (d.rampFor active bs).1 = d.rampLen bs) := by
  cases active with
  | true => exact ⟨d.free, .refl _ _, ⟨_, rfl⟩, fun _ => rfl, Nat.zero_le _, fun h => absurd h (by decide)⟩
  | false =>
    obtain ⟨k, honly, hthr, hle, hfull⟩ := climb_leaves d bs
    exact ⟨k, honly, hthr, fun h => absurd h (by decide), hle, fun _ => hfull⟩

/-- `e` comes of `d` as run `r` takes its gang with a ramp of `n` cycles: of a gang at full activity there is none, else it is
the full ramp unless all its bays were falling; the bays outside stay in their phases or fall (R116, R117, R139). -/
structure TakesGang (d e : Dev) (r : TileRun) (n : Nat) : Prop where
  rest : e = { d with regs := e.regs, cp := { d.cp with thr := e.cp.thr }, free := e.free }
  runs : e.cp.thr.runs = d.cp.thr.runs ++ [r.begun (d.activeGang r.bays) n]
  yielded : e.cp.thr.yielded = d.cp.thr.yielded
  noRamp : d.activeGang r.bays = true → n = 0
  ramp_le : n ≤ d.rampLen r.bays
  fullRamp : d.activeGang r.bays = false → (∃ b ∈ r.bays, d.rd (R.THR_ACT_STAT_PHASE b) ≠ 3) → n = d.rampLen r.bays
  phase : ∀ b ∈ r.bays, e.rd (R.THR_ACT_STAT_PHASE b) = if d.activeGang r.bays then 2 else 1
  front : ∀ b ∈ r.bays, e.rd (R.THR_ACT_STAT_FRONT b) = 1
  others : ∀ b ∉ r.bays, e.rd (R.THR_ACT_STAT_PHASE b) = d.rd (R.THR_ACT_STAT_PHASE b) ∨
    e.rd (R.THR_ACT_STAT_PHASE b) = 3 ∧ ∃ w ∈ d.cp.thr.warm, b ∈ w.1

theorem not_mem_warmBays_of_filter {gs : List (List Nat × Nat)} (h : d.cp.thr.warm = gs.filter (fun g => !overlap g.1 bs))
    (hb : b ∈ bs) : b ∉ d.warmBays := by
  intro hw
  obtain ⟨g, hg, hbg⟩ := mem_warmBays.mp hw
  rw [h, List.mem_filter] at hg
  obtain ⟨-, hno⟩ := hg
  have hmeet : overlap g.1 bs = true := List.any_eq_true.mpr ⟨b, hbg, List.contains_iff_mem.mpr hb⟩
  rw [hmeet] at hno
  exact absurd hno (by decide)

theorem rest_of_free {k : Nat} {ws vs : List Nat} (h : BaysOnly d e ws) (h' : BaysOnly { e with free := k } f vs) :
    f = { d with regs := f.regs, cp := { d.cp with thr := f.cp.thr }, free := f.free } := by
  obtain ⟨he, -⟩ := h
  obtain ⟨hf, -⟩ := h'
  have hfree : f.free = k := by rw [hf]
  rw [he] at hf
  rw [hfree]
  exact hf

theorem takeGang_settled (d : Dev) (r : TileRun) : ∃ n, TakesGang d (d.takeGang r).settleGangs r n := by
  obtain ⟨hyOnly, hyFalls, hyRuns, hyYielded, hyWarm⟩ := yieldWarm_leaves d r.bays
  obtain ⟨k, hpOnly, ⟨fs, hpThr⟩, hp0, hpLe, hpFull⟩ := rampFor_leaves (d.yieldWarm r.bays) (d.activeGang r.bays) r.bays
  have hv : (if d.activeGang r.bays then 2 else 1) < 4 := by split <;> decide
  rw [takeGang_eq]
  generalize d.yieldWarm r.bays = y at *
  generalize y.rampFor (d.activeGang r.bays) r.bays = np at *
  obtain ⟨n, p⟩ := np
  obtain ⟨heOnly, heThr, hePhase⟩ := beginRun_leaves p (r.begun (d.activeGang r.bays) n) hv
  generalize p.beginRun (r.begun (d.activeGang r.bays) n) (if d.activeGang r.bays then 2 else 1) = e at *
  have hwarm : e.cp.thr.warm = d.cp.thr.warm.filter (fun g => !overlap g.1 r.bays) := by rw [heThr, ← hyWarm, hpThr]
  have hown : ∀ b ∈ r.bays, b ∉ e.warmBays := fun b hb => not_mem_warmBays_of_filter hwarm hb
  have hsub : ∀ b ∈ e.warmBays, ∃ w ∈ d.cp.thr.warm, b ∈ w.1 := fun b hb => by
    obtain ⟨g, hg, hbg⟩ := mem_warmBays.mp hb
    rw [hwarm] at hg
    exact ⟨g, List.mem_of_mem_filter hg, hbg⟩
  have hset := settleGangs_baysOnly e (fun _ => false)
  have hyOwn : ∀ b ∈ r.bays, y.rd (R.THR_ACT_STAT_PHASE b) = d.rd (R.THR_ACT_STAT_PHASE b) := fun b hb =>
    (hyFalls b).resolve_right (fun ⟨_, hm⟩ => by
      obtain ⟨-, hno⟩ := List.mem_filter.mp hm
      simp [hb] at hno)
  have hylen : y.rampLen r.bays = d.rampLen r.bays := rampLen_congr (fun b _ => hyOnly.rd _
    (outside_append (outside_of_offset (by decide) (by decide)) (outside_of_offset (by decide) (by decide))))
  refine ⟨n, ⟨?_, ?_, ?_, hp0, hylen ▸ hpLe, ?_, fun b hb => ?_, fun b hb => ?_, fun b hb => ?_⟩⟩
  · exact rest_of_free hyOnly ((hpOnly.trans heOnly).trans hset)
  · rw [settleGangs_runs, heThr, hpThr, ← hyRuns]
  · rw [settleGangs_yielded, heThr, hpThr, ← hyYielded]
  · intro hcold hone
    obtain ⟨b, hb, hne⟩ := hone
    rw [← hylen]
    exact hpFull hcold ⟨b, hb, by rwa [hyOwn b hb]⟩
  · exact (hset.rd _ (outside_of_bay (hown b hb) (by decide))).trans (hePhase b hb).1
  · exact (hset.rd _ (outside_of_bay (hown b hb) (by decide))).trans (hePhase b hb).2
  · have hpy : p.rd (R.THR_ACT_STAT_PHASE b) = y.rd (R.THR_ACT_STAT_PHASE b) :=
      (hpOnly.rd (R.THR_ACT_STAT_PHASE b) (outside_of_offset (by decide) (by decide))).trans (rd_of_words (fun _ _ => rfl))
    have hpe : e.rd (R.THR_ACT_STAT_PHASE b) = y.rd (R.THR_ACT_STAT_PHASE b) :=
      (heOnly.rd _ (outside_of_bay hb (by decide))).trans hpy
    obtain he | ⟨he, hm⟩ := settleGangs_falls e (fun _ => false) b
    · obtain hy | ⟨hy, hm⟩ := hyFalls b
      · exact .inl (he.trans (hpe.trans hy))
      · exact .inr ⟨he.trans (hpe.trans hy), mem_warmBays.mp (List.mem_of_mem_filter hm)⟩
    · exact .inr ⟨he, hsub b hm⟩

end Sys2Proof.Machine
end

section
/-! SUPPORT. A TILE asked to yield, its slot, its spill and its refill, and the release of batch work (spec/07 R139-R143). -/
namespace Sys2Proof.Machine

variable {d e f : Dev} {bs : List Nat} {b : Nat} {r : TileRun}

/-! ## The slots -/

/-- The seven words that show slot `s`. -/
def slotWords (s : Nat) : List Nat := (List.range 7).map (fun i => A.THR_SLOT_CTX s + 4 * i)

theorem within_slotWords {s k lo w : Nat} (h : (⟨k, lo, w⟩ : Fld).within [0x400, 0x404, 0x408, 0x40c, 0x410, 0x414, 0x418] = true) :
    (⟨0x30000 + k + s * 32, lo, w⟩ : Fld).within (slotWords s) = true := by
  simp only [Fld.within, List.all_eq_true, List.mem_range, List.contains_iff_mem] at h ⊢
  intro i hi
  have hm := h i hi
  refine List.mem_map.mpr ⟨(k + 4 * i - 0x400) / 4, ?_, ?_⟩
  · simp only [List.mem_cons, List.not_mem_nil, or_false] at hm
    rw [List.mem_range]
    omega
  · simp only [List.mem_cons, List.not_mem_nil, or_false] at hm
    simp only [A.THR_SLOT_CTX]
    omega

theorem showSlot_regsOnly (d : Dev) (s : Nat) (r : TileRun) : RegsOnly d (d.showSlot s r) (slotWords s) :=
  ((((((RegsOnly.refl d _).wr _ _ (within_slotWords (by decide))).wr _ _ (within_slotWords (by decide))).wr _ _
    (within_slotWords (by decide))).wr _ _ (within_slotWords (by decide))).wr _ _ (within_slotWords (by decide))).wr _ _
    (within_slotWords (by decide))

theorem freeSlot_regsOnly (d : Dev) (s : Nat) : RegsOnly d (d.freeSlot s) (slotWords s) :=
  (RegsOnly.refl d _).setWords (fun i hi => List.mem_map.mpr ⟨i, List.mem_range.mpr hi, rfl⟩)

/-- A field of a bay's page below the slots, which page 0x30 alone holds. -/
theorem outside_slotWords {s k lo w : Nat} (hs : s < 32) (hk : (⟨k, lo, w⟩ : Fld).addr + 4 * (⟨k, lo, w⟩ : Fld).words ≤ 0x400) :
    (⟨0x30000 + b * 4096 + k, lo, w⟩ : Fld).outside (slotWords s) = true := by
  rw [outside_iff]
  intro i hi hm
  obtain ⟨j, hj, he⟩ := List.mem_map.mp hm
  rw [List.mem_range] at hj
  have hi' : i < (⟨k, lo, w⟩ : Fld).words := hi
  simp only [A.THR_SLOT_CTX] at hk he
  omega

theorem slot_lt {sl : Nat} (h : yieldSlots.find? d.slotFree = some sl) : sl < 32 :=
  List.mem_range.mp (List.mem_of_find?_eq_some h)

/-! ## A request to yield -/

theorem progCtl_counted {q : Req} (h : d.on (R.THR_GANG_PINNED b) = true ∨
    ((d.runOn b).isSome = true ∧ (yieldSlots.filter d.slotFree).length < 16)) :
    d.progCtl q b 1 = d.perr (A.THR_PROG_CTL b) q causeValue := by
  rw [Dev.progCtl, if_neg (by decide)]
  by_cases hp : d.on (R.THR_GANG_PINNED b) = true
  · rw [if_pos hp]
  · obtain ⟨hrun, hfew⟩ := h.resolve_left hp
    obtain ⟨r, hr⟩ := Option.isSome_iff_exists.mp hrun
    rw [if_neg hp, hr]
    exact if_pos hfew

theorem progCtl_of_no_run {q : Req} (hp : d.on (R.THR_GANG_PINNED b) = false) (hr : d.runOn b = none) : d.progCtl q b 1 = d := by
  rw [Dev.progCtl, if_neg (by decide), if_neg (by simp [hp]), hr]

/-- A batch run with more than the fold in progress left is marked. -/
theorem askYield_of_batch (hb : r.trough.rt = none) (hf : r.folds < r.tile.folds)
    (hmore : r.ramped = true → r.loaded = true → r.folds + 1 < r.tile.folds) : d.askYield r = d.setRun { r with yielding := true } := by
  refine if_neg ?_
  rintro (h | h | ⟨hbegun, hlast⟩)
  · simp [hb] at h
  · omega
  · rw [Bool.and_eq_true] at hbegun
    have := hmore hbegun.1 hbegun.2
    omega

theorem progCtl_of_run {q : Req} (hp : d.on (R.THR_GANG_PINNED b) = false) (hr : d.runOn b = some r)
    (hfew : ¬(yieldSlots.filter d.slotFree).length < 16) : d.progCtl q b 1 = d.askYield r := by
  rw [Dev.progCtl, if_neg (by decide), if_neg (by simp [hp]), hr]
  exact if_neg hfew

theorem runAt_of_runOn (h : d.runOn b = some r) : ∃ x, d.runAt r.leader = some x :=
  Option.isSome_iff_exists.mp (List.find?_isSome.mpr ⟨r, List.mem_of_find?_eq_some h, by simp⟩)

/-! ## The fold boundary -/

/-- The bays count a yield that came after `latency` cycles. -/
def Dev.countYield (d : Dev) (bs : List Nat) (latency : Nat) : Dev :=
  d.eachBay bs (fun b d =>
    (d.bump (R.THR_YIELD_COUNT b)).wr (R.THR_YIELD_LAT_MAX_CYC b) (max latency (d.rd (R.THR_YIELD_LAT_MAX_CYC b))))

/-- A run in its slot. -/
def TileRun.inSlot (r : TileRun) (s : Nat) : TileRun :=
  { r with yielding := false, ramped := false, loaded := false, image := none, spilling := r.partially && r.refilled
           refilled := !r.partially, slot := some s }

theorem yieldOp_regsOnly (latency b : Nat) (e : Dev) : RegsOnly e ((e.bump (R.THR_YIELD_COUNT b)).wr (R.THR_YIELD_LAT_MAX_CYC b)
    (max latency (e.rd (R.THR_YIELD_LAT_MAX_CYC b)))) (bayWords [0x124, 0x128] [b]) :=
  ((RegsOnly.refl e _).bump _ _ (within_bayWords (by decide))).wr _ _ (within_bayWords (by decide))

theorem countYield_regsOnly (d : Dev) (bs : List Nat) (latency : Nat) :
    RegsOnly d (d.countYield bs latency) (bayWords [0x124, 0x128] bs) := eachBay_regsOnly (yieldOp_regsOnly latency) bs d

theorem rd_countYield (d : Dev) {latency : Nat} (hl : latency < 2 ^ 16) (hn : bs.Nodup) (hb : b ∈ bs) :
    (d.countYield bs latency).rd (R.THR_YIELD_COUNT b) = min (d.rd (R.THR_YIELD_COUNT b) + 1) maxWord ∧
    (d.countYield bs latency).rd (R.THR_YIELD_LAT_MAX_CYC b) = max latency (d.rd (R.THR_YIELD_LAT_MAX_CYC b)) := by
  constructor
  · refine rd_eachBay (F := fun v => min (v + 1) maxWord) (yieldOp_regsOnly latency) (by decide) hn hb (fun e => ?_)
    rw [rd_wr_ne _ _ (apart_at (by decide)), rd_bump_same]
    rfl
  · refine rd_eachBay (F := fun v => max latency v) (yieldOp_regsOnly latency) (by decide) hn hb (fun e => ?_)
    have hlt : e.rd (R.THR_YIELD_LAT_MAX_CYC b) < 2 ^ 16 := rd_lt e _
    rw [rd_wr_same]
    exact Nat.mod_eq_of_lt (max_lt hl hlt)

theorem yieldTake_late {g k : Nat} (h : 2048 < k) : yieldTake g k d = d := by
  rw [yieldTake]
  split
  · exact if_pos (by tauto)
  · rfl

/-- The device with the run out of its gang, whose bays go on to show it while it spills. -/
def Dev.leftGang (d : Dev) (r : TileRun) (k : Nat) (spilling : Bool) : Dev :=
  if spilling then ((d.countYield r.bays k).clearRun r (r.tile.rg + r.tile.cg)).showAs r 3
  else (d.countYield r.bays k).clearRun r (r.tile.rg + r.tile.cg)

/-- What a run that leaves its gang at a boundary leaves of the device. -/
theorem leftGang_leaves (d : Dev) (r : TileRun) {k : Nat} (hk : k < 2 ^ 16) (spilling : Bool) :
    BaysOnly d (d.leftGang r k spilling) (bayWords ([0x124, 0x128] ++ gangOff ++ actOff ++ progOff) r.bays) ∧
    (d.leftGang r k spilling).cp.thr.runs = d.cp.thr.runs.filter (fun x => x.leader ≠ r.leader) ∧
    (d.leftGang r k spilling).cp.thr.yielded = d.cp.thr.yielded ∧
    ∀ b ∈ r.bays, (d.leftGang r k spilling).rd (R.THR_YIELD_COUNT b) = min (d.rd (R.THR_YIELD_COUNT b) + 1) maxWord ∧
      (d.leftGang r k spilling).rd (R.THR_YIELD_LAT_MAX_CYC b) = max k (d.rd (R.THR_YIELD_LAT_MAX_CYC b)) ∧
      (d.leftGang r k spilling).rd (R.THR_GANG_SHAPE b) = 0 := by
  have hcount := countYield_regsOnly d r.bays k
  have hclear := clearRun_baysOnly (d.countYield r.bays k) r (r.tile.rg + r.tile.cg)
  obtain ⟨hruns, hyielded, -⟩ := clearRun_thr (d.countYield r.bays k) r (r.tile.rg + r.tile.cg)
  rw [hcount.cp] at hruns hyielded
  have hshow : RegsOnly ((d.countYield r.bays k).clearRun r (r.tile.rg + r.tile.cg)) (d.leftGang r k spilling)
      (bayWords progOff r.bays) := by
    rw [Dev.leftGang]
    split
    · exact showAs_regsOnly _ r 3
    · exact .refl _ _
  have hrd : ∀ g : Fld, g.outside (bayWords (gangOff ++ actOff ++ progOff) r.bays) = true →
      (d.leftGang r k spilling).rd g = (d.countYield r.bays k).rd g := fun g hg => (hshow.rd g (outside_mono hg
        (bayWords_subset (by decide) (List.Subset.refl _)))).trans (hclear.rd g hg)
  refine ⟨((hcount.baysOnly.trans hclear).trans hshow.baysOnly).mono ?_, ?_, ?_, fun b hb => ⟨?_, ?_, ?_⟩⟩
  · refine List.append_subset.mpr ⟨List.append_subset.mpr ⟨?_, ?_⟩, ?_⟩ <;>
      exact bayWords_subset (by decide) (List.Subset.refl _)
  · rw [hshow.cp, hruns]
  · rw [hshow.cp, hyielded]
  · rw [hrd _ (outside_of_offset (by decide) (by decide)), (rd_countYield d hk r.bays_nodup hb).1]
  · rw [hrd _ (outside_of_offset (by decide) (by decide)), (rd_countYield d hk r.bays_nodup hb).2]
  · rw [hshow.rd _ (outside_of_offset (by decide) (by decide)), rd_shape_clearRun _ r _ hb]

section Boundary
variable {g k sl : Nat} (hc : d.coreOn = true) (hr : d.runAt g = some r) (hs : yieldSlots.find? d.slotFree = some sl)
variable (hy : r.yielding = true) (hl : r.loaded = true → r.ramped = false) (hst : r.strips = []) (hfl : r.flying = 0)
variable (hk : k ≤ 2048)
include hc hr hs hy hl hst hfl hk

theorem yieldTake_of_boundary : yieldTake g k d =
    (((d.leftGang r k (r.inSlot sl).spilling).setThr { (d.leftGang r k (r.inSlot sl).spilling).cp.thr with
      yielded := (d.leftGang r k (r.inSlot sl).spilling).cp.thr.yielded ++ [r.inSlot sl] }).showSlot sl (r.inSlot sl)).settleGangs := by
  rw [yieldTake, hr, hs]
  refine if_neg ?_
  have hlr : ¬(r.loaded = true ∧ r.ramped = true) := fun ⟨h, h'⟩ => by simp [hl h] at h'
  simp [hc, hy, hst, hfl, hk, hlr]

/-- A yield at a fold boundary. -/
theorem yieldTake_leaves :
    (∃ ws, BaysOnly d (yieldTake g k d) ws) ∧
    (yieldTake g k d).cp.thr.runs = d.cp.thr.runs.filter (fun x => x.leader ≠ r.leader) ∧
    (yieldTake g k d).cp.thr.yielded = d.cp.thr.yielded ++ [r.inSlot sl] ∧
    ∀ b ∈ r.bays, (yieldTake g k d).rd (R.THR_YIELD_COUNT b) = min (d.rd (R.THR_YIELD_COUNT b) + 1) maxWord ∧
      (yieldTake g k d).rd (R.THR_YIELD_LAT_MAX_CYC b) = max k (d.rd (R.THR_YIELD_LAT_MAX_CYC b)) ∧
      (yieldTake g k d).rd (R.THR_GANG_SHAPE b) = 0 := by
  have hsl := slot_lt hs
  obtain ⟨honly, hruns, hyielded, hrd⟩ := leftGang_leaves d r (by omega : k < 2 ^ 16) (r.inSlot sl).spilling
  rw [yieldTake_of_boundary hc hr hs hy hl hst hfl hk]
  generalize d.leftGang r k (r.inSlot sl).spilling = e at *
  have hshow := showSlot_regsOnly (e.setThr { e.cp.thr with yielded := e.cp.thr.yielded ++ [r.inSlot sl] }) sl (r.inSlot sl)
  have hthr := congrArg Compute.thr hshow.cp
  generalize (e.setThr { e.cp.thr with yielded := e.cp.thr.yielded ++ [r.inSlot sl] }).showSlot sl (r.inSlot sl) = f at *
  have hset := settleGangs_baysOnly f (fun _ => false)
  have hf : ∀ b g lo w, (⟨g, lo, w⟩ : Fld).outside (actOff ++ busyOff) = true →
      (⟨g, lo, w⟩ : Fld).paged (actOff ++ busyOff) = true → g + 4 * (⟨g, lo, w⟩ : Fld).words ≤ 0x400 →
      f.settleGangs.rd ⟨0x30000 + b * 4096 + g, lo, w⟩ = e.rd ⟨0x30000 + b * 4096 + g, lo, w⟩ := fun b g lo w ho hp hg =>
    (hset.rd _ (outside_of_offset ho hp)).trans ((hshow.rd _ (outside_slotWords hsl hg)).trans (setThr_rd _ _ _))
  refine ⟨⟨_, ((honly.trans (setThr_baysOnly e _ [])).trans hshow.baysOnly).trans hset⟩, ?_, ?_, fun b hb => ?_⟩
  · rw [settleGangs_runs, hthr]
    exact hruns
  · rw [settleGangs_yielded, hthr, ← hyielded]
    rfl
  · rw [hf b 0x124 0 32 (by decide) (by decide) (by decide), hf b 0x128 0 16 (by decide) (by decide) (by decide),
      hf b 0x44 0 3 (by decide) (by decide) (by decide)]
    exact hrd b hb

end Boundary

/-! ## The save area -/

theorem Stores.cp (h : Stores d e) : e.cp = d.cp := by rw [h.rest]

theorem hideSpill_regsOnly (d : Dev) (r : TileRun) :
    RegsOnly d (d.hideSpill r) (bayWords progOff r.bays) := by
  refine eachBay_regsOnly (fun b e => ?_) r.bays d
  split
  · exact .refl e _
  · refine ((RegsOnly.refl e _).setWords fun i hi => ?_).setWords fun i hi => ?_
    · exact mem_bayWords.mpr ⟨b, .head _, 0x100 + 4 * i, by
        revert i
        decide, by simp only [A.THR_PROG_CTX]; omega⟩
    · exact mem_bayWords.mpr ⟨b, .head _, 0x110 + 4 * i, by
        revert i
        decide, by simp only [A.THR_FOLDS_DONE]; omega⟩

/-- A run in a slot whose sums lie in the save area. -/
def TileRun.spilled (r : TileRun) : TileRun := { r with spilling := false, acc := [] }

section Spill
variable {s : Nat} (hc : d.coreOn = true) (he : hostBase ≤ r.tile.saveBase → d.egress r.stall 0 = true)
variable (hs : d.cp.thr.yielded.find? (fun r => r.slot == some s && r.spilling) = some r)
variable (hw : d.pathWrite r.stall none r.tile.saveBase
  ((List.range r.tile.np).flatMap (fun j => spillLine (r.acc.getD j []))) = .done false e)
include hc he hs hw

theorem spillDone_of_written : spillDone s d = ((e.hideSpill r).setYielded s r.spilled).showSlot s r.spilled := by
  have hout : ¬(decide (hostBase ≤ r.tile.saveBase) && !d.egress r.stall 0) = true := fun h => by
    simp only [Bool.and_eq_true, decide_eq_true_eq, Bool.not_eq_true'] at h
    rw [he h.1] at h
    exact absurd h.2 (by decide)
  rw [spillDone, hs]
  dsimp only
  rw [if_neg (by simp [hc]), if_neg hout, hw]
  exact if_neg (by decide)

theorem spillDone_leaves : (spillDone s d).mem = e.mem ∧ (spillDone s d).cp.thr.runs = d.cp.thr.runs ∧
    (spillDone s d).cp.thr.yielded = d.cp.thr.yielded.map (fun x => if x.slot = some s then r.spilled else x) := by
  have hide := hideSpill_regsOnly e r
  have hshow := showSlot_regsOnly ((e.hideSpill r).setYielded s r.spilled) s r.spilled
  have hcp : (e.hideSpill r).cp = d.cp := hide.cp.trans (pathWrite_stores hw).cp
  rw [spillDone_of_written hc he hs hw, hshow.cp, hshow.baysOnly.mem]
  refine ⟨hide.baysOnly.mem, ?_, ?_⟩
  · change (e.hideSpill r).cp.thr.runs = _
    rw [hcp]
  · change (e.hideSpill r).cp.thr.yielded.map _ = _
    rw [hcp]

end Spill

/-- A run that has read its sums back. -/
def TileRun.refill (r : TileRun) (bs : List Byte) : TileRun :=
  { r with refilled := true, acc := (cutUp 1056 r.tile.np bs).map (refillLine (r.tile.rows r.mf)) }

theorem refillDone_of_read {g : Nat} {bs : List Byte} (hc : d.coreOn = true) (hr : d.runAt g = some r) (hf : r.refilled = false)
    (hp : d.pathRead r.stall none r.tile.saveBase (r.tile.np * 1056) = .data bs false e) :
    refillDone g d = e.setRun (r.refill bs) := by
  rw [refillDone, hr]
  dsimp only
  rw [if_neg (by simp [hc, hf]), hp]
  exact if_neg (by decide)

/-! ## A resumed TILE -/

/-- The device with slot `s` free again. -/
def Dev.emptySlot (d : Dev) (s : Nat) : Dev :=
  (d.setThr { d.cp.thr with yielded := d.cp.thr.yielded.filter (fun x => x.slot != some s) }).freeSlot s

/-- A run that comes out of its slot to the gang of bay `l`. -/
def TileRun.resumed (r : TileRun) (l : Nat) : TileRun := { r with leader := l, slot := none, refilled := !r.partially }

theorem tileResume_of_paused {s : Nat} (h : d.paused = true) : tileResume s d = d := by
  rw [tileResume]
  split
  · exact if_pos (.inr h)
  · rfl

theorem tileResume_of_gang {s l : Nat} (hy : d.cp.thr.yielded.find? (fun r => r.slot == some s && !r.spilling) = some r)
    (hc : d.coreOn = true) (hp : d.paused = false) (hdis : d.tileDisabled r.trough r.tile = false)
    (hl : d.pickGang r.trough r.tile = some l) (hb : d.behind r.trough r.order (gangBays r.shape l) = false) :
    tileResume s d = ((d.emptySlot s).takeGang (r.resumed l)).settleGangs := by
  rw [tileResume, hy]
  dsimp only
  rw [if_neg (by simp [hc, hp]), if_neg (by simp [hdis]), hl]
  exact if_neg (by simp [hb])

theorem emptySlot_baysOnly (d : Dev) (s : Nat) : BaysOnly d (d.emptySlot s) (slotWords s) :=
  ((setThr_baysOnly d _ []).trans (freeSlot_regsOnly _ s).baysOnly).mono (by simp)

theorem emptySlot_thr (d : Dev) (s : Nat) : (d.emptySlot s).cp.thr =
    { d.cp.thr with yielded := d.cp.thr.yielded.filter (fun x => x.slot != some s) } := by
  rw [Dev.emptySlot, (freeSlot_regsOnly _ s).cp]
  rfl

/-- What a TILE that resumes leaves of the device whose slot it was in. -/
theorem tileResume_leaves {s l n : Nat} (h : TakesGang (d.emptySlot s) e (r.resumed l) n) :
    e = { d with regs := e.regs, cp := { d.cp with thr := e.cp.thr }, free := e.free } ∧
    e.cp.thr.yielded = d.cp.thr.yielded.filter (fun x => x.slot ≠ some s) ∧
    e.cp.thr.runs = d.cp.thr.runs ++ [(r.resumed l).begun (d.activeGang (gangBays r.shape l)) n] := by
  have hthr := emptySlot_thr d s
  refine ⟨?_, ?_, ?_⟩
  · have hrest := h.rest
    rw [(emptySlot_baysOnly d s).rest] at hrest
    exact hrest
  · rw [h.yielded, hthr]
    refine List.filter_congr fun x _ => ?_
    rw [Bool.eq_iff_iff]
    simp
  · rw [h.runs, Dev.activeGang, hthr]
    rfl

/-! ## Batch work goes on -/

@[simp] theorem firstSend_cp (d : Dev) (p : Nat) (x : Flit) : (d.firstSend p x).cp = d.cp := by
  simp [Dev.firstSend, Dev.showAvail, Dev.emitFlit, Dev.emitBlock]

@[simp] theorem pump_cp (d : Dev) (p k : Nat) : (d.pump p k).cp = d.cp := by
  induction k generalizing d with
  | zero => rfl
  | succ k ih =>
    rw [Dev.pump]
    split
    · split
      · simp [ih]
      · rfl
    · rfl

/-- All ports send what they can. -/
def Dev.pumpPorts (d : Dev) : Dev := furPorts.foldl Dev.pumpAll d

theorem pumpPorts_sends (d : Dev) : Sends d d.pumpPorts :=
  foldl_keeps (Sends d) Dev.pumpAll (fun _ p h => h.pump p _) furPorts (.refl d)

theorem pumpPorts_cp (d : Dev) : d.pumpPorts.cp = d.cp :=
  foldl_keeps (fun e => e.cp = d.cp) Dev.pumpAll (fun e p h => (pump_cp e p _).trans h) furPorts rfl

theorem pumpAll_of_idle {p : Nat} (h : (d.link p).txq = []) : d.pumpAll p = d := by
  rw [Dev.pumpAll, h]
  rfl

theorem pumpPorts_of_idle (h : ∀ p < 4, (d.link p).txq = []) : d.pumpPorts = d := by
  rw [Dev.pumpPorts, furPorts, List.foldl_cons, List.foldl_cons, List.foldl_cons, List.foldl_cons, List.foldl_nil,
    pumpAll_of_idle (h 0 (by decide)), pumpAll_of_idle (h 1 (by decide)), pumpAll_of_idle (h 2 (by decide)),
    pumpAll_of_idle (h 3 (by decide))]

theorem b2n_on {g : Fld} (hg : g.width = 1) : b2n (d.on g) = d.rd g := by
  cases h : d.on g with
  | false =>
    rw [Dev.on, bne_eq_false_iff_eq] at h
    rw [h]
    rfl
  | true => exact (rd_of_on hg h).symm

/-- BATCH_CTL after a release: RELEASE set, CAUSE_STEWARD clear, and PAUSED as CAUSE_THERMAL has it. -/
def Dev.released (d : Dev) : Dev :=
  let e := (d.wr R.THR_BATCH_CTL_RELEASE 1).wr R.THR_BATCH_CTL_CAUSE_STEWARD 0
  e.wr R.THR_BATCH_CTL_PAUSED (b2n (e.on R.THR_BATCH_CTL_CAUSE_STEWARD || e.on R.THR_BATCH_CTL_CAUSE_THERMAL))

theorem batchRelease_eq (d : Dev) : d.batchRelease 2 = d.released.pumpPorts.settleGangs := by
  rw [Dev.batchRelease, if_pos (by decide)]
  rfl

theorem released_regsOnly (d : Dev) : RegsOnly d d.released [A.THR_BATCH_CTL] :=
  (((RegsOnly.refl d _).wr _ _ (by decide)).wr _ _ (by decide)).wr _ _ (by decide)

theorem released_shows (d : Dev) : d.released.rd R.THR_BATCH_CTL_RELEASE = 1 ∧ d.released.rd R.THR_BATCH_CTL_CAUSE_STEWARD = 0 ∧
    d.released.rd R.THR_BATCH_CTL_CAUSE_THERMAL = d.rd R.THR_BATCH_CTL_CAUSE_THERMAL ∧
    d.released.rd R.THR_BATCH_CTL_PAUSED = d.rd R.THR_BATCH_CTL_CAUSE_THERMAL := by
  let e := (d.wr R.THR_BATCH_CTL_RELEASE 1).wr R.THR_BATCH_CTL_CAUSE_STEWARD 0
  have hthermal : e.rd R.THR_BATCH_CTL_CAUSE_THERMAL = d.rd R.THR_BATCH_CTL_CAUSE_THERMAL :=
    (rd_wr_ne _ _ (by decide)).trans (rd_wr_ne _ _ (by decide))
  have hsteward : e.on R.THR_BATCH_CTL_CAUSE_STEWARD = false := on_of_rd (on := false) (rd_wr_same _ _ _)
  have hpaused : d.released = e.wr R.THR_BATCH_CTL_PAUSED (d.rd R.THR_BATCH_CTL_CAUSE_THERMAL) := by
    rw [← hthermal, ← b2n_on rfl, ← Bool.false_or (e.on R.THR_BATCH_CTL_CAUSE_THERMAL), ← hsteward]
    rfl
  have hother : ∀ g : Fld, R.THR_BATCH_CTL_PAUSED.apart g = true → d.released.rd g = e.rd g := fun g hg => by
    rw [hpaused, rd_wr_ne _ _ hg]
  refine ⟨?_, ?_, ?_, ?_⟩
  · exact (hother _ (by decide)).trans ((rd_wr_ne _ _ (by decide)).trans (rd_wr_same _ _ _))
  · exact (hother _ (by decide)).trans (rd_wr_same _ _ _)
  · exact (hother _ (by decide)).trans hthermal
  · rw [hpaused, rd_wr_same]
    exact Nat.mod_eq_of_lt (rd_lt d R.THR_BATCH_CTL_CAUSE_THERMAL)

theorem batchRelease_baysOnly (d : Dev) :
    BaysOnly d.released.pumpPorts (d.batchRelease 2) (bayWords (actOff ++ busyOff) d.warmBays) := by
  have hset := settleGangs_baysOnly d.released.pumpPorts (fun _ => false)
  have hwarm : d.released.pumpPorts.warmBays = d.warmBays := by
    rw [Dev.warmBays, pumpPorts_cp, (released_regsOnly d).cp]
    rfl
  rw [hwarm] at hset
  rwa [batchRelease_eq]

theorem rd_batchRelease (d : Dev) {lo w : Nat} (h0 : 0 < lo + w) (h : lo + w ≤ 32) :
    (d.batchRelease 2).rd ⟨A.THR_BATCH_CTL, lo, w⟩ = d.released.rd ⟨A.THR_BATCH_CTL, lo, w⟩ := by
  have hw : (⟨A.THR_BATCH_CTL, lo, w⟩ : Fld).words = 1 := words_of_le h0 h
  have hp : d.released.pumpPorts.rd ⟨A.THR_BATCH_CTL, lo, w⟩ = d.released.rd ⟨A.THR_BATCH_CTL, lo, w⟩ :=
    (pumpPorts_sends _).rd (by rw [hw]; exact (by decide : A.THR_BATCH_CTL + 4 * 1 ≤ 0x48000))
  refine ((batchRelease_baysOnly d).rd _ ?_).trans hp
  rw [outside_iff, hw]
  intro i hi hm
  obtain ⟨b, -, k, hk, he⟩ := mem_bayWords.mp hm
  obtain rfl : i = 0 := by omega
  simp only [A.THR_BATCH_CTL, List.mem_append, List.mem_cons, List.not_mem_nil, or_false] at hk he
  omega

theorem batchRelease_work (d : Dev) : (d.batchRelease 2).mem = d.mem ∧ (d.batchRelease 2).tn = d.tn ∧
    (d.batchRelease 2).cp.thr.runs = d.cp.thr.runs ∧ (d.batchRelease 2).cp.thr.yielded = d.cp.thr.yielded := by
  have honly := batchRelease_baysOnly d
  have hsend := pumpPorts_sends d.released
  have hreg := (released_regsOnly d).baysOnly
  have hcp : d.released.pumpPorts.cp = d.cp := (pumpPorts_cp _).trans (released_regsOnly d).cp
  refine ⟨honly.mem.trans (hsend.mem.trans hreg.mem), honly.tn.trans (hsend.tn.trans hreg.tn), ?_, ?_⟩
  · rw [batchRelease_eq, settleGangs_runs, hcp]
  · rw [batchRelease_eq, settleGangs_yielded, hcp]

theorem batchRelease_of_idle (hw : d.cp.thr.warm = []) (h : ∀ p < 4, (d.link p).txq = []) :
    RegsOnly d (d.batchRelease 2) [A.THR_BATCH_CTL] := by
  have hreg := released_regsOnly d
  have hlink : ∀ p, d.released.link p = d.link p := fun p => by
    rw [hreg.rest]
    rfl
  rw [batchRelease_eq, pumpPorts_of_idle (fun p hp => by rw [hlink, h p hp]), settleGangs_of_cold _ (by rw [hreg.cp, hw])]
  exact hreg

theorem batchRelease_shows (d : Dev) : (d.batchRelease 2).rd R.THR_BATCH_CTL_RELEASE = 1 ∧
    (d.batchRelease 2).rd R.THR_BATCH_CTL_CAUSE_STEWARD = 0 ∧
    (d.batchRelease 2).rd R.THR_BATCH_CTL_CAUSE_THERMAL = d.rd R.THR_BATCH_CTL_CAUSE_THERMAL ∧
    (d.batchRelease 2).rd R.THR_BATCH_CTL_PAUSED = d.rd R.THR_BATCH_CTL_CAUSE_THERMAL := by
  rw [rd_batchRelease d (by decide) (by decide), rd_batchRelease d (by decide) (by decide),
    rd_batchRelease d (by decide) (by decide), rd_batchRelease d (by decide) (by decide)]
  exact released_shows d

end Sys2Proof.Machine

namespace Sys2Proof
open Machine

/-- Settles O41, step by step: each command's own equation, and what the gang, the slot or BATCH_CTL then shows. -/
theorem tileYield : Obligations.TileYield := by
  intro s hcold
  refine ⟨fun q b hp => ⟨fun h => ?_, fun hpin hrun => ?_, fun r hpin hrun hfew hb hf hmore => ?_⟩,
    fun g k r sl hc hr hs hok hy hl hst hfl => ⟨fun hk => ?_, fun hk => ?_⟩, fun sl r d hc he hs hw => ?_,
    fun sl r l hy => ⟨fun hpause => ?_, fun hc hpause hdis hl hb => ?_⟩, fun g r bs d hc hr hf hpath => ?_, fun q hp => ?_⟩
  · refine completes_of_permits (op := fun v d => d.progCtl q b v) rfl hcold hp ?_
    rw [progCtl_counted h]
    have hpage : A.THR_PROG_CTL b / 4096 = 0x30 + b.val := by
      simp only [A.THR_PROG_CTL]
      omega
    have hcount := counted_perr s q (addr := A.THR_PROG_CTL b) (cause := causeValue) (by simp only [A.THR_PROG_CTL]; omega) (by decide)
    rwa [hpage] at hcount
  · refine exec_of_act_same (f := fun d => d.regBy q (A.THR_PROG_CTL b) 1 (fun v d => d.progCtl q b v)) rfl ?_
    rw [regBy_of_permits hp, progCtl_of_no_run hpin hrun]
  · refine completes_of_permits (op := fun v d => d.progCtl q b v) rfl hcold hp ?_
    rw [progCtl_of_run hpin hrun hfew, askYield_of_batch hb hf hmore]
    obtain ⟨x, hx⟩ := runAt_of_runOn hrun
    exact ⟨(setRun_baysOnly _ _).state_eq, runAt_setRun_of hx rfl⟩
  · exact exec_of_act_same (f := yieldTake g k.toNat) rfl (yieldTake_late hk)
  · refine completes_of_act (f := yieldTake g k.toNat) rfl hcold ?_
    obtain ⟨⟨ws, honly⟩, hruns, hyielded, hshow⟩ := yieldTake_leaves hc hr hs hy hl hst hfl hk
    exact ⟨honly.state_eq, hruns, hyielded, hshow⟩
  · refine completes_of_act (f := spillDone sl) rfl hcold ?_
    exact ⟨rfl, spillDone_leaves hc he hs hw⟩
  · exact exec_of_act_same (f := tileResume sl) rfl (tileResume_of_paused hpause)
  · refine completes_of_act (f := tileResume sl) rfl hcold ?_
    rw [tileResume_of_gang hy hc hpause hdis hl hb]
    obtain ⟨n, ht⟩ := takeGang_settled (s.dev.emptySlot sl) (r.resumed l)
    obtain ⟨hrest, hyielded, hruns⟩ := tileResume_leaves ht
    exact ⟨congrArg (fun x => ({ s with dev := x } : State)) hrest, hyielded, n, hruns⟩
  · refine completes_of_act (f := refillDone g) rfl hcold ?_
    rw [refillDone_of_read hc hr hf hpath]
    have hcp := (pathRead_stores hpath).cp
    have hrun : d.runAt g = some r := (runAt_of_runs (by rw [hcp]) g).trans hr
    exact ⟨rfl, (setRun_baysOnly _ _).mem, runAt_setRun_of (r := r.refill bs) hrun (runAt_leader (r := r) hr)⟩
  · refine completes_of_permits (op := fun v d => d.batchRelease v) rfl hcold hp ?_
    obtain ⟨hmem, htn, hruns, hyielded⟩ := batchRelease_work s.dev
    dsimp only
    exact ⟨rfl, hmem, htn, hruns, hyielded, fun hwarm hidle => (onlyRegs_iff s).mpr (batchRelease_of_idle hwarm hidle),
      batchRelease_shows s.dev⟩

end Sys2Proof
end

section
/-! SUPPORT. A TILE takes its gang, the ramps and holds of a gang, and the cycles they count (spec/06 R115-R117, spec/07 R139). -/
namespace Sys2Proof.Machine

variable {d e f : Dev} {bs : List Nat} {b g : Nat} {r : TileRun}

/-! ## TILE_GRANT -/

/-- A TILE that waits and has not yielded. -/
theorem waits_of_mem {t : TroughId} {p : Nat} (hw : ∃ w ∈ d.waitingTiles, w.trough = t ∧ w.pos = p)
    (hy : ∀ r ∈ d.cp.thr.yielded, ¬(r.trough = t ∧ r.pos = p)) :
    ¬(!(d.waitingTiles.any (fun w => w.trough == t && w.pos == p)) ∨
      d.cp.thr.yielded.any (fun r => r.trough == t && r.pos == p) = true) := by
  rintro (h | h)
  · obtain ⟨w, hm, ht, hp⟩ := hw
    rw [Bool.not_eq_true', List.any_eq_false] at h
    exact h w hm (by simp [ht, hp])
  · obtain ⟨r, hm, hr⟩ := List.any_eq_true.mp h
    exact hy r hm (by simpa using hr)

section Grant
variable {t : TroughId} {p : Nat} {x : Desc}
variable (hx : d.findDesc t p = some x) (hw : ∃ w ∈ d.waitingTiles, w.trough = t ∧ w.pos = p)
variable (hy : ∀ r ∈ d.cp.thr.yielded, ¬(r.trough = t ∧ r.pos = p)) (hdis : d.tileDisabled t (Tile.of x.bits) = false)
include hx hw hy hdis

theorem tileGrant_of_blocked (h : (t.rt = none ∧ d.paused = true) ∨ d.pickGang t (Tile.of x.bits) = none) :
    tileGrant t p d = d := by
  rw [tileGrant, hx]
  dsimp only
  rw [if_neg (waits_of_mem hw hy), if_neg (by simp [hdis])]
  obtain ⟨hrt, hp⟩ | hnone := h
  · exact if_pos (by simp [hrt, hp])
  · rw [hnone, ite_self]

theorem tileGrant_of_gang {l : Nat} (hc : d.coreOn = true) (hp : t.rt = none → d.paused = false)
    (hl : d.pickGang t (Tile.of x.bits) = some l) (hb : d.behind t x.order (gangBays (Tile.of x.bits).shape l) = false) :
    tileGrant t p d = (d.takeGang (x.run (d.stallOf t) l)).settleGangs := by
  have hgo : ¬(!d.coreOn || (t.rt.isNone && d.paused)) = true := by
    rw [hc, Bool.not_true, Bool.false_or, Bool.and_eq_true, Option.isNone_iff_eq_none]
    rintro ⟨hrt, hpause⟩
    rw [hp hrt] at hpause
    exact absurd hpause (by decide)
  rw [tileGrant, hx]
  dsimp only
  rw [if_neg (waits_of_mem hw hy), if_neg (by simp [hdis]), if_neg hgo, hl]
  exact if_neg (by simp [hb])

end Grant

/-! ## The ramp up is done -/

theorem rampUpDone_of_ramping (hr : d.runAt g = some r) (hc : d.coreOn = true) (hn : r.ramped = false)
    (hb : ∀ b ∈ r.bays, d.rd (R.THR_ACT_STAT_PHASE b) = 1) : rampUpDone g d =
      ((d.busy r.bays r.rampCyc).setRun { r with ramped := true }).eachBay r.bays (fun b d => d.wr (R.THR_ACT_STAT_PHASE b) 2) := by
  have hall : r.bays.all (fun b => d.rd (R.THR_ACT_STAT_PHASE b) == 1) = true :=
    List.all_eq_true.mpr (fun b hm => by simp [hb b hm])
  rw [rampUpDone, hr]
  exact if_pos ⟨hc, by simp [hn], hall⟩

theorem rampUpDone_leaves (hr : d.runAt g = some r) (hc : d.coreOn = true) (hn : r.ramped = false)
    (hb : ∀ b ∈ r.bays, d.rd (R.THR_ACT_STAT_PHASE b) = 1) : (∃ ws, BaysOnly d (rampUpDone g d) ws) ∧
    (rampUpDone g d).runAt g = some { r with ramped := true } ∧
    ∀ b ∈ r.bays, (rampUpDone g d).rd (R.THR_ACT_STAT_PHASE b) = 2 ∧
      (rampUpDone g d).rd (R.THR_BUSY_CYC b) = (d.rd (R.THR_BUSY_CYC b) + r.rampCyc) % 2 ^ 64 := by
  have hbusy := busy_regsOnly d r.bays r.rampCyc
  have hset := setRun_baysOnly (d.busy r.bays r.rampCyc) { r with ramped := true }
  have hphase := phases_regsOnly ((d.busy r.bays r.rampCyc).setRun { r with ramped := true }) r.bays 2
  have hrun : (d.busy r.bays r.rampCyc).runAt g = some r := (hbusy.runAt g).trans hr
  rw [rampUpDone_of_ramping hr hc hn hb]
  refine ⟨⟨_, (hbusy.baysOnly.trans hset).trans hphase.baysOnly⟩, ?_, fun b hm => ⟨rd_phases _ (by decide) hm, ?_⟩⟩
  · rw [hphase.runAt]
    exact runAt_setRun_of (r := { r with ramped := true }) hrun (runAt_leader (r := r) hr)
  · rw [hphase.rd _ (outside_of_offset (by decide) (by decide)), hset.rd _ (outside_of_offset (by decide) (by decide))]
    exact rd_busy d _ r.bays_nodup hm

/-! ## A hold ends in a ramp down -/

theorem RegsOnly.setThr {ws : List Nat} (h : RegsOnly d e ws) (x : Thresher) :
    e.setThr x = { d with regs := e.regs, cp := { d.cp with thr := x } } := by
  obtain ⟨he, -⟩ := h
  rw [Dev.setThr, he]

theorem holdRampDown_of_short {k : Nat} (hk : k < 1024) : holdRampDown g k d = d := by
  rw [holdRampDown]
  split
  · exact if_neg (by omega)
  · rfl

theorem holdRampDown_of_held {k : Nat} (hr : d.runAt g = some r) (hc : d.coreOn = true) (hk : 1024 ≤ k)
    (hb : ∀ b ∈ r.bays, d.rd (R.THR_ACT_STAT_HELD b) = 1 ∧ d.rd (R.THR_ACT_STAT_PHASE b) = 2) :
    holdRampDown g k d = (d.busy r.bays k).rampDown r.bays := by
  have hall : r.bays.all (fun b => d.on (R.THR_ACT_STAT_HELD b) && d.rd (R.THR_ACT_STAT_PHASE b) == 2) = true :=
    List.all_eq_true.mpr (fun b hm => by
      obtain ⟨hh, hp⟩ := hb b hm
      simp [Dev.on, hh, hp])
  rw [holdRampDown, hr]
  exact if_pos ⟨hk, hc, hall⟩

/-- A gang that ramps down after `k` cycles of ballast. -/
theorem busy_rampDown_leaves (d : Dev) (hn : bs.Nodup) (k : Nat) :
    (d.busy bs k).rampDown bs = { d with regs := ((d.busy bs k).rampDown bs).regs, cp := { d.cp with thr := { d.cp.thr with
      falling := if bs ∈ d.cp.thr.falling then d.cp.thr.falling else d.cp.thr.falling ++ [bs] } } } ∧
    ∀ b ∈ bs, ((d.busy bs k).rampDown bs).rd (R.THR_ACT_STAT_PHASE b) = 3 ∧
      ((d.busy bs k).rampDown bs).rd (R.THR_BUSY_CYC b) = (d.rd (R.THR_BUSY_CYC b) + k) % 2 ^ 64 := by
  have hbusy := busy_regsOnly d bs k
  have hdown := rampDown_baysOnly (d.busy bs k) bs
  refine ⟨?_, fun b hb => ⟨rd_rampDown _ hb, ?_⟩⟩
  · have hboth := (hbusy.mono (List.subset_append_left _ (bayWords actOff bs))).trans
      ((phases_regsOnly (d.busy bs k) bs 3).mono (List.subset_append_right (bayWords busyOff bs) _))
    rw [rampDown_eq, hbusy.cp, hboth.setThr]
  · rw [hdown.rd _ (outside_of_offset (by decide) (by decide)), rd_busy d k hn hb]

/-! ## The end of a ramp down -/

theorem pirq_thr_eq (b : Nat) : R.PIRQ_RAW (PageKind.page b .thr) = ⟨0x30000 + b * 4096 + 0x10, 0, 32⟩ := by
  simp only [R.PIRQ_RAW, A.PIRQ_RAW, PageKind.page, Fld.mk.injEq, and_true]
  omega

theorem freePins_regsOnly (d : Dev) : RegsOnly d d.freePins (bayWords gangOff (List.range 16)) := by
  refine List.foldlRecOn (motive := fun e => RegsOnly d e (bayWords gangOff (List.range 16))) _ _ (.refl d _) (fun e he b hb => ?_)
  dsimp only
  split
  · exact ((he.wr _ _ (within_bayWords_of_mem hb (by decide))).wr _ _ (within_bayWords_of_mem hb (by decide))).wr _ _
      (within_bayWords_of_mem hb (by decide))
  · exact he

/-- A bay whose ramp down is done raises IDLE. -/
def Dev.idleBay (d : Dev) (b : Nat) : Dev := (d.wr (R.THR_ACT_STAT_PHASE b) 0).irq .thr b 1

theorem idleBay_regsOnly (b : Nat) (e : Dev) : RegsOnly e (e.idleBay b) (bayWords (0x10 :: actOff) [b]) := by
  refine ((RegsOnly.refl e _).wr _ _ (within_bayWords (by decide))).irq _ _ _ ?_
  rw [pirq_thr_eq]
  exact within_bayWords (by decide)

/-- The device whose gang `bs` has ramped down. -/
def Dev.fallen (d : Dev) (bs : List Nat) : Dev :=
  let e := d.setThr { d.cp.thr with falling := d.cp.thr.falling.filter (· != bs) }
  (e.busy bs (e.rampLen bs)).eachBay bs (fun b d => d.idleBay b)

theorem rampDownDone_of_none (h : d.cp.thr.falling.find? (fun g => g.contains b) = none) : rampDownDone b d = d := by
  rw [rampDownDone, h]

theorem rampDownDone_of_falling (h : d.cp.thr.falling.find? (fun g => g.contains b) = some bs) (hc : d.coreOn = true) :
    rampDownDone b d = (d.fallen bs).freePins := by
  rw [rampDownDone, h]
  dsimp only
  rw [if_neg (by simp [hc])]
  rfl

theorem fallen_leaves (d : Dev) (hn : bs.Nodup) :
    (d.fallen bs).freePins = { d with regs := (d.fallen bs).freePins.regs, cp := { d.cp with thr := { d.cp.thr with
      falling := d.cp.thr.falling.filter (· ≠ bs) } } } ∧
    (∀ b ∈ bs, (d.fallen bs).freePins.rd (R.THR_ACT_STAT_PHASE b) = 0 ∧
      ((d.fallen bs).freePins.rd (R.PIRQ_RAW (0x30 + b))).testBit 1 = true ∧
      (d.fallen bs).freePins.rd (R.THR_BUSY_CYC b) = (d.rd (R.THR_BUSY_CYC b) + d.rampLen bs) % 2 ^ 64) ∧
    ∀ b, b ∉ bs → (d.fallen bs).freePins.rd (R.THR_ACT_STAT_PHASE b) = d.rd (R.THR_ACT_STAT_PHASE b) := by
  let e := d.setThr { d.cp.thr with falling := d.cp.thr.falling.filter (· != bs) }
  have hbusy := busy_regsOnly e bs (e.rampLen bs)
  have hidle : RegsOnly (e.busy bs (e.rampLen bs)) (d.fallen bs) (bayWords (0x10 :: actOff) bs) :=
    eachBay_regsOnly idleBay_regsOnly bs _
  have hpins := freePins_regsOnly (d.fallen bs)
  have hlen : e.rampLen bs = d.rampLen bs := rampLen_congr (fun b _ => setThr_rd _ _ _)
  have hfilter : d.cp.thr.falling.filter (· ≠ bs) = d.cp.thr.falling.filter (· != bs) :=
    List.filter_congr (fun g _ => by
      rw [Bool.eq_iff_iff]
      simp)
  refine ⟨?_, fun b hb => ⟨?_, ?_, ?_⟩, fun b hb => ?_⟩
  · rw [hfilter]
    refine ((hbusy.baysOnly.trans hidle.baysOnly).trans hpins.baysOnly).rest.trans ?_
    rw [hpins.cp, hidle.cp, hbusy.cp]
    rfl
  · rw [hpins.rd _ (outside_of_offset (by decide) (by decide))]
    refine rd_eachBay_const idleBay_regsOnly (by decide) hb (fun f => ?_)
    rw [Dev.idleBay, rd_irq_ne _ _ _ _ (by rw [pirq_thr_eq]; exact apart_at (by decide)), rd_wr_same]
    rfl
  · have hraw : (d.fallen bs).rd ⟨0x30000 + b * 4096 + 0x10, 0, 32⟩ =
        setBit ((e.busy bs (e.rampLen bs)).rd ⟨0x30000 + b * 4096 + 0x10, 0, 32⟩) 1 := by
      refine rd_eachBay (F := fun v => setBit v 1) idleBay_regsOnly (by decide) hn hb (fun f => ?_)
      rw [← pirq_thr_eq, Dev.idleBay, rd_irq_raw _ _ _ (by decide), rd_wr_ne _ _ (by rw [pirq_thr_eq]; exact apart_at (by decide))]
    change ((d.fallen bs).freePins.rd (R.PIRQ_RAW (PageKind.page b .thr))).testBit 1 = true
    rw [pirq_thr_eq, hpins.rd _ (outside_of_offset (by decide) (by decide)), hraw, testBit_setBit_same]
  · rw [hpins.rd _ (outside_of_offset (by decide) (by decide)), hidle.rd _ (outside_of_offset (by decide) (by decide)),
      rd_busy e _ hn hb, setThr_rd, hlen]
  · rw [hpins.rd _ (outside_of_offset (by decide) (by decide)), hidle.rd _ (outside_of_bay hb (by decide)),
      hbusy.rd _ (outside_of_offset (by decide) (by decide)), setThr_rd]

end Sys2Proof.Machine
end

section
/-! SUPPORT. A front that is complete, a fold that is complete, and the credit of a strip (spec/06 R114, R115, R119, spec/07
R133-R136, spec/08 R147). -/
namespace Sys2Proof.Machine

variable {d e f : Dev} {bs : List Nat} {b g : Nat} {r : TileRun}

/-! ## A front is complete -/

/-- The run whose front holds the images of the next fold. -/
def TileRun.withFront (r : TileRun) (bs : List Byte) : TileRun :=
  { r with loaded := true, image := some (r.nf, r.kf, r.tile.images bs) }

/-- The registers of a bay whose front is complete. -/
def Dev.frontBay (d : Dev) (b : Nat) : Dev := (d.wr (R.THR_ACT_STAT_FRONT b) 0).wr (R.THR_ACT_STAT_FRONT_ROW b) 127

theorem frontBay_regsOnly (b : Nat) (e : Dev) : RegsOnly e (e.frontBay b) (bayWords actOff [b]) :=
  ((RegsOnly.refl e _).wr _ _ (within_bayWords (by decide))).wr _ _ (within_bayWords (by decide))

theorem frontComplete_of_read {bs : List Byte} (hr : d.runAt g = some r) (hc : d.coreOn = true) (hl : r.loaded = false)
    (hy : r.yielding = false) (hf : r.folds < r.tile.folds) (hh : d.holds r = false)
    (hp : d.pathRead r.stall r.trough.rt (r.tile.blockAddr r.nf r.kf) r.tile.block = .data bs false e) :
    frontComplete g d = (e.setRun (r.withFront bs)).eachBay r.bays (fun b d => d.frontBay b) := by
  rw [frontComplete, hr]
  dsimp only
  rw [if_neg (by simp [hc, hl, hy, hf, hh]), hp]
  exact if_neg (by simp)

theorem frontComplete_leaves {bs : List Byte} (hr : d.runAt g = some r) (hs : Stores d e) :
    ((e.setRun (r.withFront bs)).eachBay r.bays (fun b d => d.frontBay b)).mem = e.mem ∧
    ((e.setRun (r.withFront bs)).eachBay r.bays (fun b d => d.frontBay b)).runAt g = some (r.withFront bs) ∧
    ∀ b ∈ r.bays, ((e.setRun (r.withFront bs)).eachBay r.bays (fun b d => d.frontBay b)).rd (R.THR_ACT_STAT_FRONT b) = 0 := by
  have hfront := eachBay_regsOnly frontBay_regsOnly r.bays (e.setRun (r.withFront bs))
  have hrun : e.runAt g = some r := (runAt_of_runs (by rw [hs.cp]) g).trans hr
  refine ⟨hfront.mem.trans (setRun_baysOnly _ _).mem, ?_, fun b hb => ?_⟩
  · rw [hfront.runAt]
    exact runAt_setRun_of hrun (runAt_leader (r := r) hr)
  · refine rd_eachBay_const frontBay_regsOnly (by decide) hb (fun e => ?_)
    rw [Dev.frontBay, rd_wr_ne _ _ (apart_of_bits (by decide) (.inr (by decide))), rd_wr_same]
    rfl

/-! ## A fold is complete -/

theorem readActs_stores {k0 len u n : Nat} {rows : List (List Int)} {ue : Bool} (h : d.readActs r k0 len u n = .data rows ue e) :
    Stores d e := by
  induction n generalizing d u rows ue with
  | zero =>
    rw [Dev.readActs] at h
    cases h
    exact .refl _
  | succ n ih =>
    rw [Dev.readActs] at h
    split at h
    case h_1 bs ue d1 hread =>
      split at h
      case h_1 rows' ue' d2 hrest =>
        cases h
        exact (pathRead_stores hread).trans (ih hrest)
      case h_2 hno => exact absurd h (hno _ _ _)
    case h_2 => cases h
    case h_3 => cases h

/-- `e` is `d` in its memories and its work: what counting leaves alone. -/
def KeepsWork (d e : Dev) : Prop := e.mem = d.mem ∧ e.cp = d.cp

theorem mboxPostOrLose_keepsWork (h : KeepsWork d e) (w0 w1 w2 w3 : Nat) : KeepsWork d (e.mboxPostOrLose w0 w1 w2 w3) := by
  obtain ⟨hm, hcp⟩ := h
  rw [Dev.mboxPostOrLose]
  split
  · exact ⟨by simp [hm], by simp [hcp]⟩
  · rw [Dev.mboxPut]
    split
    · exact ⟨by simp [hm], by simp [hcp]⟩
    · exact ⟨by simp [hm], by simp [hcp]⟩

theorem reportClamps_keepsWork (d : Dev) (r : TileRun) (old new : List (List (Int × Bool))) :
    KeepsWork d (d.reportClamps r old new) := by
  refine foldl_keeps (KeepsWork d) _ (fun e j he => iteInduction (motive := KeepsWork d) (fun _ => he) (fun _ => ?_)) _ ⟨rfl, rfl⟩
  obtain ⟨hm, hcp⟩ := he
  refine foldl_keeps (KeepsWork d) _ (fun e _ he => mboxPostOrLose_keepsWork he _ _ _ _) _ ⟨?_, ?_⟩
  · simp [hm]
  · simp [hcp]

/-- A bay whose next front starts. -/
theorem startFront_regsOnly (b : Nat) (e : Dev) :
    RegsOnly e ((e.wr (R.THR_ACT_STAT_FRONT b) 1).wr (R.THR_ACT_STAT_FRONT_ROW b) 0) (bayWords actOff [b]) :=
  ((RegsOnly.refl e _).wr _ _ (within_bayWords (by decide))).wr _ _ (within_bayWords (by decide))

/-- The accumulators a fold adds to: none on the first of its group. -/
def TileRun.oldSums (r : TileRun) : List (List (Int × Bool)) := if r.kf == 0 || r.tile.mode == 4 then [] else r.acc

/-- The accumulators after the fold of a run whose vectors are `rows` and whose images are `img`. -/
def TileRun.folded (r : TileRun) (rows : List (List Int)) (img : List Nat) : List (List (Int × Bool)) :=
  r.tile.fold ((rows.map List.toArray).toArray) img.toArray r.mf r.kf (r.kf == 0 || r.tile.mode == 4) r.oldSums

/-- The run after that fold. -/
def TileRun.nextFold (r : TileRun) (rows : List (List Int)) (img : List Nat) : TileRun :=
  let x := r.tile
  let last := r.kf + 1 == x.kf || x.mode == 4
  let nx := x.next r.nf r.mf r.kf
  { r with nf := nx.1, mf := nx.2.1, kf := nx.2.2, folds := r.folds + 1, acc := if last then [] else r.folded rows img
           strips := if last then x.strips (r.folded rows img) r.nf r.mf r.kf r.stall r.trough.rtKey r.tag r.leader else []
           lead := none, loaded := nx.1 == r.nf && nx.2.2 == r.kf && !r.yielding && decide (r.folds + 1 < x.folds) }

/-- The device that has counted the fold's clamps, cycles, accumulates and progress. -/
def Dev.countFold (d : Dev) (r : TileRun) (rows : List (List Int)) (img : List Nat) : Dev :=
  (((d.reportClamps r r.oldSums (r.folded rows img)).busy r.bays (r.foldCycles (r.tile.kf != 1 || r.mf == 0))).count r.stall cntMac
    (r.tile.macs r.mf)).progress r.stall

theorem countFold_keepsWork (d : Dev) (r : TileRun) (rows : List (List Int)) (img : List Nat) :
    KeepsWork d (d.countFold r rows img) := by
  obtain ⟨hm, hcp⟩ := reportClamps_keepsWork d r r.oldSums (r.folded rows img)
  have hbusy := busy_regsOnly (d.reportClamps r r.oldSums (r.folded rows img)) r.bays
    (r.foldCycles (r.tile.kf != 1 || r.mf == 0))
  exact ⟨hbusy.mem.trans hm, hbusy.cp.trans hcp⟩

section Fold
variable {nf kf : Nat} {img : List Nat} {rows : List (List Int)} (hr : d.runAt g = some r) (hc : d.coreOn = true)
variable (hi : r.image = some (nf, kf, img)) (hn : r.ramped = true) (hl : r.loaded = true) (hf : r.refilled = true)
variable (hs : r.strips = []) (hh : d.spillHolds r.bays = false)
variable (hp : d.readActs r (r.kf * r.tile.kp) (min r.tile.kp (r.tile.k - r.kf * r.tile.kp)) (r.mf * r.tile.vr)
  (r.tile.vectors r.mf) = .data rows false e)
include hr hc hi hn hl hf hs hh hp

theorem foldComplete_of_read : ∃ ws, RegsOnly ((e.countFold r rows img).setRun (r.nextFold rows img)) (foldComplete g d) ws := by
  rw [foldComplete, hr]
  dsimp only
  rw [hi]
  dsimp only
  rw [if_neg (by simp [hc, hn, hl, hf, hs, hh]), hp]
  dsimp only
  rw [if_neg (by simp), ← hi]
  split
  · exact ⟨[], .refl _ _⟩
  · exact ⟨_, eachBay_regsOnly startFront_regsOnly r.bays _⟩

theorem foldComplete_leaves : (foldComplete g d).mem = e.mem ∧ (foldComplete g d).runAt g = some (r.nextFold rows img) := by
  obtain ⟨ws, hregs⟩ := foldComplete_of_read hr hc hi hn hl hf hs hh hp
  obtain ⟨hm, hcp⟩ := countFold_keepsWork e r rows img
  have hrun : (e.countFold r rows img).runAt g = some r :=
    (runAt_of_runs (by rw [hcp, (readActs_stores hp).cp]) g).trans hr
  refine ⟨hregs.mem.trans ((setRun_baysOnly _ _).mem.trans hm), ?_⟩
  rw [hregs.runAt]
  exact runAt_setRun_of hrun (runAt_leader (r := r) hr)

end Fold

/-! ## A credit for a strip -/

section Credit
variable {k : Nat} {x : Strip} {rest : List Strip}

theorem heldBay_regsOnly (b : Nat) (e : Dev) : RegsOnly e (e.wr (R.THR_ACT_STAT_HELD b) 1) (bayWords actOff [b]) :=
  (RegsOnly.refl e _).wr _ _ (within_bayWords (by decide))

/-- A bay whose hold of `k` cycles is over. -/
def Dev.unheldBay (d : Dev) (k b : Nat) : Dev := (d.addTo (R.THR_HELD_CYC b) k).wr (R.THR_ACT_STAT_HELD b) 0

theorem unheldBay_regsOnly (k b : Nat) (e : Dev) : RegsOnly e (e.unheldBay k b) (bayWords ([0x60, 0x64] ++ actOff) [b]) :=
  ((RegsOnly.refl e _).addTo _ _ (within_bayWords (by decide))).wr _ _ (within_bayWords (by decide))

/-- A gang that was held goes on, having been busy for `n` cycles of its hold. -/
def Dev.unhold (d : Dev) (bs : List Nat) (g k n : Nat) : Dev :=
  if d.on (R.THR_ACT_STAT_HELD g) then (d.eachBay bs (fun b d => d.unheldBay k b)).busy bs n else d

theorem unhold_regsOnly (d : Dev) (bs : List Nat) (g k n : Nat) :
    RegsOnly d (d.unhold bs g k n) (bayWords ([0x60, 0x64] ++ actOff ++ busyOff) bs) := by
  rw [Dev.unhold]
  split
  · exact ((eachBay_regsOnly (unheldBay_regsOnly k) bs d).mono (bayWords_subset (by decide) (List.Subset.refl _))).trans
      ((busy_regsOnly _ bs n).mono (bayWords_subset (by decide) (List.Subset.refl _)))
  · exact .refl d _

theorem rd_held_unhold (d : Dev) (g k n : Nat) (h : d.on (R.THR_ACT_STAT_HELD g) = true) (hb : b ∈ bs) :
    (d.unhold bs g k n).rd (R.THR_ACT_STAT_HELD b) = 0 := by
  rw [Dev.unhold, if_pos h, (busy_regsOnly _ bs n).rd _ (outside_of_offset (by decide) (by decide))]
  refine rd_eachBay_const (unheldBay_regsOnly k) (by decide) hb (fun e => ?_)
  rw [Dev.unheldBay, rd_wr_same]
  rfl

theorem creditTake_of_ramping (hr : d.runAt g = some r) (hs : r.strips = x :: rest) (hn : r.ramped = false) :
    creditTake g k d = d := by
  rw [creditTake, hr]
  dsimp only
  rw [hs]
  exact if_pos (by simp [hn])

theorem creditTake_of_none (hr : d.runAt g = some r) (hs : r.strips = x :: rest) (hc : d.coreOn = true) (hn : r.ramped = true)
    (hf : d.creditFree r.tile.hop r.trough.rt.isSome = false) :
    creditTake g k d = d.eachBay r.bays (fun b d => d.wr (R.THR_ACT_STAT_HELD b) 1) := by
  rw [creditTake, hr]
  dsimp only
  rw [hs]
  dsimp only
  rw [if_neg (by simp [hc, hn]), if_pos (by simp [hf])]

theorem creditTake_of_active (hr : d.runAt g = some r) (hs : r.strips = x :: rest) (hc : d.coreOn = true) (hn : r.ramped = true)
    (hf : d.creditFree r.tile.hop r.trough.rt.isSome = true) (hp : d.rd (R.THR_ACT_STAT_PHASE g) = 2) :
    creditTake g k d = ((d.unhold r.bays g k k).takeCredit r.tile.hop x).setRun { r with strips := rest, flying := r.flying + 1 } := by
  rw [creditTake, hr]
  dsimp only
  rw [hs]
  dsimp only
  rw [if_neg (by simp [hc, hn]), if_neg (by simp [hf]), if_pos (by simp [hp]), hp]
  rfl

theorem creditTake_of_fallen (hr : d.runAt g = some r) (hs : r.strips = x :: rest) (hc : d.coreOn = true) (hn : r.ramped = true)
    (hf : d.creditFree r.tile.hop r.trough.rt.isSome = true) (hp : d.rd (R.THR_ACT_STAT_PHASE g) ≠ 2) : creditTake g k d =
      (((d.unhold r.bays g k 0).climb r.bays).2.setRun
        { r with ramped := false, rampCyc := ((d.unhold r.bays g k 0).climb r.bays).1 }).eachBay r.bays
          (fun b d => d.wr (R.THR_ACT_STAT_PHASE b) 1) := by
  rw [creditTake, hr]
  dsimp only
  rw [hs]
  dsimp only
  rw [if_neg (by simp [hc, hn]), if_neg (by simp [hf]), if_neg (by simp [hp]), beq_eq_false_iff_ne.mpr hp]
  rfl

end Credit

/-! ## A Hopper's credits and queues -/

@[simp] theorem hopper_setHopper_same (d : Dev) (h : Nat) (x : Hopper) : (d.setHopper h x).hopper h = x := by
  simp [Dev.setHopper, Dev.hopper]

theorem hopper_of_hops {h : Nat} (he : e.cp.hops = d.cp.hops) : e.hopper h = d.hopper h := by rw [Dev.hopper, he]; rfl

theorem setHopper_thr (d : Dev) (h : Nat) (x : Hopper) : (d.setHopper h x).cp.thr = d.cp.thr := by simp [Dev.setHopper]

theorem setHopper_mem (d : Dev) (h : Nat) (x : Hopper) : (d.setHopper h x).mem = d.mem := by simp [Dev.setHopper]

/-- A field that is none of the Hopper's occupancies. -/
theorem rd_setHopper_ne (d : Dev) {h : Nat} (x : Hopper) {q : Fld} (hi : (R.HOP_CREDIT_INFLIGHT h).apart q = true)
    (hr : (R.HOP_CREDIT_RT_OCC h).apart q = true) (hb : (R.HOP_CREDIT_BATCH_OCC h).apart q = true) :
    (d.setHopper h x).rd q = d.rd q := by
  rw [Dev.setHopper, rd_wr_ne _ _ hb, rd_wr_ne _ _ hr, rd_wr_ne _ _ hi]
  exact rd_of_words (fun _ _ => rfl)

theorem pirq_hop_eq (h : Nat) : R.PIRQ_RAW (PageKind.page h .hop) = ⟨0x40000 + h * 4096 + 0x10, 0, 32⟩ := by
  simp only [R.PIRQ_RAW, A.PIRQ_RAW, PageKind.page, Fld.mk.injEq, and_true]
  omega

/-- The Hopper's queue and FREE after a foot has taken a credit, before FULL. -/
def Dev.sendStrip (d : Dev) (h : Nat) (x : Strip) : Dev :=
  (d.setHopper h { d.hopper h with inflight := (d.hopper h).inflight ++ [x] }).wr (R.HOP_CREDIT_FREE h) (d.credits h - 1)

theorem takeCredit_cases (d : Dev) (h : Nat) (x : Strip) :
    d.takeCredit h x = d.sendStrip h x ∨ d.takeCredit h x = (d.sendStrip h x).irq .hop h 0 := by
  by_cases hc : (d.sendStrip h x).credits h = 0
  · exact .inr (if_pos hc)
  · exact .inl (if_neg hc)

theorem sendStrip_shows (d : Dev) (h : Nat) (x : Strip) : (d.sendStrip h x).cp.thr = d.cp.thr ∧
    (d.sendStrip h x).rd (R.HOP_CREDIT_FREE h) = d.rd (R.HOP_CREDIT_FREE h) - 1 ∧
    ((d.sendStrip h x).hopper h).inflight = (d.hopper h).inflight ++ [x] ∧
    ∀ q : Fld, q.addr + 4 * q.words ≤ 0x40000 → (d.sendStrip h x).rd q = d.rd q := by
  refine ⟨?_, ?_, ?_, fun q hq => ?_⟩
  · rw [Dev.sendStrip, wr_cp, setHopper_thr]
  · have hlt : d.rd (R.HOP_CREDIT_FREE h) < 2 ^ 7 := rd_lt d _
    rw [Dev.sendStrip, rd_wr_same]
    exact Nat.mod_eq_of_lt (lt_of_le_of_lt (Nat.sub_le _ _) hlt)
  · rw [Dev.sendStrip, hopper_of_hops (congrArg Compute.hops (wr_cp _ _ _)), hopper_setHopper_same]
  · have hne : ∀ lo w : Nat, (⟨A.HOP_CREDIT h, lo, w⟩ : Fld).apart q = true := fun lo w =>
      apart_of_addr (.inr (hq.trans (by simp only [A.HOP_CREDIT]; omega)))
    rw [Dev.sendStrip, rd_wr_ne _ _ (hne _ _), rd_setHopper_ne _ _ (hne _ _) (hne _ _) (hne _ _)]

theorem takeCredit_leaves (d : Dev) (h : Nat) (x : Strip) : (d.takeCredit h x).cp.thr = d.cp.thr ∧
    (d.takeCredit h x).rd (R.HOP_CREDIT_FREE h) = d.rd (R.HOP_CREDIT_FREE h) - 1 ∧
    ((d.takeCredit h x).hopper h).inflight = (d.hopper h).inflight ++ [x] ∧
    ∀ q : Fld, q.addr + 4 * q.words ≤ 0x40000 → (d.takeCredit h x).rd q = d.rd q := by
  obtain ⟨hthr, hfree, hin, hrd⟩ := sendStrip_shows d h x
  obtain he | he := takeCredit_cases d h x
  · rw [he]
    exact ⟨hthr, hfree, hin, hrd⟩
  · rw [he, irq_cp]
    refine ⟨hthr, ?_, ?_, fun q hq => ?_⟩
    · rw [rd_irq_ne _ _ _ _ (by rw [pirq_hop_eq]; exact apart_at (by decide)), hfree]
    · rw [hopper_of_hops (congrArg Compute.hops (irq_cp _ _ _ _)), hin]
    · rw [rd_irq_ne _ _ _ _ (apart_of_addr (.inr (by rw [pirq_hop_eq]; exact hq.trans (by dsimp only; omega)))), hrd q hq]

/-! ## What a credit leaves of the gang -/

theorem hopCredit_outside {ks bs : List Nat} {h lo w : Nat} (hb : ∀ b ∈ bs, b < 16) (hk : ∀ k ∈ ks, k < 4096) :
    (⟨A.HOP_CREDIT h, lo, w⟩ : Fld).outside (bayWords ks bs) = true :=
  outside_of_above (by simp only [A.HOP_CREDIT]; omega) hb hk

/-- A gang at full activity sends its next strip. -/
theorem sendNext_leaves (d : Dev) {k : Nat} {x : Strip} {rest : List Strip} (hr : d.runAt g = some r)
    (hok : gangOk r.shape r.leader = true) :
    let t := ((d.unhold r.bays g k k).takeCredit r.tile.hop x).setRun { r with strips := rest, flying := r.flying + 1 }
    t.rd (R.HOP_CREDIT_FREE r.tile.hop) = d.rd (R.HOP_CREDIT_FREE r.tile.hop) - 1 ∧
    (t.hopper r.tile.hop).inflight = (d.hopper r.tile.hop).inflight ++ [x] ∧
    t.runAt g = some { r with strips := rest, flying := r.flying + 1 } ∧
    (d.on (R.THR_ACT_STAT_HELD g) = true → ∀ b ∈ r.bays, t.rd (R.THR_ACT_STAT_HELD b) = 0) := by
  intro t
  have hbays : ∀ b ∈ r.bays, b < 16 := fun b hb => TileRun.lt_of_mem_bays hok hb
  have hun := unhold_regsOnly d r.bays g k k
  obtain ⟨hthr, hfree, hin, hrd⟩ := takeCredit_leaves (d.unhold r.bays g k k) r.tile.hop x
  have hset : BaysOnly ((d.unhold r.bays g k k).takeCredit r.tile.hop x) t (bayWords progOff r.bays) :=
    setRun_baysOnly _ { r with strips := rest, flying := r.flying + 1 }
  refine ⟨?_, ?_, ?_, fun hh b hb => ?_⟩
  · rw [hset.rd _ (hopCredit_outside hbays (by decide)), hfree, hun.rd _ (hopCredit_outside hbays (by decide))]
  · rw [hopper_of_hops hset.hops, hin, hopper_of_hops hun.baysOnly.hops]
  · have hrun : ((d.unhold r.bays g k k).takeCredit r.tile.hop x).runAt g = some r :=
      (runAt_of_runs (by rw [hthr, hun.cp]) g).trans hr
    exact runAt_setRun_of hrun (runAt_leader (r := r) hr)
  · have hb16 := hbays b hb
    rw [hset.rd _ (outside_of_offset (by decide) (by decide)), hrd _ (by
      rw [words_of_le (by decide) (by decide)]
      dsimp only
      omega), rd_held_unhold d g k k hh hb]

/-- A gang that fell in its hold climbs again. -/
theorem climbAgain_leaves (d : Dev) {k : Nat} (hr : d.runAt g = some r) (hok : gangOk r.shape r.leader = true) (h : Nat) :
    let p := (d.unhold r.bays g k 0).climb r.bays
    let t := (p.2.setRun { r with ramped := false, rampCyc := p.1 }).eachBay r.bays (fun b d => d.wr (R.THR_ACT_STAT_PHASE b) 1)
    t.rd (R.HOP_CREDIT_FREE h) = d.rd (R.HOP_CREDIT_FREE h) ∧ t.runAt g = some { r with ramped := false, rampCyc := p.1 } ∧
    ∀ b ∈ r.bays, t.rd (R.THR_ACT_STAT_PHASE b) = 1 := by
  intro p t
  have hbays : ∀ b ∈ r.bays, b < 16 := fun b hb => TileRun.lt_of_mem_bays hok hb
  have hun := unhold_regsOnly d r.bays g k 0
  obtain ⟨n, hclimb, ⟨fs, hthr⟩, -⟩ := climb_leaves (d.unhold r.bays g k 0) r.bays
  have hset : BaysOnly p.2 (p.2.setRun { r with ramped := false, rampCyc := p.1 }) (bayWords progOff r.bays) :=
    setRun_baysOnly _ { r with ramped := false, rampCyc := p.1 }
  have hphase : RegsOnly (p.2.setRun { r with ramped := false, rampCyc := p.1 }) t (bayWords actOff r.bays) :=
    phases_regsOnly _ r.bays 1
  have hp : p.2.rd (R.HOP_CREDIT_FREE h) = (d.unhold r.bays g k 0).rd (R.HOP_CREDIT_FREE h) :=
    (hclimb.rd _ (hopCredit_outside hbays (by decide))).trans (rd_of_words (fun _ _ => rfl))
  refine ⟨?_, ?_, fun b hb => rd_phases _ (by decide) hb⟩
  · rw [hphase.rd _ (hopCredit_outside hbays (by decide)), hset.rd _ (hopCredit_outside hbays (by decide)), hp,
      hun.rd _ (hopCredit_outside hbays (by decide))]
  · have hrun : p.2.runAt g = some r := (runAt_of_runs (by rw [hthr, hun.cp]) g).trans hr
    rw [hphase.runAt]
    exact runAt_setRun_of hrun (runAt_leader (r := r) hr)

/-- A gang without a credit is marked as held. -/
theorem markHeld_leaves (d : Dev) (bs : List Nat) :
    RegsOnly d (d.eachBay bs (fun b d => d.wr (R.THR_ACT_STAT_HELD b) 1)) (bs.map A.THR_ACT_STAT) ∧
    ∀ b ∈ bs, (d.eachBay bs (fun b d => d.wr (R.THR_ACT_STAT_HELD b) 1)).rd (R.THR_ACT_STAT_HELD b) = 1 := by
  refine ⟨(eachBay_regsOnly heldBay_regsOnly bs d).mono (fun a ha => ?_), fun b hb => ?_⟩
  · obtain ⟨b, hb, k, hk, rfl⟩ := mem_bayWords.mp ha
    obtain rfl := List.mem_singleton.mp hk
    exact List.mem_map.mpr ⟨b, hb, rfl⟩
  · exact rd_eachBay_const heldBay_regsOnly (by decide) hb (fun e => rd_wr_same e _ _)

/-! ## A strip enters its Hopper -/

/-- `e` keeps the memories, the Hoppers and the registers of the Hoppers' pages and of those above. -/
structure KeepsAbove (d e : Dev) : Prop where
  mem : e.mem = d.mem
  hops : e.cp.hops = d.cp.hops
  rd : ∀ q : Fld, 0x40000 ≤ q.addr → e.rd q = d.rd q

theorem KeepsAbove.refl (d : Dev) : KeepsAbove d d := ⟨rfl, rfl, fun _ _ => rfl⟩

theorem KeepsAbove.trans (h : KeepsAbove d e) (h' : KeepsAbove e f) : KeepsAbove d f :=
  ⟨h'.mem.trans h.mem, h'.hops.trans h.hops, fun q hq => (h'.rd q hq).trans (h.rd q hq)⟩

theorem BaysOnly.keepsAbove {ks : List Nat} (h : BaysOnly d e (bayWords ks bs)) (hb : ∀ b ∈ bs, b < 16)
    (hk : ∀ k ∈ ks, k < 4096) : KeepsAbove d e :=
  ⟨h.mem, h.hops, fun q hq => h.rd q (outside_of_above hq hb hk)⟩

theorem endTile_keepsAbove (hr : ∀ r, d.runAt g = some r → ∀ b ∈ r.bays, b < 16) (hw : ∀ b ∈ d.warmBays, b < 16) :
    KeepsAbove d (d.endTile g) := by
  rw [Dev.endTile]
  split
  case h_2 => exact .refl d
  case h_1 r hrun =>
    dsimp only
    split
    case isFalse => exact .refl d
    case isTrue =>
      have hclear := clearRun_baysOnly d r (r.tile.rg + r.tile.cg)
      obtain ⟨-, -, hthr⟩ := clearRun_thr d r (r.tile.rg + r.tile.cg)
      have hwarm : ∀ b ∈ (d.clearRun r (r.tile.rg + r.tile.cg)).warmBays, b < 16 := fun b hb => by
        obtain ⟨w, hm, hbw⟩ := mem_warmBays.mp hb
        obtain hm | hm := hthr w hm
        · exact hw b (mem_warmBays.mpr ⟨w, hm, hbw⟩)
        · exact hr r hrun b (hm ▸ hbw)
      have hleft : KeepsAbove d (d.clearRun r (r.tile.rg + r.tile.cg)).settleGangs :=
        (hclear.keepsAbove (hr r hrun) (by decide)).trans ((settleGangs_baysOnly _ _).keepsAbove hwarm (by decide))
      split
      · exact hleft.trans ⟨updDesc_mem _ _, congrArg Compute.hops (updDesc_cp _ _), fun q _ => updDesc_rd _ _ _⟩
      · exact hleft

/-- A Hopper whose oldest strip in flight, `x`, has entered. -/
def Hopper.entered (q : Hopper) (x : Strip) (rest : List Strip) : Hopper :=
  if x.rt.isSome then ⟨rest, q.rt ++ [x], q.batch⟩ else ⟨rest, q.rt, q.batch ++ [x]⟩

theorem enterStrip_of_inflight {h : Nat} {x : Strip} {rest : List Strip} (hq : (d.hopper h).inflight = x :: rest) :
    d.enterStrip h = (d.setHopper h ((d.hopper h).entered x rest)).addTo (R.HOP_STRIPS_IN h) 1 := by
  rw [Dev.enterStrip]
  dsimp only
  rw [hq]
  rfl

theorem enterStrip_shows {h : Nat} {x : Strip} {rest : List Strip} (hq : (d.hopper h).inflight = x :: rest) :
    (d.enterStrip h).hopper h = (d.hopper h).entered x rest ∧
    (d.enterStrip h).rd (R.HOP_STRIPS_IN h) = (d.rd (R.HOP_STRIPS_IN h) + 1) % 2 ^ 64 ∧
    (d.enterStrip h).rd (R.HOP_CREDIT_FREE h) = d.rd (R.HOP_CREDIT_FREE h) ∧ (d.enterStrip h).mem = d.mem ∧
    (d.enterStrip h).cp.thr = d.cp.thr := by
  rw [enterStrip_of_inflight hq]
  refine ⟨?_, ?_, ?_, ?_, ?_⟩
  · rw [hopper_of_hops (congrArg Compute.hops (addTo_cp _ _ _)), hopper_setHopper_same]
  · rw [rd_addTo_same, rd_setHopper_ne _ _ (apart_at (by decide)) (apart_at (by decide)) (apart_at (by decide))]
  · rw [rd_addTo_ne _ _ (apart_at (by decide)), rd_setHopper_ne _ _ (apart_of_bits (by decide) (.inr (by decide)))
      (apart_of_bits (by decide) (.inr (by decide))) (apart_of_bits (by decide) (.inr (by decide)))]
  · rw [addTo_mem, setHopper_mem]
  · rw [addTo_cp, setHopper_thr]

theorem pressOn_leaves (d : Dev) (k : Nat) (before : Bool) : (d.pressOn k before).mem = d.mem ∧ (d.pressOn k before).cp = d.cp ∧
    ∀ q : Fld, q.addr + 4 * q.words ≤ 0x44000 → (d.pressOn k before).rd q = d.rd q := by
  rw [Dev.pressOn]
  split
  · split
    · refine ⟨by simp, by simp, fun q hq => ?_⟩
      rw [rd_irq_ne _ _ _ _ (apart_of_addr (.inr (hq.trans (by simp only [A.PIRQ_RAW, PageKind.page]; omega)))),
        rd_bump_ne _ _ (apart_of_addr (.inr (hq.trans (by simp only [A.SFT_PREEMPT_COUNT]; omega))))]
    · exact ⟨rfl, rfl, fun _ _ => rfl⟩
  · exact ⟨rfl, rfl, fun _ _ => rfl⟩

/-- The Hopper's strip has entered, and batch work on its sifter is pressed where that is new. -/
def Dev.stripIn (d : Dev) (h : Nat) : Dev := (d.enterStrip h).pressOn h (d.rtPressing h)

theorem stripEnter_of_run {h : Nat} {x : Strip} {rest : List Strip} (hq : (d.hopper h).inflight = x :: rest)
    (hc : d.coreOn = true) (hr : (d.stripIn h).runAt x.src = some r) :
    stripEnter h d = ((d.stripIn h).setRun { r with flying := r.flying - 1 }).endTile x.src := by
  rw [Dev.stripIn] at hr
  rw [stripEnter, hq]
  dsimp only
  rw [if_neg (by simp [hc]), hr, Dev.stripIn]

theorem stripEnter_of_no_run {h : Nat} {x : Strip} {rest : List Strip} (hq : (d.hopper h).inflight = x :: rest)
    (hc : d.coreOn = true) (hr : (d.stripIn h).runAt x.src = none) : stripEnter h d = d.stripIn h := by
  rw [Dev.stripIn] at hr
  rw [stripEnter, hq]
  dsimp only
  rw [if_neg (by simp [hc]), hr, Dev.stripIn]

theorem stripIn_shows {h : Nat} {x : Strip} {rest : List Strip} (hh : h < 4) (hq : (d.hopper h).inflight = x :: rest) :
    (d.stripIn h).hopper h = (d.hopper h).entered x rest ∧
    (d.stripIn h).rd (R.HOP_STRIPS_IN h) = (d.rd (R.HOP_STRIPS_IN h) + 1) % 2 ^ 64 ∧
    (d.stripIn h).rd (R.HOP_CREDIT_FREE h) = d.rd (R.HOP_CREDIT_FREE h) ∧ (d.stripIn h).mem = d.mem ∧
    (d.stripIn h).cp.thr = d.cp.thr := by
  obtain ⟨hhop, hin, hfree, hmem, hthr⟩ := enterStrip_shows hq
  obtain ⟨hpm, hpc, hprd⟩ := pressOn_leaves (d.enterStrip h) h (d.rtPressing h)
  refine ⟨?_, ?_, ?_, ?_, ?_⟩
  · rw [Dev.stripIn, hopper_of_hops (congrArg Compute.hops hpc), hhop]
  · rw [Dev.stripIn, hprd _ (by simp only [A.HOP_STRIPS_IN, Fld.words]; omega), hin]
  · rw [Dev.stripIn, hprd _ (by simp only [A.HOP_CREDIT, Fld.words]; omega), hfree]
  · rw [Dev.stripIn, hpm, hmem]
  · rw [Dev.stripIn, hpc, hthr]

theorem stripEnter_keepsAbove {h : Nat} {x : Strip} {rest : List Strip} (hh : h < 4) (hq : (d.hopper h).inflight = x :: rest)
    (hc : d.coreOn = true) (hok : ∀ r, d.runAt x.src = some r → gangOk r.shape r.leader = true)
    (hw : ∀ w ∈ d.cp.thr.warm, ∀ b ∈ w.1, b < 16) : KeepsAbove (d.stripIn h) (stripEnter h d) := by
  obtain ⟨-, -, -, -, hthr⟩ := stripIn_shows hh hq
  cases hr : (d.stripIn h).runAt x.src with
  | none =>
    rw [stripEnter_of_no_run hq hc hr]
    exact .refl _
  | some r =>
    rw [stripEnter_of_run hq hc hr]
    generalize d.stripIn h = p at *
    have hdr : d.runAt x.src = some r := (runAt_of_runs (congrArg Thresher.runs hthr) x.src).symm.trans hr
    have hbays : ∀ b ∈ r.bays, b < 16 := fun b hb => TileRun.lt_of_mem_bays (hok r hdr) hb
    have hset := setRun_baysOnly p { r with flying := r.flying - 1 }
    have hrun : (p.setRun { r with flying := r.flying - 1 }).runAt x.src = some { r with flying := r.flying - 1 } :=
      runAt_setRun_of hr (runAt_leader (r := r) hr)
    refine (hset.keepsAbove hbays (by decide)).trans (endTile_keepsAbove (fun q hq b hb => ?_) (fun b hb => ?_))
    · rw [hrun, Option.some.injEq] at hq
      subst hq
      exact hbays b hb
    · obtain ⟨w, hm, hbw⟩ := mem_warmBays.mp hb
      rw [setRun_thr, hthr] at hm
      exact hw w hm b hbw

end Sys2Proof.Machine

namespace Sys2Proof
open Machine

/-- Settles O40, command by command: each one's own equation, and what the gang, its run and its Hopper then show. -/
theorem tilesOnTheirGang : Obligations.TilesOnTheirGang := by
  intro s hcold hc
  refine ⟨fun tr p x hx hw hy hdis => ⟨fun h => ?_, fun l hp hl hok hb => ?_⟩,
    fun g r hr hok => ⟨fun hn hb => ?_, fun bs d hl hy hf hh hp => ?_, fun nf kf img rows d hi hn hl hf hs hh hp => ?_,
      fun x rest k hs => ⟨fun hn => ?_, fun hn hph hf => ?_, fun hn hph hf => ?_, fun hn hf => ?_⟩,
      fun k => ⟨fun hk => ?_, fun hk hb => ?_⟩⟩,
    fun h x rest hq hok hw => ?_, fun b => ⟨fun h => ?_, fun bs h _ hn => ?_⟩⟩
  · exact exec_of_act_same (f := tileGrant (troughOf tr) p.toNat) rfl (tileGrant_of_blocked hx hw hy hdis h)
  · refine completes_of_act (f := tileGrant (troughOf tr) p.toNat) rfl hcold ?_
    rw [tileGrant_of_gang hx hw hy hdis hc hp hl hb]
    obtain ⟨n, ht⟩ := takeGang_settled s.dev (x.run (s.dev.stallOf (troughOf tr)) l)
    exact ⟨congrArg (fun d => ({ s with dev := d } : State)) ht.rest, ⟨n, ht.runs, ht.noRamp, ht.ramp_le, ht.fullRamp⟩, ht.yielded,
      fun b hm => ⟨ht.phase b hm, ht.front b hm⟩, fun b _ hm => ht.others b hm⟩
  · refine completes_of_act (f := rampUpDone g) rfl hcold ?_
    obtain ⟨⟨ws, honly⟩, hrun, hrd⟩ := rampUpDone_leaves hr hc hn hb
    exact ⟨honly.state_eq, hrun, hrd⟩
  · refine completes_of_act (f := frontComplete g) rfl hcold ?_
    rw [frontComplete_of_read hr hc hl hy hf hh hp]
    exact ⟨rfl, frontComplete_leaves hr (pathRead_stores hp)⟩
  · refine completes_of_act (f := foldComplete g) rfl hcold ?_
    exact ⟨rfl, foldComplete_leaves hr hc hi hn hl hf hs hh hp⟩
  · exact exec_of_act_same (f := creditTake g k.toNat) rfl (creditTake_of_ramping hr hs hn)
  · refine completes_of_act (f := creditTake g k.toNat) rfl hcold ?_
    rw [creditTake_of_active hr hs hc hn hf hph]
    obtain ⟨hfree, hin, hrun, hheld⟩ := sendNext_leaves s.dev (k := k.toNat) (x := x) (rest := rest) hr hok
    refine ⟨rfl, hfree, hin, fun q hq => ?_, hheld⟩
    obtain rfl := Option.some.inj (hrun.symm.trans hq)
    exact ⟨rfl, rfl⟩
  · refine completes_of_act (f := creditTake g k.toNat) rfl hcold ?_
    rw [creditTake_of_fallen hr hs hc hn hf hph]
    obtain ⟨hfree, hrun, hphase⟩ := climbAgain_leaves s.dev (k := k.toNat) hr hok r.tile.hop
    exact ⟨rfl, hfree, ⟨_, hrun⟩, hphase⟩
  · refine completes_of_act (f := creditTake g k.toNat) rfl hcold ?_
    rw [creditTake_of_none hr hs hc hn hf]
    obtain ⟨honly, hheld⟩ := markHeld_leaves s.dev r.bays
    exact ⟨(onlyRegs_iff s).mpr honly, hheld⟩
  · exact exec_of_act_same (f := holdRampDown g k.toNat) rfl (holdRampDown_of_short hk)
  · refine completes_of_act (f := holdRampDown g k.toNat) rfl hcold ?_
    rw [holdRampDown_of_held hr hc hk hb]
    obtain ⟨hrest, hrd⟩ := busy_rampDown_leaves s.dev r.bays_nodup k.toNat
    exact ⟨congrArg (fun d => ({ s with dev := d } : State)) hrest, hrd⟩
  · refine completes_of_act (f := stripEnter h) rfl hcold ?_
    obtain ⟨hhop, hin, hfree, hmem, -⟩ := stripIn_shows h.isLt hq
    obtain ⟨hkm, hkh, hkrd⟩ := stripEnter_keepsAbove h.isLt hq hc hok hw
    refine ⟨rfl, (hopper_of_hops hkh).trans hhop, (hkrd _ ?_).trans hin, (hkrd _ ?_).trans hfree, hkm.trans hmem⟩
    · simp only [A.HOP_STRIPS_IN]
      omega
    · simp only [A.HOP_CREDIT]
      omega
  · exact exec_of_act_same (f := rampDownDone b) rfl (rampDownDone_of_none h)
  · refine completes_of_act (f := rampDownDone b) rfl hcold ?_
    rw [rampDownDone_of_falling h hc]
    obtain ⟨hrest, hin, hout⟩ := fallen_leaves s.dev hn
    exact ⟨congrArg (fun d => ({ s with dev := d } : State)) hrest, hin, fun y _ hy => hout y hy⟩

end Sys2Proof
end
